-- ==== Sys2Proof/Word.lean ====
section
/-! DEFINITION. The word types of the machine: bytes, 32-bit and 64-bit words, a vector register and a tile (R72). -/

namespace Sys2Proof

/-- A byte. -/
abbrev Byte := BitVec 8

/-- A 64-bit word: a g register, an instruction word, a register of the map. -/
abbrev Word := BitVec 64

/-- A vector register of 128 lanes of 32 bits; lane i is bits 32 i + 31 to 32 i (R72). -/
abbrev Vec := BitVec 4096

/-- A tile of 4,096 bytes; byte i is bits 8 i + 7 to 8 i (R72). -/
abbrev Tile := BitVec 32768

end Sys2Proof
end

