-- ==== Sys2Proof/Syntax.lean ====
section
/-! DEFINITION. The commands of the block: one constructor per row of spec/opcode_table.json, with its operands.

A Drevos row names the issuing easel and the instruction word (with the second word of a long form); every other row names
the unit the event happens at and what comes from outside the model: bytes a partner, a host or the network sends, samples,
errors found on a read. -/

namespace Sys2Proof

/-- A logical easel: its bay, 0 to 15, and its number in the bay, 0 to 11 (R15). -/
structure Ea where
  bay : Nat
  easel : Nat
  deriving DecidableEq, Repr

/-- The strokes of which the partner's copy passes its check, with the 512 bytes it holds: (stroke number, bytes), the number
counting through a sheet's image and sketch strokes for an access by handle, through the transfer for a store by location, and for
an engine operation and a BAR4 access by handle through the sheets of its run, 8,192 numbers a sheet. A stroke not listed fails on
the partner too, or cannot be fetched (R139, R291, R573). -/
abbrev PartnerCopies := List (Nat × List (BitVec 8))

/-- One ordinary access that waits at a stack (R282, R283): a stroke read, or the write-back of a page-buffer stroke; for a read who
asks, the bay that asks and when it arrived. The requester is a logical easel of the source bay, 12 for its DMA and compression
engine, 13 for the base of a part-stroke write that came over the mesh, from a port, the pair link, a flash channel or the host, which
is read without returning (R283), and 14 for any other read on their behalf. -/
structure Access where
  write : Bool
  addr : Nat
  requester : Nat
  arrival : Nat
  sourceBay : Nat
  deriving DecidableEq, Repr

/-- One transfer that becomes ready to cross the mesh (R285), with its place in the order of R570: its class, 0 to 4; in class 3 its
rank of R283; its port, lane group, flash channel or logical easel; and its arrival at the source. -/
structure Transfer where
  src : Nat
  dst : Nat
  bytes : Nat
  ready : Nat
  cls : Nat
  rank : Nat
  unit : Nat
  arrival : Nat
  deriving DecidableEq, Repr

/-- What the settle check of a port finds (R349): the most corrections a codeword of it needed; or an uncorrectable codeword, or
no lock within 25,000 gc, with the lanes that failed. -/
inductive SettleResult where
  | checked (worst : Nat)
  | uncorrectable (mask : Nat)
  | noLock (mask : Nat)
  deriving DecidableEq, Repr

/-- One frame of the native transport: its header words and its payload. -/
structure Frame where
  hdr : List (BitVec 64)
  payload : List (BitVec 8)
  deriving DecidableEq, Repr

/-- What a stroke stands sealed under (R277, R278, R453, R454): nothing a check could pass (never written), a void stroke (R300),
the CRC-64 of a clear region (with whether it was detection-only, R289), or the key with identity `kid` and the tweak. It stands
for the ciphertext and the 64-bit tag: a check passes exactly when it is made under the same key and tweak (log entry 15 DESIGN
CHOICE). -/
inductive Seal where
  | none
  | void
  | clear (det : Bool)
  | key (kid tweak : Nat)
  deriving DecidableEq, Repr

/-- Bytes of one stroke as a mirrored operation carries them (R403): their place and the seal of their stroke. -/
structure MWrite where
  addr : Nat
  stamp : Seal
  data : List (BitVec 8)
  deriving DecidableEq, Repr

/-- A mirrored operation (R403, R407): the portfolio (or forward index), the sheet-list index, the unit (0 image, 1 sketch
strokes, 2 sheet-list entry, 3 portfolio record, 4 forward-table entry), the record's MIRRORSEQ, the home bay and the resulting
bytes. A unit of 6 is an operation of the partner's root of trust (R452, R461, R463): its code stands in the index, and its bytes
are the slot, the owner and the 96 bytes of the key. A unit of 5 is a request for a move (R320): the address of its first write is
the location the sheet goes to, and each write after it is a stroke of the sender's image, by its number, for one that fails here.
-/
structure MirrorIn where
  pf : Nat
  idx : Nat
  unit : Nat
  seq : Nat
  bay : Nat
  writes : List MWrite
  deriving DecidableEq, Repr

/-- One entry of a member's log (R407). -/
structure LogEntry where
  pf : Nat
  idx : Nat
  unit : Nat
  seq : Nat
  deriving DecidableEq, Repr

/-- The partner's copy of one compared unit (R409 to R411): the unit, the partner's sheet-list entry, whether the copy passes its
checks there, and its strokes with their seals. -/
structure PartnerUnit where
  pf : Nat
  idx : Nat
  unit : Nat
  entry : Nat
  intact : Bool
  strokes : List MWrite
  deriving DecidableEq, Repr

/-- A commit record (R424): its target epoch, whether it is planned, and its changes, node + STATE × 2^12. -/
structure Commit where
  target : BitVec 32
  planned : Bool
  changes : List Nat
  deriving DecidableEq, Repr

/-- What the roots of trust of the pair find when they meet (R452, R467, R523): whether the two attestation reports verify, the
partner's tier and counters, whether it holds a sealed node key, and whether that key equals this node's. -/
structure PairHello where
  attested : Bool
  tier : Nat
  svn : List Nat
  sealed : Bool
  sameKey : Bool
  deriving DecidableEq, Repr

/-- One sample of the rails at the on-die sense points, in microvolts (R552, R553): 0 VDD_GND, 1 VRET, 2 to 17 VDD_BAY0 to 15, 18
VDD_NODE, 19 to 22 VDD_STK_P0 to 3, 23 to 26 VPP_P0 to 3, 27 VDD_OPT, 28 VLAS, 29 VDD_SER, 30 VDDQ_FL, 31 VDD_AUX. -/
structure Rails where
  levels : List Nat
  deriving DecidableEq, Repr

/-- One reading of the ageing monitors (R498, R499): the slack of an easel in ps, the lowest ring-oscillator count of an easel, the
bias of a lit lane in percent with whether the lane reaches its target power, or the retention margin of a stack. -/
inductive AgeReading where
  | slack (x : Ea) (ps : Nat)
  | ring (x : Ea) (count : Nat)
  | laser (port lane percent : Nat) (reached : Bool)
  | retention (stack margin : Nat)
  deriving DecidableEq, Repr

/-- What the ROM and the root of trust find at their start (R441, R472, R527): whether image bank A and image bank B pass the
checks 1 to 3 of R466, whether the replay-protected area is authentic, and whether a copy of the repair record passes its checks.
-/
structure RotStart where
  bankA : Bool
  bankB : Bool
  authentic : Bool
  repairOk : Bool
  deriving DecidableEq, Repr

/-- What the identification and the parameter page of a flash channel report (R326): chip enables, LUNs per chip enable,
planes, blocks per LUN, pages per block, data and spare bytes per page, whether it offers the NV-LPDDR4 interface, the blocks
marked bad at manufacture, as (LUN, block), and the blocks whose erase fails at the next FORMAT, which no page reports: what the
parts do comes with them (R331; log entry 25 DEDUCED). -/
structure FlashGeometry where
  targets : Nat
  lunsPer : Nat
  planes : Nat
  blocks : Nat
  pages : Nat
  dataBytes : Nat
  spareBytes : Nat
  lpddr4 : Bool
  badBlocks : List (Nat × Nat)
  eraseFails : List (Nat × Nat) := []
  deriving DecidableEq, Repr

/-- One collection of garbage (R331): its LUN, the pages whose first program fails and whether the erase succeeds. Log entry 25
DEDUCED. -/
structure GcRun where
  lun : Nat
  fails : List Nat
  erased : Bool
  deriving DecidableEq, Repr

/-- The path of a register write. -/
inductive RegPath where
  | bar0 (function : Nat)
  | i3c
  | easel
  deriving DecidableEq, Repr

/-- One bus-master read the host interface has outstanding: 0 a T2 stroke (its T2 address), 1 a client record (its connection), 2
a queue entry (queue + 64 × its place in the ring), 3 the line of a lease WRITE and 4 a management frame (the number of the read).
-/
structure HostRead where
  kind : Nat
  arg : Nat
  deriving DecidableEq, Repr

/-- One command. The comment of each constructor is the row's mnemonic, its rule and its summary. -/
inductive Instr where
  /-- NOP (R119). Does nothing for one issue cycle. -/
  | nop (x : Ea) (w : BitVec 64)
  /-- ADD (R119). gD := gA + gB. -/
  | add (x : Ea) (w : BitVec 64)
  /-- SUB (R119). gD := gA - gB. -/
  | sub (x : Ea) (w : BitVec 64)
  /-- AND (R119). gD := gA AND gB. -/
  | andG (x : Ea) (w : BitVec 64)
  /-- OR (R119). gD := gA OR gB. -/
  | orG (x : Ea) (w : BitVec 64)
  /-- XOR (R119). gD := gA XOR gB. -/
  | xor (x : Ea) (w : BitVec 64)
  /-- SHL (R119). gD := gA shifted left by gB[5:0]. -/
  | shl (x : Ea) (w : BitVec 64)
  /-- SHR (R119). gD := gA shifted right logically by gB[5:0]. -/
  | shr (x : Ea) (w : BitVec 64)
  /-- SAR (R119). gD := gA shifted right arithmetically by gB[5:0]. -/
  | sar (x : Ea) (w : BitVec 64)
  /-- MUL (R119). gD := low 64 bits of gA x gB. -/
  | mul (x : Ea) (w : BitVec 64)
  /-- MIN (R119). gD := signed minimum of gA and gB. -/
  | min (x : Ea) (w : BitVec 64)
  /-- MAX (R119). gD := signed maximum of gA and gB. -/
  | max (x : Ea) (w : BitVec 64)
  /-- MINU (R119). gD := unsigned minimum of gA and gB. -/
  | minu (x : Ea) (w : BitVec 64)
  /-- MAXU (R119). gD := unsigned maximum of gA and gB. -/
  | maxu (x : Ea) (w : BitVec 64)
  /-- ADDI (R119). gD := gA + sext(IMM). -/
  | addi (x : Ea) (w : BitVec 64)
  /-- SUBI (R119). gD := gA - sext(IMM). -/
  | subi (x : Ea) (w : BitVec 64)
  /-- ANDI (R119). gD := gA AND sext(IMM). -/
  | andi (x : Ea) (w : BitVec 64)
  /-- ORI (R119). gD := gA OR sext(IMM). -/
  | ori (x : Ea) (w : BitVec 64)
  /-- XORI (R119). gD := gA XOR sext(IMM). -/
  | xori (x : Ea) (w : BitVec 64)
  /-- SHLI (R119). gD := gA shifted left by the immediate. -/
  | shli (x : Ea) (w : BitVec 64)
  /-- SHRI (R119). gD := gA shifted right logically by the immediate. -/
  | shri (x : Ea) (w : BitVec 64)
  /-- SARI (R119). gD := gA shifted right arithmetically by the immediate. -/
  | sari (x : Ea) (w : BitVec 64)
  /-- MULI (R119). gD := low 64 bits of gA x sext(IMM). -/
  | muli (x : Ea) (w : BitVec 64)
  /-- MINI (R119). gD := signed minimum of gA and sext(IMM). -/
  | mini (x : Ea) (w : BitVec 64)
  /-- MAXI (R119). gD := signed maximum of gA and sext(IMM). -/
  | maxi (x : Ea) (w : BitVec 64)
  /-- MINUI (R119). gD := unsigned minimum of gA and sext(IMM). -/
  | minui (x : Ea) (w : BitVec 64)
  /-- MAXUI (R119). gD := unsigned maximum of gA and sext(IMM). -/
  | maxui (x : Ea) (w : BitVec 64)
  /-- ALU_L (R119). Long form: gD := gA op LIMM for the operation named by FN. -/
  | aluL (x : Ea) (w : BitVec 64) (limm : BitVec 64)
  /-- CMP_EQ (R119). Every lane of pD := gA = gB. -/
  | cmpEq (x : Ea) (w : BitVec 64)
  /-- CMP_NE (R119). Every lane of pD := gA != gB. -/
  | cmpNe (x : Ea) (w : BitVec 64)
  /-- CMP_LT (R119). Every lane of pD := gA < gB, signed. -/
  | cmpLt (x : Ea) (w : BitVec 64)
  /-- CMP_LE (R119). Every lane of pD := gA <= gB, signed. -/
  | cmpLe (x : Ea) (w : BitVec 64)
  /-- CMP_LTU (R119). Every lane of pD := gA < gB, unsigned. -/
  | cmpLtu (x : Ea) (w : BitVec 64)
  /-- CMP_LEU (R119). Every lane of pD := gA <= gB, unsigned. -/
  | cmpLeu (x : Ea) (w : BitVec 64)
  /-- MOVI (R119). gD := sext(IMM). -/
  | movi (x : Ea) (w : BitVec 64)
  /-- MOVI_L (R119). gD := LIMM. -/
  | moviL (x : Ea) (w : BitVec 64) (limm : BitVec 64)
  /-- BR (R119). Unconditional branch to IMM[12:0]. -/
  | br (x : Ea) (w : BitVec 64)
  /-- BZ (R119). Branch when gA is zero. -/
  | bz (x : Ea) (w : BitVec 64)
  /-- BNZ (R119). Branch when gA is nonzero. -/
  | bnz (x : Ea) (w : BitVec 64)
  /-- BP (R119). Branch when bit 0 of pA is set. -/
  | bp (x : Ea) (w : BitVec 64)
  /-- JR (R119). Jump to gA[12:0]. -/
  | jr (x : Ea) (w : BitVec 64)
  /-- END (R120). Ends the program with a status once the outstanding table is empty; the easel goes idle 4 ec later. -/
  | endProg (x : Ea) (w : BitVec 64)
  /-- VADD (R121). vD := vA + vB on guarded lanes. -/
  | vadd (x : Ea) (w : BitVec 64)
  /-- VSUB (R121). vD := vA - vB on guarded lanes. -/
  | vsub (x : Ea) (w : BitVec 64)
  /-- VMUL (R121). vD := vA x vB on guarded lanes. -/
  | vmul (x : Ea) (w : BitVec 64)
  /-- VMAX (R167). vD := max(vA, vB) on guarded lanes. -/
  | vmax (x : Ea) (w : BitVec 64)
  /-- VMIN (R167). vD := min(vA, vB) on guarded lanes. -/
  | vmin (x : Ea) (w : BitVec 64)
  /-- VFMA (R121). vD := vA x vB + vC with one rounding. -/
  | vfma (x : Ea) (w : BitVec 64)
  /-- VEXP2 (R168). vD := exp2(vA) under the stated accuracy. -/
  | vexp2 (x : Ea) (w : BitVec 64)
  /-- VLOG2 (R168). vD := log2(vA) under the stated accuracy. -/
  | vlog2 (x : Ea) (w : BitVec 64)
  /-- VRCP (R168). vD := correctly rounded reciprocal of vA. -/
  | vrcp (x : Ea) (w : BitVec 64)
  /-- VREDSUM (R121). gD := sum over guarded lanes of vA in fixed tree order. -/
  | vredsum (x : Ea) (w : BitVec 64)
  /-- VREDMAX (R121). gD := maximum over guarded lanes of vA. -/
  | vredmax (x : Ea) (w : BitVec 64)
  /-- VREDMIN (R121). gD := minimum over guarded lanes of vA. -/
  | vredmin (x : Ea) (w : BitVec 64)
  /-- VCMP_EQ (R121). pD lane := vA = vB. -/
  | vcmpEq (x : Ea) (w : BitVec 64)
  /-- VCMP_LT (R121). pD lane := vA < vB. -/
  | vcmpLt (x : Ea) (w : BitVec 64)
  /-- VCMP_LE (R121). pD lane := vA <= vB. -/
  | vcmpLe (x : Ea) (w : BitVec 64)
  /-- VBCAST (R121). Every lane of vD := gA[31:0]. -/
  | vbcast (x : Ea) (w : BitVec 64)
  /-- VEXT (R121). gD := zero-extended lane IMM[6:0] of vA. -/
  | vext (x : Ea) (w : BitVec 64)
  /-- VSEL (R121). vD lane := pC lane ? vA lane : vB lane. -/
  | vsel (x : Ea) (w : BitVec 64)
  /-- VCVT (R122). Converts between FP32 lanes and one packed palette format, nearest-even or stochastic. -/
  | vcvt (x : Ea) (w : BitVec 64)
  /-- VLD (R123). Loads 512 B from the operand store into vD. -/
  | vld (x : Ea) (w : BitVec 64)
  /-- VST (R123). Stores vD as 512 B into the operand store. -/
  | vst (x : Ea) (w : BitVec 64)
  /-- TLD (R123). Loads 4,096 B from the operand store into tD. -/
  | tld (x : Ea) (w : BitVec 64)
  /-- TST (R123). Stores tD as 4,096 B into the operand store. -/
  | tst (x : Ea) (w : BitVec 64)
  /-- LDG (R123). Loads 8 B from the operand store into gD. -/
  | ldg (x : Ea) (w : BitVec 64)
  /-- STG (R123). Stores gD as 8 B into the operand store. -/
  | stg (x : Ea) (w : BitVec 64)
  /-- MMA (R124). Issues tD := tD + tA x tB into the matrix unit or its one-entry queue. -/
  | mma (x : Ea) (w : BitVec 64)
  /-- MMA_START (R125). A queued MMA starts when the matrix unit frees and occupies it for 128 ec. -/
  | mmaStart (x : Ea)
  /-- EXPAND (R126). Issues decompression of one block into tD, waiting in the expander if busy. -/
  | expand (x : Ea) (w : BitVec 64)
  /-- EXPAND_START (R176). A waiting EXPAND starts: checks the block, loads a table slot or decodes into tD. -/
  | expandStart (x : Ea)
  /-- TZERO (R127). Zeroes a tile. -/
  | tzero (x : Ea) (w : BitVec 64)
  /-- LD_LOC (R129). Async load by location from T0 or T1 into the operand store. -/
  | ldLoc (x : Ea) (w : BitVec 64)
  /-- ST_LOC (R129). Async store by location from the operand store to T0 or T1. -/
  | stLoc (x : Ea) (w : BitVec 64)
  /-- LD_H (R130). Async load of whole strokes of a sheet by handle under the portfolio's key slot. -/
  | ldH (x : Ea) (w : BitVec 64)
  /-- ST_H (R130). Async mirrored store of whole strokes of a sheet by handle. -/
  | stH (x : Ea) (w : BitVec 64)
  /-- ST_H_TOK (R42). Writes one token slot's keys and values, raising NTOK when the slot equals it. -/
  | stHTok (x : Ea) (w : BitVec 64)
  /-- MEMORY_OP_COMPLETE (R129). A location or handle memory instruction completes at its count and writes its completion word. -/
  | memoryOpComplete (x : Ea) (entry : Nat) (partner : PartnerCopies)
  /-- FLUSH_RANGE (R132). Writes back every page-buffer stroke of a location range. -/
  | flushRange (x : Ea) (w : BitVec 64)
  /-- NB_FILL (R300). Near-bank fill of units, void strokes or a clear pattern. -/
  | nbFill (x : Ea) (w : BitVec 64)
  /-- NB_COPY (R300). Near-bank verbatim copy of units. -/
  | nbCopy (x : Ea) (w : BitVec 64)
  /-- NB_COMPARE_EQUAL (R303). Near-bank bitwise compare for equality of two ranges. -/
  | nbCompareEqual (x : Ea) (w : BitVec 64)
  /-- NB_SUM (R300). Near-bank elementwise sum into DST over a clear range. -/
  | nbSum (x : Ea) (w : BitVec 64)
  /-- NB_MAX (R300). Near-bank elementwise maximum into DST over a clear range. -/
  | nbMax (x : Ea) (w : BitVec 64)
  /-- NB_MIN (R300). Near-bank elementwise minimum into DST over a clear range. -/
  | nbMin (x : Ea) (w : BitVec 64)
  /-- NB_ORDERED_COMPARE (R303). Near-bank ordered compare of two clear ranges under TYPE. -/
  | nbOrderedCompare (x : Ea) (w : BitVec 64)
  /-- NB_WINDOW_START (R299). In its near-bank window the controller sends the mode sequence and the command to every channel,
  which start the operation. -/
  | nbWindowStart (stack : Nat) (refusing : List Nat)
  /-- NB_COMPLETE (R301). The near-bank operation ends on every channel and its completion word is delivered. -/
  | nbComplete (stack : Nat)
  /-- DMA_POST (R134). Posts a descriptor to the bay's DMA and compression engine. -/
  | dmaPost (x : Ea) (w : BitVec 64)
  /-- ENGINE_DESCRIPTOR_START (R235). The engine takes its next posted descriptor and begins it, one at a time in posting order. -/
  | engineDescriptorStart (bay : Nat)
  /-- COMPRESS_GROUP (R181). Engine operation 0x20: count, build tables, encode, verify and commit a group of sheets. -/
  | compressGroup (bay : Nat) (partner : PartnerCopies)
  /-- EXPAND_SHEETS (R182). Engine operation 0x21: expands compressed sheets to raw images. -/
  | expandSheets (bay : Nat) (partner : PartnerCopies)
  /-- BUILD_SKETCHES (R232). Engine operation 0x23: builds each full sheet's centroids and radii and writes its sketch strokes. -/
  | buildSketches (bay : Nat) (partner : PartnerCopies)
  /-- MOVE_SHEETS (R316). Engine operation 0x10: moves sheets between tiers in seven steps. -/
  | moveSheets (bay : Nat) (partner : PartnerCopies)
  /-- DISCARD_T3_RANGE (R333). Engine operation 0x11: unmaps whole flash logical pages. -/
  | discardT3Range (bay : Nat)
  /-- COPY_T3 (R322). Engine operation 0x14: copies owner-0x0000 strokes between T3 and T0 or T1 with re-encryption. -/
  | copyT3 (bay : Nat)
  /-- HEAT_REPORT (R313). Engine operation 0x18: writes effective counts of a run of sheets. -/
  | heatReport (bay : Nat)
  /-- MOVE_PARTNER_ACK (R316). The partner's acknowledgement of its own move arrives and the engine rewrites the entries and
  releases the source. -/
  | movePartnerAck (bay : Nat) (applied : Bool)
  /-- ENGINE_OP_COMPLETE (R184). The engine writes per-sheet and summary records and rings the named doorbell. -/
  | engineOpComplete (bay : Nat)
  /-- ATTN_STEP (R137). Runs attention for one session and layer over a run of sheets, updating washes. -/
  | attnStep (x : Ea) (w : BitVec 64)
  /-- PARTNER_FETCH_DONE (R139). The partner copy of a sheet or sketch set fetched after an integrity failure arrives and the
  reader continues. -/
  | partnerFetchDone (x : Ea) (data : Option (List (BitVec 8)))
  /-- SKETCH_RANK (R142). Computes each sheet's score bound from sketches and writes a ranked list. -/
  | sketchRank (x : Ea) (w : BitVec 64)
  /-- GLAZE (R208). Merges a source wash into a destination wash. -/
  | glaze (x : Ea) (w : BitVec 64)
  /-- GLAZE_EMPTY (R200). Writes the blank wash. -/
  | glazeEmpty (x : Ea) (w : BitVec 64)
  /-- CAT_SEARCH (R144). Queues an associative catalogue search in the bay's search queue. -/
  | catSearch (x : Ea) (w : BitVec 64)
  /-- SEARCH_ADMISSION (R56). A queued search is admitted in its bay's next search slot and consults all slices. -/
  | searchAdmission (bay : Nat)
  /-- SEARCH_RESULT (R55). The merged winner lands in the issuing easel's registers 128 ec after admission. -/
  | searchResult (x : Ea)
  /-- CAT_WR (R145). Writes a 32-byte entry image to the live or shadow bank. -/
  | catWr (x : Ea) (w : BitVec 64)
  /-- CAT_RD (R145). Reads an entry image into the operand store. -/
  | catRd (x : Ea) (w : BitVec 64)
  /-- CAT_ACCESS_COMMIT (R57). A catalogue write commits, or a read takes its image, in its scheduled bank cycle, with journalling
  during a rebuild. -/
  | catAccessCommit (index : Nat)
  /-- WRIMM (R147). Sends a write-with-immediate message. -/
  | wrimm (x : Ea) (w : BitVec 64)
  /-- SEND (R372). Sends a message into the peer's oldest posted receive buffer. -/
  | send (x : Ea) (w : BitVec 64)
  /-- RECV (R372). Posts a receive buffer on a connection. -/
  | recv (x : Ea) (w : BitVec 64)
  /-- LAUNCH (R149). Sends a launch descriptor to a target bay. -/
  | launch (x : Ea) (w : BitVec 64)
  /-- RESUME (R149). Resumes a held or stopped easel. -/
  | resume (x : Ea) (w : BitVec 64)
  /-- DB_RING (R149). Places a record in a doorbell of a bay. -/
  | dbRing (x : Ea) (w : BitVec 64)
  /-- WAIT (R85). Waits with the clock running for a doorbell record or a limit. -/
  | wait (x : Ea) (w : BitVec 64)
  /-- SLEEP (R87). Waits with the easel clock stopped, entering sleep or off. -/
  | sleep (x : Ea) (w : BitVec 64)
  /-- DBPOP (R86). Removes and returns a doorbell's head record. -/
  | dbpop (x : Ea) (w : BitVec 64)
  /-- WAIT_RESUME (R85). A waiting easel resumes 48 ec after a record arrives, or on limit expiry. -/
  | waitResume (x : Ea)
  /-- FENCE_EASEL (R151). Fence until the easel's outstanding table is empty. -/
  | fenceEasel (x : Ea) (w : BitVec 64)
  /-- FENCE_BAY (R151). Fence until earlier writes to the bay SRAM and stack are placed. -/
  | fenceBay (x : Ea) (w : BitVec 64)
  /-- FENCE_BAY_BARRIER (R94). Fence and meeting of the easels in a mask with one tag. -/
  | fenceBayBarrier (x : Ea) (w : BitVec 64)
  /-- FENCE_NODE (R151). Fence until earlier writes anywhere on the node are placed. -/
  | fenceNode (x : Ea) (w : BitVec 64)
  /-- FENCE_PAIR (R406). Fence until the partner has acknowledged earlier mirrored operations. -/
  | fencePair (x : Ea) (w : BitVec 64)
  /-- FENCE_PEER (R151). Fence until earlier remote operations to one node have completed. -/
  | fencePeer (x : Ea) (w : BitVec 64)
  /-- FENCE_COMPLETE (R93). A fence's condition is met and it completes after its fixed count, or reports an imprecise exception. -/
  | fenceComplete (x : Ea)
  /-- BARRIER_TIMEOUT (R94). A barrier's limit expires and raises the barrier-timeout exception. -/
  | barrierTimeout (x : Ea)
  /-- RDGC (R152). Reads the local ground-cycle count by double sampling. -/
  | rdgc (x : Ea) (w : BitVec 64)
  /-- PERF_RD (R152). Reads a profiling counter of the easel. -/
  | perfRd (x : Ea) (w : BitVec 64)
  /-- TRACE (R152). Appends gA to the bay trace buffer. -/
  | trace (x : Ea) (w : BitVec 64)
  /-- RUN_LIMIT_EXPIRY (R102). A program runs past its entry's LIMIT and raises the run-limit exception. -/
  | runLimitExpiry (x : Ea)
  /-- LAUNCH_ACCEPT (R79). The bay takes in one launch per 4 ec by source precedence and places or queues it. -/
  | launchAccept (bay : Nat)
  /-- LAUNCH_PLACE (R79). A queued launch is placed once every easel it needs is idle and its image copy begins. -/
  | launchPlace (bay : Nat)
  /-- LAUNCH_FIRST_INSTRUCTION (R80). After the copy and any confidential clear, the program starts with its argument registers. -/
  | launchFirstInstruction (x : Ea)
  /-- DOORBELL_ARRIVAL (R84). A record arrives at a doorbell, counting it and queuing or losing it. -/
  | doorbellArrival (bay : Nat) (db : Nat) (record : BitVec 64)
  /-- BAY_TIMER_EXPIRY (R90). A bay timer reaches PERIOD and fires its source event, reloading or disabling. -/
  | bayTimerExpiry (bay : Nat) (timer : Nat)
  /-- EASEL_CTRL_STOP (R105). Stops a running, waiting or held easel at its next instruction boundary with code 0x00. -/
  | easelCtrlStop (x : Ea)
  /-- EASEL_CTRL_RESUME (R104). Restarts a stopped easel at its program counter. -/
  | easelCtrlResume (x : Ea)
  /-- EASEL_CTRL_RESET (R517). Easel reset: the logical easel is idle 512 ec later. -/
  | easelCtrlReset (x : Ea)
  /-- BAY_PROG_UPPER_WRITE (R76). A write to the upper word of a program-table entry is staged. -/
  | bayProgUpperWrite (bay : Nat) (entry : Nat) (value : BitVec 64)
  /-- BAY_PROG_COMMIT (R76). A write to the lower word commits the whole entry, subject to attestation in confidential mode. -/
  | bayProgCommit (bay : Nat) (entry : Nat) (value : BitVec 64)
  /-- CAT_CTRL_START (R63). Begins a rebuild: the shadow bank is cloned or cleared and the journal emptied. -/
  | catCtrlStart (clone : Bool)
  /-- CAT_CTRL_FLIP (R64). Requests a bank exchange at the next admission round. -/
  | catCtrlFlip
  /-- CAT_CTRL_ABORT (R63). Returns the rebuild to Idle. -/
  | catCtrlAbort
  /-- CAT_CTRL_KEEP (R65). Moves Idle to Ready with the shadow bank unchanged. -/
  | catCtrlKeep
  /-- REBUILD_FILL_DONE (R63). The copy or clear finishes in all slices and the rebuild is Ready. -/
  | rebuildFillDone
  /-- FLIP_ROUND (R64). The admission round decides an armed flip: banks exchanged or FLIPSTALE set. -/
  | flipRound
  /-- CAT_JRNLPOP (R67). Removes the oldest journal record. -/
  | catJrnlpop
  /-- CAT_SCRUB_STEP (R68). Every 64 ec the background scrub checks one local index in every slice and bank and invalidates
  poisoned entries. -/
  | catScrubStep
  /-- BAY_CMP_STATCLR (R186). Clears RAWIN and STOREDOUT. -/
  | bayCmpStatclr (bay : Nat)
  /-- BAY_SPS_CLR (R248). Clears the sparse READ, SKIP and FORCED counters. -/
  | baySpsClr (bay : Nat)
  /-- WS_LANE_START (R268). Checks the ring, zeroes its header and begins fetching at FIRST. -/
  | wsLaneStart (bay : Nat) (lane : Nat)
  /-- WS_LANE_STOP (R268). Ends fetching; issued strokes still land and STATUS becomes done. -/
  | wsLaneStop (bay : Nat) (lane : Nat)
  /-- WS_ENABLE_WRITE (R269). A write of BAY.WS.CTRL with ENABLE 0 stops every lane as STOP does. -/
  | wsEnableWrite (bay : Nat) (enable : Bool)
  /-- KEYSLOT_WRITE (R451). A write of BAY.WS.CTRL.KEYSLOT loads that slot into the bay key store. -/
  | keyslotWrite (bay : Nat) (slot : Nat)
  /-- WS_STROKE_ISSUE (R265). In a slot granted to the engine, the unit issues a lane's next stroke read round-robin. -/
  | wsStrokeIssue (bay : Nat)
  /-- WS_STROKE_LAND (R262). A stroke lands in the ring 296 ec after its read and LANDED advances. -/
  | wsStrokeLand (bay : Nat) (lane : Nat)
  /-- WS_RELEASED_SAMPLE (R263). The unit samples RELEASED, freeing slots or stopping the lane with sequence. -/
  | wsReleasedSample (bay : Nat) (lane : Nat)
  /-- WS_STROKE_RETRY (R271). A weight stroke failing its tag is read once more; a second failure stops the lane with damaged. -/
  | wsStrokeRetry (bay : Nat) (lane : Nat)
  /-- ACCESS_ADMISSION (R282). An ordinary access is admitted at the first cycle its channel, bank and mesh slots are free. -/
  | accessAdmission (stack : Nat) (accesses : List Access)
  /-- STROKE_READ_COMPLETE (R286). An admitted read is checked, decrypted and placed at its fixed count. -/
  | strokeReadComplete (stack : Nat) (addr : Nat) (slot : Nat) (tweak : Nat) (errs : Nat)
  /-- PAGE_BUFFER_WRITE (R284). A T1 write is encrypted and placed in the page buffer, waiting for an entry if full. -/
  | pageBufferWrite (stack : Nat) (addr : Nat) (slot : Nat) (tweak : Nat) (offset : Nat) (data : List (BitVec 8))
  /-- WRITE_BACK_ADMIT (R284). A page-buffer write-back is admitted and its entry frees. -/
  | writeBackAdmit (stack : Nat)
  /-- MESH_TRANSFER_ENTER (R285). A transfer ready to cross the mesh reserves its link intervals and enters. -/
  | meshTransferEnter (transfers : List Transfer)
  /-- FRAME_START (R279). A stack frame begins when the ground count is a multiple of 128; pending map and throttle changes take
  effect. -/
  | frameStart (temps : List Nat) (die : Nat)
  /-- STACK_TRIP_SELFREF (R296). After the drain the stack enters self-refresh and clears READY with TRIP set. -/
  | stackTripSelfref (stack : Nat)
  /-- REFRESH_WINDOW (R280). A refresh window refreshes four rows of every bank of its channel. -/
  | refreshWindow (stack : Nat) (channel : Nat) (centred : Bool)
  /-- SCRUB_WINDOW (R290). A scrub window reads one stroke, checks it and writes back a correction. -/
  | scrubWindow (stack : Nat) (channel : Nat) (errs : Nat)
  /-- ROW_REMAP_COMMIT (R292). A row remap commits at the end of its fourth window and later accesses use the spare row. -/
  | rowRemapCommit (stack : Nat)
  /-- BAY_SLOTMAP_WRITE (R281). A slot map write is checked and takes effect at the next frame start or is refused with MAPBAD. -/
  | baySlotmapWrite (bay : Nat) (value : BitVec 64)
  /-- BAY_REGION_WRITE (R289). A region write is checked and stored or refused with REGBAD. -/
  | bayRegionWrite (bay : Nat) (region : Nat) (value : BitVec 64)
  /-- STACK_RETRAIN (R515). Failed re-centring drains the stack and enters self-refresh at the next frame start for retraining. -/
  | stackRetrain (stack : Nat)
  /-- STACK_RETRAIN_DONE (R515). The stack becomes ready at F + 12,800 gc. -/
  | stackRetrainDone (stack : Nat)
  /-- HEAT_TICK (R311). The bay tick counter advances every HALFLIFE gc. -/
  | heatTick (bay : Nat)
  /-- HEAT_SWEEP_STEP (R311). Every 8 ec the sweep restamps one set and frees zero entries. -/
  | heatSweepStep (bay : Nat)
  /-- BAY_HEAT_CLEAR (R336). Frees every heat-table entry. -/
  | bayHeatClear (bay : Nat)
  /-- EXTENT_WITHDRAW (R325). The host withdraws a host extent; no new access is admitted. -/
  | extentWithdraw (extent : Nat)
  /-- EXTENT_GONE (R325). Admitted accesses finish; the C48 clears VALID and sets GONE. -/
  | extentGone (extent : Nat)
  /-- FLASH_FORMAT (R337). Erases every block, unmaps every page and fixes the configuration. -/
  | flashFormat
  /-- FLASH_CKPT (R337). Checkpoints every channel's map now. -/
  | flashCkpt
  /-- FLASH_MAPBASE_WRITE (R329). Setting a channel's map region starts its map rebuild. -/
  | flashMapbaseWrite (channel : Nat) (value : BitVec 64)
  /-- FLASH_MAP_REBUILD_DONE (R334). A channel finishes loading its checkpoint, summary pages and open blocks and becomes ready. -/
  | flashMapRebuildDone (channel : Nat)
  /-- FLASH_PAGE_READ_DONE (R327). A page read completes and its codewords are corrected or fail. -/
  | flashPageReadDone (channel : Nat) (lpage : Nat) (bits : List (Option Nat))
  /-- FLASH_PAGE_PROGRAMMED (R334). A page program completes, or fails and retires its block. -/
  | flashPageProgrammed (channel : Nat) (lpage : Nat) (lun : Nat) (ok : Bool)
  /-- FLASH_CHECKPOINT (R334). A channel writes a map checkpoint after CKPTBLK opened blocks. -/
  | flashCheckpoint (channel : Nat)
  /-- GARBAGE_COLLECT (R331). A LUN below GCLOW rewrites its emptiest closed block and erases it. -/
  | garbageCollect (channel : Nat) (run : GcRun)
  /-- PATROL_READ (R335). The patrol reads a mapped page, relocating it or marking it lost. -/
  | patrolRead (channel : Nat) (lpage : Nat) (bits : List (Option Nat))
  /-- PORT_ENABLE (R349). Setting ENABLE lights the LANEOK lanes and enters DETECT; clearing darkens them. -/
  | portEnable (port : Nat) (enable : Bool)
  /-- PORT_RENEG (R349). Renegotiates the port, taking it from UP to TRAIN. -/
  | portReneg (port : Nat)
  /-- PORT_SIGNAL_DETECT (R349). Signal on a lane moves the port from DETECT to TRAIN. -/
  | portSignalDetect (port : Nat)
  /-- PORT_TRAIN_DONE (R349). Locked lanes are stable or the train time runs out, moving to EXCHANGE or DETECT. -/
  | portTrainDone (port : Nat) (locked : Nat)
  /-- CAPABILITY_PAGE_RECEIVED (R348). A partner page is received and the mode is chosen. -/
  | capabilityPageReceived (port : Nat) (page : BitVec 64)
  /-- PORT_EXCHANGE_TIMEOUT (R349). No partner page within 250 gc returns the port to TRAIN. -/
  | portExchangeTimeout (port : Nat)
  /-- PORT_SETTLE_CHECK (R349). The settle check passes into UP or fails back to TRAIN. -/
  | portSettleCheck (port : Nat) (result : SettleResult)
  /-- PORT_DOWN (R379). A port leaves UP; its unacknowledged packets fall due on other ports. -/
  | portDown (port : Nat)
  /-- FERRULE_CHANGE (R566). A ferrule removed darkens the engine's lasers; seated again resumes from DETECT. -/
  | ferruleChange (port : Nat) (seated : Bool)
  /-- FRAME_RECEIVE (R353). A native frame arrives and is checked or discarded; `corrected` and `uncorrectable` are the codewords
  of it that the port's FEC corrected and could not correct (R377, R381). -/
  | frameReceive (port : Nat) (corrected : Nat) (uncorrectable : Nat) (frame : Frame)
  /-- PACKET_ADMIT (R359). A packet is admitted 96 ec after its last bit and classified by its PSN. -/
  | packetAdmit (port : Nat) (frame : Frame)
  /-- PACKET_PLACED (R355). An admitted packet's bytes are placed in the destination bay. -/
  | packetPlaced (conn : Nat) (cclass : Nat) (firstPsn : Nat) (index : Nat) (payload : List (BitVec 8))
  /-- MESSAGE_COMPLETE (R361). All packets placed: the immediate is posted and COMPLETE is sent. -/
  | messageComplete (conn : Nat) (cclass : Nat) (firstPsn : Nat)
  /-- ACK_DELAY_EXPIRY (R362). ACKDLY after the first unacknowledged packet an ACK is sent. -/
  | ackDelayExpiry (conn : Nat) (cclass : Nat)
  /-- ACK_RECEIVE (R363). An ACK frees acknowledged packets and makes overtaken packets due. -/
  | ackReceive (frame : Frame)
  /-- COMPLETE_RECEIVE (R361). A COMPLETE frame writes the sender's completion word. -/
  | completeReceive (frame : Frame)
  /-- RTO_EXPIRY (R363). A packet or missing completion is due by timeout and is retransmitted. -/
  | rtoExpiry (conn : Nat) (psn : Nat)
  /-- RETRANSMIT (R363). A due packet leaves from the transmit buffer with its original header. -/
  | retransmit (conn : Nat) (psn : Nat)
  /-- RESYNC_SEND (R365). A connection in RESYNC sends a RESYNC frame every RTO gc. -/
  | resyncSend (conn : Nat)
  /-- RESYNC_RECEIVE (R365). A RESYNC or REPLY completes old messages, sets RXCUM and reopens the connection. -/
  | resyncReceive (port : Nat) (frame : Frame)
  /-- FAB_CONNOP_WRITE (R378). Commits a node-to-node connection entry. -/
  | fabConnopWrite (conn : Nat)
  /-- FAB_CONNOP_READ (R378). Reads a connection entry into the data words. -/
  | fabConnopRead (conn : Nat)
  /-- FAB_REGOP_WRITE (R368). Loads a free registration, or is refused with REGREF. -/
  | fabRegopWrite (index : Nat)
  /-- FAB_REGOP_READ (R378). Reads a registration into the data words. -/
  | fabRegopRead (index : Nat)
  /-- FAB_REGOP_REVOKE (R369). Advances GEN and starts revocation of a registration. -/
  | fabRegopRevoke (index : Nat)
  /-- REVOKE_DRAINED (R368). No admitted message of the revoked registration remains; REVDONE set and entry FREE. -/
  | revokeDrained (index : Nat)
  /-- REVDRAIN_EXPIRY (R370). REVDRAIN after revocation every open message is cut and the entry freed. -/
  | revdrainExpiry (index : Nat)
  /-- FAB_CLIOP_INVAL (R374). Writes back and drops a client record once unpinned. -/
  | fabCliopInval (conn : Nat)
  /-- CLIENT_RECORD_FETCHED (R373). A fetched client record arrives and its waiting packets proceed. -/
  | clientRecordFetched (conn : Nat) (record : List (BitVec 8))
  /-- FAB_ID_WRITE (R378). Sets the node identifier or sets IDBAD for a value above 0x3FF. -/
  | fabIdWrite (value : Nat)
  /-- MESSAGE_ENQUEUE (R384). A message enters its subscriber queue when its payload reaches the port bay, or is refused busy. -/
  | messageEnqueue (conn : Nat) (firstPsn : Nat)
  /-- SCHED_SELECT (R389). When the link can begin a frame the scheduler grants a packet by PRIO and virtual tags. -/
  | schedSelect (inst : Nat)
  /-- BUCKET_REFILL (R387). Every ground cycle each token bucket gains RATE/16 up to BURST. -/
  | bucketRefill
  /-- SCHED_SUBOP_WRITE (R396). Commits a subscriber queue's shaping entry. -/
  | schedSubopWrite (inst : Nat) (queue : Nat)
  /-- SCHED_SUBOP_READ (R396). Loads a subscriber queue's entry into SUBDATA. -/
  | schedSubopRead (inst : Nat) (queue : Nat)
  /-- POL_OP_WRITE (R397). Commits a policer, fills its buckets and zeroes its counters. -/
  | polOpWrite (index : Nat)
  /-- POL_OP_READ (R397). Loads a policer and its counters. -/
  | polOpRead (index : Nat)
  /-- POL_NCOP_WRITE (R397). Commits a connection's stage A policer binding. -/
  | polNcopWrite (conn : Nat)
  /-- POL_NCOP_READ (R397). Loads a connection's stage A policer binding. -/
  | polNcopRead (conn : Nat)
  /-- SAMPLE_START (R394). Every INTERVAL gc a sample walks the instances and writes queue records to the ring. -/
  | sampleStart
  /-- MIRROR_APPLY (R403). The partner writes a mirrored operation's bytes and acknowledges, or answers not applied. -/
  | mirrorApply (op : MirrorIn)
  /-- MIRROR_ACK_RECEIVE (R404). The acknowledgement of a mirrored operation arrives at the issuing bay. -/
  | mirrorAckReceive (op : Nat) (applied : Bool)
  /-- PAIR_LINK_CHANGE (R22). A lane group starts or stops; the link rate changes, goes down or up with a pair event. -/
  | pairLinkChange (groups : Nat)
  /-- PARTNER_UNREACHABLE (R407). Pair link down and fabric path failed: outstanding mirrored operations are logged. -/
  | partnerUnreachable
  /-- PAIRHOLD_EXPIRY (R408). The partner stays unreachable for PAIRHOLD and the lower member reports a split. -/
  | pairholdExpiry
  /-- PAIR_RESYNC_START (R409). On reachability the members exchange logs and compare logged units. -/
  | pairResyncStart (partnerLog : List LogEntry)
  /-- PAIR_RESYNC_DONE (R409). All compared units resolved; logs emptied and a pair event raised. -/
  | pairResyncDone (copies : List PartnerUnit)
  /-- AUDIT_STEP (R410). The background audit compares RATE portfolios per 25,000 gc. -/
  | auditStep (copies : List PartnerUnit)
  /-- EPOCH_INSTALL (R415). A commit record is applied: MAP.EPOCH advances, event 0x42 fires and the grace window opens. -/
  | epochInstall (record : Commit)
  /-- GRACE_CLOSE (R416). The grace window closes and forward entries of that epoch clear VALID in their old portfolios. -/
  | graceClose (epoch : BitVec 32)
  /-- MAP_PLAN (R420). The host proposes a planned epoch from MAP.PLAN. -/
  | mapPlan
  /-- MAP_SEED (R421). In start-up mode seeds the installed epoch. -/
  | mapSeed
  /-- MAP_MEMBEROP_WRITE (R421). Writes a membership entry in start-up mode. -/
  | mapMemberopWrite (node : Nat)
  /-- MAP_MEMBEROP_READ (R434). Loads a membership entry into MEMBERDATA. -/
  | mapMemberopRead (node : Nat)
  /-- MAP_FWDOP_WRITE (R416). Commits a mirrored forward-table entry. -/
  | mapFwdopWrite (index : Nat)
  /-- MAP_FWDOP_READ (R434). Loads a forward-table entry into FWDDATA. -/
  | mapFwdopRead (index : Nat)
  /-- HEARTBEAT_SEND (R422). Every HBPERIOD gc a LIVE node sends heartbeats to its watch set. -/
  | heartbeatSend
  /-- HEARTBEAT_RECEIVE (R422). A heartbeat from a watched node resets its suspicion timer. -/
  | heartbeatReceive (node : Nat) (epoch : BitVec 32)
  /-- SUSPECT_EXPIRY (R423). No heartbeat for SUSPECT gc: the watcher sends SUSPECT to the coordinator. -/
  | suspectExpiry (node : Nat)
  /-- SUSPECT_RECEIVE (R423). A coordinator collects a suspicion and decides on a majority. -/
  | suspectReceive (watcher : Nat) (subject : Nat) (split : Bool)
  /-- CONFIRM_EXPIRY (R423). A coordinator's own suspicion without a majority is dropped. -/
  | confirmExpiry (node : Nat)
  /-- PROPOSE_RECEIVE (R425). A node accepts the first PROPOSE for a target or answers ABORT. -/
  | proposeReceive (proposer : Nat) (record : Commit)
  /-- ACCEPT_RECEIVE (R425). A coordinator counts ACCEPT and commits on a majority. -/
  | acceptReceive (node : Nat) (target : BitVec 32)
  /-- COMMIT_RECEIVE (R426). A commit record is received and installed, or entered recovery when marking this node. -/
  | commitReceive (node : Nat) (record : Commit)
  /-- ABORT_RECEIVE (R425). A proposer learns of a competing accepted proposal. -/
  | abortReceive (node : Nat) (target : BitVec 32) (accepted : Nat)
  /-- ACCWAIT_EXPIRY (R425). A proposer without majority sends ABORT and schedules a new proposal. -/
  | accwaitExpiry
  /-- REPROPOSE_TIMER_EXPIRY (R425). The back-off ends and the coordinator proposes again with merged changes. -/
  | reproposeTimerExpiry
  /-- FETCH_RECEIVE (R426). A node asked for a missing epoch answers with its COMMIT. -/
  | fetchReceive (node : Nat) (target : BitVec 32)
  /-- ISOLATE_EXPIRY (R426). No heartbeat from any ring peer for ISOLATE gc: the node enters recovery mode. -/
  | isolateExpiry
  /-- LEASE_TAKE (R428). Takes a lease on a session control line and places it. -/
  | leaseTake (queue : Nat)
  /-- LEASE_WRITE (R549). Writes masked bytes into the holder's staging copy. -/
  | leaseWrite (queue : Nat)
  /-- LEASE_FENCE (R428). Writes the staging copy into the record as one mirrored portfolio write. -/
  | leaseFence (queue : Nat)
  /-- LEASE_DROP (R428). Discards the staging copy and frees the lease. -/
  | leaseDrop (queue : Nat)
  /-- LEASE_RENEW (R549). Renews the function's leases. -/
  | leaseRenew (queue : Nat)
  /-- LEASE_EXPIRY (R428). PERIOD without a command: staging discarded, pair event 0x09. -/
  | leaseExpiry (pf : Nat) (line : Nat)
  /-- EASEL_FAILURE (R430). A physical easel fails; the bay isolates it and powers up a spare or marks it out of service. -/
  | easelFailure (x : Ea)
  /-- SPARE_SWITCH_IN_DONE (R430). 500 gc after detection the logical easel is idle on the spare and bindings fire with 0x0D. -/
  | spareSwitchInDone (x : Ea)
  /-- MAILBOX_GO (R443). A requester submits a mailbox request, queued or refused busy. -/
  | mailboxGo (channel : Nat)
  /-- MAILBOX_TAKE (R443). The root of trust takes the next queued request in GO order. -/
  | mailboxTake
  /-- ID_GET (R446). Returns DEVID and part of the certificate chain. -/
  | idGet
  /-- ATTEST (R447). Returns a signed attestation report for a nonce. -/
  | attest
  /-- KEY_NONCE (R449). Issues a fresh install nonce for a slot. -/
  | keyNonce
  /-- KEY_INSTALL (R449). Unwraps and installs an owner key bundle on both pair members. -/
  | keyInstall (partner : Nat)
  /-- KEY_GEN (R449). Fills an empty slot from the random bit generator on both members. -/
  | keyGen (partner : Nat)
  /-- KEY_DESTROY (R457). Destroys a key slot, forwarding or holding the destroy for the partner. -/
  | keyDestroy
  /-- KEY_DESTROY_EFFECT (R457). At the next frame start the slot is removed from every bay key store. -/
  | keyDestroyEffect (slot : Nat)
  /-- PENDING_DESTROY_DELIVER (R458). On reachability pending destroys are delivered before anything else. -/
  | pendingDestroyDeliver
  /-- KEY_QUERY (R445). Returns a slot's state, owner and pending destroy. -/
  | keyQuery
  /-- DIGEST_REG (R77). Registers an image digest for attested program commits. -/
  | digestReg
  /-- DIGEST_DEREG (R445). Deregisters an image digest. -/
  | digestDereg
  /-- CONF_ENTER (R461). Both pair members enter confidential mode or neither does. -/
  | confEnter (partnerReady : Bool)
  /-- CONF_EXIT (R463). Destroys owner keys, renews the node key and warm-resets both members. -/
  | confExit
  /-- FW_WRITE (R466). Writes into the inactive image bank and clears STAGED. -/
  | fwWrite
  /-- FW_VERIFY (R466). Checks the inactive bank and stages its components. -/
  | fwVerify
  /-- FW_ARM (R468). Arms activation at an epoch, or in recovery marks the bank active and resets. -/
  | fwArm
  /-- FW_DISARM (R468). Clears the armed epoch. -/
  | fwDisarm
  /-- FW_ACTIVATION_DONE (R469). The boot record reads COMPLETE and counters rise at the later of completion and grace close. -/
  | fwActivationDone
  /-- FW_ACTIVATION_ROLLBACK (R470). A failed component load switches every switched component back and sets ACTFAIL. -/
  | fwActivationRollback
  /-- LIC_INSTALL (R522). Checks and stores a licence record, raising the licence counter. -/
  | licInstall
  /-- RECOVER (R472). Requests ROM recovery at the next reset. -/
  | recover
  /-- DECOMMISSION (R477). Destroys every slot and the node key and clears PAIRKEY. -/
  | decommission
  /-- ROT_WATCHDOG_EXPIRY (R474). The root-of-trust image restarts after 100 ms without service, stopping after three firings. -/
  | rotWatchdogExpiry
  /-- PAIR_KEY_ESTABLISH (R452). The pair's roots of trust attest each other, exchange counters and establish PAIRKEY. -/
  | pairKeyEstablish (partner : PairHello)
  /-- IDLE_GATE (R485). 1 gc after becoming idle a gated easel enters sleep or off. -/
  | idleGate (x : Ea)
  /-- EASEL_WAKE_DONE (R486). A sleeping or off easel runs again after its fixed wake count. -/
  | easelWakeDone (x : Ea)
  /-- BAY_DEEP_ENTRY (R487). At a frame start after DEEPDLY idle, a bay enters deep and its stack self-refresh. -/
  | bayDeepEntry (bay : Nat)
  /-- BAY_WAKE (R488). A wake event starts waking a deep bay and its named easels; `msg` tells whether it is a fabric message for
  the bay. -/
  | bayWake (bay : Nat) (easels : Nat) (msg : Bool)
  /-- BAY_ACTIVE (R488). At the first frame start after t + 625 gc the bay admits accesses. -/
  | bayActive (bay : Nat)
  /-- PWR_N1 (R490). Requests N1: bays go deep and ports narrow in turn. -/
  | pwrN1
  /-- PWR_N2 (R491). Requests N2 with the partner: flash checkpointed, ports reduced, link parked. -/
  | pwrN2 (partnerN1 : Bool)
  /-- PWR_N3 (R492). Requests N3 in start-up or recovery mode: all but the ground domain powered down. -/
  | pwrN3
  /-- PWR_WAKE (R490). Ends power requests and returns to N0. -/
  | pwrWake
  /-- PORT_NARROWING (R490). A port passes through negotiation with a one-lane offer, or widens again. -/
  | portNarrowing (port : Nat)
  /-- PAIR_WAKE (R491). PAIR_WAKE_N is asserted and both members leave N2. -/
  | pairWake
  /-- N2_EXIT_DONE (R491). 2,500 gc after PAIR_WAKE_N the pair link is up and flash ready. -/
  | n2ExitDone
  /-- SUPPLY_SAMPLE (R494). Every crystal cycle each monitored rail is compared with its warning and reset levels. -/
  | supplySample (rails : Rails)
  /-- BRAKE_RELEASE (R494). RECOVER good samples release the brake, count the dip and start an ageing pass. -/
  | brakeRelease
  /-- LONG_BRAKE_EXPIRY (R496). After LONG braked cycles LONGEV is set and an event logged. -/
  | longBrakeExpiry
  /-- AGEING_PASS (R500). Every PERIOD the monitors are read and each unit takes at most one re-plan step. -/
  | ageingPass (readings : List AgeReading)
  /-- FREQ_BIN_WRITE (R502). A bin change starts a relock at the next frame start. -/
  | freqBinWrite (bin : Nat)
  /-- RELOCK_DONE (R502). 896 gc after the frame start easels run and accesses are admitted at the new bin. -/
  | relockDone
  /-- PLL_LOCK_RETRY (R505). A PLL not locked after 250 gc is tried once more, then the bay fails. -/
  | pllLockRetry (unit : Nat) (locked : Bool)
  /-- CRYSTAL_LOSS (R507). The crystal stops and a warm reset is held until it returns. -/
  | crystalLoss
  /-- GLOBAL_RESET_BAY (R517). Bay reset: drain to F + 512 gc, bay ready at F + 2,048 gc. -/
  | globalResetBay (bay : Nat)
  /-- GLOBAL_RESET_PART (R517). Partition reset of four bays with their ports, flash channels and lane group. -/
  | globalResetPart (part : Nat)
  /-- GLOBAL_RESET_WARM (R517). Warm node reset from the register. -/
  | globalResetWarm
  /-- GLOBAL_RESET_COLD (R508). Cold node reset written over I3C. -/
  | globalResetCold
  /-- WARM_RST_PIN (R508). WARM_RST_N low for two crystal cycles causes a warm node reset. -/
  | warmRstPin
  /-- COLD_RST_PIN (R508). COLD_RST_N low for two crystal cycles causes a cold node reset. -/
  | coldRstPin
  /-- RESET_DRAIN_END (R518). A reset's drain ends and in-flight work is placed, cut or absorbed. -/
  | resetDrainEnd
  /-- RESET_RELEASE (R557). COLD_RST_N and RAILS_OK high for two cycles start the power-on sequence. -/
  | resetRelease (strap : Bool)
  /-- ROT_IMAGE_VERIFIED (R510). The ROM verifies and runs the root-of-trust image, which loads licence, plan and repair record. -/
  | rotImageVerified (image : RotStart)
  /-- BAY_READY (R510). A bay finishes lock, repair and clearing and reports ready. -/
  | bayReady (bay : Nat) (locked : Bool)
  /-- STACK_READY (R510). A stack finishes training, restores its remap table and reports ready at a frame start. -/
  | stackReady (stack : Nat) (trained : Bool)
  /-- PAIR_LINK_TRAINED (R510). Pair-link lane groups finish training. -/
  | pairLinkTrained (groups : Nat)
  /-- FLASH_INTERFACE_TRAINED (R326). A flash channel's interface trains and reads its parameter page, or sets GEOMBAD. -/
  | flashInterfaceTrained (channel : Nat) (geometry : Option FlashGeometry)
  /-- REPAIR_RECORD_APPEND (R524). An in-field repair entry is written within 12,500 gc of its event. -/
  | repairRecordAppend
  /-- PERST_CHANGE (R532). PERST_N asserted or deasserted stops or restores a function's host interface. -/
  | perstChange (function : Nat) (asserted : Bool)
  /-- HOST_LINK_CHANGE (R531). A PCI Express link trains to a rate or goes down. -/
  | hostLinkChange (function : Nat) (rate : Nat) (width : Nat)
  /-- REGISTER_WRITE (R535). A BAR0, I3C or easel write to a register without a row of its own stores its fields. -/
  | registerWrite (path : RegPath) (offset : Nat) (size : Nat) (value : BitVec 64)
  /-- HQ_CFG_ENABLE (R542). Setting ENABLE checks and resets a queue; clearing it stops fetching. -/
  | hqCfgEnable (queue : Nat) (enable : Bool)
  /-- HQ_SQTAIL (R543). A tail doorbell marks entries ready or stops the queue with ERR 1. -/
  | hqSqtail (queue : Nat) (tail : Nat)
  /-- HQ_CQHEAD (R545). A head doorbell frees completion slots and re-arms the queue's message. -/
  | hqCqhead (queue : Nat) (head : Nat)
  /-- QUEUE_FETCH (R543). The host interface fetches one entry from a queue in turn when completion room exists. -/
  | queueFetch (queue : Nat)
  /-- MGMT_TRANSMIT (R544). A management transmit entry sends a frame in Ethernet framing. -/
  | mgmtTransmit (queue : Nat)
  /-- MGMT_RECEIVE_POST (R544). A management receive entry posts a host buffer. -/
  | mgmtReceivePost (queue : Nat)
  /-- MGMT_FRAME_RECEIVE (R544). An Ethernet frame fills the oldest posted buffer or is dropped. -/
  | mgmtFrameReceive (port : Nat) (frame : List (BitVec 8))
  /-- CPLTO_EXPIRY (R533). A bus-master read without completion within CPLTO fails per its purpose. -/
  | cpltoExpiry (read : HostRead)
  /-- EVENT_RECORD_PLACE (R540). An on-die event record is moved to the host ring when enabled and room exists. -/
  | eventRecordPlace
  /-- BAR4_READ (R547). A host read through an aperture returns data, zeros or Completer Abort. -/
  | bar4Read (function : Nat) (offset : Nat) (len : Nat) (partner : PartnerCopies)
  /-- BAR4_WRITE (R547). A host write through an aperture is stored, merged, mirrored or discarded. -/
  | bar4Write (function : Nat) (offset : Nat) (data : List (BitVec 8)) (partner : PartnerCopies)
  /-- RAILS_OK_LOW (R558). RAILS_OK low for two cycles outside N3 or trip causes a warm reset losing the stacks. -/
  | railsOkLow
  /-- CRYSTAL_RETURN (R507). The board crystal runs again and the warm node reset held since its loss is released. -/
  | crystalReturn
  /-- GROUND_SUPPLY_RETURN (R554). VDD_GND comes back after a loss and the node enters a cold node reset with key memory lost. -/
  | groundSupplyReturn
  /-- FLASH_CHANNEL_FAILURE (R340). A flash channel fails and its logical pages complete with unavailable until it is ready again. -/
  | flashChannelFailure (channel : Nat)
  /-- FLASH_CHANNEL_RETRAIN (R516). A flash channel retrains its interface in service, holding its queued work for at most 2,500
  gc. -/
  | flashChannelRetrain (channel : Nat)
  /-- SUSPECT_RESEND (R427). 50,000 gc after a watcher's first suspicion it resends SUSPECT to the next coordinator. -/
  | suspectResend (node : Nat)
  /-- HOST_READ_COMPLETION (R533). A successful PCI Express completion arrives for a bus-master read of a T2 stroke, queue entry,
  lease line or management frame. -/
  | hostReadCompletion (read : HostRead) (data : List (BitVec 8))
  /-- AVSBUS_ACKNOWLEDGE (R553). The regulator acknowledges that a bay or node rail set point has settled, moving that rail's
  warning and reset levels. -/
  | avsbusAcknowledge (rail : Nat)
  /-- FLASH_FORMAT_DONE (R337). FORMAT finishes erasing and unmapping, clears FORMATTING and fixes LPAGES and the configuration. -/
  | flashFormatDone
  deriving DecidableEq, Repr

end Sys2Proof
end

