-- ==== Sys2Proof/Decode.lean ====
section
/-! DEFINITION. The commands a word of spec/opcode_table.json spells. No row of that table gives its command any bits, so no
word spells one (log entry 20 DESIGN CHOICE). -/

namespace Sys2Proof

/-- The command whose table bits are `w`: the table gives no row bits, so there is none (log entry 20 DESIGN CHOICE). -/
def decodeTableWord (_nbits _w : Nat) : Option Instr := none

end Sys2Proof
end

