-- ==== Sys2Proof/Config.lean ====
section
/-! DEFINITION. What one part or its environment fixes, and the values the spec leaves open: constants without a body,
so that no proof can see what they are. -/

namespace Sys2Proof.Config

/-- The number the device was given at manufacture (R571; log entry 4 DESIGN CHOICE). -/
opaque deviceNumber : BitVec 64

/-- The device identifier GLOBAL.ID.DEVID: never 0 and never all ones (R571). Log entry 4 DESIGN CHOICE. -/
def devid : BitVec 64 := if deviceNumber = 0 ∨ deviceNumber = BitVec.allOnes 64 then 1 else deviceNumber

/-- How many steppings of the silicon came before this part's (R571; log entry 4 DESIGN CHOICE). -/
opaque steppings : Nat

/-- The silicon stepping GLOBAL.VER.STEP, 8 bits (R571). Log entry 4 DESIGN CHOICE. -/
def stepping : Nat := steppings % 256

/-- What each stack's threshold lies above 85 °C, set at manufacture (R571; log entry 4 DESIGN CHOICE). -/
opaque stackMargin : Nat → Nat

/-- BAY.STK.THERM.THRESH of each stack: 85 to 95 °C (R571). Log entry 4 DESIGN CHOICE. -/
def stackThresh (b : Nat) : Nat := 85 + stackMargin b % 11

/-- The board strap PCIE_BIF at the cold node reset State.reset stands after (R530; log entry 4 DESIGN CHOICE). -/
opaque pcieBif : Bool

/-- What a bay's engine queue holds beyond one descriptor; the spec gives no depth (R134; log entry 8 DEDUCED). -/
opaque engineExtra : Nat

/-- The number of descriptors a bay's engine queue holds: at least one, since DMA.POST queues its descriptor (R134; log entry 8
DEDUCED). -/
def engineDepth : Nat := engineExtra + 1

/-- The number of entries of a bay's trace buffer; the spec gives no depth (R152; log entry 8 DEDUCED). -/
opaque traceDepth : Nat

/-- The free value number `n`: what a machine that goes on holds where the spec leaves a value undefined or unstated
(log entry 13 DESIGN CHOICE). A use takes it modulo the width of the value. -/
opaque freeNat : Nat → Nat

/-- Where VEXP2 goes from the lower to the upper neighbour of an inexact result: for the lower neighbour, the fraction of the
distance (in units of 2^-64) from which the upper one is returned. The spec leaves the choice to the part, the same for the
same input and monotonic (R168; log entry 16 DESIGN CHOICE). -/
opaque exp2Threshold : Nat → Nat

/-- As `exp2Threshold`, for VLOG2 (R168; log entry 16 DESIGN CHOICE). -/
opaque log2Threshold : Nat → Nat

/-- The code lengths the engine builds from the counts of 256 byte values; the spec leaves them to the part within bounds
(R181; log entry 17 DESIGN CHOICE). A table outside the bounds is not used. -/
opaque codeLengths : List Nat → List Nat

/-- The form of a word of a flash channel's map, by the place of its page (0 unmapped): R329 gives its size alone (log entry 123
DESIGN CHOICE). -/
opaque mapWord : Nat → Nat

/-- The bytes of a stroke on the host bus, ciphertext and tag, from the key, the tweak and the data (R323, R453; log entry 15
DESIGN CHOICE). -/
opaque wireByte : Nat → Nat → List Nat → Nat → Nat

/-- What STRIDE holds in a data block without a transform, for the region's stride; it is ignored there (R175; log entry 99 DESIGN
CHOICE). -/
opaque idleStride : Nat → Nat

/-- The source kind of a doorbell record (R83) whose source the spec gives no code: 0 DB.RING, 1 the completion of a LAUNCH, 2
the engine (log entry 23 DESIGN CHOICE). -/
opaque sourceKind : Nat → Nat

/-- What a launch completion puts into the value and the upper bits of a doorbell record (R82, R83): from the tag, the code and 16
times the status, the bay and the logical easel (log entry 23 DESIGN CHOICE). -/
opaque launchRecord : Nat → Nat → Nat → Nat → Nat × Nat

/-- SHA-256 of a string of bytes; the spec uses the algorithm by name and does not define it (R77, R442; log entry 24 DESIGN
CHOICE). -/
opaque sha256 : List (BitVec 8) → Nat

/-- The MAC address of an optical port, derived from the device identity by a rule that the spec does not give (R376).
Log entry 133 DESIGN CHOICE. -/
opaque portMac : BitVec 64 → Nat → BitVec 48

/-- The bytes a scheduler instance charges for `n` payload bytes of the node's own traffic: R354 gives the frame of an optical port
only (log entry 26 DEDUCED). -/
opaque frameBytes : Nat → Nat → Nat

/-- What a client connection's 256-byte record holds beside its policer binding; R373 and R391 give no layout for the rest (log
entry 27): whether the connection is open, its peer, its peer's connection number and RXCUM, and the record with a new RXCUM.
Log entry 27 DESIGN CHOICE. -/
opaque cliOpen : List (BitVec 8) → Bool
@[inherit_doc cliOpen] opaque cliPeer : List (BitVec 8) → Nat
@[inherit_doc cliOpen] opaque cliPeerConn : List (BitVec 8) → Nat
@[inherit_doc cliOpen] opaque cliRxcum : List (BitVec 8) → Nat
@[inherit_doc cliOpen] opaque cliPack : List (BitVec 8) → Nat → List (BitVec 8)

/-- The RSA and certificate operations of the root of trust, which the spec uses by name (R442; log entry 29 DESIGN CHOICE): the
certificate chain (R446), a signature by the identity key, the public modulus of the wrapping key number `n` and the plaintext it
unwraps a bundle to, and whether a signature over a message holds under a modulus. -/
opaque certChain : List (BitVec 8)
@[inherit_doc certChain] opaque rsaSign : List (BitVec 8) → List (BitVec 8)
@[inherit_doc certChain] opaque wrapModulus : Nat → List (BitVec 8)
@[inherit_doc certChain] opaque rsaUnwrap : Nat → List (BitVec 8) → Option (List (BitVec 8))
@[inherit_doc certChain] opaque rsaVerify : List (BitVec 8) → List (BitVec 8) → List (BitVec 8) → Bool

/-- The signer digests held in ROM (R466, R522): the two of the image manifests and the one of the licence records.
Log entry 29 DESIGN CHOICE. -/
opaque fwSigners : Nat × Nat
@[inherit_doc fwSigners] opaque licSigner : Nat

/-- Where KEY.QUERY puts a slot's state, its owner and partner pending: DETAIL and the response's bytes. R445 names the three and
gives them no layout. Log entry 101 DESIGN CHOICE. -/
opaque queryAnswer : Nat → Nat → Bool → Nat × List (BitVec 8)

/-- The digest list a Drevos runtime component holds (R465); the spec gives no layout of it (log entry 29 DESIGN CHOICE). -/
opaque runtimeDigests : List (BitVec 8) → List Nat

/-- The base voltage of VDD_BAYb (b 0 to 15) and of VDD_NODE (16) in the margin plan, and VccQ of NV-LPDDR4 (17), in microvolts:
the spec gives no number (R552, R553, R556; log entry 30 DESIGN CHOICE). -/
opaque baseVolt : Nat → Nat

end Sys2Proof.Config
end

