-- ==== Sys2Proof/Machine/Regs.lean ====
section
/-! DEFINITION. The register file's map: for every register of the spec's register tables its BAR0 offset
(R537; a register of BAR2 lies at 0x400_0000 plus its BAR2 offset in the model's numbering, log entry 14 DESIGN CHOICE), its fields,
and the kinds of R9, the sticky marks of R10 and the After reset values of R11 as bit masks.

Each offset is one definition with the indices of its array as arguments; each field is `⟨lowest bit, width⟩`.
Fields are not commented one by one: the name is the register's and the field's name in the tables. -/

namespace Sys2Proof.Machine

/-- A field of a register: its lowest bit and its width. -/
structure Fld where
  lo : Nat
  w : Nat
  deriving DecidableEq, Repr

/-- One register of the tables, or an array of up to two indices of one register: `base`, the counts and strides of the
indices, and the masks of its read-write, read, clear-on-one and acting (set-on-one or write-only) fields, of its sticky
fields, and its After reset value (R9 to R11). -/
structure RegSpec where
  base : Nat
  n1 : Nat
  s1 : Nat
  n2 : Nat
  s2 : Nat
  rw : Nat
  ro : Nat
  w1c : Nat
  act : Nat
  sticky : Nat
  reset : Nat
  deriving DecidableEq, Repr

namespace Reg

/-- CAT.CTRL (R67, 02_sessions_catalogue.md). -/
def catCtrl : Nat := 0x2200000
/-- CAT.STATUS (R67, 02_sessions_catalogue.md). -/
def catStatus : Nat := 0x2200008
/-- CAT.EXPECT (R67, 02_sessions_catalogue.md). -/
def catExpect : Nat := 0x2200010
/-- CAT.LIVEWR (R67, 02_sessions_catalogue.md). -/
def catLivewr : Nat := 0x2200018
/-- CAT.JRNL (R67, 02_sessions_catalogue.md). -/
def catJrnl : Nat := 0x2200020
/-- CAT.JRNLPOP (R67, 02_sessions_catalogue.md). -/
def catJrnlpop : Nat := 0x2200028
/-- CAT.ERR (R67, 02_sessions_catalogue.md). -/
def catErr : Nat := 0x2200030
/-- CAT.SCRUB (R67, 02_sessions_catalogue.md). -/
def catScrub : Nat := 0x2200040
/-- CAT.SIZE (R67, 02_sessions_catalogue.md). -/
def catSize : Nat := 0x2200048
/-- EASEL.CTRL (R108, 03_drevos_programming_model.md). -/
def easelCtrl (b e : Nat) : Nat := 0x100000 + b * 0x100000 + e * 0x10000
/-- EASEL.STATUS (R108, 03_drevos_programming_model.md). -/
def easelStatus (b e : Nat) : Nat := 0x100008 + b * 0x100000 + e * 0x10000
/-- EASEL.PC (R108, 03_drevos_programming_model.md). -/
def easelPc (b e : Nat) : Nat := 0x100010 + b * 0x100000 + e * 0x10000
/-- EASEL.EXC (R108, 03_drevos_programming_model.md). -/
def easelExc (b e : Nat) : Nat := 0x100018 + b * 0x100000 + e * 0x10000
/-- EASEL.EXCADDR (R108, 03_drevos_programming_model.md). -/
def easelExcaddr (b e : Nat) : Nat := 0x100020 + b * 0x100000 + e * 0x10000
/-- EASEL.SEED (R108, 03_drevos_programming_model.md). -/
def easelSeed (b e : Nat) : Nat := 0x100028 + b * 0x100000 + e * 0x10000
/-- EASEL.RUNTIME (R108, 03_drevos_programming_model.md). -/
def easelRuntime (b e : Nat) : Nat := 0x100030 + b * 0x100000 + e * 0x10000
/-- BAY.PROG[n] word 0 (R109, 03_drevos_programming_model.md). -/
def bayProg0 (b n : Nat) : Nat := 0x1C0000 + b * 0x100000 + n * 0x10
/-- BAY.PROG[n] word 1 (R109, 03_drevos_programming_model.md). -/
def bayProg1 (b n : Nat) : Nat := 0x1C0008 + b * 0x100000 + n * 0x10
/-- BAY.DB[d] word 0 (R109, 03_drevos_programming_model.md). -/
def bayDb0 (b d : Nat) : Nat := 0x1C1000 + b * 0x100000 + d * 0x10
/-- BAY.DB[d] word 1 (R109, 03_drevos_programming_model.md). -/
def bayDb1 (b d : Nat) : Nat := 0x1C1008 + b * 0x100000 + d * 0x10
/-- BAY.BIND[n] word 0 (R109, 03_drevos_programming_model.md). -/
def bayBind0 (b n : Nat) : Nat := 0x1C2000 + b * 0x100000 + n * 0x10
/-- BAY.BIND[n] word 1 (R109, 03_drevos_programming_model.md). -/
def bayBind1 (b n : Nat) : Nat := 0x1C2008 + b * 0x100000 + n * 0x10
/-- BAY.TIMER[k] (R109, 03_drevos_programming_model.md). -/
def bayTimer (b k : Nat) : Nat := 0x1C3000 + b * 0x100000 + k * 0x8
/-- BAY.DISP.STATUS (R109, 03_drevos_programming_model.md). -/
def bayDispStatus (b : Nat) : Nat := 0x1C3100 + b * 0x100000
/-- BAY.DISP.ERR (R109, 03_drevos_programming_model.md). -/
def bayDispErr (b : Nat) : Nat := 0x1C3108 + b * 0x100000
/-- EASEL.XTBL (R187, 05_palette_compression.md). -/
def easelXtbl (b e : Nat) : Nat := 0x100038 + b * 0x100000 + e * 0x10000
/-- BAY.CMP.CTRL (R186, 05_palette_compression.md). -/
def bayCmpCtrl (b : Nat) : Nat := 0x1F0800 + b * 0x100000
/-- BAY.CMP.STATUS (R186, 05_palette_compression.md). -/
def bayCmpStatus (b : Nat) : Nat := 0x1F0808 + b * 0x100000
/-- BAY.CMP.ERR (R186, 05_palette_compression.md). -/
def bayCmpErr (b : Nat) : Nat := 0x1F0810 + b * 0x100000
/-- BAY.CMP.LASTDMG (R186, 05_palette_compression.md). -/
def bayCmpLastdmg (b : Nat) : Nat := 0x1F0818 + b * 0x100000
/-- BAY.CMP.RAWIN (R186, 05_palette_compression.md). -/
def bayCmpRawin (b : Nat) : Nat := 0x1F0820 + b * 0x100000
/-- BAY.CMP.STOREDOUT (R186, 05_palette_compression.md). -/
def bayCmpStoredout (b : Nat) : Nat := 0x1F0828 + b * 0x100000
/-- BAY.SPS.READ (R248, 07_certified_sparse_attention.md). -/
def baySpsRead (b : Nat) : Nat := 0x1F0C00 + b * 0x100000
/-- BAY.SPS.SKIP (R248, 07_certified_sparse_attention.md). -/
def baySpsSkip (b : Nat) : Nat := 0x1F0C08 + b * 0x100000
/-- BAY.SPS.FORCED (R248, 07_certified_sparse_attention.md). -/
def baySpsForced (b : Nat) : Nat := 0x1F0C10 + b * 0x100000
/-- BAY.SPS.SKDMG (R248, 07_certified_sparse_attention.md). -/
def baySpsSkdmg (b : Nat) : Nat := 0x1F0C18 + b * 0x100000
/-- BAY.SPS.LASTDMG (R248, 07_certified_sparse_attention.md). -/
def baySpsLastdmg (b : Nat) : Nat := 0x1F0C20 + b * 0x100000
/-- BAY.SPS.CTRL (R248, 07_certified_sparse_attention.md). -/
def baySpsCtrl (b : Nat) : Nat := 0x1F0C28 + b * 0x100000
/-- BAY.WS.CTRL (R269, 08_decode_engine.md). -/
def bayWsCtrl (b : Nat) : Nat := 0x1F1000 + b * 0x100000
/-- BAY.WS.STATUS (R269, 08_decode_engine.md). -/
def bayWsStatus (b : Nat) : Nat := 0x1F1008 + b * 0x100000
/-- BAY.WS.ERR (R269, 08_decode_engine.md). -/
def bayWsErr (b : Nat) : Nat := 0x1F1010 + b * 0x100000
/-- BAY.WS.ERRLOC (R269, 08_decode_engine.md). -/
def bayWsErrloc (b : Nat) : Nat := 0x1F1018 + b * 0x100000
/-- BAY.WS.STROKES (R269, 08_decode_engine.md). -/
def bayWsStrokes (b : Nat) : Nat := 0x1F1020 + b * 0x100000
/-- BAY.WS.LANE[e] word 0 (R269, 08_decode_engine.md). -/
def bayWsLane0 (b e : Nat) : Nat := 0x1F1100 + b * 0x100000 + e * 0x20
/-- BAY.WS.LANE[e] word 1 (R269, 08_decode_engine.md). -/
def bayWsLane1 (b e : Nat) : Nat := 0x1F1108 + b * 0x100000 + e * 0x20
/-- BAY.WS.LANE[e] word 2 (R269, 08_decode_engine.md). -/
def bayWsLane2 (b e : Nat) : Nat := 0x1F1110 + b * 0x100000 + e * 0x20
/-- BAY.WS.LANE[e] word 3 (R269, 08_decode_engine.md). -/
def bayWsLane3 (b e : Nat) : Nat := 0x1F1118 + b * 0x100000 + e * 0x20
/-- BAY.SLOTMAP (R304, 09_memory_stacks_near_bank.md). -/
def baySlotmap (b : Nat) : Nat := 0x1E0000 + b * 0x100000
/-- BAY.STK.STATUS (R304, 09_memory_stacks_near_bank.md). -/
def bayStkStatus (b : Nat) : Nat := 0x1E0008 + b * 0x100000
/-- BAY.STK.THERM (R304, 09_memory_stacks_near_bank.md). -/
def bayStkTherm (b : Nat) : Nat := 0x1E0010 + b * 0x100000
/-- BAY.STK.ECC (R304, 09_memory_stacks_near_bank.md). -/
def bayStkEcc (b : Nat) : Nat := 0x1E0018 + b * 0x100000
/-- BAY.STK.ERRLOC (R304, 09_memory_stacks_near_bank.md). -/
def bayStkErrloc (b : Nat) : Nat := 0x1E0020 + b * 0x100000
/-- BAY.STK.REMAP (R304, 09_memory_stacks_near_bank.md). -/
def bayStkRemap (b : Nat) : Nat := 0x1E0028 + b * 0x100000
/-- BAY.STK.REMAPCTL (R304, 09_memory_stacks_near_bank.md). -/
def bayStkRemapctl (b : Nat) : Nat := 0x1E0030 + b * 0x100000
/-- BAY.STK.MAPERR (R304, 09_memory_stacks_near_bank.md). -/
def bayStkMaperr (b : Nat) : Nat := 0x1E0038 + b * 0x100000
/-- BAY.REGION[n] (R304, 09_memory_stacks_near_bank.md). -/
def bayRegion (b n : Nat) : Nat := 0x1E0100 + b * 0x100000 + n * 0x8
/-- BAY.HEAT.CTRL (R336, 10_tiers_flash.md). -/
def bayHeatCtrl (b : Nat) : Nat := 0x1F1400 + b * 0x100000
/-- BAY.HEAT.STATUS (R336, 10_tiers_flash.md). -/
def bayHeatStatus (b : Nat) : Nat := 0x1F1408 + b * 0x100000
/-- BAY.HEAT.EVICT (R336, 10_tiers_flash.md). -/
def bayHeatEvict (b : Nat) : Nat := 0x1F1410 + b * 0x100000
/-- FLASH.CTRL (R337, 10_tiers_flash.md). -/
def flashCtrl : Nat := 0x2820000
/-- FLASH.STATUS (R337, 10_tiers_flash.md). -/
def flashStatus : Nat := 0x2820008
/-- FLASH.CFG (R337, 10_tiers_flash.md). -/
def flashCfg : Nat := 0x2820010
/-- FLASH.CAP (R337, 10_tiers_flash.md). -/
def flashCap : Nat := 0x2820018
/-- FLASH.PATROL (R337, 10_tiers_flash.md). -/
def flashPatrol : Nat := 0x2820020
/-- FLASH.CH.STATUS (R338, 10_tiers_flash.md). -/
def flashChStatus (c : Nat) : Nat := 0x2800000 + c * 0x1000
/-- FLASH.CH.MAPBASE (R338, 10_tiers_flash.md). -/
def flashChMapbase (c : Nat) : Nat := 0x2800008 + c * 0x1000
/-- FLASH.CH.WEAR (R338, 10_tiers_flash.md). -/
def flashChWear (c : Nat) : Nat := 0x2800010 + c * 0x1000
/-- FLASH.CH.ERR (R338, 10_tiers_flash.md). -/
def flashChErr (c : Nat) : Nat := 0x2800018 + c * 0x1000
/-- FLASH.CH.LASTLOST (R338, 10_tiers_flash.md). -/
def flashChLastlost (c : Nat) : Nat := 0x2800020 + c * 0x1000
/-- FLASH.CH.PATROL (R338, 10_tiers_flash.md). -/
def flashChPatrol (c : Nat) : Nat := 0x2800028 + c * 0x1000
/-- FLASH.CH.MAPLEN (R338, 10_tiers_flash.md). -/
def flashChMaplen (c : Nat) : Nat := 0x2800030 + c * 0x1000
/-- TIER2.EXT[n] word 0 (R339, 10_tiers_flash.md). -/
def tier2Ext0 (n : Nat) : Nat := 0x2828000 + n * 0x10
/-- TIER2.EXT[n] word 1 (R339, 10_tiers_flash.md). -/
def tier2Ext1 (n : Nat) : Nat := 0x2828008 + n * 0x10
/-- PORT.CTRL (R377, 11_fabric_transport.md). -/
def portCtrl (p : Nat) : Nat := 0x2000000 + p * 0x40000
/-- PORT.NEG (R377, 11_fabric_transport.md). -/
def portNeg (p : Nat) : Nat := 0x2000008 + p * 0x40000
/-- PORT.STATUS (R377, 11_fabric_transport.md). -/
def portStatus (p : Nat) : Nat := 0x2000010 + p * 0x40000
/-- PORT.EVT (R377, 11_fabric_transport.md). -/
def portEvt (p : Nat) : Nat := 0x2000018 + p * 0x40000
/-- PORT.FEC (R377, 11_fabric_transport.md). -/
def portFec (p : Nat) : Nat := 0x2000020 + p * 0x40000
/-- PORT.RXERR (R377, 11_fabric_transport.md). -/
def portRxerr (p : Nat) : Nat := 0x2000028 + p * 0x40000
/-- PORT.DROP (R377, 11_fabric_transport.md). -/
def portDrop (p : Nat) : Nat := 0x2000030 + p * 0x40000
/-- PORT.RETX (R377, 11_fabric_transport.md). -/
def portRetx (p : Nat) : Nat := 0x2000038 + p * 0x40000
/-- PORT.TEST (R377, 11_fabric_transport.md). Log entry 102 DESIGN CHOICE. -/
def portTest (p : Nat) : Nat := 0x2000040 + p * 0x40000
/-- FAB.CTRL (R378, 11_fabric_transport.md). -/
def fabCtrl : Nat := 0x2030000
/-- FAB.ID (R378, 11_fabric_transport.md). -/
def fabId : Nat := 0x2030008
/-- FAB.TIMER (R378, 11_fabric_transport.md). -/
def fabTimer : Nat := 0x2030010
/-- FAB.CONNOP (R378, 11_fabric_transport.md). -/
def fabConnop : Nat := 0x2030018
/-- FAB.CONNDATA0 (R378, 11_fabric_transport.md). -/
def fabConndata0 : Nat := 0x2030020
/-- FAB.CONNDATA1 (R378, 11_fabric_transport.md). -/
def fabConndata1 : Nat := 0x2030028
/-- FAB.REGOP (R378, 11_fabric_transport.md). -/
def fabRegop : Nat := 0x2030030
/-- FAB.REGDATA0 (R378, 11_fabric_transport.md). -/
def fabRegdata0 : Nat := 0x2030038
/-- FAB.REGDATA1 (R378, 11_fabric_transport.md). -/
def fabRegdata1 : Nat := 0x2030040
/-- FAB.REGDATA2 (R378, 11_fabric_transport.md). -/
def fabRegdata2 : Nat := 0x2030048
/-- FAB.CLI (R378, 11_fabric_transport.md). -/
def fabCli : Nat := 0x2030050
/-- FAB.CLIOP (R378, 11_fabric_transport.md). -/
def fabCliop : Nat := 0x2030058
/-- FAB.STATUS (R378, 11_fabric_transport.md). -/
def fabStatus : Nat := 0x2030060
/-- FAB.ERR (R378, 11_fabric_transport.md). -/
def fabErr : Nat := 0x2030068
/-- SCHED.PORT (R396, 12_traffic_scheduling.md). -/
def schedPort (i : Nat) : Nat := 0x3000000 + i * 0x80000
/-- SCHED.STATUS (R396, 12_traffic_scheduling.md). -/
def schedStatus (i : Nat) : Nat := 0x3000008 + i * 0x80000
/-- SCHED.ERR (R396, 12_traffic_scheduling.md). -/
def schedErr (i : Nat) : Nat := 0x3000010 + i * 0x80000
/-- SCHED.SVC[s] word 0 (R396, 12_traffic_scheduling.md). -/
def schedSvc0 (i v : Nat) : Nat := 0x3000100 + i * 0x80000 + v * 0x10
/-- SCHED.SVC[s] word 1 (R396, 12_traffic_scheduling.md). -/
def schedSvc1 (i v : Nat) : Nat := 0x3000108 + i * 0x80000 + v * 0x10
/-- SCHED.SUBOP (R396, 12_traffic_scheduling.md). -/
def schedSubop (i : Nat) : Nat := 0x3000200 + i * 0x80000
/-- SCHED.SUBDATA0 (R396, 12_traffic_scheduling.md). -/
def schedSubdata0 (i : Nat) : Nat := 0x3000208 + i * 0x80000
/-- SCHED.SUBDATA1 (R396, 12_traffic_scheduling.md). -/
def schedSubdata1 (i : Nat) : Nat := 0x3000210 + i * 0x80000
/-- SCHED.INPOL[k] word 0 (R396, 12_traffic_scheduling.md). -/
def schedInpol0 (i k : Nat) : Nat := 0x3000300 + i * 0x80000 + k * 0x20
/-- SCHED.INPOL[k] word 1 (R396, 12_traffic_scheduling.md). -/
def schedInpol1 (i k : Nat) : Nat := 0x3000308 + i * 0x80000 + k * 0x20
/-- SCHED.INPOL[k] word 2 (R396, 12_traffic_scheduling.md). -/
def schedInpol2 (i k : Nat) : Nat := 0x3000310 + i * 0x80000 + k * 0x20
/-- SCHED.INPOL[k] word 3 (R396, 12_traffic_scheduling.md). -/
def schedInpol3 (i k : Nat) : Nat := 0x3000318 + i * 0x80000 + k * 0x20
/-- POL.OP (R397, 12_traffic_scheduling.md). -/
def polOp : Nat := 0x3500000
/-- POL.DATA0 (R397, 12_traffic_scheduling.md). -/
def polData0 : Nat := 0x3500008
/-- POL.DATA1 (R397, 12_traffic_scheduling.md). -/
def polData1 : Nat := 0x3500010
/-- POL.DATA2 (R397, 12_traffic_scheduling.md). -/
def polData2 : Nat := 0x3500018
/-- POL.CNTG (R397, 12_traffic_scheduling.md). -/
def polCntg : Nat := 0x3500020
/-- POL.CNTY (R397, 12_traffic_scheduling.md). -/
def polCnty : Nat := 0x3500028
/-- POL.CNTR (R397, 12_traffic_scheduling.md). -/
def polCntr : Nat := 0x3500030
/-- POL.NCOP (R397, 12_traffic_scheduling.md). -/
def polNcop : Nat := 0x3500038
/-- POL.NCDATA (R397, 12_traffic_scheduling.md). -/
def polNcdata : Nat := 0x3500040
/-- SAMPLE.CTRL (R398, 12_traffic_scheduling.md). -/
def sampleCtrl : Nat := 0x3510000
/-- SAMPLE.RING (R398, 12_traffic_scheduling.md). -/
def sampleRing : Nat := 0x3510008
/-- SAMPLE.RINGLEN (R398, 12_traffic_scheduling.md). -/
def sampleRinglen : Nat := 0x3510010
/-- SAMPLE.PROD (R398, 12_traffic_scheduling.md). -/
def sampleProd : Nat := 0x3510018
/-- SAMPLE.CONS (R398, 12_traffic_scheduling.md). -/
def sampleCons : Nat := 0x3510020
/-- SAMPLE.ERR (R398, 12_traffic_scheduling.md). -/
def sampleErr : Nat := 0x3510028
/-- PAIR.CTRL (R433, 13_hanging_pair_faults.md). -/
def pairCtrl : Nat := 0x2400000
/-- PAIR.STATUS (R433, 13_hanging_pair_faults.md). -/
def pairStatus : Nat := 0x2400008
/-- PAIR.LOG (R433, 13_hanging_pair_faults.md). -/
def pairLog : Nat := 0x2400010
/-- PAIR.DIV (R433, 13_hanging_pair_faults.md). -/
def pairDiv : Nat := 0x2400018
/-- PAIR.AUDIT (R433, 13_hanging_pair_faults.md). -/
def pairAudit : Nat := 0x2400020
/-- MAP.EPOCH (R434, 13_hanging_pair_faults.md). -/
def mapEpoch : Nat := 0x2410000
/-- MAP.CTRL (R434, 13_hanging_pair_faults.md). -/
def mapCtrl : Nat := 0x2410008
/-- MAP.SEEDEPOCH (R434, 13_hanging_pair_faults.md). -/
def mapSeedepoch : Nat := 0x2410010
/-- MAP.MEMBEROP (R434, 13_hanging_pair_faults.md). -/
def mapMemberop : Nat := 0x2410018
/-- MAP.MEMBERDATA (R434, 13_hanging_pair_faults.md). -/
def mapMemberdata : Nat := 0x2410020
/-- MAP.PLAN[k], k = 0 to 3 (R434, 13_hanging_pair_faults.md). -/
def mapPlan (k : Nat) : Nat := 0x2410028 + k * 0x8
/-- MAP.FWDOP (R434, 13_hanging_pair_faults.md). -/
def mapFwdop : Nat := 0x2410048
/-- MAP.FWDDATA0 (R434, 13_hanging_pair_faults.md). -/
def mapFwddata0 : Nat := 0x2410050
/-- MAP.FWDDATA1 (R434, 13_hanging_pair_faults.md). -/
def mapFwddata1 : Nat := 0x2410058
/-- MAP.FWDDATA2 (R434, 13_hanging_pair_faults.md). -/
def mapFwddata2 : Nat := 0x2410060
/-- FLT.TIMER0 (R435, 13_hanging_pair_faults.md). -/
def fltTimer0 : Nat := 0x2420000
/-- FLT.TIMER1 (R435, 13_hanging_pair_faults.md). -/
def fltTimer1 : Nat := 0x2420008
/-- FLT.TIMER2 (R435, 13_hanging_pair_faults.md). -/
def fltTimer2 : Nat := 0x2420010
/-- FLT.STATUS (R435, 13_hanging_pair_faults.md). -/
def fltStatus : Nat := 0x2420018
/-- LEASE.CTRL (R435, 13_hanging_pair_faults.md). -/
def leaseCtrl : Nat := 0x2430000
/-- LEASE.STATUS (R435, 13_hanging_pair_faults.md). -/
def leaseStatus : Nat := 0x2430008
/-- LEASE.ERR (R435, 13_hanging_pair_faults.md). -/
def leaseErr : Nat := 0x2430010
/-- BAY.SPARE (R436, 13_hanging_pair_faults.md). -/
def baySpare (b : Nat) : Nat := 0x1D0000 + b * 0x100000
/-- ROT.MBX[c].CMD (R444, 14_security_update.md). -/
def rotMbxCmd (c : Nat) : Nat := 0x3800000 + c * 0x2000
/-- ROT.MBX[c].RESP (R444, 14_security_update.md). -/
def rotMbxResp (c : Nat) : Nat := 0x3800008 + c * 0x2000
/-- ROT.MBX[c].STATE (R444, 14_security_update.md). -/
def rotMbxState (c : Nat) : Nat := 0x3800010 + c * 0x2000
/-- ROT.STATUS (R444, 14_security_update.md). -/
def rotStatus : Nat := 0x3804000
/-- ROT.ARMEPOCH (R444, 14_security_update.md). -/
def rotArmepoch : Nat := 0x3804008
/-- ROT.SVN[k], k = 0 to 5 (R444, 14_security_update.md). -/
def rotSvn (k : Nat) : Nat := 0x3804010 + k * 0x8
/-- ROT.ERR (R444, 14_security_update.md). -/
def rotErr : Nat := 0x3804040
/-- PWR.CTRL (R504, 15_power_clocks_ageing.md). -/
def pwrCtrl : Nat := 0x3C00000
/-- PWR.STATUS (R504, 15_power_clocks_ageing.md). -/
def pwrStatus : Nat := 0x3C00008
/-- PWR.FREQ (R504, 15_power_clocks_ageing.md). -/
def pwrFreq : Nat := 0x3C00010
/-- PWR.SUPPLY (R504, 15_power_clocks_ageing.md). -/
def pwrSupply : Nat := 0x3C00018
/-- PWR.DIPCFG (R504, 15_power_clocks_ageing.md). -/
def pwrDipcfg : Nat := 0x3C00020
/-- PWR.XOVR (R504, 15_power_clocks_ageing.md). -/
def pwrXovr : Nat := 0x3C00028
/-- PWR.AGE.CTRL (R504, 15_power_clocks_ageing.md). -/
def pwrAgeCtrl : Nat := 0x3C00030
/-- PWR.AGE.LIMITS (R504, 15_power_clocks_ageing.md). -/
def pwrAgeLimits : Nat := 0x3C00038
/-- PWR.AGE.EVT (R504, 15_power_clocks_ageing.md). -/
def pwrAgeEvt : Nat := 0x3C00040
/-- PWR.BAY[b] word 0 (R504, 15_power_clocks_ageing.md). -/
def pwrBay0 (b : Nat) : Nat := 0x3C00100 + b * 0x10
/-- PWR.BAY[b] word 1 (R504, 15_power_clocks_ageing.md). -/
def pwrBay1 (b : Nat) : Nat := 0x3C00108 + b * 0x10
/-- PWR.STK[b] (R504, 15_power_clocks_ageing.md). -/
def pwrStk (b : Nat) : Nat := 0x3C00200 + b * 0x8
/-- PWR.LASER[p] (R504, 15_power_clocks_ageing.md). -/
def pwrLaser (p : Nat) : Nat := 0x3C00280 + p * 0x8
/-- GLOBAL.READY (R513, 16_bringup_reset_licences.md). -/
def globalReady : Nat := 0x10
/-- GLOBAL.LIC (R525, 16_bringup_reset_licences.md). -/
def globalLic : Nat := 0x18
/-- GLOBAL.RESET (R525, 16_bringup_reset_licences.md). -/
def globalReset : Nat := 0x20
/-- GLOBAL.ID (R538, 17_host_interface_registers.md). -/
def globalId : Nat := 0x0
/-- GLOBAL.VER (R538, 17_host_interface_registers.md). -/
def globalVer : Nat := 0x8
/-- GLOBAL.EVCTRL (R538, 17_host_interface_registers.md). -/
def globalEvctrl : Nat := 0x40
/-- GLOBAL.EVBASE (R538, 17_host_interface_registers.md). -/
def globalEvbase : Nat := 0x48
/-- GLOBAL.EVPROD (R538, 17_host_interface_registers.md). -/
def globalEvprod : Nat := 0x50
/-- GLOBAL.EVCONS (R538, 17_host_interface_registers.md). -/
def globalEvcons : Nat := 0x58
/-- GLOBAL.EVERR (R538, 17_host_interface_registers.md). -/
def globalEverr : Nat := 0x60
/-- HOST.LINK (R539, 17_host_interface_registers.md). -/
def hostLink : Nat := 0x1000
/-- HOST.CFG (R539, 17_host_interface_registers.md). -/
def hostCfg : Nat := 0x1008
/-- HOST.ERR (R539, 17_host_interface_registers.md). -/
def hostErr : Nat := 0x1010
/-- HOST.AP[n] word 0 (R539, 17_host_interface_registers.md). -/
def hostAp0 (n : Nat) : Nat := 0x1100 + n * 0x10
/-- HOST.AP[n] word 1 (R539, 17_host_interface_registers.md). -/
def hostAp1 (n : Nat) : Nat := 0x1108 + n * 0x10
/-- HQ[q].SQBASE (R541, 17_host_interface_registers.md). -/
def hqSqbase (q : Nat) : Nat := 0x4000000 + q * 0x40
/-- HQ[q].CQBASE (R541, 17_host_interface_registers.md). -/
def hqCqbase (q : Nat) : Nat := 0x4000008 + q * 0x40
/-- HQ[q].CFG (R541, 17_host_interface_registers.md). -/
def hqCfg (q : Nat) : Nat := 0x4000010 + q * 0x40
/-- HQ[q].STATUS (R541, 17_host_interface_registers.md). -/
def hqStatus (q : Nat) : Nat := 0x4000018 + q * 0x40
/-- HQ[q].SQTAIL (R541, 17_host_interface_registers.md). -/
def hqSqtail (q : Nat) : Nat := 0x4001000 + q * 0x10
/-- HQ[q].CQHEAD (R541, 17_host_interface_registers.md). -/
def hqCqhead (q : Nat) : Nat := 0x4001008 + q * 0x10

/-! ## The fields -/

def catCtrl_START : Fld := ⟨0, 1⟩
def catCtrl_CLONE : Fld := ⟨1, 1⟩
def catCtrl_FLIP : Fld := ⟨2, 1⟩
def catCtrl_ABORT : Fld := ⟨3, 1⟩
def catCtrl_KEEP : Fld := ⟨4, 1⟩
def catStatus_STATE : Fld := ⟨0, 2⟩
def catStatus_LIVEBANK : Fld := ⟨2, 1⟩
def catStatus_FLIPSTALE : Fld := ⟨3, 1⟩
def catStatus_JOVF : Fld := ⟨4, 1⟩
def catStatus_SLICEUP : Fld := ⟨5, 16⟩
def catExpect_EXPECTWR : Fld := ⟨0, 32⟩
def catLivewr_COUNT : Fld := ⟨0, 32⟩
def catJrnl_ENTRY : Fld := ⟨0, 22⟩
def catJrnl_VALID : Fld := ⟨31, 1⟩
def catJrnlpop_POP : Fld := ⟨0, 1⟩
def catErr_POISONCNT : Fld := ⟨0, 16⟩
def catErr_LASTPOISON : Fld := ⟨16, 22⟩
def catErr_POISONEV : Fld := ⟨38, 1⟩
def catScrub_ENABLE : Fld := ⟨0, 1⟩
def catSize_ENTRIES : Fld := ⟨0, 23⟩
def catSize_CAREMASK : Fld := ⟨24, 1⟩
def easelCtrl_STOP : Fld := ⟨0, 1⟩
def easelCtrl_RESUME : Fld := ⟨1, 1⟩
def easelCtrl_RESET : Fld := ⟨2, 1⟩
def easelStatus_STATE : Fld := ⟨0, 3⟩
def easelStatus_PROG : Fld := ⟨3, 6⟩
def easelStatus_GEN : Fld := ⟨9, 16⟩
def easelStatus_PHYS : Fld := ⟨25, 4⟩
def easelPc_PC : Fld := ⟨0, 13⟩
def easelExc_CODE : Fld := ⟨0, 8⟩
def easelExc_EPC : Fld := ⟨8, 13⟩
def easelExc_PRECISE : Fld := ⟨21, 1⟩
def easelExc_DOUBLE : Fld := ⟨22, 1⟩
def easelExc_INFO : Fld := ⟨32, 32⟩
def easelExcaddr_LOC : Fld := ⟨0, 48⟩
def easelSeed_SEED : Fld := ⟨0, 64⟩
def easelRuntime_CYCLES : Fld := ⟨0, 64⟩
def bayProg0_LOC : Fld := ⟨0, 48⟩
def bayProg0_LENM1 : Fld := ⟨48, 13⟩
def bayProg0_VALID : Fld := ⟨63, 1⟩
def bayProg1_GEN : Fld := ⟨0, 16⟩
def bayProg1_ROLE : Fld := ⟨16, 4⟩
def bayProg1_ENTRY : Fld := ⟨20, 13⟩
def bayProg1_LIMIT : Fld := ⟨40, 24⟩
def bayDb0_ARRIVALS : Fld := ⟨0, 32⟩
def bayDb0_DEPTH : Fld := ⟨32, 6⟩
def bayDb0_OVF : Fld := ⟨38, 1⟩
def bayDb1_LOST : Fld := ⟨0, 32⟩
def bayBind0_SOURCE : Fld := ⟨0, 8⟩
def bayBind0_PROG : Fld := ⟨8, 6⟩
def bayBind0_MASK : Fld := ⟨14, 12⟩
def bayBind0_ENABLE : Fld := ⟨26, 1⟩
def bayBind0_ONESHOT : Fld := ⟨27, 1⟩
def bayBind1_ARG : Fld := ⟨0, 64⟩
def bayTimer_PERIOD : Fld := ⟨0, 32⟩
def bayTimer_ENABLE : Fld := ⟨32, 1⟩
def bayTimer_PERIODIC : Fld := ⟨33, 1⟩
def bayDispStatus_QDEPTH : Fld := ⟨0, 7⟩
def bayDispStatus_QCOPY : Fld := ⟨7, 1⟩
def bayDispErr_BUSY : Fld := ⟨0, 1⟩
def bayDispErr_ATTEST : Fld := ⟨1, 1⟩
def bayDispErr_DOUBLE : Fld := ⟨2, 1⟩
def bayDispErr_DBLOST : Fld := ⟨3, 1⟩
def easelXtbl_TID0 : Fld := ⟨0, 16⟩
def easelXtbl_TID1 : Fld := ⟨16, 16⟩
def easelXtbl_TID2 : Fld := ⟨32, 16⟩
def easelXtbl_TID3 : Fld := ⟨48, 16⟩
def bayCmpCtrl_VERIFY : Fld := ⟨0, 1⟩
def bayCmpCtrl_STATCLR : Fld := ⟨1, 1⟩
def bayCmpStatus_PASS : Fld := ⟨0, 2⟩
def bayCmpStatus_DONE : Fld := ⟨2, 7⟩
def bayCmpErr_DAMAGED : Fld := ⟨0, 16⟩
def bayCmpErr_DAMEV : Fld := ⟨16, 1⟩
def bayCmpErr_VERIFYFAIL : Fld := ⟨32, 16⟩
def bayCmpErr_VERIFYEV : Fld := ⟨48, 1⟩
def bayCmpLastdmg_LOC : Fld := ⟨0, 48⟩
def bayCmpLastdmg_BLOCKNO : Fld := ⟨48, 12⟩
def bayCmpLastdmg_CAUSE : Fld := ⟨60, 3⟩
def bayCmpRawin_BYTES : Fld := ⟨0, 64⟩
def bayCmpStoredout_BYTES : Fld := ⟨0, 64⟩
def baySpsRead_SHEETS : Fld := ⟨0, 64⟩
def baySpsSkip_SHEETS : Fld := ⟨0, 64⟩
def baySpsForced_SHEETS : Fld := ⟨0, 64⟩
def baySpsSkdmg_COUNT : Fld := ⟨0, 32⟩
def baySpsSkdmg_SKDMGEV : Fld := ⟨32, 1⟩
def baySpsLastdmg_LOC : Fld := ⟨0, 48⟩
def baySpsCtrl_CLR : Fld := ⟨0, 1⟩
def bayWsCtrl_ENABLE : Fld := ⟨0, 1⟩
def bayWsCtrl_PFD : Fld := ⟨1, 4⟩
def bayWsCtrl_KEYSLOT : Fld := ⟨8, 16⟩
def bayWsStatus_RUN : Fld := ⟨0, 12⟩
def bayWsStatus_ERRSTOP : Fld := ⟨12, 12⟩
def bayWsErr_LANE : Fld := ⟨0, 4⟩
def bayWsErr_CODE : Fld := ⟨4, 4⟩
def bayWsErr_ERREV : Fld := ⟨8, 1⟩
def bayWsErr_ENTRY : Fld := ⟨16, 12⟩
def bayWsErrloc_LOC : Fld := ⟨0, 48⟩
def bayWsStrokes_COUNT : Fld := ⟨0, 64⟩
def bayWsLane0_LIST : Fld := ⟨0, 48⟩
def bayWsLane1_RINGOFF : Fld := ⟨0, 22⟩
def bayWsLane1_RINGSZ : Fld := ⟨22, 13⟩
def bayWsLane1_FIRST : Fld := ⟨36, 12⟩
def bayWsLane2_ENTRY : Fld := ⟨0, 12⟩
def bayWsLane2_FETCHED : Fld := ⟨32, 32⟩
def bayWsLane3_START : Fld := ⟨0, 1⟩
def bayWsLane3_STOP : Fld := ⟨1, 1⟩
def baySlotmap_REFPOS : Fld := ⟨0, 7⟩
def baySlotmap_REFN : Fld := ⟨8, 2⟩
def baySlotmap_SCRUBPOS : Fld := ⟨16, 7⟩
def baySlotmap_SCRUBN : Fld := ⟨24, 3⟩
def baySlotmap_NBPOS : Fld := ⟨32, 7⟩
def baySlotmap_NBN : Fld := ⟨40, 3⟩
def bayStkStatus_READY : Fld := ⟨0, 1⟩
def bayStkStatus_TRAIN : Fld := ⟨1, 1⟩
def bayStkStatus_SELFREF : Fld := ⟨2, 1⟩
def bayStkStatus_TRIP : Fld := ⟨3, 1⟩
def bayStkStatus_TSTEP : Fld := ⟨4, 4⟩
def bayStkStatus_NBBUSY : Fld := ⟨8, 1⟩
def bayStkStatus_NBQ : Fld := ⟨9, 4⟩
def bayStkStatus_PBDEPTH : Fld := ⟨13, 9⟩
def bayStkStatus_FRAME : Fld := ⟨32, 32⟩
def bayStkTherm_TEMP : Fld := ⟨0, 8⟩
def bayStkTherm_THRESH : Fld := ⟨8, 8⟩
def bayStkTherm_MAXTEMP : Fld := ⟨16, 8⟩
def bayStkTherm_TRIPEV : Fld := ⟨24, 1⟩
def bayStkTherm_THROTEV : Fld := ⟨25, 1⟩
def bayStkEcc_CORR : Fld := ⟨0, 32⟩
def bayStkEcc_UNCORR : Fld := ⟨32, 16⟩
def bayStkEcc_CORREV : Fld := ⟨48, 1⟩
def bayStkEcc_UNCEV : Fld := ⟨49, 1⟩
def bayStkEcc_VOIDRD : Fld := ⟨50, 1⟩
def bayStkEcc_TAGMIS : Fld := ⟨51, 11⟩
def bayStkEcc_TAGEV : Fld := ⟨62, 1⟩
def bayStkErrloc_ADDR : Fld := ⟨0, 28⟩
def bayStkErrloc_SOURCE : Fld := ⟨28, 2⟩
def bayStkRemap_USED : Fld := ⟨0, 16⟩
def bayStkRemap_MINSPARE : Fld := ⟨16, 7⟩
def bayStkRemap_FULLEV : Fld := ⟨23, 1⟩
def bayStkRemap_PENDING : Fld := ⟨24, 9⟩
def bayStkRemap_REMAPEV : Fld := ⟨33, 1⟩
def bayStkRemapctl_CORRTH : Fld := ⟨0, 8⟩
def bayStkRemapctl_ENABLE : Fld := ⟨8, 1⟩
def bayStkMaperr_MAPBAD : Fld := ⟨0, 1⟩
def bayStkMaperr_REGBAD : Fld := ⟨1, 1⟩
def bayStkMaperr_NBFAIL : Fld := ⟨2, 1⟩
def bayRegion_BASE : Fld := ⟨0, 20⟩
def bayRegion_LEN : Fld := ⟨20, 20⟩
def bayRegion_CLEAR : Fld := ⟨40, 1⟩
def bayRegion_DETONLY : Fld := ⟨41, 1⟩
def bayRegion_VALID : Fld := ⟨63, 1⟩
def bayHeatCtrl_ENABLE : Fld := ⟨0, 1⟩
def bayHeatCtrl_CLEAR : Fld := ⟨1, 1⟩
def bayHeatCtrl_THRESH : Fld := ⟨16, 16⟩
def bayHeatCtrl_HALFLIFE : Fld := ⟨32, 32⟩
def bayHeatStatus_USED : Fld := ⟨0, 17⟩
def bayHeatStatus_TICK : Fld := ⟨32, 32⟩
def bayHeatEvict_COUNT : Fld := ⟨0, 32⟩
def flashCtrl_FORMAT : Fld := ⟨0, 1⟩
def flashCtrl_CKPT : Fld := ⟨1, 1⟩
def flashStatus_READY : Fld := ⟨0, 1⟩
def flashStatus_REBUILD : Fld := ⟨1, 1⟩
def flashStatus_FORMATTING : Fld := ⟨2, 1⟩
def flashStatus_CHREADY : Fld := ⟨3, 32⟩
def flashCfg_OPRES : Fld := ⟨0, 6⟩
def flashCfg_GCLOW : Fld := ⟨8, 6⟩
def flashCfg_RELTH : Fld := ⟨16, 8⟩
def flashCfg_CKPTBLK : Fld := ⟨32, 16⟩
def flashCap_LPAGES : Fld := ⟨0, 40⟩
def flashPatrol_PERIOD : Fld := ⟨0, 48⟩
def flashPatrol_ENABLE : Fld := ⟨48, 1⟩
def flashChStatus_READY : Fld := ⟨0, 1⟩
def flashChStatus_TRAIN : Fld := ⟨1, 1⟩
def flashChStatus_GEOMBAD : Fld := ⟨2, 1⟩
def flashChStatus_LUNS : Fld := ⟨3, 4⟩
def flashChStatus_FREE : Fld := ⟨32, 32⟩
def flashChMapbase_LOC : Fld := ⟨0, 48⟩
def flashChWear_MINERASE : Fld := ⟨0, 32⟩
def flashChWear_MAXERASE : Fld := ⟨32, 32⟩
def flashChErr_LOST : Fld := ⟨0, 16⟩
def flashChErr_RETIRED : Fld := ⟨16, 16⟩
def flashChErr_LOSTEV : Fld := ⟨32, 1⟩
def flashChErr_RETEV : Fld := ⟨33, 1⟩
def flashChLastlost_LPAGE : Fld := ⟨0, 40⟩
def flashChPatrol_PASSES : Fld := ⟨0, 32⟩
def flashChPatrol_RELOC : Fld := ⟨32, 32⟩
def flashChMaplen_STROKES : Fld := ⟨0, 32⟩
def tier2Ext0_VALID : Fld := ⟨0, 1⟩
def tier2Ext0_WITHDRAW : Fld := ⟨1, 1⟩
def tier2Ext0_GONE : Fld := ⟨2, 1⟩
def tier2Ext0_HBASE : Fld := ⟨12, 52⟩
def tier2Ext1_LEN : Fld := ⟨0, 32⟩
def portCtrl_ENABLE : Fld := ⟨0, 1⟩
def portCtrl_RENEG : Fld := ⟨1, 1⟩
def portCtrl_LANEOK : Fld := ⟨2, 8⟩
def portNeg_LANES : Fld := ⟨0, 4⟩
def portNeg_RATES : Fld := ⟨4, 3⟩
def portNeg_FECS : Fld := ⟨7, 2⟩
def portNeg_FRAMINGS : Fld := ⟨9, 2⟩
def portNeg_NFECMAX : Fld := ⟨16, 4⟩
def portNeg_MODELANES : Fld := ⟨32, 4⟩
def portNeg_MODERATE : Fld := ⟨36, 2⟩
def portNeg_MODEFEC : Fld := ⟨38, 1⟩
def portNeg_MODEFRAMING : Fld := ⟨39, 1⟩
def portStatus_STATE : Fld := ⟨0, 3⟩
def portStatus_PEERSW : Fld := ⟨3, 1⟩
def portStatus_PEER : Fld := ⟨4, 12⟩
def portStatus_PEERPORT : Fld := ⟨16, 3⟩
def portStatus_GOOD : Fld := ⟨19, 8⟩
def portEvt_DOWNEV : Fld := ⟨0, 1⟩
def portEvt_NFECDROP : Fld := ⟨1, 1⟩
def portEvt_DOWNS : Fld := ⟨16, 32⟩
def portFec_CORR : Fld := ⟨0, 32⟩
def portFec_UNCORR : Fld := ⟨32, 32⟩
def portRxerr_HCRC : Fld := ⟨0, 32⟩
def portRxerr_PCRC : Fld := ⟨32, 32⟩
def portDrop_WINERR : Fld := ⟨0, 16⟩
def portDrop_HDRBAD : Fld := ⟨16, 16⟩
def portDrop_MISSDROP : Fld := ⟨32, 16⟩
def portDrop_NOTME : Fld := ⟨48, 16⟩
def portRetx_COUNT : Fld := ⟨0, 32⟩
def portTest_LOOP : Fld := ⟨0, 2⟩
def portTest_PRBS : Fld := ⟨2, 1⟩
def portTest_PRBSERR : Fld := ⟨32, 32⟩
def fabCtrl_MODE : Fld := ⟨0, 2⟩
def fabId_NODE : Fld := ⟨0, 12⟩
def fabTimer_RTO : Fld := ⟨0, 16⟩
def fabTimer_REORDTOL : Fld := ⟨16, 8⟩
def fabTimer_RETRYMAX : Fld := ⟨24, 4⟩
def fabTimer_ACKEVERY : Fld := ⟨28, 4⟩
def fabTimer_ACKDLY : Fld := ⟨32, 8⟩
def fabTimer_REVDRAIN : Fld := ⟨40, 24⟩
def fabConnop_CONN : Fld := ⟨0, 12⟩
def fabConnop_WRITE : Fld := ⟨12, 1⟩
def fabConnop_READ : Fld := ⟨13, 1⟩
def fabConndata0_STATE : Fld := ⟨0, 3⟩
def fabConndata0_PEER : Fld := ⟨3, 12⟩
def fabConndata0_PEERCONN : Fld := ⟨15, 12⟩
def fabConndata0_PORTS : Fld := ⟨27, 8⟩
def fabConndata1_TXPSN : Fld := ⟨0, 16⟩
def fabConndata1_RXCUM : Fld := ⟨16, 16⟩
def fabConndata1_RETX : Fld := ⟨32, 32⟩
def fabRegop_INDEX : Fld := ⟨0, 16⟩
def fabRegop_WRITE : Fld := ⟨16, 1⟩
def fabRegop_READ : Fld := ⟨17, 1⟩
def fabRegop_REVOKE : Fld := ⟨18, 1⟩
def fabRegop_REVDONE : Fld := ⟨19, 1⟩
def fabRegop_REGREF : Fld := ⟨20, 1⟩
def fabRegdata0_STATE : Fld := ⟨0, 2⟩
def fabRegdata0_KIND : Fld := ⟨2, 1⟩
def fabRegdata0_CLIENT : Fld := ⟨3, 1⟩
def fabRegdata0_KEYTAG : Fld := ⟨8, 8⟩
def fabRegdata0_GEN : Fld := ⟨16, 16⟩
def fabRegdata0_LEN : Fld := ⟨32, 32⟩
def fabRegdata1_BASE : Fld := ⟨0, 64⟩
def fabRegdata2_OWNER : Fld := ⟨0, 16⟩
def fabRegdata2_CCONN : Fld := ⟨16, 20⟩
def fabCli_ENABLE : Fld := ⟨0, 1⟩
def fabCli_SPILLBASE : Fld := ⟨12, 52⟩
def fabCliop_CONN : Fld := ⟨0, 20⟩
def fabCliop_INVAL : Fld := ⟨20, 1⟩
def fabStatus_OPEN : Fld := ⟨0, 15⟩
def fabStatus_CACHED : Fld := ⟨16, 15⟩
def fabStatus_TXBUF : Fld := ⟨32, 12⟩
def fabErr_CONNFAIL : Fld := ⟨0, 16⟩
def fabErr_LASTFAIL : Fld := ⟨16, 12⟩
def fabErr_FAILEV : Fld := ⟨28, 1⟩
def fabErr_IDBAD : Fld := ⟨29, 1⟩
def fabErr_BUSYEV : Fld := ⟨30, 1⟩
def fabErr_CUTEV : Fld := ⟨31, 1⟩
def fabErr_CLIFULLEV : Fld := ⟨32, 1⟩
def schedPort_RATE : Fld := ⟨0, 32⟩
def schedPort_BURST : Fld := ⟨32, 24⟩
def schedStatus_BACKLOG : Fld := ⟨0, 17⟩
def schedErr_BUSY : Fld := ⟨0, 32⟩
def schedErr_BUSYEV : Fld := ⟨32, 1⟩
def schedSvc0_RATE : Fld := ⟨0, 32⟩
def schedSvc0_BURST : Fld := ⟨32, 24⟩
def schedSvc0_PRIO : Fld := ⟨56, 2⟩
def schedSvc1_WEIGHT : Fld := ⟨0, 8⟩
def schedSvc1_QLIM : Fld := ⟨8, 16⟩
def schedSubop_QUEUE : Fld := ⟨0, 16⟩
def schedSubop_WRITE : Fld := ⟨16, 1⟩
def schedSubop_READ : Fld := ⟨17, 1⟩
def schedSubdata0_RATE : Fld := ⟨0, 32⟩
def schedSubdata0_BURST : Fld := ⟨32, 24⟩
def schedSubdata0_WEIGHT : Fld := ⟨56, 8⟩
def schedSubdata1_MSGS : Fld := ⟨0, 16⟩
def schedSubdata1_HOLD : Fld := ⟨16, 32⟩
def schedInpol0_MODE : Fld := ⟨0, 2⟩
def schedInpol0_AWARE : Fld := ⟨2, 1⟩
def schedInpol0_ACTY : Fld := ⟨3, 1⟩
def schedInpol0_ACTR : Fld := ⟨4, 1⟩
def schedInpol1_CIR : Fld := ⟨0, 32⟩
def schedInpol1_CBS : Fld := ⟨32, 24⟩
def schedInpol2_PIR : Fld := ⟨0, 32⟩
def schedInpol2_PBS : Fld := ⟨32, 24⟩
def schedInpol3_DROPS : Fld := ⟨0, 64⟩
def polOp_INDEX : Fld := ⟨0, 16⟩
def polOp_WRITE : Fld := ⟨16, 1⟩
def polOp_READ : Fld := ⟨17, 1⟩
def polData0_MODE : Fld := ⟨0, 2⟩
def polData0_ACTY : Fld := ⟨3, 1⟩
def polData0_ACTR : Fld := ⟨4, 1⟩
def polData1_CIR : Fld := ⟨0, 32⟩
def polData1_CBS : Fld := ⟨32, 24⟩
def polData2_PIR : Fld := ⟨0, 32⟩
def polData2_PBS : Fld := ⟨32, 24⟩
def polCntg_PKTS : Fld := ⟨0, 64⟩
def polCnty_PKTS : Fld := ⟨0, 64⟩
def polCntr_PKTS : Fld := ⟨0, 64⟩
def polNcop_CONN : Fld := ⟨0, 12⟩
def polNcop_WRITE : Fld := ⟨12, 1⟩
def polNcop_READ : Fld := ⟨13, 1⟩
def polNcdata_POLICER : Fld := ⟨0, 16⟩
def polNcdata_ENABLE : Fld := ⟨16, 1⟩
def sampleCtrl_ENABLE : Fld := ⟨0, 1⟩
def sampleCtrl_INSTMASK : Fld := ⟨1, 10⟩
def sampleCtrl_INTERVAL : Fld := ⟨32, 32⟩
def sampleRing_LOC : Fld := ⟨0, 48⟩
def sampleRinglen_SLOTS : Fld := ⟨0, 24⟩
def sampleProd_INDEX : Fld := ⟨0, 32⟩
def sampleCons_INDEX : Fld := ⟨0, 32⟩
def sampleErr_LOSTREC : Fld := ⟨0, 32⟩
def sampleErr_SKIP : Fld := ⟨32, 32⟩
def pairCtrl_ENABLE : Fld := ⟨0, 1⟩
def pairCtrl_FABPATH : Fld := ⟨1, 1⟩
def pairCtrl_AUDIT : Fld := ⟨2, 1⟩
def pairCtrl_FABCONN : Fld := ⟨16, 12⟩
def pairCtrl_FABSVC : Fld := ⟨28, 4⟩
def pairCtrl_PAIRHOLD : Fld := ⟨32, 32⟩
def pairStatus_LINK : Fld := ⟨0, 2⟩
def pairStatus_FABACT : Fld := ⟨2, 1⟩
def pairStatus_UNREACH : Fld := ⟨3, 1⟩
def pairStatus_SOLO : Fld := ⟨4, 1⟩
def pairStatus_RESYNC : Fld := ⟨5, 1⟩
def pairStatus_PARTNER : Fld := ⟨6, 12⟩
def pairStatus_WINDOW : Fld := ⟨18, 13⟩
def pairStatus_GROUPS : Fld := ⟨31, 4⟩
def pairLog_FILL : Fld := ⟨0, 17⟩
def pairLog_OVFMASK : Fld := ⟨17, 16⟩
def pairLog_OVFEV : Fld := ⟨33, 1⟩
def pairDiv_COUNT : Fld := ⟨0, 32⟩
def pairDiv_DIVEV : Fld := ⟨32, 1⟩
def pairAudit_RATE : Fld := ⟨0, 32⟩
def pairAudit_PASSES : Fld := ⟨32, 32⟩
def mapEpoch_EPOCH : Fld := ⟨0, 32⟩
def mapEpoch_SEEDED : Fld := ⟨32, 1⟩
def mapEpoch_BEHIND : Fld := ⟨33, 1⟩
def mapCtrl_GRACE : Fld := ⟨0, 32⟩
def mapCtrl_PLAN : Fld := ⟨32, 1⟩
def mapCtrl_SEED : Fld := ⟨33, 1⟩
def mapCtrl_PLANDONE : Fld := ⟨34, 1⟩
def mapCtrl_PLANFAIL : Fld := ⟨35, 1⟩
def mapCtrl_NCHG : Fld := ⟨36, 5⟩
def mapSeedepoch_EPOCH : Fld := ⟨0, 32⟩
def mapMemberop_NODE : Fld := ⟨0, 10⟩
def mapMemberop_WRITE : Fld := ⟨10, 1⟩
def mapMemberop_READ : Fld := ⟨11, 1⟩
def mapMemberdata_STATE : Fld := ⟨0, 2⟩
def mapMemberdata_PARTNER : Fld := ⟨2, 12⟩
def mapPlan_CHG : Fld := ⟨0, 64⟩
def mapFwdop_INDEX : Fld := ⟨0, 14⟩
def mapFwdop_WRITE : Fld := ⟨14, 1⟩
def mapFwdop_READ : Fld := ⟨15, 1⟩
def mapFwddata0_OWNER : Fld := ⟨0, 16⟩
def mapFwddata0_SESSION : Fld := ⟨16, 32⟩
def mapFwddata0_HINT : Fld := ⟨48, 12⟩
def mapFwddata0_VALID : Fld := ⟨60, 1⟩
def mapFwddata0_ACTIVE : Fld := ⟨61, 1⟩
def mapFwddata1_PF : Fld := ⟨0, 18⟩
def mapFwddata1_NEWPF : Fld := ⟨18, 18⟩
def mapFwddata2_ACT : Fld := ⟨0, 32⟩
def fltTimer0_HBPERIOD : Fld := ⟨0, 32⟩
def fltTimer0_SUSPECT : Fld := ⟨32, 32⟩
def fltTimer1_CONFIRM : Fld := ⟨0, 32⟩
def fltTimer1_ACCWAIT : Fld := ⟨32, 32⟩
def fltTimer2_ISOLATE : Fld := ⟨0, 32⟩
def fltStatus_LASTDEC : Fld := ⟨0, 12⟩
def fltStatus_DECEV : Fld := ⟨12, 1⟩
def fltStatus_ISOLATED : Fld := ⟨13, 1⟩
def fltStatus_COLLEV : Fld := ⟨14, 1⟩
def fltStatus_DECISIONS : Fld := ⟨32, 32⟩
def leaseCtrl_PERIOD : Fld := ⟨0, 32⟩
def leaseStatus_HELD : Fld := ⟨0, 13⟩
def leaseErr_EXPIRED : Fld := ⟨0, 32⟩
def leaseErr_EXPEV : Fld := ⟨32, 1⟩
def leaseErr_LASTPF : Fld := ⟨33, 18⟩
def baySpare_PHYS : Fld := ⟨0, 4⟩
def baySpare_USED : Fld := ⟨4, 1⟩
def baySpare_FAILED : Fld := ⟨5, 12⟩
def baySpare_SWEV : Fld := ⟨17, 1⟩
def baySpare_EXHEV : Fld := ⟨18, 1⟩
def baySpare_LEFT : Fld := ⟨19, 4⟩
def rotMbxCmd_CODE : Fld := ⟨0, 16⟩
def rotMbxCmd_LEN : Fld := ⟨16, 13⟩
def rotMbxCmd_GO : Fld := ⟨32, 1⟩
def rotMbxResp_STATUS : Fld := ⟨0, 4⟩
def rotMbxResp_LEN : Fld := ⟨4, 13⟩
def rotMbxResp_DETAIL : Fld := ⟨32, 32⟩
def rotMbxState_STATE : Fld := ⟨0, 2⟩
def rotMbxState_DONEEV : Fld := ⟨2, 1⟩
def rotStatus_CONF : Fld := ⟨0, 1⟩
def rotStatus_RECOVERY : Fld := ⟨1, 1⟩
def rotStatus_ACTBANK : Fld := ⟨2, 1⟩
def rotStatus_STAGED : Fld := ⟨3, 1⟩
def rotStatus_ARMED : Fld := ⟨4, 1⟩
def rotStatus_ACTIVATING : Fld := ⟨5, 1⟩
def rotStatus_PAIRKEY : Fld := ⟨6, 1⟩
def rotArmepoch_EPOCH : Fld := ⟨0, 32⟩
def rotSvn_SVN : Fld := ⟨0, 32⟩
def rotErr_ACTFAIL : Fld := ⟨0, 1⟩
def rotErr_SVNPAIR : Fld := ⟨1, 1⟩
def rotErr_KEYFAULT : Fld := ⟨2, 1⟩
def rotErr_PAIRKEYBAD : Fld := ⟨3, 1⟩
def rotErr_WDOG : Fld := ⟨4, 1⟩
def pwrCtrl_N1 : Fld := ⟨0, 1⟩
def pwrCtrl_N2 : Fld := ⟨1, 1⟩
def pwrCtrl_N3 : Fld := ⟨2, 1⟩
def pwrCtrl_WAKE : Fld := ⟨3, 1⟩
def pwrCtrl_KEEPNARROW : Fld := ⟨4, 1⟩
def pwrCtrl_FREQLOCK : Fld := ⟨5, 1⟩
def pwrStatus_NSTATE : Fld := ⟨0, 2⟩
def pwrStatus_NARROW : Fld := ⟨2, 1⟩
def pwrStatus_BRAKE : Fld := ⟨3, 1⟩
def pwrStatus_RELOCK : Fld := ⟨4, 1⟩
def pwrStatus_REFUSED : Fld := ⟨5, 1⟩
def pwrStatus_DEEP : Fld := ⟨6, 16⟩
def pwrStatus_WAKING : Fld := ⟨22, 16⟩
def pwrFreq_BIN : Fld := ⟨0, 2⟩
def pwrFreq_FLOOR : Fld := ⟨2, 2⟩
def pwrSupply_WARN : Fld := ⟨0, 1⟩
def pwrSupply_DIPEV : Fld := ⟨1, 1⟩
def pwrSupply_LONGEV : Fld := ⟨2, 1⟩
def pwrSupply_DIPS : Fld := ⟨16, 16⟩
def pwrSupply_LASTLEN : Fld := ⟨32, 32⟩
def pwrDipcfg_RECOVER : Fld := ⟨0, 16⟩
def pwrDipcfg_LONG : Fld := ⟨16, 32⟩
def pwrXovr_BAYOVR : Fld := ⟨0, 16⟩
def pwrAgeCtrl_ENABLE : Fld := ⟨0, 1⟩
def pwrAgeCtrl_PERIOD : Fld := ⟨32, 32⟩
def pwrAgeLimits_PLANSLACK : Fld := ⟨0, 8⟩
def pwrAgeLimits_FAILSLACK : Fld := ⟨8, 8⟩
def pwrAgeLimits_GBMAX : Fld := ⟨16, 8⟩
def pwrAgeEvt_REPLANEV : Fld := ⟨0, 1⟩
def pwrAgeEvt_REPLANFAIL : Fld := ⟨1, 1⟩
def pwrAgeEvt_LEVER : Fld := ⟨2, 3⟩
def pwrAgeEvt_UNIT : Fld := ⟨5, 5⟩
def pwrAgeEvt_REPLANS : Fld := ⟨32, 32⟩
def pwrBay0_DEEPEN : Fld := ⟨0, 1⟩
def pwrBay0_MSGWAKE : Fld := ⟨1, 1⟩
def pwrBay0_IDLEGATE : Fld := ⟨2, 12⟩
def pwrBay0_IDLEOFF : Fld := ⟨14, 12⟩
def pwrBay0_DEEPDLY : Fld := ⟨32, 32⟩
def pwrBay1_STATE : Fld := ⟨0, 2⟩
def pwrBay1_GB : Fld := ⟨8, 8⟩
def pwrBay1_MINSLACK : Fld := ⟨16, 8⟩
def pwrBay1_SLOWEASEL : Fld := ⟨24, 4⟩
def pwrBay1_RO : Fld := ⟨32, 32⟩
def pwrStk_RMARGIN : Fld := ⟨0, 4⟩
def pwrStk_RNMIN : Fld := ⟨4, 2⟩
def pwrStk_SNMIN : Fld := ⟨6, 3⟩
def pwrStk_WEAK : Fld := ⟨16, 16⟩
def pwrLaser_BIAS : Fld := ⟨0, 8⟩
def pwrLaser_LANE : Fld := ⟨8, 3⟩
def pwrLaser_CEIL : Fld := ⟨16, 8⟩
def pwrLaser_WITHDRAWN : Fld := ⟨24, 8⟩
def globalReady_BAY : Fld := ⟨0, 16⟩
def globalReady_STACK : Fld := ⟨16, 16⟩
def globalReady_PORT : Fld := ⟨32, 8⟩
def globalReady_FLASH : Fld := ⟨40, 1⟩
def globalReady_CAT : Fld := ⟨41, 1⟩
def globalReady_PAIR : Fld := ⟨42, 1⟩
def globalReady_ROT : Fld := ⟨43, 1⟩
def globalReady_LIC : Fld := ⟨44, 1⟩
def globalReady_FABID : Fld := ⟨45, 1⟩
def globalReady_EPOCH : Fld := ⟨46, 1⟩
def globalReady_DROPEV : Fld := ⟨63, 1⟩
def globalLic_TIER : Fld := ⟨0, 2⟩
def globalLic_VALID : Fld := ⟨2, 1⟩
def globalLic_LICPEND : Fld := ⟨3, 1⟩
def globalLic_PENDTIER : Fld := ⟨4, 2⟩
def globalLic_PAIRTIER : Fld := ⟨6, 1⟩
def globalLic_REPAIRBAD : Fld := ⟨7, 1⟩
def globalLic_SVN : Fld := ⟨16, 32⟩
def globalReset_BAY : Fld := ⟨0, 16⟩
def globalReset_PART : Fld := ⟨16, 4⟩
def globalReset_WARM : Fld := ⟨20, 1⟩
def globalReset_COLD : Fld := ⟨21, 1⟩
def globalReset_LASTCAUSE : Fld := ⟨24, 4⟩
def globalId_DEVID : Fld := ⟨0, 64⟩
def globalVer_PART : Fld := ⟨0, 16⟩
def globalVer_STEP : Fld := ⟨16, 8⟩
def globalEvctrl_ENABLE : Fld := ⟨0, 1⟩
def globalEvctrl_FUNC : Fld := ⟨1, 1⟩
def globalEvctrl_LOG : Fld := ⟨4, 5⟩
def globalEvbase_HBASE : Fld := ⟨12, 52⟩
def globalEvprod_INDEX : Fld := ⟨0, 32⟩
def globalEvcons_INDEX : Fld := ⟨0, 32⟩
def globalEverr_LOST : Fld := ⟨0, 32⟩
def globalEverr_LOSTEV : Fld := ⟨32, 1⟩
def globalEverr_DEPTH : Fld := ⟨33, 10⟩
def hostLink_RATE0 : Fld := ⟨0, 3⟩
def hostLink_WIDTH0 : Fld := ⟨3, 5⟩
def hostLink_RATE1 : Fld := ⟨8, 3⟩
def hostLink_WIDTH1 : Fld := ⟨11, 5⟩
def hostLink_BIF : Fld := ⟨16, 1⟩
def hostLink_LOWRATE : Fld := ⟨17, 1⟩
def hostCfg_CPLTO : Fld := ⟨0, 32⟩
def hostCfg_BAR4SIZE : Fld := ⟨32, 2⟩
def hostCfg_BAR4PEND : Fld := ⟨34, 1⟩
def hostErr_CPLTO : Fld := ⟨0, 16⟩
def hostErr_BADACC : Fld := ⟨16, 16⟩
def hostErr_RXDROP : Fld := ⟨32, 16⟩
def hostErr_CPLTOEV : Fld := ⟨48, 1⟩
def hostErr_BADACCEV : Fld := ⟨49, 1⟩
def hostErr_DOWNEV : Fld := ⟨50, 1⟩
def hostErr_QERREV : Fld := ⟨51, 1⟩
def hostAp0_KIND : Fld := ⟨0, 2⟩
def hostAp0_WREN : Fld := ⟨2, 1⟩
def hostAp1_BASE : Fld := ⟨0, 64⟩
def hqSqbase_HBASE : Fld := ⟨12, 52⟩
def hqCqbase_HBASE : Fld := ⟨12, 52⟩
def hqCfg_ENABLE : Fld := ⟨0, 1⟩
def hqCfg_TYPE : Fld := ⟨1, 2⟩
def hqCfg_SQLOG : Fld := ⟨4, 4⟩
def hqCfg_CQLOG : Fld := ⟨8, 4⟩
def hqCfg_VECTOR : Fld := ⟨12, 7⟩
def hqStatus_SQHEAD : Fld := ⟨0, 16⟩
def hqStatus_CQTAIL : Fld := ⟨16, 16⟩
def hqStatus_PHASE : Fld := ⟨32, 1⟩
def hqStatus_STOPPED : Fld := ⟨33, 1⟩
def hqStatus_ERR : Fld := ⟨34, 4⟩
def hqSqtail_TAIL : Fld := ⟨0, 16⟩
def hqCqhead_HEAD : Fld := ⟨0, 16⟩

/-! ## The masks -/

/-- The register tables, part 0. -/
def regTable0 : List RegSpec :=
  [⟨0x2200000, 1, 0x0, 1, 0x0, 0x2, 0x0, 0x0, 0x1D, 0x0, 0x2⟩,
   ⟨0x2200008, 1, 0x0, 1, 0x0, 0x0, 0x1FFFF7, 0x8, 0x0, 0x0, 0x0⟩,
   ⟨0x2200010, 1, 0x0, 1, 0x0, 0xFFFFFFFF, 0x0, 0x0, 0x0, 0x0, 0x0⟩,
   ⟨0x2200018, 1, 0x0, 1, 0x0, 0x0, 0xFFFFFFFF, 0x0, 0x0, 0x0, 0x0⟩,
   ⟨0x2200020, 1, 0x0, 1, 0x0, 0x0, 0x803FFFFF, 0x0, 0x0, 0x0, 0x0⟩,
   ⟨0x2200028, 1, 0x0, 1, 0x0, 0x0, 0x0, 0x0, 0x1, 0x0, 0x0⟩,
   ⟨0x2200030, 1, 0x0, 1, 0x0, 0x0, 0x3FFFFFFFFF, 0x4000000000, 0x0, 0x7FFFFFFFFF, 0x0⟩,
   ⟨0x2200040, 1, 0x0, 1, 0x0, 0x1, 0x0, 0x0, 0x0, 0x0, 0x1⟩,
   ⟨0x2200048, 1, 0x0, 1, 0x0, 0x0, 0x17FFFFF, 0x0, 0x0, 0x0, 0x0⟩,
   ⟨0x100000, 16, 0x100000, 12, 0x10000, 0x0, 0x0, 0x0, 0x7, 0x0, 0x0⟩,
   ⟨0x100008, 16, 0x100000, 12, 0x10000, 0x0, 0x1FFFFFFF, 0x0, 0x0, 0x0, 0x0⟩,
   ⟨0x100010, 16, 0x100000, 12, 0x10000, 0x0, 0x1FFF, 0x0, 0x0, 0x0, 0x0⟩,
   ⟨0x100018, 16, 0x100000, 12, 0x10000, 0x0, 0xFFFFFFFF007FFFFF, 0x0, 0x0, 0x0, 0x0⟩,
   ⟨0x100020, 16, 0x100000, 12, 0x10000, 0x0, 0xFFFFFFFFFFFF, 0x0, 0x0, 0x0, 0x0⟩,
   ⟨0x100028, 16, 0x100000, 12, 0x10000, 0xFFFFFFFFFFFFFFFF, 0x0, 0x0, 0x0, 0x0, 0x0⟩,
   ⟨0x100030, 16, 0x100000, 12, 0x10000, 0x0, 0xFFFFFFFFFFFFFFFF, 0x0, 0x0, 0x0, 0x0⟩,
   ⟨0x1C0000, 16, 0x100000, 64, 0x10, 0x9FFFFFFFFFFFFFFF, 0x0, 0x0, 0x0, 0x0, 0x0⟩,
   ⟨0x1C0008, 16, 0x100000, 64, 0x10, 0xFFFFFF01FFFFFFFF, 0x0, 0x0, 0x0, 0x0, 0x0⟩,
   ⟨0x1C1000, 16, 0x100000, 64, 0x10, 0x0, 0x3FFFFFFFFF, 0x4000000000, 0x0, 0x0, 0x0⟩,
   ⟨0x1C1008, 16, 0x100000, 64, 0x10, 0x0, 0xFFFFFFFF, 0x0, 0x0, 0x0, 0x0⟩,
   ⟨0x1C2000, 16, 0x100000, 64, 0x10, 0xFFFFFFF, 0x0, 0x0, 0x0, 0x0, 0x0⟩,
   ⟨0x1C2008, 16, 0x100000, 64, 0x10, 0xFFFFFFFFFFFFFFFF, 0x0, 0x0, 0x0, 0x0, 0x0⟩,
   ⟨0x1C3000, 16, 0x100000, 8, 0x8, 0x3FFFFFFFF, 0x0, 0x0, 0x0, 0x0, 0x0⟩,
   ⟨0x1C3100, 16, 0x100000, 1, 0x0, 0x0, 0xFF, 0x0, 0x0, 0x0, 0x0⟩,
   ⟨0x1C3108, 16, 0x100000, 1, 0x0, 0x0, 0x0, 0xF, 0x0, 0x0, 0x0⟩]

/-- The register tables, part 1. -/
def regTable1 : List RegSpec :=
  [⟨0x100038, 16, 0x100000, 12, 0x10000, 0x0, 0xFFFFFFFFFFFFFFFF, 0x0, 0x0, 0x0, 0x0⟩,
   ⟨0x1F0800, 16, 0x100000, 1, 0x0, 0x1, 0x0, 0x0, 0x2, 0x0, 0x1⟩,
   ⟨0x1F0808, 16, 0x100000, 1, 0x0, 0x0, 0x1FF, 0x0, 0x0, 0x0, 0x0⟩,
   ⟨0x1F0810, 16, 0x100000, 1, 0x0, 0x0, 0xFFFF0000FFFF, 0x1000000010000, 0x0, 0x1FFFF0001FFFF, 0x0⟩,
   ⟨0x1F0818, 16, 0x100000, 1, 0x0, 0x0, 0x7FFFFFFFFFFFFFFF, 0x0, 0x0, 0x7FFFFFFFFFFFFFFF, 0x0⟩,
   ⟨0x1F0820, 16, 0x100000, 1, 0x0, 0x0, 0xFFFFFFFFFFFFFFFF, 0x0, 0x0, 0x0, 0x0⟩,
   ⟨0x1F0828, 16, 0x100000, 1, 0x0, 0x0, 0xFFFFFFFFFFFFFFFF, 0x0, 0x0, 0x0, 0x0⟩,
   ⟨0x1F0C00, 16, 0x100000, 1, 0x0, 0x0, 0xFFFFFFFFFFFFFFFF, 0x0, 0x0, 0x0, 0x0⟩,
   ⟨0x1F0C08, 16, 0x100000, 1, 0x0, 0x0, 0xFFFFFFFFFFFFFFFF, 0x0, 0x0, 0x0, 0x0⟩,
   ⟨0x1F0C10, 16, 0x100000, 1, 0x0, 0x0, 0xFFFFFFFFFFFFFFFF, 0x0, 0x0, 0x0, 0x0⟩,
   ⟨0x1F0C18, 16, 0x100000, 1, 0x0, 0x0, 0xFFFFFFFF, 0x100000000, 0x0, 0x1FFFFFFFF, 0x0⟩,
   ⟨0x1F0C20, 16, 0x100000, 1, 0x0, 0x0, 0xFFFFFFFFFFFF, 0x0, 0x0, 0xFFFFFFFFFFFF, 0x0⟩,
   ⟨0x1F0C28, 16, 0x100000, 1, 0x0, 0x0, 0x0, 0x0, 0x1, 0x0, 0x0⟩,
   ⟨0x1F1000, 16, 0x100000, 1, 0x0, 0xFFFF1F, 0x0, 0x0, 0x0, 0x0, 0x2⟩,
   ⟨0x1F1008, 16, 0x100000, 1, 0x0, 0x0, 0xFFFFFF, 0x0, 0x0, 0x0, 0x0⟩,
   ⟨0x1F1010, 16, 0x100000, 1, 0x0, 0x0, 0xFFF00FF, 0x100, 0x0, 0xFFF01FF, 0x0⟩,
   ⟨0x1F1018, 16, 0x100000, 1, 0x0, 0x0, 0xFFFFFFFFFFFF, 0x0, 0x0, 0xFFFFFFFFFFFF, 0x0⟩,
   ⟨0x1F1020, 16, 0x100000, 1, 0x0, 0x0, 0xFFFFFFFFFFFFFFFF, 0x0, 0x0, 0x0, 0x0⟩,
   ⟨0x1F1100, 16, 0x100000, 12, 0x20, 0xFFFFFFFFFFFF, 0x0, 0x0, 0x0, 0x0, 0x0⟩,
   ⟨0x1F1108, 16, 0x100000, 12, 0x20, 0xFFF7FFFFFFFF, 0x0, 0x0, 0x0, 0x0, 0x4000000⟩,
   ⟨0x1F1110, 16, 0x100000, 12, 0x20, 0x0, 0xFFFFFFFF00000FFF, 0x0, 0x0, 0x0, 0x0⟩,
   ⟨0x1F1118, 16, 0x100000, 12, 0x20, 0x0, 0x0, 0x0, 0x3, 0x0, 0x0⟩,
   ⟨0x1E0000, 16, 0x100000, 1, 0x0, 0x77F077F037F, 0x0, 0x0, 0x0, 0x0, 0x1001400000⟩,
   ⟨0x1E0008, 16, 0x100000, 1, 0x0, 0x0, 0xFFFFFFFF003FFFFF, 0x0, 0x0, 0x0, 0x0⟩,
   ⟨0x1E0010, 16, 0x100000, 1, 0x0, 0x0, 0xFFFFFF, 0x3000000, 0x0, 0x3FF0000, 0x0⟩]

/-- The register tables, part 2. -/
def regTable2 : List RegSpec :=
  [⟨0x1E0018, 16, 0x100000, 1, 0x0, 0x0, 0x3FF8FFFFFFFFFFFF, 0x4007000000000000, 0x0, 0x7FFFFFFFFFFFFFFF, 0x0⟩,
   ⟨0x1E0020, 16, 0x100000, 1, 0x0, 0x0, 0x3FFFFFFF, 0x0, 0x0, 0x3FFFFFFF, 0x0⟩,
   ⟨0x1E0028, 16, 0x100000, 1, 0x0, 0x0, 0x1FF7FFFFF, 0x200800000, 0x0, 0x3FFFFFFFF, 0x400000⟩,
   ⟨0x1E0030, 16, 0x100000, 1, 0x0, 0x1FF, 0x0, 0x0, 0x0, 0x0, 0x104⟩,
   ⟨0x1E0038, 16, 0x100000, 1, 0x0, 0x0, 0x0, 0x7, 0x0, 0x4, 0x0⟩,
   ⟨0x1E0100, 16, 0x100000, 16, 0x8, 0x800003FFFFFFFFFF, 0x0, 0x0, 0x0, 0x0, 0x0⟩,
   ⟨0x1F1400, 16, 0x100000, 1, 0x0, 0xFFFFFFFFFFFF0001, 0x0, 0x0, 0x2, 0x0, 0xEE6B28000000001⟩,
   ⟨0x1F1408, 16, 0x100000, 1, 0x0, 0x0, 0xFFFFFFFF0001FFFF, 0x0, 0x0, 0x0, 0x0⟩,
   ⟨0x1F1410, 16, 0x100000, 1, 0x0, 0x0, 0xFFFFFFFF, 0x0, 0x0, 0x0, 0x0⟩,
   ⟨0x2820000, 1, 0x0, 1, 0x0, 0x0, 0x0, 0x0, 0x3, 0x0, 0x0⟩,
   ⟨0x2820008, 1, 0x0, 1, 0x0, 0x0, 0x7FFFFFFFF, 0x0, 0x0, 0x0, 0x0⟩,
   ⟨0x2820010, 1, 0x0, 1, 0x0, 0xFFFF00FF3F3F, 0x0, 0x0, 0x0, 0x0, 0x4000300808⟩,
   ⟨0x2820018, 1, 0x0, 1, 0x0, 0x0, 0xFFFFFFFFFF, 0x0, 0x0, 0x0, 0x0⟩,
   ⟨0x2820020, 1, 0x0, 1, 0x0, 0x1FFFFFFFFFFFF, 0x0, 0x0, 0x0, 0x0, 0x10DC0663AA000⟩,
   ⟨0x2800000, 32, 0x1000, 1, 0x0, 0x0, 0xFFFFFFFF0000007F, 0x0, 0x0, 0x0, 0x0⟩,
   ⟨0x2800008, 32, 0x1000, 1, 0x0, 0xFFFFFFFFFFFF, 0x0, 0x0, 0x0, 0x0, 0x0⟩,
   ⟨0x2800010, 32, 0x1000, 1, 0x0, 0x0, 0xFFFFFFFFFFFFFFFF, 0x0, 0x0, 0x0, 0x0⟩,
   ⟨0x2800018, 32, 0x1000, 1, 0x0, 0x0, 0xFFFFFFFF, 0x300000000, 0x0, 0x3FFFFFFFF, 0x0⟩,
   ⟨0x2800020, 32, 0x1000, 1, 0x0, 0x0, 0xFFFFFFFFFF, 0x0, 0x0, 0xFFFFFFFFFF, 0x0⟩,
   ⟨0x2800028, 32, 0x1000, 1, 0x0, 0x0, 0xFFFFFFFFFFFFFFFF, 0x0, 0x0, 0x0, 0x0⟩,
   ⟨0x2800030, 32, 0x1000, 1, 0x0, 0x0, 0xFFFFFFFF, 0x0, 0x0, 0x0, 0x0⟩,
   ⟨0x2828000, 256, 0x10, 1, 0x0, 0xFFFFFFFFFFFFF001, 0x4, 0x0, 0x2, 0x0, 0x0⟩,
   ⟨0x2828008, 256, 0x10, 1, 0x0, 0xFFFFFFFF, 0x0, 0x0, 0x0, 0x0, 0x0⟩,
   ⟨0x2000000, 8, 0x40000, 1, 0x0, 0x3FD, 0x0, 0x0, 0x2, 0x0, 0x3FC⟩,
   ⟨0x2000008, 8, 0x40000, 1, 0x0, 0xF07FF, 0xFF00000000, 0x0, 0x0, 0x0, 0x603FF⟩]

/-- The register tables, part 3. -/
def regTable3 : List RegSpec :=
  [⟨0x2000010, 8, 0x40000, 1, 0x0, 0x0, 0x7FFFFFF, 0x0, 0x0, 0x0, 0xFFF0⟩,
   ⟨0x2000018, 8, 0x40000, 1, 0x0, 0x0, 0xFFFFFFFF0002, 0x1, 0x0, 0xFFFFFFFF0001, 0x0⟩,
   ⟨0x2000020, 8, 0x40000, 1, 0x0, 0x0, 0xFFFFFFFFFFFFFFFF, 0x0, 0x0, 0xFFFFFFFF00000000, 0x0⟩,
   ⟨0x2000028, 8, 0x40000, 1, 0x0, 0x0, 0xFFFFFFFFFFFFFFFF, 0x0, 0x0, 0xFFFFFFFFFFFFFFFF, 0x0⟩,
   ⟨0x2000030, 8, 0x40000, 1, 0x0, 0x0, 0xFFFFFFFFFFFFFFFF, 0x0, 0x0, 0xFFFFFFFFFFFFFFFF, 0x0⟩,
   ⟨0x2000038, 8, 0x40000, 1, 0x0, 0x0, 0xFFFFFFFF, 0x0, 0x0, 0x0, 0x0⟩,
   ⟨0x2000040, 8, 0x40000, 1, 0x0, 0x7, 0xFFFFFFFF00000000, 0x0, 0x0, 0x0, 0x0⟩,
   ⟨0x2030000, 1, 0x0, 1, 0x0, 0x3, 0x0, 0x0, 0x0, 0x0, 0x0⟩,
   ⟨0x2030008, 1, 0x0, 1, 0x0, 0xFFF, 0x0, 0x0, 0x0, 0x0, 0xFFF⟩,
   ⟨0x2030010, 1, 0x0, 1, 0x0, 0xFFFFFFFFFFFFFFFF, 0x0, 0x0, 0x0, 0x0, 0x4000247100064⟩,
   ⟨0x2030018, 1, 0x0, 1, 0x0, 0xFFF, 0x0, 0x0, 0x3000, 0x0, 0x0⟩,
   ⟨0x2030020, 1, 0x0, 1, 0x0, 0x7FFFFFFFF, 0x0, 0x0, 0x0, 0x0, 0x0⟩,
   ⟨0x2030028, 1, 0x0, 1, 0x0, 0x0, 0xFFFFFFFFFFFFFFFF, 0x0, 0x0, 0x0, 0x0⟩,
   ⟨0x2030030, 1, 0x0, 1, 0x0, 0xFFFF, 0x0, 0x180000, 0x70000, 0x0, 0x0⟩,
   ⟨0x2030038, 1, 0x0, 1, 0x0, 0xFFFFFFFF0000FF0C, 0xFFFF0003, 0x0, 0x0, 0x0, 0x0⟩,
   ⟨0x2030040, 1, 0x0, 1, 0x0, 0xFFFFFFFFFFFFFFFF, 0x0, 0x0, 0x0, 0x0, 0x0⟩,
   ⟨0x2030048, 1, 0x0, 1, 0x0, 0xFFFFFFFFF, 0x0, 0x0, 0x0, 0x0, 0xFFFFF0000⟩,
   ⟨0x2030050, 1, 0x0, 1, 0x0, 0xFFFFFFFFFFFFF001, 0x0, 0x0, 0x0, 0x0, 0x0⟩,
   ⟨0x2030058, 1, 0x0, 1, 0x0, 0xFFFFF, 0x0, 0x0, 0x100000, 0x0, 0x0⟩,
   ⟨0x2030060, 1, 0x0, 1, 0x0, 0x0, 0xFFF7FFF7FFF, 0x0, 0x0, 0x0, 0x0⟩,
   ⟨0x2030068, 1, 0x0, 1, 0x0, 0x0, 0xFFFFFFF, 0x1F0000000, 0x0, 0x9FFFFFFF, 0x0⟩,
   ⟨0x3000000, 10, 0x80000, 1, 0x0, 0xFFFFFFFFFFFFFF, 0x0, 0x0, 0x0, 0x0, 0x1000000000000⟩,
   ⟨0x3000008, 10, 0x80000, 1, 0x0, 0x0, 0x1FFFF, 0x0, 0x0, 0x0, 0x0⟩,
   ⟨0x3000010, 10, 0x80000, 1, 0x0, 0x0, 0xFFFFFFFF, 0x100000000, 0x0, 0x1FFFFFFFF, 0x0⟩,
   ⟨0x3000100, 10, 0x80000, 16, 0x10, 0x3FFFFFFFFFFFFFF, 0x0, 0x0, 0x0, 0x0, 0x1000000000000⟩]

/-- The register tables, part 4. -/
def regTable4 : List RegSpec :=
  [⟨0x3000108, 10, 0x80000, 16, 0x10, 0xFFFFFF, 0x0, 0x0, 0x0, 0x0, 0x4001⟩,
   ⟨0x3000200, 10, 0x80000, 1, 0x0, 0xFFFF, 0x0, 0x0, 0x30000, 0x0, 0x0⟩,
   ⟨0x3000208, 10, 0x80000, 1, 0x0, 0xFFFFFFFFFFFFFFFF, 0x0, 0x0, 0x0, 0x0, 0x101000000000000⟩,
   ⟨0x3000210, 10, 0x80000, 1, 0x0, 0x0, 0xFFFFFFFFFFFF, 0x0, 0x0, 0x0, 0x0⟩,
   ⟨0x3000300, 10, 0x80000, 2, 0x20, 0x1F, 0x0, 0x0, 0x0, 0x0, 0x0⟩,
   ⟨0x3000308, 10, 0x80000, 2, 0x20, 0xFFFFFFFFFFFFFF, 0x0, 0x0, 0x0, 0x0, 0x0⟩,
   ⟨0x3000310, 10, 0x80000, 2, 0x20, 0xFFFFFFFFFFFFFF, 0x0, 0x0, 0x0, 0x0, 0x0⟩,
   ⟨0x3000318, 10, 0x80000, 2, 0x20, 0x0, 0xFFFFFFFFFFFFFFFF, 0x0, 0x0, 0x0, 0x0⟩,
   ⟨0x3500000, 1, 0x0, 1, 0x0, 0xFFFF, 0x0, 0x0, 0x30000, 0x0, 0x0⟩,
   ⟨0x3500008, 1, 0x0, 1, 0x0, 0x1B, 0x0, 0x0, 0x0, 0x0, 0x0⟩,
   ⟨0x3500010, 1, 0x0, 1, 0x0, 0xFFFFFFFFFFFFFF, 0x0, 0x0, 0x0, 0x0, 0x0⟩,
   ⟨0x3500018, 1, 0x0, 1, 0x0, 0xFFFFFFFFFFFFFF, 0x0, 0x0, 0x0, 0x0, 0x0⟩,
   ⟨0x3500020, 1, 0x0, 1, 0x0, 0x0, 0xFFFFFFFFFFFFFFFF, 0x0, 0x0, 0x0, 0x0⟩,
   ⟨0x3500028, 1, 0x0, 1, 0x0, 0x0, 0xFFFFFFFFFFFFFFFF, 0x0, 0x0, 0x0, 0x0⟩,
   ⟨0x3500030, 1, 0x0, 1, 0x0, 0x0, 0xFFFFFFFFFFFFFFFF, 0x0, 0x0, 0x0, 0x0⟩,
   ⟨0x3500038, 1, 0x0, 1, 0x0, 0xFFF, 0x0, 0x0, 0x3000, 0x0, 0x0⟩,
   ⟨0x3500040, 1, 0x0, 1, 0x0, 0x1FFFF, 0x0, 0x0, 0x0, 0x0, 0x0⟩,
   ⟨0x3510000, 1, 0x0, 1, 0x0, 0xFFFFFFFF000007FF, 0x0, 0x0, 0x0, 0x0, 0x61A8000007FE⟩,
   ⟨0x3510008, 1, 0x0, 1, 0x0, 0xFFFFFFFFFFFF, 0x0, 0x0, 0x0, 0x0, 0x0⟩,
   ⟨0x3510010, 1, 0x0, 1, 0x0, 0xFFFFFF, 0x0, 0x0, 0x0, 0x0, 0x0⟩,
   ⟨0x3510018, 1, 0x0, 1, 0x0, 0x0, 0xFFFFFFFF, 0x0, 0x0, 0x0, 0x0⟩,
   ⟨0x3510020, 1, 0x0, 1, 0x0, 0xFFFFFFFF, 0x0, 0x0, 0x0, 0x0, 0x0⟩,
   ⟨0x3510028, 1, 0x0, 1, 0x0, 0x0, 0xFFFFFFFFFFFFFFFF, 0x0, 0x0, 0xFFFFFFFFFFFFFFFF, 0x0⟩,
   ⟨0x2400000, 1, 0x0, 1, 0x0, 0xFFFFFFFFFFFF0007, 0x0, 0x0, 0x0, 0x0, 0x124F800000003⟩,
   ⟨0x2400008, 1, 0x0, 1, 0x0, 0x0, 0x7FFFFFFFF, 0x0, 0x0, 0x0, 0x3FFC0⟩]

/-- The register tables, part 5. -/
def regTable5 : List RegSpec :=
  [⟨0x2400010, 1, 0x0, 1, 0x0, 0x0, 0x1FFFFFFFF, 0x200000000, 0x0, 0x3FFFE0000, 0x0⟩,
   ⟨0x2400018, 1, 0x0, 1, 0x0, 0x0, 0xFFFFFFFF, 0x100000000, 0x0, 0x1FFFFFFFF, 0x0⟩,
   ⟨0x2400020, 1, 0x0, 1, 0x0, 0xFFFFFFFF, 0xFFFFFFFF00000000, 0x0, 0x0, 0x0, 0x0⟩,
   ⟨0x2410000, 1, 0x0, 1, 0x0, 0x0, 0x3FFFFFFFF, 0x0, 0x0, 0x0, 0x0⟩,
   ⟨0x2410008, 1, 0x0, 1, 0x0, 0x1F0FFFFFFFF, 0x0, 0xC00000000, 0x300000000, 0x0, 0x61A8⟩,
   ⟨0x2410010, 1, 0x0, 1, 0x0, 0xFFFFFFFF, 0x0, 0x0, 0x0, 0x0, 0x0⟩,
   ⟨0x2410018, 1, 0x0, 1, 0x0, 0x3FF, 0x0, 0x0, 0xC00, 0x0, 0x0⟩,
   ⟨0x2410020, 1, 0x0, 1, 0x0, 0x3FFF, 0x0, 0x0, 0x0, 0x0, 0x3FFC⟩,
   ⟨0x2410028, 4, 0x8, 1, 0x0, 0xFFFFFFFFFFFFFFFF, 0x0, 0x0, 0x0, 0x0, 0x0⟩,
   ⟨0x2410048, 1, 0x0, 1, 0x0, 0x3FFF, 0x0, 0x0, 0xC000, 0x0, 0x0⟩,
   ⟨0x2410050, 1, 0x0, 1, 0x0, 0x1FFFFFFFFFFFFFFF, 0x2000000000000000, 0x0, 0x0, 0x0, 0x0⟩,
   ⟨0x2410058, 1, 0x0, 1, 0x0, 0xFFFFFFFFF, 0x0, 0x0, 0x0, 0x0, 0x0⟩,
   ⟨0x2410060, 1, 0x0, 1, 0x0, 0xFFFFFFFF, 0x0, 0x0, 0x0, 0x0, 0x0⟩,
   ⟨0x2420000, 1, 0x0, 1, 0x0, 0xFFFFFFFFFFFFFFFF, 0x0, 0x0, 0x0, 0x0, 0x124F8000061A8⟩,
   ⟨0x2420008, 1, 0x0, 1, 0x0, 0xFFFFFFFFFFFFFFFF, 0x0, 0x0, 0x0, 0x0, 0x61A800005DC0⟩,
   ⟨0x2420010, 1, 0x0, 1, 0x0, 0xFFFFFFFF, 0x0, 0x0, 0x0, 0x0, 0x249F0⟩,
   ⟨0x2420018, 1, 0x0, 1, 0x0, 0x0, 0xFFFFFFFF00002FFF, 0x5000, 0x0, 0xFFFFFFFF00001FFF, 0x0⟩,
   ⟨0x2430000, 1, 0x0, 1, 0x0, 0xFFFFFFFF, 0x0, 0x0, 0x0, 0x0, 0x2625A0⟩,
   ⟨0x2430008, 1, 0x0, 1, 0x0, 0x0, 0x1FFF, 0x0, 0x0, 0x0, 0x0⟩,
   ⟨0x2430010, 1, 0x0, 1, 0x0, 0x0, 0x7FFFEFFFFFFFF, 0x100000000, 0x0, 0x7FFFFFFFFFFFF, 0x0⟩,
   ⟨0x1D0000, 16, 0x100000, 1, 0x0, 0x0, 0x79FFFF, 0x60000, 0x0, 0x7FFFFF, 0x0⟩,
   ⟨0x3800000, 2, 0x2000, 1, 0x0, 0x1FFFFFFF, 0x0, 0x0, 0x100000000, 0x0, 0x0⟩,
   ⟨0x3800008, 2, 0x2000, 1, 0x0, 0x0, 0xFFFFFFFF0001FFFF, 0x0, 0x0, 0x0, 0x0⟩,
   ⟨0x3800010, 2, 0x2000, 1, 0x0, 0x0, 0x3, 0x4, 0x0, 0x0, 0x0⟩,
   ⟨0x3804000, 1, 0x0, 1, 0x0, 0x0, 0x7F, 0x0, 0x0, 0x0, 0x0⟩]

/-- The register tables, part 6. -/
def regTable6 : List RegSpec :=
  [⟨0x3804008, 1, 0x0, 1, 0x0, 0x0, 0xFFFFFFFF, 0x0, 0x0, 0x0, 0x0⟩,
   ⟨0x3804010, 6, 0x8, 1, 0x0, 0x0, 0xFFFFFFFF, 0x0, 0x0, 0x0, 0x0⟩,
   ⟨0x3804040, 1, 0x0, 1, 0x0, 0x0, 0x8, 0x17, 0x0, 0x1F, 0x0⟩,
   ⟨0x3C00000, 1, 0x0, 1, 0x0, 0x30, 0x0, 0x0, 0xF, 0x0, 0x0⟩,
   ⟨0x3C00008, 1, 0x0, 1, 0x0, 0x0, 0x3FFFFFFFDF, 0x20, 0x0, 0x0, 0x0⟩,
   ⟨0x3C00010, 1, 0x0, 1, 0x0, 0x3, 0xC, 0x0, 0x0, 0xC, 0x0⟩,
   ⟨0x3C00018, 1, 0x0, 1, 0x0, 0x0, 0xFFFFFFFFFFFF0001, 0x6, 0x0, 0xFFFFFFFFFFFF0006, 0x0⟩,
   ⟨0x3C00020, 1, 0x0, 1, 0x0, 0xFFFFFFFFFFFF, 0x0, 0x0, 0x0, 0x0, 0x61A800FA⟩,
   ⟨0x3C00028, 1, 0x0, 1, 0x0, 0x0, 0x0, 0xFFFF, 0x0, 0x0, 0x0⟩,
   ⟨0x3C00030, 1, 0x0, 1, 0x0, 0xFFFFFFFF00000001, 0x0, 0x0, 0x0, 0x0, 0xEE6B28000000001⟩,
   ⟨0x3C00038, 1, 0x0, 1, 0x0, 0xFFFFFF, 0x0, 0x0, 0x0, 0x0, 0x320519⟩,
   ⟨0x3C00040, 1, 0x0, 1, 0x0, 0x0, 0xFFFFFFFF000003FC, 0x3, 0x0, 0xFFFFFFFF000003FF, 0x0⟩,
   ⟨0x3C00100, 16, 0x10, 1, 0x0, 0xFFFFFFFF03FFFFFF, 0x0, 0x0, 0x0, 0x0, 0x9C400000002⟩,
   ⟨0x3C00108, 16, 0x10, 1, 0x0, 0x0, 0xFFFFFFFF0FFFFF03, 0x0, 0x0, 0xFF00, 0xFF0000⟩,
   ⟨0x3C00200, 16, 0x8, 1, 0x0, 0x0, 0xFFFF01FF, 0x0, 0x0, 0xFFFF01F0, 0x0⟩,
   ⟨0x3C00280, 8, 0x8, 1, 0x0, 0x0, 0xFFFF07FF, 0x0, 0x0, 0xFFFF0000, 0x500000⟩,
   ⟨0x10, 1, 0x0, 1, 0x0, 0x0, 0x7FFFFFFFFFFF, 0x8000000000000000, 0x0, 0x8000000000000000, 0x0⟩,
   ⟨0x18, 1, 0x0, 1, 0x0, 0x0, 0xFFFFFFFF00FF, 0x0, 0x0, 0x80, 0x3⟩,
   ⟨0x20, 1, 0x0, 1, 0x0, 0x0, 0xF000000, 0x0, 0x3FFFFF, 0x0, 0x0⟩,
   ⟨0x0, 1, 0x0, 1, 0x0, 0x0, 0xFFFFFFFFFFFFFFFF, 0x0, 0x0, 0x0, 0x0⟩,
   ⟨0x8, 1, 0x0, 1, 0x0, 0x0, 0xFFFFFF, 0x0, 0x0, 0x0, 0xC048⟩,
   ⟨0x40, 1, 0x0, 1, 0x0, 0x1F3, 0x0, 0x0, 0x0, 0x0, 0x0⟩,
   ⟨0x48, 1, 0x0, 1, 0x0, 0xFFFFFFFFFFFFF000, 0x0, 0x0, 0x0, 0x0, 0x0⟩,
   ⟨0x50, 1, 0x0, 1, 0x0, 0x0, 0xFFFFFFFF, 0x0, 0x0, 0x0, 0x0⟩,
   ⟨0x58, 1, 0x0, 1, 0x0, 0xFFFFFFFF, 0x0, 0x0, 0x0, 0x0, 0x0⟩]

/-- The register tables, part 7. -/
def regTable7 : List RegSpec :=
  [⟨0x60, 1, 0x0, 1, 0x0, 0x0, 0x7FEFFFFFFFF, 0x100000000, 0x0, 0x1FFFFFFFF, 0x0⟩,
   ⟨0x1000, 1, 0x0, 1, 0x0, 0x0, 0x3FFFF, 0x0, 0x0, 0x0, 0x0⟩,
   ⟨0x1008, 1, 0x0, 1, 0x0, 0x3FFFFFFFF, 0x400000000, 0x0, 0x0, 0x300000000, 0x3D090⟩,
   ⟨0x1010, 1, 0x0, 1, 0x0, 0x0, 0xFFFFFFFFFFFF, 0xF000000000000, 0x0, 0xFFFFFFFFFFFFF, 0x0⟩,
   ⟨0x1100, 64, 0x10, 1, 0x0, 0x7, 0x0, 0x0, 0x0, 0x0, 0x0⟩,
   ⟨0x1108, 64, 0x10, 1, 0x0, 0xFFFFFFFFFFFFFFFF, 0x0, 0x0, 0x0, 0x0, 0x0⟩,
   ⟨0x4000000, 64, 0x40, 1, 0x0, 0xFFFFFFFFFFFFF000, 0x0, 0x0, 0x0, 0x0, 0x0⟩,
   ⟨0x4000008, 64, 0x40, 1, 0x0, 0xFFFFFFFFFFFFF000, 0x0, 0x0, 0x0, 0x0, 0x0⟩,
   ⟨0x4000010, 64, 0x40, 1, 0x0, 0x7FFF7, 0x0, 0x0, 0x0, 0x0, 0x2000⟩,
   ⟨0x4000018, 64, 0x40, 1, 0x0, 0x0, 0x3FFFFFFFFF, 0x0, 0x0, 0x0, 0x0⟩,
   ⟨0x4001000, 64, 0x10, 1, 0x0, 0x0, 0x0, 0x0, 0xFFFF, 0x0, 0x0⟩,
   ⟨0x4001008, 64, 0x10, 1, 0x0, 0x0, 0x0, 0x0, 0xFFFF, 0x0, 0x0⟩]

/-- Every register of the tables. -/
def regTable : List RegSpec :=
  regTable0 ++ regTable1 ++ regTable2 ++ regTable3 ++ regTable4 ++ regTable5 ++ regTable6 ++ regTable7

end Reg

/-- The indices (first, second) under which register `r` lies at offset `off`, if it does. -/
def RegSpec.index (r : RegSpec) (off : Nat) : Option (Nat × Nat) :=
  if off < r.base then none
  else
    let d := off - r.base
    let i := if r.n1 = 1 then 0 else d / r.s1
    let d' := if r.n1 = 1 then d else d % r.s1
    let j := if r.n2 = 1 then 0 else d' / r.s2
    let d'' := if r.n2 = 1 then d' else d' % r.s2
    if d'' = 0 ∧ i < r.n1 ∧ j < r.n2 then some (i, j) else none

/-- The register that lies at an offset; none where no table places one (R535: it reads zero and ignores writes). -/
def regAt (off : Nat) : Option RegSpec := Reg.regTable.find? fun r => (r.index off).isSome

/-- The After reset values whose entry in the tables names a source (R571), at an offset whose table entry is 0 for it:
the physical easel of a logical easel is its own number until the repair record is applied (log entry 3 DESIGN CHOICE), the stack's
threshold, the device identifier, the stepping and the strap are the device's (log entry 4 DESIGN CHOICE). -/
def resetSource (off : Nat) : BitVec 64 :=
  if 0x100000 ≤ off ∧ off < 0x1100000 then
    let b := (off - 0x100000) / 0x100000
    let r := (off - 0x100000) % 0x100000
    if r < 0xC0000 ∧ r % 0x10000 = 8 then BitVec.ofNat 64 (r / 0x10000 * 2 ^ 25)
    else if r = 0xE0010 then BitVec.ofNat 64 (Config.stackThresh b * 2 ^ 8)
    else if r = 0xD0000 then 0xF
    else 0
  else if off = Reg.globalId then Config.devid
  else if off = Reg.globalVer then BitVec.ofNat 64 (Config.stepping * 2 ^ 16)
  else if off = Reg.hostLink then (if Config.pcieBif then 0x10000 else 0)
  else 0

/-- The value of every register after cold node reset (R11, R571). An offset no table names reads zero (R535). -/
def regReset (off : Nat) : BitVec 64 :=
  match regAt off with
  | some r => BitVec.ofNat 64 r.reset ||| resetSource off
  | none => 0

/-- The sticky bits of a register (R10). -/
def regSticky (off : Nat) : BitVec 64 :=
  match regAt off with
  | some r => BitVec.ofNat 64 r.sticky
  | none => 0

end Sys2Proof.Machine
end

