-- ==== Sys2Proof/Machine/Bits.lean ====
section
/-! DEFINITION. Bit fields, sign extension and byte order, used by every other file of the machine.
Fields of words are read as natural numbers; the C48 is little-endian (R135, R540). -/

namespace Sys2Proof.Machine

/-- Bits `lo + w - 1` to `lo` of a number. -/
def bitsOf (x lo w : Nat) : Nat := x / 2 ^ lo % 2 ^ w

/-- Bits `lo + w - 1` to `lo` of a bit vector, as a number. -/
def bf {n : Nat} (x : BitVec n) (lo w : Nat) : Nat := bitsOf x.toNat lo w

/-- Bit `i` of a number. -/
def bitOf (x i : Nat) : Bool := x / 2 ^ i % 2 = 1

/-- `x` with bits `lo + w - 1` to `lo` replaced by the low `w` bits of `v`. -/
def putBits (x lo w v : Nat) : Nat := x - bitsOf x lo w * 2 ^ lo + v % 2 ^ w * 2 ^ lo

/-- The value of the low `w` bits of `x` read in two's complement. -/
def sext (w x : Nat) : Int :=
  if 2 ^ w ≤ 2 * (x % 2 ^ w) then (x % 2 ^ w : Int) - 2 ^ w else (x % 2 ^ w : Int)

/-- An integer narrowed to `w` bits. -/
def narrow (w : Nat) (x : Int) : Nat := (x % (2 ^ w : Int)).toNat

/-- Division rounded up. -/
def ceilDiv (a b : Nat) : Nat := (a + b - 1) / b

/-- ⌈log2 n⌉, 0 for n at most 1. -/
def ceilLog2 (n : Nat) : Nat := if n ≤ 1 then 0 else Nat.log2 (n - 1) + 1

/-- One bit as a number. -/
def b2n (b : Bool) : Nat := if b then 1 else 0

/-- The number whose little-endian bytes are given. -/
def bytesNat : List Byte → Nat
  | [] => 0
  | b :: bs => b.toNat + 256 * bytesNat bs

/-- The low `n` bytes of a number, lowest first. -/
def natBytes : Nat → Nat → List Byte
  | 0, _ => []
  | n + 1, x => BitVec.ofNat 8 x :: natBytes n (x / 256)

/-- The little-endian number in `n` bytes of a list from position `i`. -/
def leAt (bs : List Byte) (i n : Nat) : Nat := bytesNat ((bs.drop i).take n)

/-- 64-bit word `i` of a list of bytes. -/
def wordAt (bs : List Byte) (i : Nat) : Nat := leAt bs (8 * i) 8

/-- A list with `new` in place of its elements from position `i` on; nothing lies past the old end. -/
def patch {α : Type} (old : List α) (i : Nat) (new : List α) : List α :=
  (old.take i ++ new ++ old.drop (i + new.length)).take old.length

/-- Element `i` of a list replaced. -/
def putAt {α : Type} (l : List α) (i : Nat) (x : α) : List α := patch l i [x]

/-- A list cut or filled up with `d` to length `n`. -/
def fitTo {α : Type} (n : Nat) (d : α) (l : List α) : List α := l.take n ++ List.replicate (n - l.length) d

/-- A list cut into pieces of `k` elements, at most `n` of them. -/
def chunks {α : Type} (k : Nat) : Nat → List α → List (List α)
  | 0, _ => []
  | n + 1, l => if l.isEmpty then [] else l.take k :: chunks k n (l.drop k)

/-- A counter of `w` bits that stops at its greatest value (a saturating counter) raised by one. -/
def satInc (w x : Nat) : Nat := if x + 1 < 2 ^ w then x + 1 else 2 ^ w - 1

/-- The lowest index below `n` that satisfies a test. -/
def lowestIdx (n : Nat) (p : Nat → Bool) : Option Nat := (List.range n).find? p

/-- Whether epoch `a` is newer than epoch `b` (R7). -/
def newer (a b : Nat) : Bool :=
  let d := (a + 2 ^ 32 - b % 2 ^ 32) % 2 ^ 32
  1 ≤ d ∧ d < 2 ^ 31

end Sys2Proof.Machine
end

