-- ==== Sys2Proof/Machine/SMap.lean ====
section
/-! DEFINITION. Sparse maps: lists of (key, value) pairs in one canonical form, keys strictly rising and no entry
equal to what an unlisted key reads as. Memory is one of them (values bytes), so are the registers and every table of
the machine. What an unlisted key reads as is given by a function of the key. -/

namespace Sys2Proof.Machine

/-- A sparse map from numbers. -/
abbrev SMap (α : Type) := List (Nat × α)

namespace SMap
variable {α : Type}

/-- The value at a key; an unlisted key reads as `d` says. -/
def get (d : Nat → α) (m : SMap α) (k : Nat) : α :=
  match m.find? (fun e => e.1 == k) with
  | some e => e.2
  | none => d k

/-- The entries for `vs` at the keys from `a` on, those equal to what an unlisted key reads as left out. -/
def entries [DecidableEq α] (d : Nat → α) : Nat → List α → SMap α
  | _, [] => []
  | a, v :: vs => if v = d a then entries d (a + 1) vs else (a, v) :: entries d (a + 1) vs

/-- The map with the values `vs` at the keys from `a` on. -/
def setRange [DecidableEq α] (d : Nat → α) (m : SMap α) (a : Nat) (vs : List α) : SMap α :=
  m.filter (fun e => decide (e.1 < a)) ++ entries d a vs ++ m.filter (fun e => decide (a + vs.length ≤ e.1))

/-- The map with `v` at `k`. -/
def set [DecidableEq α] (d : Nat → α) (m : SMap α) (k : Nat) (v : α) : SMap α := setRange d m k [v]

/-- The `n` values from key `a` on. -/
def getRange (d : Nat → α) (m : SMap α) (a n : Nat) : List α := (List.range n).map fun i => get d m (a + i)

/-- The map with every key of `[a, b)` at what an unlisted key reads as. -/
def clear (m : SMap α) (a b : Nat) : SMap α := m.filter fun e => decide (e.1 < a ∨ b ≤ e.1)

/-- The canonical form: keys strictly rising from `lo` on, no entry equal to what an unlisted key reads as. -/
def wfFrom [DecidableEq α] (d : Nat → α) : Nat → SMap α → Bool
  | _, [] => true
  | lo, (k, v) :: m => decide (lo ≤ k) && decide (v ≠ d k) && wfFrom d (k + 1) m

/-- The canonical form of a sparse map. -/
def wf [DecidableEq α] (d : Nat → α) (m : SMap α) : Bool := wfFrom d 0 m

end SMap

end Sys2Proof.Machine
end

