-- ==== Sys2Proof/Machine/State.lean ====
section
/-! DEFINITION. The state of the node: everything the spec gives the machine, as plain data, and its value after reset.

Registers of the map are one sparse map from offsets; an unlisted one reads its After reset value. What a unit holds beside
its registers is a structure per unit, kept in a sparse map from the unit's number; an unlisted unit is as after reset. -/

namespace Sys2Proof.Machine

/-- Why the machine stops. No rule of the spec stops the node for good: nothing raises this. Safe: never answered. -/
inductive Fault where
  | none
  deriving DecidableEq, Repr

/-- Why a command has no effect to give. Log entry 40 DESIGN CHOICE. -/
inductive Refusal where
  /-- The command of this row has no meaning yet. Safe. -/
  | notModelled (mnemonic : String)
  /-- Raised by every meaning whose command names a unit the node does not have (a bay above 15, an easel above 11, a
  port above 7 and so on) or an instruction word of another row: the spec's node has no such thing, so the command
  cannot arise. Safe: no state follows. -/
  | illFormed
  deriving DecidableEq, Repr

/-! ## Easels -/

/-- Where a launch comes from (R78, R79). -/
inductive Src where
  | bind (n : Nat) (record : Word)
  | host (ticket : Nat)
  | easel (x : Ea) (entry : Nat) (db : Option (Nat × Nat))
  deriving DecidableEq, Repr

/-- A launch (R78): its source, its program-table entry, its mask and mode, its tag and its four arguments. -/
structure Launch where
  src : Src
  prog : Nat
  mask : Nat
  mode : Nat
  tag : Nat
  args : List Word
  deriving DecidableEq, Repr

/-- A WAIT or SLEEP in progress (R85, R87): the doorbells, the ground cycle at whose start the limit expires, the destination
pair, whether it is SLEEP, and once a record has arrived the easel cycle of the resume, the doorbell and the record. -/
structure WaitX where
  mask : Nat
  limit : Option Nat
  rd : Nat
  sleep : Bool
  got : Option (Nat × Nat × Word)
  deriving DecidableEq, Repr

/-- What an outstanding-operation entry is doing (R92, R117). `a`, `b`, `c`, `d` are the captured operands. -/
inductive OutKind where
  | ldLoc | stLoc | ldH | stH | stHTok | flush | nb | dmaPost | catWr | catRd | wrimm | send | recv | launch | ring | resume | run
  deriving DecidableEq, Repr

/-- An entry of the outstanding-operation table: its number, its place in program order, its status register, what it is
doing with which captured operands, the easel cycles of its issue and of its completion at the earliest, and whether it has failed and
waits for the report of its exception (R100, R104). -/
structure OutOp where
  num : Nat
  seq : Nat
  rd : Nat
  kind : OutKind
  off : Nat
  a : Nat
  b : Nat
  len : Nat
  issued : Nat
  due : Nat
  failed : Bool
  deriving DecidableEq, Repr

/-- An entry of the pending-result table (R72, R117): the destination, the cycle the instruction issued in, and the cycle the result
lands in; none where it lands by a row of its own, in a pair. -/
structure PendX where
  rd : Nat
  issued : Nat
  due : Option Nat
  deriving DecidableEq, Repr

/-- A pending imprecise exception (R100, R154): its place in program order, code, INFO and EXCADDR. -/
structure ImpFault where
  seq : Nat
  code : Nat
  info : Nat
  loc : Nat
  deriving DecidableEq, Repr

/-- The fence or END an easel stands at (R93, R120). -/
inductive FenceKind where
  | easel | bay | barrier | node | pair | peer | endProg
  deriving DecidableEq, Repr

/-- A fence in progress: its kind, its operand (the node of FENCE.PEER, the mask and tag of a barrier, the status of END), and
the ground cycle of its limit. -/
structure FenceX where
  kind : FenceKind
  arg : Nat
  limit : Option Nat
  deriving DecidableEq, Repr

/-- The visit an ATTN.STEP or SKETCH.RANK in progress waits at: for the partner's copy, or held for a tier miss (R98, R139). -/
inductive RunHold where
  | fetch
  | miss
  deriving DecidableEq, Repr

/-- An ATTN.STEP or SKETCH.RANK in progress (R98, R137, R139, R142): which it is, its status register, its descriptor's
offset, the portfolio record it read at its start, the visits still to be made, the counts of its completion word, the
location exception it will report, the bounds found so far, what it waits for, and whether the sheet at the head is to be
read from its live entry. -/
structure RunX where
  rank : Bool
  rd : Nat
  desc : Nat
  recd : List Byte
  left : List Nat
  count : Nat
  skipped : Nat
  damaged : Nat
  locFault : Option Nat
  bounds : List (Nat × Nat)
  hold : RunHold
  live : Bool
  deriving DecidableEq, Repr

/-- A launch placed on an easel (R76, R80): the launch, whether the entry it runs was decided when it was placed, that entry, and
once its copy has begun the easel cycle of its first instruction and whether an image is being copied. -/
structure CopyX where
  launch : Launch
  kept : Bool
  entry : BitVec 128
  begun : Bool
  firstAt : Nat
  copying : Bool
  deriving DecidableEq, Repr

/-- What a gated easel goes back to when it has woken (R485, R486). -/
structure WakeX where
  due : Nat
  deriving DecidableEq, Repr

/-- The state of a logical easel that no register shows; `mmaQ` is the MMA that waits for the unit with its scales, `switching` is
the failed physical easel and the spare that is being switched in for it, `gate` whether it became idle with its bit of IDLEGATE set. Log
entry 41 DESIGN CHOICE, 79 DEDUCED. -/
structure EaselX where
  imgLen : Nat := 0
  src : Option Launch := none
  role : Nat := 0
  limit : Nat := 0
  startGc : Nat := 0
  opSeq : Nat := 0
  wait : Option WaitX := none
  outst : List OutOp := []
  pend : List PendX := []
  faults : List ImpFault := []
  fence : Option FenceX := none
  run : Option RunX := none
  tables : List (Nat × List Nat) := []
  expQ : List (Nat × Nat × List Byte) := []
  expBusy : Nat := 0
  mmaQ : Option (Word × Vec × Vec) := none
  mmaBusy : Nat := 0
  mmaTiles : List Nat := []
  copy : Option CopyX := none
  idleSince : Nat := 0
  gate : Bool := false
  wake : Option WakeX := none
  resetDue : Option Nat := none
  switching : Option (Nat × Nat) := none
  failed : Bool := false
  deriving DecidableEq, Repr

/-! ## Bays -/

/-- A queued or admitted search (R56, R144): the easel, its destination pair, the key, the mask, and once admitted the two
result words and the cycle they land. -/
structure SearchX where
  x : Ea
  rd : Nat
  key : Nat
  mask : Nat
  result : Option (Word × Word)
  due : Nat
  deriving DecidableEq, Repr

/-- The engine's running descriptor (R134, R184, R235): its words, whether its operation has run, the per-sheet records so far,
the entries to be rewritten once the partner has acknowledged (position in the run, the entry as read, the new entry), the
mirrored operations awaited (R181), the positions whose partner's move is awaited (R316), the logical pages whose program is
awaited (R334), the sheets written meanwhile as portfolio × 2^32 + index (R183, R319), whether DST has run out (R316), the sheet
whose first sketch stroke is still to be written and that stroke (R233), the strokes used at DST and the sheets changed. -/
structure EngX where
  desc : List Nat
  ran : Bool := false
  results : List Nat := []
  commits : List (Nat × Nat × Nat) := []
  ids : List Nat := []
  moves : List Nat := []
  pages : List Nat := []
  dirty : List Nat := []
  full : Bool := false
  first : Option (Nat × List Byte) := none
  used : Nat := 0
  changed : Nat := 0
  deriving DecidableEq, Repr

/-- A stroke of a lane that has been issued and not yet counted (R262, R271): its number in the stream, its stack address, the
cycle it lands, whether it is being read again, whether it has landed, and the key its read was issued under (R266). -/
structure WsFlight where
  seq : Nat
  addr : Nat
  entry : Nat
  due : Nat
  retry : Bool
  landed : Bool
  kid : Nat
  deriving DecidableEq, Repr

/-- An entry of a lane's list as the lane walks it (R260, R264): its number, layer, first stroke's number in the stream, first
stroke's address, strokes, strokes issued, and its STOPAFTER and LAST. -/
structure WsSpan where
  entry : Nat
  layer : Nat
  start : Nat
  addr : Nat
  strokes : Nat
  issued : Nat
  stop : Bool
  last : Bool
  deriving DecidableEq, Repr

/-- A lane of the weight stream unit (R258 to R268): whether it runs, the entry it fetches next, the spans not yet wholly
released, the strokes in flight, the strokes issued, landed and released since START, the entry of the stroke landed last, and the
code, entry and location it stops with once the strokes in flight have landed. -/
structure LaneX where
  run : Bool := false
  next : Nat := 0
  spans : List WsSpan := []
  flights : List WsFlight := []
  issued : Nat := 0
  landed : Nat := 0
  released : Nat := 0
  landing : Nat := 0
  stopping : Option (Nat × Nat × Nat) := none
  deriving DecidableEq, Repr

/-- The state of a bay that no register shows. -/
structure BayX where
  prog : SMap (BitVec 128) := []
  incoming : List Launch := []
  acceptAt : Nat := 0
  queue : List Launch := []
  fifos : SMap (List Word) := []
  timerStart : SMap Nat := []
  timerCount : SMap Nat := []
  blocked : List Nat := []
  searchQ : List SearchX := []
  searching : List SearchX := []
  engineQ : List (List Nat) := []
  engine : Option EngX := none
  trace : List Word := []
  lanes : SMap LaneX := []
  wsTurn : Nat := 0
  keystore : List Nat := []
  factory : Nat := 0
  failedPhys : Nat := 0
  deepSince : Nat := 0
  wakeAt : Option Nat := none
  wakeEasels : Nat := 0
  deriving DecidableEq, Repr

/-! ## Stacks -/

/-- A stroke in the page buffer (R284): its stack address and whether a FLUSH.RANGE has raised its write-back. -/
structure PbEnt where
  addr : Nat
  flush : Bool
  deriving DecidableEq, Repr

/-- A near-bank operation of a stack (R297, R301): the easel and entry that wait for it, its function, units, type and
pattern, its arrival, and once it has started the refusing channels, its window start, the end of its last channel and the
completion word it comes to. -/
structure NbX where
  x : Ea
  entry : Nat
  fn : Nat
  dst : Nat
  src : Nat
  units : Nat
  ty : Nat
  pattern : Nat
  arrival : Nat
  refusing : List Nat
  start : Nat
  due : Nat
  result : Word
  deriving DecidableEq, Repr

/-- The state of a stack and its controller that no register shows: the page buffer; the slot map in force and the one the next
frame takes; the throttle step likewise; whether floors have been raised since; the windows of admitted accesses (channel, first
cycle) and their banks (channel, bank, first cycle); the queued and the running near-bank operation; each channel's scrub visits
made and whether a correction is to be written back; corrections per row; remapped rows (spare row + 1); the spare rows each bank
has given out; rows being remapped with the windows used; the rows listed for the next reset; the scrub pass a row last needed
correction in, plus 1; each channel's refresh row; the cycle until which a switch of microcode lets no access in (R469); whether a
trip drains and since when, re-centring has failed, when a retrain or reset ends, failed trainings, whether the contents are lost,
and CORR at the last ageing pass. -/
structure StackX where
  pb : List PbEnt := []
  map : Nat := 0x1001400000
  pendMap : Option Nat := none
  step : Nat := 0
  pendStep : Option Nat := none
  pendFloor : Bool := false
  windows : List (Nat × Nat) := []
  banks : List (Nat × Nat × Nat) := []
  nbQ : List NbX := []
  nbRun : Option NbX := none
  scrub : SMap Nat := []
  scrubFix : SMap Bool := []
  corr : SMap Nat := []
  remap : SMap Nat := []
  spent : SMap Nat := []
  remapping : List (Nat × Nat) := []
  detRows : List Nat := []
  weak : SMap Nat := []
  refresh : SMap Nat := []
  shut : Nat := 0
  tripping : Bool := false
  tripAt : Nat := 0
  badTiming : Bool := false
  readyAt : Option Nat := none
  trainFails : Nat := 0
  lost : Bool := true
  passCorr : Nat := 0
  deriving DecidableEq, Repr

/-! ## Catalogue -/

/-- A catalogue access waiting for its bank cycle (R57, R145): the easel and entry that wait, whether it writes, to which
bank (0 live, 1 shadow), the entry, the image or the operand-store offset. -/
structure CatAcc where
  x : Ea
  entry : Nat
  write : Bool
  shadow : Bool
  n : Nat
  off : Nat
  image : BitVec 256
  due : Nat
  deriving DecidableEq, Repr

/-- The copy or clear of the shadow bank while it runs (R63): the cycle of the START, the entries per cycle and slice, and the
shadow bank as it was, entry for entry and parity for parity. -/
structure CatFill where
  start : Nat
  per : Nat
  old : SMap (BitVec 256)
  oldBad : SMap Bool
  deriving DecidableEq, Repr

/-- The catalogue's rebuild state that no register shows (R63 to R68): the journal, the round that decides an armed flip, the end
of the last round that exchanged the banks, the end of Filling, the copy or clear that runs, the scheduled accesses and the
scrub's local index. -/
structure CatX where
  journal : List Nat := []
  flipAt : Option Nat := none
  flipEnd : Nat := 0
  fillEnd : Nat := 0
  fill : Option CatFill := none
  pendAcc : List CatAcc := []
  scrubIdx : Nat := 0
  deriving DecidableEq, Repr

/-! ## Host interface -/

/-- The state of a host queue that no register shows (R541 to R545): its tail, its completion head, the entries in its fetch buffer
(empty while the read of one is outstanding), whether its message is outstanding, its posted receive buffers (ticket, address, length,
tag), and how often it has been disabled or reset, by which a completion that comes too late is told apart. -/
structure HqX where
  tail : Nat := 0
  head : Nat := 0
  buf : List (List Word) := []
  msgOut : Bool := false
  rx : List (Nat × Nat × Nat × Nat) := []
  gen : Nat := 0
  deriving DecidableEq, Repr

/-- The host interface (R530 to R545, R540): the next event number, the on-die event buffer, whether the log's message is
outstanding, the pending messages, PERST_N asserted by function, the queues, the bus-master reads outstanding with their cycle,
the BAR4 size in force, the queue each function fetched from last, the entries whose own read is outstanding (read number, ticket,
entry), the number of the next such read, and the T2 strokes whose read has failed. Log entry 9 PRESUMED. -/
structure HostX where
  seq : Nat := 0
  evBuf : List (List Word) := []
  evOut : Bool := false
  pba : List (Nat × Nat) := []
  perst : List Bool := [true, true]
  queues : SMap HqX := []
  reads : List (HostRead × Nat) := []
  bar4 : List Nat := [0, 0]
  turn : List Nat := [63, 63]
  waits : List (Nat × Nat × List Word) := []
  serial : Nat := 0
  t2Failed : List Nat := []
  deriving DecidableEq, Repr

/-! ## Heat tables and flash -/

/-- An entry of a heat table (R309): free where `used` is false. -/
structure HeatEnt where
  used : Bool := false
  pf : Nat := 0
  idx : Nat := 0
  count : Nat := 0
  stamp : Nat := 0
  deriving DecidableEq, Repr

/-- The heat table of a bay (R309 to R311): its entries by set × 4 + way, the set the sweep visits next, and the ground
cycle its tick counter last advanced. -/
structure HeatX where
  ents : SMap HeatEnt := []
  sweep : Nat := 0
  tickAt : Nat := 0
  deriving DecidableEq, Repr

/-- The state of a flash block (R330, R331). -/
inductive BlockSt where
  | free | opened | closed | retired
  deriving DecidableEq, Repr

/-- A flash block: its state, erase count and the logical pages programmed into it, in order. -/
structure FlashBlock where
  st : BlockSt := .free
  erases : Nat := 0
  pages : List Nat := []
  deriving DecidableEq, Repr

/-- The state of a flash channel that no register shows (R326 to R335): its geometry, its blocks by LUN × 2^32 + block, its map
from logical pages to 1 + block key × 4,096 + page (0 unmapped), the lost pages, the codewords that failed their last read
(logical page × 4 + codeword), the logical pages whose program is awaited with the LUN each is to go to, the LUN whose turn is
next, the blocks opened since the last checkpoint, the pages the patrol still has to read in this pass, whether the map is being
rebuilt, the ground cycle until which a retrain or a restart holds its work and the one from which it does, and whether it was
ready when N2 took its power. Log entry 11 DESIGN CHOICE. -/
structure FlashX where
  geom : Option FlashGeometry := none
  blocks : SMap FlashBlock := []
  map : SMap Nat := []
  lost : SMap Bool := []
  bad : SMap Bool := []
  queue : List Nat := []
  place : SMap Nat := []
  turn : Nat := 0
  opened : Nat := 0
  patrolled : List Nat := []
  rebuilding : Bool := false
  holdUntil : Nat := 0
  holdFrom : Nat := 0
  parked : Bool := false
  deriving DecidableEq, Repr

/-- What the flash as a whole holds (R328, R337): FLASH.CFG as last written, and from FORMAT on the value in force with the
number of logical pages. Log entry 11 DESIGN CHOICE. -/
structure FlashAll where
  next : Nat := 0x4000300808
  inForce : Option (Nat × Nat) := none
  deriving DecidableEq, Repr

/-! ## Keys -/

/-- An owner key slot (R35, R448, R449, R457, R476): 0 EMPTY, 1 INSTALLED, 2 FAULT; its owner, the identity of its key, the nonce
issued for its installation, whether this node's copy fails its check code, whether a destroy waits for the partner, and the ground
cycle a destroy was taken in whose effect is still to come. Log entry 15 DESIGN CHOICE. -/
structure KeyX where
  state : Nat := 0
  owner : Nat := 0
  kid : Nat := 0
  nonce : Option Nat := none
  bad : Bool := false
  pending : Bool := false
  dying : Option Nat := none
  deriving DecidableEq, Repr

/-! ## The root of trust -/

/-- How far the units have switched to another firmware, or have still to switch back (R469, R470): the bays 0 to `bays` - 1, the
ports 0 to `ports` - 1, and the ground cycle the last port's turn came. -/
structure SwitchX where
  bays : Nat := 0
  ports : Nat := 0
  portAt : Nat := 0
  deriving DecidableEq, Repr

/-- An activation in progress or just completed (R469): its epoch, the ground cycle it started, whether it has completed, how far
its units have switched, the runtime digests it registers and those it will deregister, and the counters it will raise. -/
structure ActX where
  epoch : Nat
  since : Nat
  complete : Bool
  sw : SwitchX := {}
  newDigests : List Nat
  oldDigests : List Nat
  svn : List Nat
  deriving DecidableEq, Repr

/-- What no register shows of the root of trust (R77, R443 to R477, R521): the registered image digests; the mailbox channels
whose requests wait, in GO order, and the request that runs (channel, code, length); the anti-rollback counters of the
replay-protected area and the partner's as last exchanged; the active bank of the boot record and the activation it records, with
the units that have still to switch back after one that failed (R470); the stored licence record; the number of the wrapping key;
the watchdog's firings in a row and whether the image stays stopped; whether RECOVER has been issued; the margin plan as a cold
node reset found it, until it is restored (R503); and whether a debug session is open on the test port (R461). Log entry 3 DESIGN
CHOICE, 75 DEDUCED. -/
structure RotX where
  digests : List Nat := []
  queue : List Nat := []
  running : Option (Nat × Nat × Nat) := none
  svn : List Nat := [0, 0, 0, 0, 0, 0]
  partnerSvn : List Nat := [0, 0, 0, 0, 0, 0]
  bank : Nat := 0
  act : Option ActX := none
  back : Option SwitchX := none
  lic : Option (List Byte) := none
  wrapGen : Nat := 0
  wdog : Nat := 0
  stopped : Bool := false
  recover : Bool := false
  plan : SMap Word := []
  debug : Bool := false
  deriving DecidableEq, Repr

/-! ## The pair -/

/-- What no register shows of the pair link (R405, R407, R409): the number of the next mirrored operation, the unacknowledged ones
with the easel that issued each and the cycle the acknowledgement has its count from, the entries each stack's log part holds,
whether logged operations await a resynchronisation, the ground cycle of unreachability, the partner's log of the
resynchronisation in progress, the ground cycle of the last audit step and the portfolio it goes on with, this node's part of the
partner's moves that awaits its programs (R320: the pages left, all its pages), the lane groups whose training has succeeded,
those that run, and the turn of the traffic whose own group does not run (R404). -/
structure PairX where
  nextId : Nat := 0
  window : List (Nat × Option Ea × MirrorIn × Nat) := []
  logLen : SMap Nat := []
  owed : Bool := false
  unreachAt : Nat := 0
  partnerLog : List LogEntry := []
  auditAt : Nat := 0
  auditPf : Nat := 0
  moveWaits : List (List Nat × List Nat) := []
  trained : Nat := 0
  groups : Nat := 0
  turn : Nat := 0
  deriving DecidableEq, Repr

/-! ## Outputs -/

/-- What the node sends to the outside (the model's own record, log entry 12 DESIGN CHOICE), oldest first. -/
inductive Out where
  /-- A bus-master write of function `f` to a host address. -/
  | hostWrite (f addr : Nat) (data : List Byte)
  /-- A bus-master read of function `f`: its host address and its bytes. -/
  | hostRead (f addr len : Nat) (read : HostRead)
  /-- The answer to a host read of BAR4: the bytes, or none for Completer Abort. -/
  | bar4Data (f : Nat) (data : Option (List Byte))
  /-- An MSI-X message. -/
  | msix (f vector : Nat)
  /-- A native frame on a port, and the easel cycle of its first bit (R355). -/
  | frame (port : Nat) (f : Frame) (first : Nat)
  /-- The capability page a port sends on its locked lanes from here on (R347). -/
  | page (port : Nat) (page : BitVec 64)
  /-- A frame in Ethernet framing on a port, without its FCS. -/
  | ether (port : Nat) (data : List Byte)
  /-- A mirrored operation to the partner. -/
  | mirror (id : Nat) (op : MirrorIn)
  /-- An answer to the partner's mirrored operation. -/
  | mirrorAck (applied : Bool)
  /-- A message on the pair's secure channel. -/
  | pairMsg (kind : Nat) (words : List Nat)
  /-- A Voltage write on AVSBus: the bus, the rail address and the set point in microvolts (R555). -/
  | avs (bus rail microvolts : Nat)
  /-- A level on a pin. -/
  | pin (name : String) (level : Bool)
  deriving DecidableEq, Repr

/-! ## The fabric (R344 to R400) -/

/-- What no register shows of an optical port (R344, R347 to R349, R354, R373, R377): the ground cycle it entered its state, the
lanes whose lasers are lit and their rate code, the lanes that locked in TRAIN, the capability page it sends, the lanes a settle
check has cleared, the mode chosen (log2 of the lanes, rate, FEC, framing, lanes), the offer narrowed to one lane (R490), whether
its ferrule is absent, the uncorrectable codewords of the last 25,000 gc with the ground cycle of each frame, when the last data
frame began and ends on the fibre in millionths of an easel cycle, the frames a near-end loop brings back, and the client packets
that wait for their record, with the cycle of their last bit. Log entry 9 PRESUMED. -/
structure PortX where
  since : Nat := 0
  lit : Nat × Nat := (0, 0)
  offer : Nat := 0
  bad : List (Nat × Nat) := []
  fibre : Nat × Nat := (0, 0)
  looped : List Frame := []
  locked : Nat := 0
  dropped : Nat := 0
  chosen : Option (Nat × Nat × Nat × Nat × Nat) := none
  narrow : Bool := false
  unseated : Bool := false
  miss : List (Frame × Nat) := []
  deriving DecidableEq, Repr

/-- A posted receive buffer (R148, R372): the easel, its table entry and its place in program order, the place and the bytes. -/
structure RecvBuf where
  x : Ea
  entry : Nat
  seq : Nat
  src : Nat
  len : Nat
  deriving DecidableEq, Repr

/-- A packet of a message in flight (R358, R363): its PSN and index, its message's first PSN, its frame once it is in the transmit
buffer, how often it was sent, the ground cycle of its latest first bit and the port it left on, whether it is acknowledged or due,
and the easel cycle it fell due. -/
structure TxPkt where
  psn : Nat
  idx : Nat
  first : Nat
  frame : Option Frame
  sends : Nat
  sentGc : Nat
  port : Nat
  acked : Bool
  due : Bool
  dueAt : Nat
  deriving DecidableEq, Repr

/-- A message this node sends (R146, R357, R358): the easel and the entry that wait, its descriptor, its packets, its port, when it
was issued and when its payload was present at the port bay, whether it stands in a subscriber queue, the packets begun and whether
its completion has come. -/
structure TxMsg where
  first : Nat
  n : Nat
  send : Bool
  x : Ea
  entry : Nat
  seq : Nat
  desc : List Nat
  epoch : Nat
  port : Option Nat
  issued : Nat
  ready : Nat
  queued : Bool
  next : Nat
  complete : Bool
  deriving DecidableEq, Repr

/-- An open message (R360, R361, R367, R370): its first PSN, packets, the header words of its first packet, the port its last packet
came in on, the packets accepted, those on their way to memory with the cycle they land, the packets placed, the bytes placed so
far as memory runs, the mirrored writes awaited, the receive buffer of a SEND, and where its last byte was placed and when. -/
structure RxMsg where
  first : Nat
  n : Nat
  hdr : List Nat
  port : Nat
  seen : List Nat
  placing : List (Nat × List Byte × Nat)
  placed : Nat
  spans : List (Nat × Nat)
  ids : List Nat
  buf : Option RecvBuf
  lastBay : Nat
  deriving DecidableEq, Repr

/-- A message that is over (R360, R363, R370): its first PSN, the completion it keeps and the packets still to be discarded. -/
structure RxDone where
  first : Nat
  code : Nat
  count : Nat
  detail : Nat
  left : Nat
  deriving DecidableEq, Repr

/-- A connection (R356 to R365): its entry, the port of its last message, its packets and messages out, its receive window, the
open and finished messages, the accepted packets not yet acknowledged with the ground cycle of the first and the port of the last,
and the posted receive buffers. A client connection is one whose record is held on chip (R373): the record, the turn of its last
use, and the ground cycle of an invalidation that waits. -/
structure ConnX where
  state : Nat := 0
  peer : Nat := 0
  peerconn : Nat := 0
  ports : Nat := 0
  rr : Nat := 7
  txpsn : Nat := 0
  rxcum : Nat := 0
  retx : Nat := 0
  pkts : List TxPkt := []
  msgs : List TxMsg := []
  rxbits : List Nat := []
  rx : List RxMsg := []
  done : List RxDone := []
  nack : Nat := 0
  nackGc : Nat := 0
  nackPort : Nat := 0
  bufs : List RecvBuf := []
  record : List Byte := []
  used : Nat := 0
  inval : Option Nat := none
  deriving DecidableEq, Repr

/-- A registration (R366, R368): its state, its fields, its generation and the ground cycle its revocation started. -/
structure RegnX where
  state : Nat := 0
  kind : Nat := 0
  client : Nat := 0
  keytag : Nat := 0
  gen : Nat := 0
  len : Nat := 0
  base : Nat := 0
  owner : Nat := 0
  cconn : Nat := 0xFFFFF
  start : Nat := 0
  deriving DecidableEq, Repr

/-- A message in a subscriber queue (R384): one of a connection, traffic of the node's own with the frame bytes it is charged, or a
received Ethernet frame on its way to the host buffer of a management queue, with what its completion needs (R544). -/
inductive QItem where
  | msg (conn first : Nat)
  | own (o : Out) (bytes : Nat)
  | mgmt (f addr : Nat) (data : List Byte) (ticket tag port : Nat)
  deriving DecidableEq, Repr

/-- A queued message: what it is, its service and the ground cycle it entered its queue. -/
structure QEnt where
  item : QItem
  svc : Nat
  entered : Nat
  deriving DecidableEq, Repr

/-- A subscriber queue (R384, R387, R390, R394, R396): its shaping entry, its bucket in 1/16 byte, its messages, its last tag, the
time its head's tag counts from and the WEIGHT the head came under, and the largest HOLD since its last record.
Log entry 10 DESIGN CHOICE. -/
structure SubqX where
  rate : Nat := 0
  burst : Nat := 65536
  weight : Nat := 1
  tok : Int := 1048576
  msgs : List QEnt := []
  prev : Nat := 0
  base : Nat := 0
  headW : Nat := 1
  maxHold : Nat := 0
  deriving DecidableEq, Repr

/-- A service of an instance (R387, R390): its bucket, its last tag, the time its next tag counts from and the WEIGHT it counts under,
and its virtual time. Log entry 10 DESIGN CHOICE. -/
structure SvcX where
  tok : Int := 1048576
  prev : Nat := 0
  base : Nat := 0
  headW : Nat := 1
  v : Nat := 0
  deriving DecidableEq, Repr

/-- A scheduler instance (R383): its port bucket, its queues, its services, the virtual time of each PRIO, and one more than the easel
cycle of its last grant. Log entry 10 DESIGN CHOICE. -/
structure InstX where
  tok : Int := 1048576
  granted : Nat := 0
  subs : SMap SubqX := []
  svcs : SMap SvcX := []
  vp : SMap Nat := []
  deriving DecidableEq, Repr

/-- A policer (R391, R392, R397): its mode and actions, its rates and bursts, its two buckets in 1/16 byte, its counters. -/
structure PolX where
  mode : Nat := 0
  acty : Nat := 0
  actr : Nat := 0
  cir : Nat := 0
  cbs : Nat := 0
  pir : Nat := 0
  pbs : Nat := 0
  tc : Int := 0
  tp : Int := 0
  green : Nat := 0
  yellow : Nat := 0
  red : Nat := 0
  deriving DecidableEq, Repr

/-- What no register shows of the transport and the schedulers: the ports, the connections (a client connection's number plus
4,096), the registrations, the instances, and the instances as the easel cycle of their last change found them, under one more
than that cycle (R389); the node policers, the stage A bindings (policer + 65,536 where enabled), the buckets of the port policers
(port × 2 + k), the policers and port policers (word 0 and buckets) that a write has replaced, each under one more than the ground
cycle of the write, to the end of which they meter on (R393); the packets not yet metered, with their port, the cycle of their
last bit and the ground cycle they are metered in; the frames received and not yet taken up, with their port and the cycle of
their last bit, the records being fetched, the count of record uses, the ground cycle of the last refill, of the last sample and
the end of its walk, and the last RESYNC of each connection. -/
structure FabX where
  ports : SMap PortX := []
  conns : SMap ConnX := []
  regns : SMap RegnX := []
  insts : SMap InstX := []
  instsWas : Nat × SMap InstX := (0, [])
  pols : SMap PolX := []
  bound : SMap Nat := []
  inpol : SMap (Int × Int) := []
  polOld : SMap (Nat × PolX) := []
  inpolOld : SMap (Nat × Nat × Int × Int) := []
  metering : List (Nat × Frame × Nat × Nat) := []
  arrived : List (Nat × Frame × Nat) := []
  fetching : List Nat := []
  uses : Nat := 0
  refillAt : Nat := 0
  sampleAt : Nat := 0
  walkEnd : Nat := 0
  resyncAt : SMap Nat := []
  deriving DecidableEq, Repr

/-! ## The map, the fault protocol and leases (R414 to R429) -/

/-- An entry of the forward table (R416). -/
structure FwdX where
  owner : Nat := 0
  session : Nat := 0
  hint : Nat := 0
  valid : Bool := false
  active : Bool := false
  pf : Nat := 0
  newpf : Nat := 0
  act : Nat := 0
  deriving DecidableEq, Repr

/-- A proposal in progress (R425): its record, the nodes that have accepted it and the ground cycle it was made in. -/
structure Proposal where
  record : Commit
  accepts : List Nat
  at_ : Nat
  deriving DecidableEq, Repr

/-- The membership table as (STATE, PARTNER), the forward table, the commit records of the last 64 epochs, the open grace windows
as (epoch, end), and the fault protocol: heartbeats sent, the ground cycle each watched node was last heard, the nodes suspected
as 1 + coordinator + 4,096 × ground cycle, the suspicions held as (subject, watcher, split), the changes decided and not yet
committed, the proposal in progress, the accepted proposers by target, the end of the back-off, and the last heartbeat round (R414
to R426). -/
structure MapX where
  members : SMap (Nat × Nat) := []
  fwd : SMap FwdX := []
  commits : List (Nat × Commit) := []
  grace : List (Nat × Nat) := []
  beats : Nat := 0
  beatAt : Nat := 0
  heard : SMap Nat := []
  suspects : SMap Nat := []
  held : List (Nat × Nat × Bool) := []
  decided : List Nat := []
  plan : Bool := false
  proposal : Option Proposal := none
  accepted : List (Nat × Nat) := []
  backoff : Option Nat := none
  deriving DecidableEq, Repr

/-- A lease (R428): the portfolio and line, the holding function, its staging copy and the ground cycle of its last command. -/
structure LeaseX where
  pf : Nat
  line : Nat
  holder : Nat
  staging : List Byte
  last : Nat
  deriving DecidableEq, Repr

/-- A lease command that waits for the partner's acknowledgement of its mirrored write (R428): the operations awaited, its queue
ticket and the tag. -/
structure LeaseWait where
  ids : List Nat
  queue : Nat
  tag : Nat
  deriving DecidableEq, Repr

/-! ## Power, pins and the node's clock -/

/-- What no register shows of power and the pins (R489 to R507, R552 to R568): ALARM_N, THERMTRIP_N and PAIR_WAKE_N asserted, the
three power enables, whether the die was at TJ_WARN at the last sample and its consecutive samples at the trip level; whether N1
is requested, whether ports are widened for a bay that is active, whether the pair link is parked, and since when PAIR_WAKE_N is
asserted or is to be; the frame start and bin of a relock and the bin asked for during a brake; of the supply samples the crystal
cycle of the last, the rails below their warning level at it, those below their reset level at the last, whether VDD_GND was low
at it, the crystal cycle the brake was applied in, those in a row that were good and whether LONG has run out; the set points
acknowledged by rail in microvolts, the requests outstanding (rail, set point, ground cycle), and the ground cycle of the last
ageing pass and whether the next one is due now. -/
structure PwrX where
  alarm : Bool := false
  thermtrip : Bool := false
  pairWake : Bool := false
  enCore : Bool := true
  enStk : Bool := true
  flEn : Bool := true
  dieWarm : Bool := false
  dieHot : Nat := 0
  n1 : Bool := false
  widen : Bool := false
  parked : Bool := false
  wokenAt : Option Nat := none
  relock : Option (Nat × Nat) := none
  binWait : Option Nat := none
  sampled : Option Nat := none
  lowRails : List Nat := []
  resetLow : List Nat := []
  gndLow : Bool := false
  braked : Nat := 0
  good : Nat := 0
  longDone : Bool := false
  setPoints : SMap Nat := []
  avs : List (Nat × Nat × Nat) := []
  passAt : Nat := 0
  passNow : Bool := false
  deriving DecidableEq, Repr

/-- A reset in progress (R509, R517): its scope (1 bay, 2 partition, 3 warm node), its bay or partition, the ground cycle its
counts run from (the frame start F, or the request of a node reset), whether its drain has ended, and the stacks whose contents
are lost. -/
structure ResetX where
  scope : Nat
  unit : Nat
  f : Nat
  drained : Bool
  lost : List Nat
  deriving DecidableEq, Repr

/-- The bring-up (R508 to R511): 0 held until reset release, 1 the ROM starts the root-of-trust image, 2 the image runs, 3 the
node is in N3, 4 the ground supply is lost; the resets in progress; whether the crystal stands still; whether a drained warm node
reset is held (R507, R568); the frame count at the last cold reset; and how often the PLL of each bay has failed to lock in a row.
Log entry 70 DEDUCED. -/
structure BootX where
  phase : Nat := 0
  resets : List ResetX := []
  noCrystal : Bool := false
  warmHeld : Bool := false
  coldFrame : Nat := 0
  pll : SMap Nat := []
  deriving DecidableEq, Repr

/-- An entry of the repair record (R524): 0 a spare switched in (bay, logical easel, physical easel), 1 an easel out of service
(bay, logical easel), 2 a row remapped (stack, row, spare), 3 a row listed (stack, row). -/
structure Repair where
  kind : Nat
  unit : Nat
  a : Nat
  b : Nat
  deriving DecidableEq, Repr

/-- The state of the node; `was` is `regs` as the present easel cycle found it (R9). Log entry 103 DESIGN CHOICE. -/
structure State where
  ec : Nat
  xtal : Nat
  regs : SMap Word
  was : SMap Word
  g : SMap Word
  v : SMap Vec
  t : SMap Tile
  p : SMap (BitVec 128)
  mem : List Host.Cell
  seals : SMap Seal
  eccErr : SMap Nat
  easels : SMap EaselX
  bays : SMap BayX
  stackXs : SMap StackX
  cat : SMap (BitVec 256)
  catBad : SMap Bool
  catc : CatX
  heat : SMap HeatX
  flash : SMap FlashX
  flashAll : FlashAll
  host : HostX
  keys : SMap KeyX
  kidNext : Nat
  rot : RotX
  pwr : PwrX
  boot : BootX
  frames : Nat
  mesh : List (Nat × Nat × Nat)
  repair : List Repair
  repairDue : List Repair
  pair : PairX
  fab : FabX
  map : MapX
  leases : List LeaseX
  leaseWaits : List LeaseWait
  out : List Out
  free : Nat
  pending : List Instr
  deriving DecidableEq, Repr

/-- The node right after cold node reset: every register at its After reset value (R11), memory and every table empty, and
where the spec gives no value, what INVENTORY.md and the assumption log name.
Log entry 2 DESIGN CHOICE, 3 DESIGN CHOICE, 11 DESIGN CHOICE,
135 DESIGN CHOICE. -/
def State.reset : State where
  ec := 0
  xtal := 0
  regs := []
  was := []
  g := []
  v := []
  t := []
  p := []
  mem := []
  seals := []
  eccErr := []
  easels := []
  bays := []
  stackXs := []
  cat := []
  catBad := []
  catc := {}
  heat := []
  flash := []
  flashAll := {}
  host := {}
  keys := [(0, { state := 1, owner := 0, kid := 1 })]
  kidNext := 2
  rot := {}
  pwr := {}
  boot := {}
  frames := 0
  mesh := []
  repair := []
  repairDue := []
  pair := {}
  fab := {}
  map := {}
  leases := []
  leaseWaits := []
  out := []
  free := 0
  pending := []

end Sys2Proof.Machine
end

