-- ==== Sys2Proof/Machine/Ops.lean ====
section
/-! DEFINITION. The named operations over registers, memory and the tables of the machine, and what every family shares:
the event log, doorbells, bindings, host completions and taking an exception. -/

namespace Sys2Proof

/-- Whether an easel operand names a logical easel of the die (R15). -/
def Ea.ok (x : Ea) : Bool := decide (x.bay < 16) && decide (x.easel < 12)

/-- The number of a logical easel in the tables of the machine. -/
def Ea.key (x : Ea) : Nat := x.bay * 12 + x.easel

end Sys2Proof

namespace Sys2Proof.Machine

/-! ## Units -/

/-- Mesh hops between two bays (R18). -/
def hops (a b : Nat) : Nat :=
  ((a % 4) - (b % 4)) + ((b % 4) - (a % 4)) + ((a / 4) - (b / 4)) + ((b / 4) - (a / 4))

/-- The answer of a meaning whose operands name units of the node, and the refusal of one that does not. Log entry 40 DESIGN
CHOICE. -/
def guarded (ok : Bool) (s : State) (f : State → State) : Host.Outcome State Fault Refusal :=
  if ok then .next (f s) else .refused .illFormed

/-! ## Registers of the map -/

/-- The value of the register at an offset. -/
def State.reg (s : State) (off : Nat) : Word := SMap.get regReset s.regs off

/-- The register at an offset set. -/
def State.setReg (s : State) (off : Nat) (v : Word) : State := { s with regs := SMap.set regReset s.regs off v }

/-- A field of the register at an offset. -/
def State.fld (s : State) (off : Nat) (f : Fld) : Nat := bf (s.reg off) f.lo f.w

/-- A field of the register at an offset set to the low bits of `v`. -/
def State.setFld (s : State) (off : Nat) (f : Fld) (v : Nat) : State :=
  s.setReg off (BitVec.ofNat 64 (putBits (s.reg off).toNat f.lo f.w v))

/-- A saturating counter field raised by one. -/
def State.bump (s : State) (off : Nat) (f : Fld) : State := s.setFld off f (satInc f.w (s.fld off f))

/-- A wrapping counter field raised by `n`. -/
def State.count (s : State) (off : Nat) (f : Fld) (n : Nat) : State := s.setFld off f (s.fld off f + n)

/-! ## Tables -/

/-- The ground cycle (R480): 96 easel cycles of the node count each. -/
def State.gc (s : State) : Nat := s.ec / 96

/-- What no register shows of an easel. -/
def State.ex (s : State) (x : Ea) : EaselX := SMap.get (fun _ => {}) s.easels x.key

/-- What no register shows of an easel, set. -/
def State.setEx (s : State) (x : Ea) (e : EaselX) : State :=
  { s with easels := SMap.set (fun _ => {}) s.easels x.key e }

/-- What no register shows of an easel, changed. -/
def State.updEx (s : State) (x : Ea) (f : EaselX → EaselX) : State := s.setEx x (f (s.ex x))

/-- What no register shows of a bay. -/
def State.bay (s : State) (b : Nat) : BayX := SMap.get (fun _ => {}) s.bays b

/-- What no register shows of a bay, set. -/
def State.setBay (s : State) (b : Nat) (v : BayX) : State := { s with bays := SMap.set (fun _ => {}) s.bays b v }

/-- What no register shows of a bay, changed. -/
def State.updBay (s : State) (b : Nat) (f : BayX → BayX) : State := s.setBay b (f (s.bay b))

/-- What no register shows of a stack. -/
def State.stk (s : State) (b : Nat) : StackX := SMap.get (fun _ => {}) s.stackXs b

/-- What no register shows of a stack, set. -/
def State.setStk (s : State) (b : Nat) (v : StackX) : State := { s with stackXs := SMap.set (fun _ => {}) s.stackXs b v }

/-- What no register shows of a stack, changed. -/
def State.updStk (s : State) (b : Nat) (f : StackX → StackX) : State := s.setStk b (f (s.stk b))

/-- A key slot (R35). -/
def State.key (s : State) (k : Nat) : KeyX := SMap.get (fun _ => {}) s.keys k

/-- A key slot set. -/
def State.setKey (s : State) (k : Nat) (v : KeyX) : State := { s with keys := SMap.set (fun _ => {}) s.keys k v }

/-- What no register shows of a host queue. -/
def State.hq (s : State) (q : Nat) : HqX := SMap.get (fun _ => {}) s.host.queues q

/-- What no register shows of a host queue, set. -/
def State.setHq (s : State) (q : Nat) (v : HqX) : State :=
  { s with host := { s.host with queues := SMap.set (fun _ => {}) s.host.queues q v } }

/-- An output appended. Log entry 12 DESIGN CHOICE. -/
def State.emit (s : State) (o : Out) : State := { s with out := s.out ++ [o] }

/-- A free value drawn: a number no proof can see, and the state with the counter of draws advanced (log entry 13 DESIGN CHOICE). -/
def State.draw (s : State) : Nat × State := (Config.freeNat s.free, { s with free := s.free + 1 })

/-! ## Time -/

/-- The easels of the die. -/
def allEasels : List Ea := (List.range 192).map fun k => ⟨k / 12, k % 12⟩

/-- Time passes up to easel cycle `t` at the latest: the clock moves there unless it is past it, and EASEL.RUNTIME of every
launched easel shows the ground cycles since its first instruction (R108); a new cycle finds the registers as they stand (R9). An
event that has a count takes place at its count: one that comes early moves the clock there first (log entry 19 DESIGN CHOICE).
Log entry 1 DESIGN CHOICE, 3 DESIGN CHOICE. Log entry 116 DEDUCED. -/
def State.passTo (s : State) (t : Nat) : State :=
  if s.ec < t then
    let s1 := { s with ec := t, was := s.regs }
    allEasels.foldl (fun u x =>
      if (u.ex x).src.isSome && (u.ex x).copy.isNone then
        u.setReg (Reg.easelRuntime x.bay x.easel) (BitVec.ofNat 64 (t / 96 - (u.ex x).startGc))
      else u) s1
  else s

/-- One crystal cycle (R480, R502): 96 easel cycles in the node bin, 88, 80 or 72 in the lower ones; none while the crystal stands
still (R507). Log entry 2 DESIGN CHOICE. -/
def State.tick (s : State) : State :=
  if s.boot.noCrystal then s
  else
    let n := [96, 88, 80, 72].getD (s.fld Reg.pwrFreq Reg.pwrFreq_BIN) 96
    let s1 := s.passTo (s.ec + n)
    { s1 with xtal := s1.xtal + 1 }

/-! ## Easel registers (R72) -/

/-- A general register; g0 reads as zero. Log entry 6 DESIGN CHOICE. -/
def State.gr (s : State) (x : Ea) (r : Nat) : Word :=
  if r = 0 then 0 else SMap.get (fun _ => 0) s.g (x.key * 64 + r)

/-- A general register written; a write of g0 is discarded. -/
def State.setG (s : State) (x : Ea) (r : Nat) (v : Word) : State :=
  if r = 0 then s else { s with g := SMap.set (fun _ => 0) s.g (x.key * 64 + r) v }

/-- A vector register. Log entry 6 DESIGN CHOICE. -/
def State.vr (s : State) (x : Ea) (r : Nat) : Vec := SMap.get (fun _ => 0) s.v (x.key * 32 + r)

/-- A vector register written. -/
def State.setV (s : State) (x : Ea) (r : Nat) (v : Vec) : State :=
  { s with v := SMap.set (fun _ => 0) s.v (x.key * 32 + r) v }

/-- A tile. Log entry 6 DESIGN CHOICE. -/
def State.tr (s : State) (x : Ea) (r : Nat) : Tile := SMap.get (fun _ => 0) s.t (x.key * 16 + r)

/-- A tile written. -/
def State.setT (s : State) (x : Ea) (r : Nat) (v : Tile) : State :=
  { s with t := SMap.set (fun _ => 0) s.t (x.key * 16 + r) v }

/-- A predicate; p0 reads as all ones. Log entry 6 DESIGN CHOICE. -/
def State.pr (s : State) (x : Ea) (r : Nat) : BitVec 128 :=
  if r = 0 then BitVec.allOnes 128 else SMap.get (fun _ => 0) s.p (x.key * 8 + r)

/-- A predicate written; a write of p0 is discarded. -/
def State.setP (s : State) (x : Ea) (r : Nat) (v : BitVec 128) : State :=
  if r = 0 then s else { s with p := SMap.set (fun _ => 0) s.p (x.key * 8 + r) v }

/-- The program counter (R72), held by EASEL.PC. -/
def State.pc (s : State) (x : Ea) : Nat := s.fld (Reg.easelPc x.bay x.easel) Reg.easelPc_PC

/-- The program counter set. -/
def State.setPc (s : State) (x : Ea) (n : Nat) : State := s.setFld (Reg.easelPc x.bay x.easel) Reg.easelPc_PC n

/-- EASEL.STATUS.STATE (R108). -/
def State.est (s : State) (x : Ea) : Nat := s.fld (Reg.easelStatus x.bay x.easel) Reg.easelStatus_STATE

/-- Something of a bay has come to rest: its DEEPDLY counts from here at the earliest (R487). -/
def State.quieten (s : State) (b : Nat) : State := s.updBay b fun y => { y with deepSince := s.gc }

/-- Whether a bay is deep or waking (R487, R488). Log entry 92 DESIGN CHOICE. -/
def State.asleep (s : State) (b : Nat) : Bool :=
  bitOf (s.fld Reg.pwrStatus Reg.pwrStatus_DEEP) b || bitOf (s.fld Reg.pwrStatus Reg.pwrStatus_WAKING) b

/-- Whether the controller of a bay admits accesses: it is neither deep nor waking, and no relock runs (R488, R502). -/
def State.admits (s : State) (b : Nat) : Bool :=
  !s.asleep b && decide (s.fld Reg.pwrStatus Reg.pwrStatus_RELOCK = 0) && decide (s.fld (Reg.pwrBay1 b) Reg.pwrBay1_STATE ≠ 3)

/-- EASEL.STATUS.STATE set; from sleep or off on the easel no longer keeps its bay from going deep. -/
def State.setEst (s : State) (x : Ea) (n : Nat) : State :=
  (if n = 5 ∨ n = 6 then s.quieten x.bay else s).setFld (Reg.easelStatus x.bay x.easel) Reg.easelStatus_STATE n

/-- The codes of EASEL.STATUS.STATE (R108). -/
abbrev stIdle : Nat := 0
@[inherit_doc stIdle] abbrev stRunning : Nat := 1
@[inherit_doc stIdle] abbrev stWaiting : Nat := 2
@[inherit_doc stIdle] abbrev stHeld : Nat := 3
@[inherit_doc stIdle] abbrev stStopped : Nat := 4
@[inherit_doc stIdle] abbrev stSleep : Nat := 5
@[inherit_doc stIdle] abbrev stOff : Nat := 6

/-! ## Memory

One list of cells holds every byte the machine addresses; the spaces lie 2^64 apart. -/

/-- What a byte of memory that nothing has written reads as (log entry 7 DESIGN CHOICE). -/
def unlistedByte (_ : Nat) : Byte := 0

/-- Where bay SRAM `b` begins (R15, R17). -/
def sramBase (b : Nat) : Nat := b * 2 ^ 64

/-- Where the operand store of a logical easel begins (R72). -/
def opBase (x : Ea) : Nat := (0x100 + x.key) * 2 ^ 64

/-- Where the instruction store of a logical easel begins (R72). -/
def isBase (x : Ea) : Nat := (0x200 + x.key) * 2 ^ 64

/-- Where stack `b` begins (R275). -/
def stackBase (b : Nat) : Nat := (0x300 + b) * 2 ^ 64

/-- Where the strokes of the host tier begin, as the extents address them (R323). -/
def t2Base : Nat := 0x400 * 2 ^ 64

/-- Where the logical strokes of node flash begin (R328). -/
def t3Base : Nat := 0x500 * 2 ^ 64

/-- Where the buffer of mailbox channel `c` begins (R444). -/
def mbxBase (c : Nat) : Nat := (0x600 + c) * 2 ^ 64

/-- Where image bank `b` of the root of trust's flash begins (R464). -/
def bankBase (b : Nat) : Nat := (0x610 + b) * 2 ^ 64

/-- Where the MSI-X table of function `f` begins (R537). -/
def msixBase (f : Nat) : Nat := (0x620 + f) * 2 ^ 64

/-- One byte of memory. Log entry 7 DESIGN CHOICE. -/
def State.byte (s : State) (a : Nat) : Byte := SMap.get unlistedByte s.mem a

/-- `n` bytes of memory from address `a` on. -/
def State.bytes (s : State) (a n : Nat) : List Byte := SMap.getRange unlistedByte s.mem a n

/-- Bytes of memory written from address `a` on. -/
def State.setBytes (s : State) (a : Nat) (bs : List Byte) : State :=
  { s with mem := SMap.setRange unlistedByte s.mem a bs }

/-- The canonical form of the memory: addresses strictly rising, no entry equal to what an unlisted byte reads as. -/
def Memory.wf (m : List Host.Cell) : Bool := SMap.wf unlistedByte m

/-- 64-bit word at an operand-store offset. -/
def State.opWord (s : State) (x : Ea) (off : Nat) : Word := BitVec.ofNat 64 (bytesNat (s.bytes (opBase x + off) 8))

/-! ## Tier (R1, R4) -/

/-- Logical easels per bay of the tier in force; none without a licence. -/
def State.easelsPerBay (s : State) : Nat :=
  match s.fld Reg.globalLic Reg.globalLic_TIER with
  | 0 => 12
  | 1 => 9
  | 2 => 6
  | _ => 0

/-- Catalogue entries per slice of the tier in force (R24). -/
def State.perSlice (s : State) : Nat := if s.fld Reg.globalLic Reg.globalLic_TIER = 2 then 65536 else 262144

/-- Catalogue entries of the tier in force (R1). -/
def State.catEntries (s : State) : Nat := 16 * s.perSlice

/-- Optical ports of the tier in force (R1). Without a licence no tier is in force, and R3 names no port register block as outside
it: all eight stand. Log entry 121 DESIGN CHOICE. -/
def State.nPorts (s : State) : Nat := if s.fld Reg.globalLic Reg.globalLic_TIER = 2 then 4 else 8

/-- The bit mask of the tier's logical easels of a bay. -/
def State.tierMask (s : State) : Nat := 2 ^ s.easelsPerBay - 1

/-- Confidential mode (R461). -/
def State.conf (s : State) : Bool := s.fld Reg.rotStatus Reg.rotStatus_CONF = 1

/-- GLOBAL.READY.BAY of a bay: launches are taken and accesses served (R513). -/
def State.bayUp (s : State) (b : Nat) : Bool := bitOf (s.fld Reg.globalReady Reg.globalReady_BAY) b

/-- Whether fabric messages for a bay are taken: it is ready and active (R360, R488). -/
def State.bayOpen (s : State) (b : Nat) : Bool := s.bayUp b && !s.asleep b

/-- BAY.STK.STATUS.READY of a stack (R304). -/
def State.stackUp (s : State) (b : Nat) : Bool := s.fld (Reg.bayStkStatus b) Reg.bayStkStatus_READY = 1

/-! ## Host: messages and the event log -/

/-- Whether a vector is masked. Every vector is after reset (log entry 5 PRESUMED): memory holds the mask bit inverted, for the
byte of a vector nothing has written reads as zero. -/
def State.msixMasked (s : State) (f v : Nat) : Bool := !(s.byte (msixBase f + 16 * v + 12)).getLsbD 0

/-- An MSI-X message of a vector: sent when the vector is unmasked, marked pending when it is masked (R545, log entry 5 PRESUMED). -/
def State.msix (s : State) (f v : Nat) : State :=
  if s.msixMasked f v then
    { s with host := { s.host with
        pba := if s.host.pba.contains (f, v) then s.host.pba else s.host.pba ++ [(f, v)] } }
  else s.emit (.msix f v)

/-- A record written to the event log (R540): it takes the next sequence number and joins the on-die buffer, or is dropped
and counted where the buffer holds 512. -/
def State.log (s : State) (kind unit sub : Nat) (w2 w3 : Word) : State :=
  let rec0 : List Word :=
    [BitVec.ofNat 64 (kind % 256 + unit % 256 * 2 ^ 8 + sub % 65536 * 2 ^ 16 + s.host.seq % 2 ^ 32 * 2 ^ 32),
      BitVec.ofNat 64 s.gc, w2, w3]
  let s1 := { s with host := { s.host with seq := (s.host.seq + 1) % 2 ^ 32 } }
  if s.host.evBuf.length < 512 then
    let s2 := { s1 with host := { s1.host with evBuf := s1.host.evBuf ++ [rec0] } }
    s2.setFld Reg.globalEverr Reg.globalEverr_DEPTH s2.host.evBuf.length
  else (s1.bump Reg.globalEverr Reg.globalEverr_LOST).setFld Reg.globalEverr Reg.globalEverr_LOSTEV 1

/-- A licence event (R4). -/
def State.logLic (s : State) (unit kind res : Nat) : State := s.log 0x02 unit kind (BitVec.ofNat 64 res) 0

/-- Whether a function's host link serves bus-master traffic: its PERST_N is high and its link runs at 32 GT/s or more
(R531, R532). -/
def State.linkUp (s : State) (f : Nat) : Bool :=
  let rate := if f = 0 then s.fld Reg.hostLink Reg.hostLink_RATE0 else s.fld Reg.hostLink Reg.hostLink_RATE1
  !(s.host.perst.getD f true) && decide (5 ≤ rate)

/-- Whether the link is bifurcated (R530). -/
def State.bif (s : State) : Bool := s.fld Reg.hostLink Reg.hostLink_BIF = 1

/-- The function that owns a queue (R541). -/
def State.queueFunc (s : State) (q : Nat) : Nat := if s.bif ∧ 32 ≤ q then 1 else 0

/-- What a completion needs to know of the entry it answers: its queue, HQ[q].STATUS.SQHEAD after it left the queue, and how often the
queue had been disabled (R542, R544). -/
def State.ticket (s : State) (q head : Nat) : Nat := q + head * 2 ^ 6 + (s.hq q).gen * 2 ^ 22

/-- Whether a ticket's queue still posts its completion (R532, R542). -/
def State.ticketLive (s : State) (k : Nat) : Bool := (s.hq (k % 64)).gen == k / 2 ^ 22

/-- A completion entry written to a host queue for the entry of a ticket (R543, R544): dropped where the queue is disabled, has
been since the entry left it, or its function cannot master the bus (R532, R542); the queue's message is sent unless one is
outstanding (R545). -/
def State.hostPost (s : State) (k tag code bay easel status port : Nat) : State :=
  let q := k % 64
  let f := s.queueFunc q
  let cfg := Reg.hqCfg q
  if s.fld cfg Reg.hqCfg_ENABLE = 1 ∧ s.linkUp f ∧ s.ticketLive k then
    let st := Reg.hqStatus q
    let tail := s.fld st Reg.hqStatus_CQTAIL
    let phase := s.fld st Reg.hqStatus_PHASE
    let w0 := tag % 2 ^ 32 + code % 16 * 2 ^ 32 + bay % 16 * 2 ^ 36 + easel % 16 * 2 ^ 40
      + s.fld cfg Reg.hqCfg_TYPE * 2 ^ 44 + bitsOf k 6 16 * 2 ^ 48
    let w1 := status % 2 ^ 32 + (if f = 1 then q - 32 else q) % 64 * 2 ^ 32 + port % 8 * 2 ^ 38 + phase * 2 ^ 63
    let addr := s.fld (Reg.hqCqbase q) Reg.hqCqbase_HBASE * 4096 + 16 * tail
    let s1 := s.emit (.hostWrite f addr (natBytes 8 w0 ++ natBytes 8 w1))
    let wrap := decide (2 ^ s.fld cfg Reg.hqCfg_CQLOG ≤ tail + 1)
    let s2 := s1.setFld st Reg.hqStatus_CQTAIL (if wrap then 0 else tail + 1)
    let s3 := if wrap then s2.setFld st Reg.hqStatus_PHASE (1 - phase) else s2
    if (s3.hq q).msgOut then s3
    else (s3.setHq q { s3.hq q with msgOut := true }).msix f (s.fld cfg Reg.hqCfg_VECTOR)
  else s

/-! ## Bindings and doorbells (R83 to R90) -/

/-- Whether a binding of a bay is enabled for a source. -/
def State.bound (s : State) (b n source : Nat) : Bool :=
  s.fld (Reg.bayBind0 b n) Reg.bayBind0_ENABLE = 1 ∧ s.fld (Reg.bayBind0 b n) Reg.bayBind0_SOURCE = source

/-- Binding `n` of bay `b` fires (R88): it launches its program in mode 0b00 and a ONESHOT one clears its own ENABLE. -/
def State.fireOne (s : State) (b n : Nat) (record : Word) : State :=
  let w0 := Reg.bayBind0 b n
  let l : Launch :=
    { src := .bind n record, prog := s.fld w0 Reg.bayBind0_PROG, mask := s.fld w0 Reg.bayBind0_MASK, mode := 0, tag := 0
      args := [s.reg (Reg.bayBind1 b n), 0, 0, 0] }
  let s1 := s.updBay b fun y => { y with incoming := y.incoming ++ [l] }
  if s.fld w0 Reg.bayBind0_ONESHOT = 1 then s1.setFld w0 Reg.bayBind0_ENABLE 0 else s1

/-- The enabled bindings of a source in a bay, in binding-number order (R89). -/
def State.boundTo (s : State) (b source : Nat) : List Nat := (List.range 64).filter fun n => s.bound b n source

/-- A source event in a bay (R88, R89): every enabled binding of the source fires in order, but none of those whose mask
meets `waiters`, the easels that the event wakes instead. -/
def State.fire (s : State) (b source : Nat) (record : Word) (waiters : Nat) : State :=
  (s.boundTo b source).foldl
    (fun u n => if u.fld (Reg.bayBind0 b n) Reg.bayBind0_MASK &&& waiters = 0 then u.fireOne b n record else u) s

/-- Whether a launch is of a binding with this source. -/
def State.launchFrom (s : State) (b source : Nat) (l : Launch) : Bool :=
  match l.src with
  | .bind n _ => decide (s.fld (Reg.bayBind0 b n) Reg.bayBind0_SOURCE = source)
  | _ => false

/-- A source event in a bay whose clock stands, while an earlier one of the same source waits at the crossing, merges into it
(R482, R484): a timer's shows in the expiry count of the record, any other sets BAYOVR. Log entry 93 DEDUCED. -/
def State.mergeEvent (s : State) (b source : Nat) (record : Word) : State :=
  if 0x48 ≤ source ∧ source < 0x50 then
    s.updBay b fun y =>
      { y with incoming := y.incoming.map fun l =>
          match s.launchFrom b source l, l.src with
          | true, .bind n _ => { l with src := .bind n record }
          | _, _ => l }
  else s.setFld Reg.pwrXovr Reg.pwrXovr_BAYOVR (s.fld Reg.pwrXovr Reg.pwrXovr_BAYOVR ||| 2 ^ b)

/-- A source event (R88, R89): it merges into one that waits at the crossing into a deep bay, fires its bindings, or is recorded
in the event log where no binding is enabled for it. Log entry 93 DEDUCED. -/
def State.event (s : State) (b source : Nat) (record : Word) : State :=
  if s.asleep b && (s.bay b).incoming.any (s.launchFrom b source) then s.mergeEvent b source record
  else if s.boundTo b source = [] then s.log 0x0F b source record 0
  else s.fire b source record 0

/-- The lowest-numbered of the doorbells in a mask that holds a record, with its head record (R85). -/
def State.headRecord (s : State) (b mask : Nat) : Option (Nat × Word) :=
  (lowestIdx 64 fun d => bitOf mask d && !(SMap.get (fun _ => []) (s.bay b).fifos d).isEmpty).map fun d =>
    (d, ((SMap.get (fun _ => []) (s.bay b).fifos d).headD 0))

/-- Easel cycles from the wake event to the next instruction of an easel (R85, R87, R486): 48 ec on the running clock, 300 gc
from sleep, 1,250 gc from off. -/
def State.wakeCount (s : State) (x : Ea) : Nat :=
  if s.est x = stSleep then 300 * 96 else if s.est x = stOff then 1250 * 96 else 48

/-- The easels of a bay that wait on a doorbell, as a bit mask: their limit has not run out (R85, R150). -/
def State.waiters (s : State) (b d : Nat) : Nat :=
  (List.range 12).foldl (fun m e =>
    match (s.ex ⟨b, e⟩).wait with
    | some w => if bitOf w.mask d && w.got.isNone && decide (s.gc ≤ w.limit.getD s.gc) then m + 2 ^ e else m
    | none => m) 0

/-- The waiting easels of a mask woken by an arrival (R85, R87): the doorbell and the record each holds are those of the arrival,
and are not read again when it runs 48 ec later. Log entry 110 DESIGN CHOICE. -/
def State.wakeWaiters (s : State) (b m : Nat) : State :=
  (List.range 12).foldl (fun u e =>
    if bitOf m e then
      u.updEx ⟨b, e⟩ fun y =>
        match y.wait with
        | some w => { y with wait := some { w with
            got := (u.headRecord b w.mask).map fun r => (u.ec + u.wakeCount ⟨b, e⟩, r.1, r.2) } }
        | none => y
    else u) s

/-- The records a doorbell holds. -/
def State.fifo (s : State) (b d : Nat) : List Word := SMap.get (fun _ => []) (s.bay b).fifos d

/-- The records of a doorbell set, and DEPTH with them. -/
def State.setFifo (s : State) (b d : Nat) (l : List Word) : State :=
  (s.updBay b fun y => { y with fifos := SMap.set (fun _ => []) y.fifos d l }).setFld
    (Reg.bayDb0 b d) Reg.bayDb0_DEPTH l.length

/-- The record of a doorbell (R83): value, source node, source kind. -/
def dbRecord (value node kind : Nat) : Word :=
  BitVec.ofNat 64 (value % 2 ^ 32 + node % 2 ^ 12 * 2 ^ 32 + kind % 16 * 2 ^ 44)

/-- A record arrives at a doorbell (R84, R85, R88): the arrival counter counts it, the FIFO takes it or the doorbell loses it,
waiting easels wake, and the bindings of the doorbell fire. Records for a bay that is not ready are dropped (R518). -/
def State.arrive (s : State) (b d : Nat) (record : Word) : State :=
  if s.bayUp b then
    let db := Reg.bayDb0 b d
    let s1 := s.count db Reg.bayDb0_ARRIVALS 1
    let q := s.fifo b d
    let s2 :=
      if q.length < 32 then s1.setFifo b d (q ++ [record])
      else
        let s2 := s1.count (Reg.bayDb1 b d) Reg.bayDb1_LOST 1
        let s3 := (s2.setFld db Reg.bayDb0_OVF 1).setFld (Reg.bayDispErr b) Reg.bayDispErr_DBLOST 1
        s3.log 0x05 b d (s3.reg (Reg.bayDb1 b d)) 0
    let m := s.waiters b d
    let s3 := s2.wakeWaiters b m
    if s3.boundTo b d = [] then s3.log 0x0F b d record 0 else s3.fire b d record m
  else s

/-! ## Idle, completion and exceptions -/

/-- FAB.ID.NODE (R378). -/
def State.node (s : State) : Nat := s.fld Reg.fabId Reg.fabId_NODE

/-- The launch completion of an easel's program (R82, R120): to the host queue of a host launch, to the doorbell of a LAUNCH
that names one; a binding's launch has none. The record of a doorbell (R83) has no layout for the tag, the status, the bay and the
easel: Config gives its value and its upper bits from the four. Log entry 23 DESIGN CHOICE. -/
def State.launchDone (s : State) (x : Ea) (l : Launch) (code status : Nat) : State :=
  match l.src with
  | .host q => s.hostPost q l.tag code x.bay x.easel status 0
  | .easel _ _ (some (b, d)) =>
    let v := Config.launchRecord l.tag (code + status % 2 ^ 32 * 2 ^ 4) x.bay x.easel
    s.arrive b d (dbRecord v.1 s.node (Config.sourceKind 1) ||| BitVec.ofNat 64 (v.2 % 2 ^ 16 * 2 ^ 48))
  | _ => s

/-- An ATTN.STEP or SKETCH.RANK in progress given up, with its entry. -/
def EaselX.dropRun (y : EaselX) : EaselX := { y with run := none, outst := y.outst.filter fun o => o.kind != .run }

/-- EASEL.CTRL.STOP cleared: what it was to stop has ended (R9, R105). Log entry 105 DEDUCED. -/
def State.clearStop (s : State) (x : Ea) : State := s.setFld (Reg.easelCtrl x.bay x.easel) Reg.easelCtrl_STOP 0

/-- A logical easel becomes idle: nothing of its program is left in progress, nor a STOP that was to end it (R82, R105, R519).
Log entry 105 DEDUCED. -/
def State.toIdle (s : State) (x : Ea) : State :=
  ((s.clearStop x).setEst x stIdle).updEx x fun y =>
    { y.dropRun with
             src := none, wait := none, fence := none, copy := none, faults := [], idleSince := s.gc
             gate := bitOf (s.fld (Reg.pwrBay0 x.bay) Reg.pwrBay0_IDLEGATE) x.easel }

/-- The exception registers written (R100, R108). -/
def State.setExc (s : State) (x : Ea) (code epc precise double info loc : Nat) : State :=
  (s.setReg (Reg.easelExc x.bay x.easel) (BitVec.ofNat 64
      (code % 256 + epc % 2 ^ 13 * 2 ^ 8 + precise % 2 * 2 ^ 21 + double % 2 * 2 ^ 22 + info % 2 ^ 32 * 2 ^ 32))).setReg
    (Reg.easelExcaddr x.bay x.easel) (BitVec.ofNat 64 (loc % 2 ^ 48))

/-- An exception reported (R100, R103): the easel stops with all its state kept and its program counter where it stands, EXC
and EXCADDR are written, the event log records it and the bay's exception bindings fire. A fault-response program (role
0x5) stops with DOUBLE set, fires no binding, raises the double-fault event besides and keeps its entry from being launched.
Log entry 105 DEDUCED. -/
def State.stopFor (s : State) (x : Ea) (precise : Bool) (code info loc : Nat) : State :=
  let dbl := (s.ex x).role = 5
  let s1 := ((s.clearStop x).setExc x code (s.pc x) (b2n precise) (b2n dbl) info loc).setEst x stStopped
  let exc := s1.reg (Reg.easelExc x.bay x.easel)
  let loc' := s1.reg (Reg.easelExcaddr x.bay x.easel)
  if dbl then
    let prog := s.fld (Reg.easelStatus x.bay x.easel) Reg.easelStatus_PROG
    let s2 := ((s1.log 0x03 x.bay x.easel exc loc').log 0x04 x.bay x.easel exc loc').setFld (Reg.bayDispErr x.bay) Reg.bayDispErr_DOUBLE 1
    s2.updBay x.bay fun y => { y with blocked := if y.blocked.contains prog then y.blocked else y.blocked ++ [prog] }
  else
    (s1.log 0x03 x.bay x.easel exc loc').fire x.bay 0x41 (BitVec.ofNat 64 (x.easel + code % 256 * 16)) 0

/-- The pending imprecise exception that is first in program order (R154). -/
def firstFault : List ImpFault → Option ImpFault
  | [] => none
  | f :: fs =>
    match firstFault fs with
    | some g => if g.seq < f.seq then some g else some f
    | none => some f

/-- Taking an exception (R100, R103, R154): while an imprecise one of an earlier operation is pending, a precise one is not reported
apart, and the pending one that is first in program order is reported. -/
def State.raise (s : State) (x : Ea) (precise : Bool) (code info loc : Nat) : State :=
  match if precise then firstFault (s.ex x).faults else none with
  | some f => s.stopFor x false f.code f.info f.loc
  | none => s.stopFor x precise code info loc

/-- The completion word of an instruction (R118). -/
def compWord (code count detail : Nat) : Word :=
  BitVec.ofNat 64 (code % 16 + count % 2 ^ 24 * 2 ^ 8 + detail % 2 ^ 32 * 2 ^ 32)

/-- The completion codes (R97). -/
abbrev cDone : Nat := 0x0
@[inherit_doc cDone] abbrev cCapacity : Nat := 0x1
@[inherit_doc cDone] abbrev cUnavailable : Nat := 0x2
@[inherit_doc cDone] abbrev cSequence : Nat := 0x3
@[inherit_doc cDone] abbrev cShape : Nat := 0x4
@[inherit_doc cDone] abbrev cNoSession : Nat := 0x5
@[inherit_doc cDone] abbrev cKey : Nat := 0x6
@[inherit_doc cDone] abbrev cRebuild : Nat := 0x7
@[inherit_doc cDone] abbrev cLicence : Nat := 0x8
@[inherit_doc cDone] abbrev cMoved : Nat := 0x9
@[inherit_doc cDone] abbrev cRevoked : Nat := 0xA
@[inherit_doc cDone] abbrev cBusy : Nat := 0xB
@[inherit_doc cDone] abbrev cAttest : Nat := 0xC
@[inherit_doc cDone] abbrev cBlocked : Nat := 0xD
@[inherit_doc cDone] abbrev cDamaged : Nat := 0xE

/-! ## The outstanding-operation table (R92, R117) -/

/-- The lowest free entry of an easel's outstanding-operation table. -/
def freeEntry (l : List OutOp) : Option Nat := lowestIdx 32 fun n => l.all fun o => o.num != n

/-- An entry taken for an operation that completes `after` easel cycles from now at the earliest; `none` where the table is
full and the instruction stalls. -/
def State.takeEntry (s : State) (x : Ea) (kind : OutKind) (rd off a b len after : Nat) : Option State :=
  let y := s.ex x
  match freeEntry y.outst with
  | none => none
  | some n =>
    some (s.setEx x { y with
      opSeq := y.opSeq + 1
      outst := y.outst ++ [{ num := n, seq := y.opSeq, rd, kind, off, a, b, len, issued := s.ec, due := s.ec + after, failed := false }] })

/-- The entry of a number. -/
def State.entry (s : State) (x : Ea) (n : Nat) : Option OutOp := (s.ex x).outst.find? fun o => o.num == n

/-- An entry freed. -/
def State.freeEnt (s : State) (x : Ea) (n : Nat) : State :=
  s.updEx x fun y => { y with outst := y.outst.filter fun o => o.num != n }

/-- Whether an easel's outstanding-operation table is empty but for failed operations. -/
def State.quiet (s : State) (x : Ea) : Bool := (s.ex x).outst.all (·.failed)

/-- The state an easel gates to: off with its bit of IDLEOFF, else sleep (R485). -/
def State.gateState (s : State) (x : Ea) : Nat :=
  if bitOf (s.fld (Reg.pwrBay0 x.bay) Reg.pwrBay0_IDLEOFF) x.easel then stOff else stSleep

/-- A SLEEP that behaved as WAIT enters its state once the outstanding-operation table is empty (R485). -/
def State.settle (s : State) (x : Ea) : State :=
  match (s.ex x).wait with
  | some w => if w.sleep && s.quiet x && decide (s.est x = stWaiting) then s.setEst x (s.gateState x) else s
  | none => s

/-- An operation completes: its completion word lands in its status register and its entry frees. -/
def State.finish (s : State) (x : Ea) (o : OutOp) (w : Word) : State := ((s.setG x o.rd w).freeEnt x o.num).settle x

/-- A stop on request at an instruction boundary (R101, R105): code 0x00, precise, no event and no binding. -/
def State.stopNow (s : State) (x : Ea) : State :=
  let s1 := s.updEx x fun y => { y with wait := none, fence := none }
  ((s1.setExc x 0 (s1.pc x) 1 0 0 0).setEst x stStopped).setFld
    (Reg.easelCtrl x.bay x.easel) Reg.easelCtrl_STOP 0

/-- An instruction boundary reached by an instruction that took time: a STOP written meanwhile stops the easel (R105).
Log entry 105 DEDUCED. -/
def State.boundary (s : State) (x : Ea) : State :=
  if s.est x = stRunning ∧ s.fld (Reg.easelCtrl x.bay x.easel) Reg.easelCtrl_STOP = 1 then s.stopNow x else s

/-- A fault that is not the one its easel reports (R154): it appears in the completion word of its operation, whose code the spec
does not state: a free word, its code not done (log entry 13 DESIGN CHOICE); one without an operation in the table is lost. -/
def State.lateFault (s : State) (x : Ea) (f : ImpFault) : State :=
  match (s.ex x).outst.find? fun o => o.failed && o.seq == f.seq with
  | some o => let (v, s1) := s.draw; s1.finish x o (compWord (1 + v % 14) (v / 2 ^ 4) (v / 2 ^ 28))
  | none => s

/-- An imprecise exception becomes pending (R100, R154): of several the one first in program order stays, but for one that has
stopped the easel already; the other's fault is a late one. -/
def State.addFault (s : State) (x : Ea) (f : ImpFault) : State :=
  match (s.ex x).faults with
  | [] => s.updEx x fun y => { y with faults := [f] }
  | g :: _ =>
    if f.seq < g.seq ∧ s.est x ≠ stStopped then (s.updEx x fun y => { y with faults := [f] }).lateFault x g
    else s.lateFault x f

/-- An operation fails: its entry stays until the fence that reports it is re-armed (R100, R104). -/
def State.failOp (s : State) (x : Ea) (o : OutOp) (code loc : Nat) : State :=
  (s.updEx x fun y =>
    { y with outst := y.outst.map fun p => if p.num = o.num then { p with failed := true } else p }).addFault x
    { seq := o.seq, code, info := o.num, loc }

end Sys2Proof.Machine
end

