-- ==== Sys2Proof/Machine/Queues.lean ====
section
/-! DEFINITION. The subscriber queues of the scheduler instances, and the traffic of the node's own that enters them (R383 to R390). -/

namespace Sys2Proof.Machine

/-! ## Tables -/

/-- What no register shows of an optical port. -/
def State.port (s : State) (p : Nat) : PortX := SMap.get (fun _ => {}) s.fab.ports p

/-- What no register shows of an optical port, changed. -/
def State.updPort (s : State) (p : Nat) (f : PortX → PortX) : State :=
  { s with fab := { s.fab with ports := SMap.set (fun _ => {}) s.fab.ports p (f (s.port p)) } }

/-- Whether an optical port is UP in native framing and carries frames, not a test pattern (R377). -/
def State.portNative (s : State) (p : Nat) : Bool :=
  decide (p < 8) && decide (s.fld (Reg.portStatus p) Reg.portStatus_STATE = 5)
    && decide (s.fld (Reg.portNeg p) Reg.portNeg_MODEFRAMING = 0) && decide (s.fld (Reg.portTest p) Reg.portTest_PRBS = 0)

/-- A connection: a node-to-node one by its number, a client one by its number plus 4,096. -/
def State.conn (s : State) (c : Nat) : ConnX := SMap.get (fun _ => {}) s.fab.conns c

/-- A connection set. -/
def State.setConn (s : State) (c : Nat) (k : ConnX) : State :=
  { s with fab := { s.fab with conns := SMap.set (fun _ => {}) s.fab.conns c k } }

/-- A connection changed. -/
def State.updConn (s : State) (c : Nat) (f : ConnX → ConnX) : State := s.setConn c (f (s.conn c))

/-- A scheduler instance. -/
def State.inst (s : State) (i : Nat) : InstX := SMap.get (fun _ => {}) s.fab.insts i

/-- A scheduler instance set, and SCHED.STATUS.BACKLOG with it; the first change of an easel cycle keeps what the cycle found
(R389). -/
def State.setInst (s : State) (i : Nat) (k : InstX) : State :=
  let was := if s.fab.instsWas.1 = s.ec + 1 then s.fab.instsWas else (s.ec + 1, s.fab.insts)
  State.setFld { s with fab := { s.fab with insts := SMap.set (fun _ => {}) s.fab.insts i k, instsWas := was } } (Reg.schedStatus i)
    Reg.schedStatus_BACKLOG (k.subs.filter fun q : Nat × SubqX => !q.2.msgs.isEmpty).length

/-- The node as a selection in this easel cycle sees it (R389): a message or table change that landed in the cycle takes part from the
next selection. -/
def State.atStart (s : State) : State :=
  { s with regs := s.was
           fab := { s.fab with insts := if s.fab.instsWas.1 = s.ec + 1 then s.fab.instsWas.2 else s.fab.insts } }

/-- A subscriber queue of an instance. -/
def InstX.sub (k : InstX) (q : Nat) : SubqX := SMap.get (fun _ => {}) k.subs q

/-- A subscriber queue set. -/
def InstX.setSub (k : InstX) (q : Nat) (v : SubqX) : InstX := { k with subs := SMap.set (fun _ => {}) k.subs q v }

/-- A service of an instance. -/
def InstX.svc (k : InstX) (v : Nat) : SvcX := SMap.get (fun _ => {}) k.svcs v

/-- A service set. -/
def InstX.setSvc (k : InstX) (v : Nat) (x : SvcX) : InstX := { k with svcs := SMap.set (fun _ => {}) k.svcs v x }

/-! ## Tags (R390) -/

/-- The later of two virtual times, compared modulo 2^48. -/
def laterTag (a b : Nat) : Nat := if (b + 2 ^ 48 - a % 2 ^ 48) % 2 ^ 48 < 2 ^ 47 then b else a

/-- Whether a service has a message: some queue's head belongs to it. -/
def InstX.active (k : InstX) (v : Nat) : Bool := k.subs.any fun q => q.2.msgs.head?.any fun e => e.svc == v

/-- A service of an instance that wakes starts no earlier than the virtual time of its PRIO, under the WEIGHT in force. -/
def State.wakeSvc (s : State) (i : Nat) (k : InstX) (v : Nat) : InstX :=
  let x := k.svc v
  let vp := SMap.get (fun _ => 0) k.vp (s.fld (Reg.schedSvc0 i v) Reg.schedSvc0_PRIO)
  k.setSvc v { x with base := laterTag vp x.prev, headW := s.fld (Reg.schedSvc1 i v) Reg.schedSvc1_WEIGHT }

/-- A message joins the tail of a queue (R384, R390): a queue that was empty starts no earlier than its service's time. -/
def State.enqueue (s : State) (i q : Nat) (e : QEnt) : State :=
  let k := s.inst i
  let k1 := if k.active e.svc then k else s.wakeSvc i k e.svc
  let b := k1.sub q
  let b1 := if b.msgs.isEmpty then { b with base := laterTag (k1.svc e.svc).v b.prev, headW := b.weight } else b
  s.setInst i (k1.setSub q { b1 with msgs := b1.msgs ++ [e] })

/-- A queue without the messages of a kind: the HOLD of a head that leaves counts for MAXHOLD, and the message behind it becomes
the head (R390, R394). -/
def SubqX.without (q : SubqX) (gc : Nat) (gone : QEnt → Bool) : SubqX :=
  match q.msgs with
  | e :: _ =>
    let msgs := q.msgs.filter fun e => !gone e
    if gone e then { q with msgs, maxHold := max q.maxHold (gc - e.entered), headW := q.weight } else { q with msgs }
  | [] => q

/-- Messages of a kind taken out of the queues of an instance; a service that was idle and gets a head by it wakes (R390). -/
def State.dropItems (s : State) (i : Nat) (gone : QEnt → Bool) : State :=
  let k := s.inst i
  let subs := (k.subs.map fun q => (q.1, q.2.without s.gc gone)).filter fun q => q.2 != {}
  s.setInst i ((subs.filterMap fun q => q.2.msgs.head?).foldl
    (fun u e => if k.active e.svc then u else s.wakeSvc i u e.svc) { k with subs })

/-- Messages queued on all instances (R386). -/
def State.queuedAll (s : State) : Nat :=
  (s.fab.insts.map fun i => (i.2.subs.map fun q => q.2.msgs.length).sum).sum

/-- The node's own traffic enters a queue of an instance (R384); it is never refused, for it has no completion to refuse it with
(log entry 26 DEDUCED). Log entry 65 DEDUCED. -/
def State.enqueueOwn (s : State) (i svc q bytes : Nat) (o : Out) : State :=
  s.enqueue i (q % 65536) { item := .own o (Config.frameBytes i bytes), svc, entered := s.gc }

/-- The lowest-numbered UP native port of a mask. Log entry 33 DEDUCED. -/
def State.lowestUp (s : State) (mask : Nat) : Option Nat := lowestIdx 8 fun p => bitOf mask p && s.portNative p

/-- Where a mirrored operation leaves (R384, R404): the pair link, or with the link down the fabric connection of the
pair; a parked link takes it when it is up again (R491). Log entry 65 DEDUCED. -/
def State.pairSend (s : State) (svc pf bytes : Nat) (o : Out) : State :=
  if s.fld Reg.pairStatus Reg.pairStatus_LINK ≠ 0 ∨ s.pwr.parked then s.enqueueOwn 8 svc pf bytes o
  else
    match s.lowestUp (s.conn (s.fld Reg.pairCtrl Reg.pairCtrl_FABCONN)).ports with
    | some p => s.enqueueOwn p (s.fld Reg.pairCtrl Reg.pairCtrl_FABSVC) pf bytes o
    | none => s.enqueueOwn 8 svc pf bytes o

/-- Whether the partner can be reached: over the pair link, or over the open fabric connection of the pair (R404, R407). -/
def State.pathUp (s : State) : Bool :=
  decide (s.fld Reg.pairStatus Reg.pairStatus_LINK ≠ 0) || s.pwr.parked
    || (decide (s.fld Reg.pairCtrl Reg.pairCtrl_FABPATH = 1) && decide ((s.conn (s.fld Reg.pairCtrl Reg.pairCtrl_FABCONN)).state = 1))

/-- UNREACH cleared when the partner can be reached again; not while the members' tiers differ (R523). FABACT shows whether mirroring
goes over the fabric (R433). -/
def State.pairShow (s : State) : State :=
  let st := Reg.pairStatus
  let s1 := if s.pathUp ∧ s.fld Reg.globalLic Reg.globalLic_PAIRTIER = 0 then s.setFld st Reg.pairStatus_UNREACH 0 else s
  s1.setFld st Reg.pairStatus_FABACT (b2n (s1.pathUp && decide (s1.fld st Reg.pairStatus_LINK = 0) && !s1.pwr.parked
    && decide (s1.fld st Reg.pairStatus_UNREACH = 0) && decide (s1.fld Reg.pairCtrl Reg.pairCtrl_ENABLE = 1)))

end Sys2Proof.Machine
end

