-- ==== Sys2Proof/Machine/Fp.lean ====
section
/-! DEFINITION. Floating-point arithmetic (R157, R164 to R168): formats, exact values, rounding, and the FP32 operations. A
finite value is kept exactly, as a sign, a magnitude and a power of two; it is rounded once, where the spec rounds. -/

namespace Sys2Proof.Machine

/-- An exact value: NaN, an infinity, or `m` × 2^`e` with a sign (zero keeps its sign). -/
inductive Fp where
  | nan
  | inf (neg : Bool)
  | fin (neg : Bool) (m : Nat) (e : Int)
  deriving DecidableEq, Repr

/-- The largest finite code and the special codes of a format. -/
inductive FSpecial where
  /-- Infinity above the largest finite code, NaN above that (IEEE 754). -/
  | ieee
  /-- No infinity; the code of all ones below the sign is NaN (E4M3). -/
  | nanOnly
  /-- Neither (the MX elements). -/
  | none
  deriving DecidableEq, Repr

/-- A floating-point format: exponent bits, mantissa bits, bias, special codes (R157). -/
structure FFmt where
  eb : Nat
  mb : Nat
  bias : Nat
  sp : FSpecial
  deriving DecidableEq, Repr

/-- FP32. -/
def fp32 : FFmt := ⟨8, 23, 127, .ieee⟩
/-- BF16. -/
def bf16 : FFmt := ⟨8, 7, 127, .ieee⟩
/-- FP16. -/
def fp16 : FFmt := ⟨5, 10, 15, .ieee⟩
/-- FP8 E4M3. -/
def e4m3 : FFmt := ⟨4, 3, 7, .nanOnly⟩
/-- FP8 E5M2. -/
def e5m2 : FFmt := ⟨5, 2, 15, .ieee⟩
/-- The element of MXFP6 E3M2. -/
def e3m2 : FFmt := ⟨3, 2, 3, .none⟩
/-- The element of MXFP4 E2M1. -/
def e2m1 : FFmt := ⟨2, 1, 1, .none⟩

/-- The code of infinity of an IEEE format, without its sign. -/
def FFmt.infCode (f : FFmt) : Nat := (2 ^ f.eb - 1) * 2 ^ f.mb

/-- The largest finite code of a format, without its sign. -/
def FFmt.maxCode (f : FFmt) : Nat :=
  match f.sp with
  | .ieee => f.infCode - 1
  | .nanOnly => 2 ^ (f.eb + f.mb) - 2
  | .none => 2 ^ (f.eb + f.mb) - 1

/-- The power of two of one unit of the smallest binade of a format. -/
def FFmt.qmin (f : FFmt) : Int := 1 - (f.bias : Int) - f.mb

/-- The exact value of a code of a format. -/
def FFmt.decode (f : FFmt) (c : Nat) : Fp :=
  let neg := bitOf c (f.eb + f.mb)
  let e := bitsOf c f.mb f.eb
  let m := bitsOf c 0 f.mb
  if f.sp = .ieee ∧ e = 2 ^ f.eb - 1 then (if m = 0 then .inf neg else .nan)
  else if f.sp = .nanOnly ∧ bitsOf c 0 (f.eb + f.mb) = 2 ^ (f.eb + f.mb) - 1 then .nan
  else if e = 0 then .fin neg m f.qmin
  else .fin neg (2 ^ f.mb + m) (f.qmin + e - 1)

/-- How a conversion rounds: to nearest-even, upward in magnitude, downward in magnitude, or stochastically by a draw of 24
bits (R165, R166). -/
inductive RMode where
  | near
  | up
  | down
  | stoch (draw : Nat)
  deriving DecidableEq, Repr

/-- A non-negative fraction rounded to a whole number. -/
def roundNat (mode : RMode) (num den : Nat) : Nat :=
  let k := num / den
  let r := num % den
  match mode with
  | .near => if den < 2 * r ∨ (2 * r = den ∧ k % 2 = 1) then k + 1 else k
  | .up => if r = 0 then k else k + 1
  | .down => k
  | .stoch d => if d * den < r * 2 ^ 24 then k + 1 else k

/-- ⌊log2 (num / den)⌋ of a positive fraction. -/
def ilog2 (num den : Nat) : Int :=
  let k : Int := (Nat.log2 num : Int) - Nat.log2 den
  let ge : Bool := if 0 ≤ k then decide (den * 2 ^ k.toNat ≤ num) else decide (den ≤ num * 2 ^ (-k).toNat)
  if ge then k else k - 1

/-- The code of (num / den) × 2^e in a format, without its sign and without a bound: one unit of the binade of the value, or of
the smallest binade, is the step it is rounded to. -/
def FFmt.magCode (f : FFmt) (mode : RMode) (num den : Nat) (e : Int) : Nat :=
  if num = 0 then 0
  else
    let q := max (ilog2 num den + e - f.mb) f.qmin
    let sh := e - q
    let k := if 0 ≤ sh then roundNat mode (num * 2 ^ sh.toNat) den else roundNat mode num (den * 2 ^ (-sh).toNat)
    (q - f.qmin).toNat * 2 ^ f.mb + k

/-- The sign bit of a format. -/
def FFmt.signBit (f : FFmt) (neg : Bool) : Nat := if neg then 2 ^ (f.eb + f.mb) else 0

/-- An exact value rounded to FP32 bits; overflow gives an infinity (IEEE 754), every NaN is 0x7FC0_0000 (R167). -/
def toFp32 (mode : RMode) : Fp → Nat
  | .nan => 0x7FC00000
  | .inf neg => fp32.signBit neg + fp32.infCode
  | .fin neg m e => fp32.signBit neg + min (fp32.magCode mode m 1 e) fp32.infCode

/-- A quotient of naturals with a sign rounded to FP32 bits to nearest-even. -/
def quotFp32 (neg : Bool) (num den : Nat) (e : Int) : Nat :=
  fp32.signBit neg + min (fp32.magCode .near num den e) fp32.infCode

/-- The exact value of FP32 bits. -/
def ofFp32 (c : Nat) : Fp := fp32.decode c

/-- The opposite of a value. -/
def Fp.neg : Fp → Fp
  | .nan => .nan
  | .inf n => .inf (!n)
  | .fin n m e => .fin (!n) m e

/-- The magnitude of a value. -/
def Fp.abs : Fp → Fp
  | .nan => .nan
  | .inf _ => .inf false
  | .fin _ m e => .fin false m e

/-- The product of two values, exact. -/
def Fp.mul : Fp → Fp → Fp
  | .nan, _ => .nan
  | _, .nan => .nan
  | .inf a, .inf b => .inf (a != b)
  | .inf a, .fin b m _ => if m = 0 then .nan else .inf (a != b)
  | .fin a m _, .inf b => if m = 0 then .nan else .inf (a != b)
  | .fin a m e, .fin b n f => .fin (a != b) (m * n) (e + f)

/-- A signed magnitude as an integer. -/
def sgnInt (neg : Bool) (m : Nat) : Int := if neg then -(m : Int) else m

/-- The sum of two values, exact; opposite values sum to +0, as does a zero with a zero of the other sign. -/
def Fp.add : Fp → Fp → Fp
  | .nan, _ => .nan
  | _, .nan => .nan
  | .inf a, .inf b => if a = b then .inf a else .nan
  | .inf a, .fin _ _ _ => .inf a
  | .fin _ _ _, .inf b => .inf b
  | .fin a m e, .fin b n f =>
    let q := min e f
    let t : Int := sgnInt a m * 2 ^ (e - q).toNat + sgnInt b n * 2 ^ (f - q).toNat
    if t = 0 then .fin (a && b) 0 q else .fin (decide (t < 0)) t.natAbs q

/-- The exact sum of a list of values: NaN with a NaN or infinities of both signs among them (R169). -/
def Fp.sum (l : List Fp) : Fp := l.foldl Fp.add (.fin (l.all fun x => match x with | .fin n m _ => n && m == 0 | _ => false) 0 0)

/-- Whether a value is NaN. -/
def Fp.isNan : Fp → Bool
  | .nan => true
  | _ => false

/-- Whether a value is zero. -/
def Fp.isZero : Fp → Bool
  | .fin _ m _ => m == 0
  | _ => false

/-- Whether the first value is less than the second; NaN is less than nothing. -/
def Fp.lt : Fp → Fp → Bool
  | .nan, _ => false
  | _, .nan => false
  | .inf a, .inf b => a && !b
  | .inf a, .fin _ _ _ => a
  | .fin _ _ _, .inf b => !b
  | .fin a m e, .fin b n f =>
    let q := min e f
    decide (sgnInt a m * 2 ^ (e - q).toNat < sgnInt b n * 2 ^ (f - q).toNat)

/-- Whether two values are equal; NaN equals nothing, the zeros equal each other. -/
def Fp.eq (a b : Fp) : Bool := !a.isNan && !b.isNan && !a.lt b && !b.lt a

/-! ## FP32 operations on bits (R167) -/

/-- Addition. -/
def fAdd (a b : Nat) : Nat := toFp32 .near ((ofFp32 a).add (ofFp32 b))
/-- Subtraction. -/
def fSub (a b : Nat) : Nat := toFp32 .near ((ofFp32 a).add (ofFp32 b).neg)
/-- Multiplication. -/
def fMul (a b : Nat) : Nat := toFp32 .near ((ofFp32 a).mul (ofFp32 b))
/-- Multiplication and addition with one rounding. -/
def fFma (a b c : Nat) : Nat := toFp32 .near (((ofFp32 a).mul (ofFp32 b)).add (ofFp32 c))

/-- Whether FP32 bits carry the minus sign. -/
def fNeg (a : Nat) : Bool := bitOf a 31

/-- The maximum: NaN when either input is NaN; of the zeros, +0. -/
def fMax (a b : Nat) : Nat :=
  let x := ofFp32 a
  let y := ofFp32 b
  if x.isNan || y.isNan then 0x7FC00000
  else if x.isZero && y.isZero then (if fNeg a then b else a)
  else if x.lt y then b else a

/-- The minimum: NaN when either input is NaN; of the zeros, −0. -/
def fMin (a b : Nat) : Nat :=
  let x := ofFp32 a
  let y := ofFp32 b
  if x.isNan || y.isNan then 0x7FC00000
  else if x.isZero && y.isZero then (if fNeg a then a else b)
  else if x.lt y then a else b

/-- The correctly rounded reciprocal (R168). -/
def fRcp (a : Nat) : Nat :=
  match ofFp32 a with
  | .nan => 0x7FC00000
  | .inf n => fp32.signBit n
  | .fin n m e => if m = 0 then fp32.signBit n + fp32.infCode else quotFp32 n 1 m (-e)

/-- The rounded quotient of two values, as a special-function step of the attention unit takes it. -/
def fDiv (a b : Nat) : Nat :=
  match ofFp32 a, ofFp32 b with
  | .nan, _ => 0x7FC00000
  | _, .nan => 0x7FC00000
  | .inf n, .inf _ => if n then 0x7FC00000 else 0x7FC00000
  | .inf n, .fin k _ _ => fp32.signBit (n != k) + fp32.infCode
  | .fin n _ _, .inf k => fp32.signBit (n != k)
  | .fin n m e, .fin k d f =>
    if d = 0 then (if m = 0 then 0x7FC00000 else fp32.signBit (n != k) + fp32.infCode)
    else quotFp32 (n != k) m d (e - f)

/-! ## exp2 and log2 (R168)

Both are computed in fixed point far beyond FP32's precision, which gives the two FP32 values next to the exact result and how
far between them it lies; which of the two is returned is the part's own choice (`Config.exp2Threshold`,
`Config.log2Threshold`). -/

/-- ln 2 in units of 2^-256. -/
def ln2Fix : Nat := 0xb17217f7d1cf79abc9e3b39803f2f6af40f343267298b62d8a0d175b8baafa2b

/-- The terms y^n / n! from `term` on, summed, in units of 2^-256. -/
def expSeries : Nat → Nat → Nat → Nat → Nat → Nat
  | 0, _, _, _, acc => acc
  | k + 1, n, y, term, acc => expSeries k (n + 1) y (term * y / 2 ^ 256 / (n + 1)) (acc + term)

/-- 2^f for a fraction f in units of 2^-256, in units of 2^-256. -/
def exp2Fix (f : Nat) : Nat := expSeries 70 0 (f * ln2Fix / 2 ^ 256) (2 ^ 256) 0

/-- log2 of y in units of 2^-320, for y from 1 to 2 in those units: `n` bits of the fraction, highest first. -/
def log2Fix : Nat → Nat → Nat → Nat
  | 0, _, acc => acc
  | n + 1, y, acc =>
    let z := y * y / 2 ^ 320
    if 2 ^ 321 ≤ z then log2Fix n (z / 2) (2 * acc + 1) else log2Fix n z (2 * acc)

/-- The magnitude code next below `num` × 2^`e`, or the one above where the fraction of the step passed is at least the
threshold of the lower code; for an inexact value. Log entry 16 DESIGN CHOICE. -/
def faithful (th : Nat → Nat) (num : Nat) (e : Int) : Nat :=
  let lo := fp32.magCode .down num 1 e
  let q := max (ilog2 num 1 + e - 23) fp32.qmin
  let sh := (q - e).toNat
  let frac := num % 2 ^ sh * 2 ^ 64 / 2 ^ sh
  if num = 0 then lo else if th lo % (2 ^ 64 + 1) ≤ frac then lo + 1 else lo

/-- exp2 of FP32 bits (R168): integers exact, the rest faithful and never above the largest finite value for a finite
argument below 128. Log entry 16 DESIGN CHOICE. -/
def fExp2 (a : Nat) : Nat :=
  match ofFp32 a with
  | .nan => 0x7FC00000
  | .inf n => if n then 0 else fp32.infCode
  | .fin n m e =>
    let t := sgnInt n m
    -- the integer part and the fraction in units of 2^-256
    let i : Int := if 0 ≤ e then t * 2 ^ e.toNat else t / (2 ^ (-e).toNat : Int)
    let f : Nat := if 0 ≤ e then 0 else (t % (2 ^ (-e).toNat : Int)).toNat * 2 ^ (256 - (-e).toNat)
    if 128 ≤ i then fp32.infCode
    else if i < -150 ∨ (i = -150 ∧ f = 0) then 0
    else if f = 0 then fp32.magCode .near 1 1 i
    else min (faithful Config.exp2Threshold (exp2Fix f) (i - 256)) fp32.maxCode

/-- log2 of FP32 bits (R168): powers of two exact, the rest faithful. Log entry 16 DESIGN CHOICE. -/
def fLog2 (a : Nat) : Nat :=
  match ofFp32 a with
  | .nan => 0x7FC00000
  | .inf n => if n then 0x7FC00000 else fp32.infCode
  | .fin n m e =>
    if m = 0 then fp32.signBit true + fp32.infCode
    else if n then 0x7FC00000
    else
      let k := Nat.log2 m
      let i : Int := e + k
      if m = 2 ^ k then toFp32 .near (.fin (decide (i < 0)) i.natAbs 0)
      else
        let l := log2Fix 200 (m * 2 ^ (320 - k)) 0
        if 0 ≤ i then faithful Config.log2Threshold (i.toNat * 2 ^ 200 + l) (-200)
        else
          -- a negative result: the magnitude falls as the argument rises, so the threshold is taken from the other end
          let mag := i.natAbs * 2 ^ 200 - l - 1
          let lo := fp32.magCode .down mag 1 (-200)
          let q := max (ilog2 mag 1 - 200 - 23) fp32.qmin
          let sh := (q + 200).toNat
          let frac := mag % 2 ^ sh * 2 ^ 64 / 2 ^ sh
          fp32.signBit true + (if 2 ^ 64 - Config.log2Threshold (2 ^ 31 + lo) % (2 ^ 64 + 1) ≤ frac then lo + 1 else lo)

end Sys2Proof.Machine
end

