-- ==== Sys2Proof/Machine/Palette.lean ====
section
/-! DEFINITION. The palette (R157 to R166): element and scale layouts, decoding to exact values, and conversion from FP32. -/

namespace Sys2Proof.Machine

/-- Bits of an element of a palette code (R157). -/
def palBits : Nat → Nat
  | 0x0 => 32
  | 0x1 => 16
  | 0x2 => 16
  | 0x3 => 8
  | 0x4 => 8
  | 0x5 => 6
  | 0x6 => 4
  | 0x7 => 8
  | _ => 4

/-- Elements of a block of a palette code; 0 for the unscaled formats (R157). -/
def palBlock : Nat → Nat
  | 0x5 => 32
  | 0x6 => 32
  | 0x7 => 32
  | 0x8 => 16
  | _ => 0

/-- Bytes of a block's scale (R159). -/
def palScaleBytes : Nat → Nat
  | 0x7 => 4
  | 0x5 => 1
  | 0x6 => 1
  | 0x8 => 1
  | _ => 0

/-- Blocks of a run of `d` elements. -/
def palBlocks (code d : Nat) : Nat := if palBlock code = 0 then 0 else d / palBlock code

/-- Bytes of the element string of a run of `d` elements. -/
def palStr (code d : Nat) : Nat := d * palBits code / 8

/-- Bytes of a run of `d` elements with its scales: the head-vector sizes of R37 (R159). -/
def palBytes (code d : Nat) : Nat := palStr code d + palBlocks code d * palScaleBytes code

/-- The magnitudes of LT4 in units of 1/32 (R162). -/
def lt4Mag (c : Nat) : Nat := [0, 1, 2, 4, 8, 16, 24, 32].getD c 0

/-- The value of an element before its scale (R157, R162). -/
def palElem (code c : Nat) : Fp :=
  match code with
  | 0x0 => fp32.decode c
  | 0x1 => bf16.decode c
  | 0x2 => fp16.decode c
  | 0x3 => e4m3.decode c
  | 0x4 => e5m2.decode c
  | 0x5 => e3m2.decode c
  | 0x6 => e2m1.decode c
  | 0x7 => let i := sext 8 c; .fin (decide (i < 0)) i.natAbs 0
  | _ => .fin (bitOf c 3) (lt4Mag (c % 8)) (-5)

/-- The value of a scale (R157). -/
def palScale (code c : Nat) : Fp :=
  match code with
  | 0x5 | 0x6 => if c = 0xFF then .nan else .fin false 1 ((c : Int) - 127)
  | 0x7 => fp32.decode c
  | 0x8 => e4m3.decode c
  | _ => .fin false 1 0

/-- The exact value of element `i` of a run whose element string is `str` and whose scale string is `sc`, both little-endian
numbers (R158). -/
def palDecode (code str sc i : Nat) : Fp :=
  let e := palElem code (bitsOf str (i * palBits code) (palBits code))
  if palBlock code = 0 then e
  else
    let w := palScaleBytes code * 8
    match palScale code (bitsOf sc (i / palBlock code * w) w) with
    | .nan => .nan
    | k => e.mul k

/-- The exact values of the run of `d` elements in a list of bytes (R159). -/
def palRun (code d : Nat) (bs : List Byte) : List Fp :=
  let n := bytesNat bs
  let str := n % 2 ^ (8 * palStr code d)
  let sc := n / 2 ^ (8 * palStr code d)
  (List.range d).map (palDecode code str sc)

/-! ## Conversion out of FP32 (R165, R166) -/

/-- The greatest magnitude of a list of values. -/
def amaxOf (l : List Fp) : Fp := l.foldl (fun m x => if m.lt x.abs then x.abs else m) (.fin false 0 0)

/-- Whether a block holds an infinity or a NaN. -/
def hasSpecial (l : List Fp) : Bool := l.any fun x => match x with | .fin _ _ _ => false | _ => true

/-- A finite magnitude rounded into a format that saturates at `top`. -/
def satCode (f : FFmt) (mode : RMode) (num den : Nat) (e : Int) (top : Nat) : Nat :=
  let c := f.magCode mode num den e
  if c ≤ top then c else min (f.magCode .near num den e) top

/-- A finite magnitude rounded into an IEEE format: above the largest finite value the draw plays no part (R165, R166). -/
def ieeeCode (f : FFmt) (mode : RMode) (m : Nat) (e : Int) : Nat :=
  if f.maxCode ≤ f.magCode .down m 1 e then min (f.magCode .near m 1 e) f.infCode else f.magCode mode m 1 e

/-- An FP32 value converted to an unscaled format (R165). -/
def encUnscaled (code : Nat) (mode : RMode) (x : Nat) : Nat :=
  match code, ofFp32 x with
  | 0x1, .nan => 0x7FC0
  | 0x1, .inf n => bf16.signBit n + bf16.infCode
  | 0x1, .fin n m e => bf16.signBit n + ieeeCode bf16 mode m e
  | 0x2, .nan => 0x7E00
  | 0x2, .inf n => fp16.signBit n + fp16.infCode
  | 0x2, .fin n m e => fp16.signBit n + ieeeCode fp16 mode m e
  | 0x3, .nan => 0x7F
  | 0x3, .inf _ => 0x7F
  | 0x3, .fin n m e => e4m3.signBit n + satCode e4m3 mode m 1 e e4m3.maxCode
  | 0x4, .nan => 0x7E
  | 0x4, .inf n => e5m2.signBit n + e5m2.infCode
  | 0x4, .fin n m e => e5m2.signBit n + satCode e5m2 mode m 1 e e5m2.maxCode
  | _, _ => x

/-- The E8M0 exponent of an MX block (R165). -/
def mxExp (amax : Fp) (emax : Int) : Int :=
  match amax with
  | .fin _ m e => if m = 0 then -127 else max (-127) (min 127 (ilog2 m 1 + e - emax))
  | _ => -127

/-- A block of codes 0x5 and 0x6: its element codes and its scale. -/
def encMx (f : FFmt) (emax : Int) (modes : List RMode) (xs : List Nat) : List Nat × Nat :=
  let vs := xs.map ofFp32
  if hasSpecial vs then (xs.map fun _ => 0, 0xFF)
  else
    let k := mxExp (amaxOf vs) emax
    ((vs.zip modes).map fun (v, mode) =>
      match v with
      | .fin n m e => f.signBit n + satCode f mode m 1 (e - k) f.maxCode
      | _ => 0, (k + 127).toNat)

/-- The FP32 scale of an INT8 block: amax / 127 to nearest-even, never 0 for a nonzero amax (R165). -/
def int8Scale (amax : Fp) : Nat :=
  match amax with
  | .fin _ m e => if m = 0 then 0 else max 1 (quotFp32 false m 127 e)
  | _ => 0

/-- A block of code 0x7. -/
def encInt8 (modes : List RMode) (xs : List Nat) : List Nat × Nat :=
  let vs := xs.map ofFp32
  if hasSpecial vs then (xs.map fun _ => 0, 0x7FC00000)
  else
    let sc := int8Scale (amaxOf vs)
    match ofFp32 sc with
    | .fin _ d f =>
      ((vs.zip modes).map fun (v, mode) =>
        match v with
        | .fin n m e =>
          if d = 0 then 0
          else
            let sh := e - f
            let k := if 0 ≤ sh then roundNat mode (m * 2 ^ sh.toNat) d else roundNat mode m (d * 2 ^ (-sh).toNat)
            narrow 8 (sgnInt n (min k 127))
        | _ => 0, sc)
    | _ => (xs.map fun _ => 0, sc)

/-- The E4M3 scale of an LT4 block: the smallest value at least amax, or 448 (R163). -/
def lt4Scale (amax : Fp) : Nat :=
  match amax with
  | .fin _ m e => min (e4m3.magCode .up m 1 e) e4m3.maxCode
  | _ => 0

/-- The LT4 code of u, in units of 2^`e`: the nearest magnitude, a midpoint to the even code; or, with a draw, one of the two
around u (R163, R166). -/
def lt4Code (mode : RMode) (m : Nat) (e : Int) : Nat :=
  -- u in units of 2^-q
  let q := max 5 (-e).toNat
  let u := if 0 ≤ e then m * 2 ^ e.toNat * 2 ^ q else m * 2 ^ (q - (-e).toNat)
  let mag (c : Nat) := lt4Mag c * 2 ^ (q - 5)
  if mag 7 ≤ u then 7
  else
    let a := ((List.range 7).filter fun c => mag c ≤ u).length - 1
    let lo := mag a
    let gap := mag (a + 1) - lo
    match mode with
    | .stoch d => if d * gap < (u - lo) * 2 ^ 24 then a + 1 else a
    | _ => if gap < 2 * (u - lo) ∨ (2 * (u - lo) = gap ∧ a % 2 = 1) then a + 1 else a

/-- A block of code 0x8 (R163). -/
def encLt4 (modes : List RMode) (xs : List Nat) : List Nat × Nat :=
  let vs := xs.map ofFp32
  if hasSpecial vs then (xs.map fun _ => 0, 0x7F)
  else
    let sc := lt4Scale (amaxOf vs)
    match e4m3.decode sc with
    | .fin _ d f =>
      ((vs.zip modes).map fun (v, mode) =>
        match v with
        | .fin n m e =>
          let c :=
            if d = 0 then 0
            else
              match ofFp32 (quotFp32 false m d (e - f)) with
              | .fin _ um ue => lt4Code mode um ue
              | _ => 7
          (if n then 8 else 0) + c
        | _ => 0, sc)
    | _ => (xs.map fun _ => 0, sc)

/-- A block of a scaled code. -/
def encBlock (code : Nat) (modes : List RMode) (xs : List Nat) : List Nat × Nat :=
  match code with
  | 0x5 => encMx e3m2 4 modes xs
  | 0x6 => encMx e2m1 2 modes xs
  | 0x7 => encInt8 modes xs
  | _ => encLt4 modes xs

/-- Codes of `w` bits packed into a little-endian number (R159). -/
def packCodes (w : Nat) : List Nat → Nat
  | [] => 0
  | c :: cs => c % 2 ^ w + 2 ^ w * packCodes w cs

/-- A run of FP32 values converted to a palette code: the little-endian number of its element string and scales (R159, R165). -/
def palEncode (code : Nat) (modes : List RMode) (xs : List Nat) : Nat :=
  if palBlock code = 0 then packCodes (palBits code) ((xs.zip modes).map fun (x, m) => encUnscaled code m x)
  else
    let blocks := (chunks (palBlock code) xs.length (xs.zip modes)).map fun b => encBlock code (b.map (·.2)) (b.map (·.1))
    packCodes (palBits code) (blocks.flatMap (·.1))
      + 2 ^ (8 * palStr code xs.length) * packCodes (8 * palScaleBytes code) (blocks.map (·.2))

/-- One step of the stochastic generator (R166). -/
def seedStep (s0 : Word) : Word :=
  let s := if s0 = 0 then 0x2545f4914f6cdd1d else s0
  let s := s ^^^ (s <<< 13)
  let s := s ^^^ (s >>> 7)
  s ^^^ (s <<< 17)

/-- The draws of `n` lanes from a seed, as rounding modes of their top 24 bits, and the seed after them (R166). -/
def seedDraws : Nat → Word → List RMode × Word
  | 0, s => ([], s)
  | n + 1, s =>
    let s' := seedStep s
    let (l, t) := seedDraws n s'
    (.stoch (bf s' 40 24) :: l, t)

/-! ## Matrix products (R169) -/

/-- One output element of MMA: the products of a row and a column in groups of 32, each group summed exactly and rounded once,
the groups added to the accumulator in order (R169). -/
def macGroups : Nat → Nat → List Fp → Nat
  | 0, acc, _ => acc
  | n + 1, acc, ps =>
    if ps.isEmpty then acc else macGroups n (fAdd acc (toFp32 .near (Fp.sum (ps.take 32)))) (ps.drop 32)

/-- The inner product of two runs of exact values added to an FP32 accumulator (R169). -/
def macDot (acc : Nat) (a b : List Fp) : Nat :=
  macGroups (a.length + 1) acc ((a.zip b).map fun (x, y) => x.mul y)

end Sys2Proof.Machine
end

