-- ==== Sys2Proof/Machine/Compress.lean ====
section
/-! DEFINITION. Compressed blocks (R172 to R175): headers, CRC-32C, canonical codes, expansion with the causes of damage, and
the encoding of a block (R181). -/

namespace Sys2Proof.Machine

/-- One bit step of CRC-32C, least significant bit first. -/
def crc32cBit (c : Nat) : Nat := if c % 2 = 1 then Nat.xor (c / 2) 0x82F63B78 else c / 2

/-- CRC-32C of bytes from a running value. -/
def crc32cRun (c : Nat) (bs : List Byte) : Nat :=
  bs.foldl (fun c b => (List.range 8).foldl (fun c _ => crc32cBit c) (Nat.xor c b.toNat)) c

/-- CRC-32C with initial value and final XOR of all ones (R172). -/
def crc32c (bs : List Byte) : Nat := Nat.xor (crc32cRun 0xFFFFFFFF bs) 0xFFFFFFFF

/-- The header of a block (R172). -/
structure BlockHdr where
  kind : Nat
  xform : Nat
  tslot : Nat
  version : Nat
  tid : Nat
  clen : Nat
  rawlen : Nat
  nbits : Nat
  stride : Nat
  blockno : Nat
  crc : Nat
  deriving DecidableEq, Repr

/-- The header read from the first 32 bytes of a block. -/
def blockHdr (bs : List Byte) : BlockHdr :=
  let w0 := wordAt bs 0
  let w1 := wordAt bs 1
  { kind := bitsOf w0 0 2, xform := bitsOf w0 2 2, tslot := bitsOf w0 4 2, version := bitsOf w0 8 8, tid := bitsOf w0 16 16
    clen := bitsOf w0 32 13, rawlen := bitsOf w0 45 13, nbits := bitsOf w1 0 16, stride := bitsOf w1 16 12
    blockno := bitsOf w1 28 12, crc := bitsOf (wordAt bs 3) 32 32 }

/-- The CRC-32C a block should carry: header bytes 0 to 27, then payload bytes 32 to CLEN − 1 (R172). -/
def blockCrc (bs : List Byte) (clen : Nat) : Nat := crc32c (bs.take 28 ++ (bs.take clen).drop 32)

/-- Cause 4 of R175. -/
def hdrBad (h : BlockHdr) : Bool :=
  h.version != 1 || decide (2 ≤ h.xform) || (h.xform == 1 && h.stride == 0)
    || ((h.kind == 1 || h.kind == 2) && h.tid != 0) || ((h.kind == 0 || h.kind == 3) && h.tid == 0)

/-- CLEN inconsistent with KIND and RAWLEN: cause 3 of R175 (R173). Log entry 100 DEDUCED. -/
def lenBad (h : BlockHdr) : Bool :=
  match h.kind with
  | 0 => h.rawlen == 0 || decide (4096 < h.rawlen) || h.clen != 32 + ceilDiv h.nbits 8 || decide (4128 < h.clen)
  | 1 => h.rawlen == 0 || decide (4096 < h.rawlen) || h.clen != 32 + h.rawlen
  | 2 => h.rawlen == 0 || decide (4096 < h.rawlen) || h.clen != 32
  | _ => h.rawlen != 0 || h.clen != 160

/-- The 256 code lengths of a table block's payload (R173). -/
def tableLens (payload : List Byte) : List Nat := payload.flatMap fun b => [b.toNat % 16, b.toNat / 16]

/-- Whether code lengths make a table: at least one, and a Kraft sum of at most 1 (R175, R181). -/
def tableOk (lens : List Nat) : Bool :=
  lens.any (· != 0) && decide ((lens.map fun l => if l = 0 then 0 else 2 ^ (15 - l)).sum ≤ 2 ^ 15)

/-- The symbols of a table in the order of their codes: by length, then by value (R174). -/
def tableSyms (lens : List Nat) : List Nat :=
  (List.range 15).flatMap fun l => (List.range 256).filter fun v => lens.getD v 0 == l + 1

/-- How many symbols of a table have length `l`. -/
def tableCount (lens : List Nat) (l : Nat) : Nat := (lens.filter (· == l)).length

/-- One symbol decoded from the bits (R174): lengths from `15 - fuel + 1` on, with the code read so far, the first code of the
length and the index of its first symbol; `none` where no code matches. -/
def decodeSym (counts syms : List Nat) : Nat → Nat → Nat → Nat → List Bool → Option (Nat × List Bool)
  | 0, _, _, _, _ => none
  | _ + 1, _, _, _, [] => none
  | fuel + 1, code, first, index, b :: bs =>
    let code := 2 * code + b2n b
    let count := counts.getD (15 - fuel) 0
    if first ≤ code ∧ code - first < count then some (syms.getD (index + (code - first)) 0, bs)
    else decodeSym counts syms fuel code (2 * (first + count)) (index + count) bs

/-- `n` symbols decoded from the bits. -/
def decodeSyms (counts syms : List Nat) : Nat → List Bool → Option (List Byte × List Bool)
  | 0, bs => some ([], bs)
  | n + 1, bs =>
    match decodeSym counts syms 15 0 0 0 bs with
    | none => none
    | some (v, bs') =>
      match decodeSyms counts syms n bs' with
      | none => none
      | some (l, rest) => some (BitVec.ofNat 8 v :: l, rest)

/-- The bits of bytes, bit 0 of each first (R173). -/
def bitList (bs : List Byte) : List Bool := bs.flatMap fun b => (List.range 8).map fun i => b.getLsbD i

/-- XFORM 0b01 undone: each byte from STRIDE on is XORed with the raw byte STRIDE earlier (R174). `prev` holds the raw bytes
so far, last first. -/
def unxor (stride : Nat) : List Byte → List Byte → List Byte
  | prev, [] => prev.reverse
  | prev, y :: ys =>
    unxor stride ((if prev.length < stride then y else y ^^^ prev.getD (stride - 1) 0) :: prev) ys

/-- The raw bytes from the decoded string (R174). -/
def untransform (h : BlockHdr) (y : List Byte) : List Byte := if h.xform = 1 then unxor h.stride [] y else y

/-- What a block expands to. -/
inductive BlockRes where
  /-- Damaged, with the cause of R175. -/
  | damaged (cause : Nat)
  /-- A table for a slot. -/
  | table (slot tid : Nat) (lens : List Nat)
  /-- The raw bytes of a data block. -/
  | data (raw : List Byte)
  deriving DecidableEq, Repr

/-- A block expanded with the tables held, `(TID, lengths)` per slot, checked in the order of R175. -/
def expandBlock (slots : List (Nat × List Nat)) (bs : List Byte) : BlockRes :=
  let h := blockHdr bs
  let payload := (bs.take h.clen).drop 32
  if blockCrc bs h.clen ≠ h.crc then .damaged 0
  else if hdrBad h then .damaged 4
  else if lenBad h then .damaged 3
  else
    match h.kind with
    | 0 =>
      let (tid, lens) := slots.getD h.tslot (0, [])
      if tid ≠ h.tid then .damaged 1
      else
        match decodeSyms ((List.range 16).map (tableCount lens)) (tableSyms lens) h.rawlen ((bitList payload).take h.nbits) with
        | some (y, []) => .data (untransform h y)
        | _ => .damaged 3
    | 1 => .data (untransform h payload)
    | 2 => .data (untransform h (List.replicate h.rawlen 0))
    | _ =>
      let lens := tableLens payload
      if tableOk lens then .table h.tslot h.tid lens else .damaged 2

/-! ## Encoding (R181) -/

/-- XFORM 0b01 applied. -/
def xorForward (stride : Nat) (raw : List Byte) : List Byte :=
  raw.zipIdx.map fun (b, i) => if i < stride then b else b ^^^ raw.getD (i - stride) 0

/-- The counts of 256 byte values. -/
def byteCounts (bs : List Byte) : List Nat := (List.range 256).map fun v => (bs.filter fun b => b.toNat == v).length

/-- The code lengths for counts: the part's own choice where it lies within R181's bounds, and otherwise 8 for every counted
value where that is a table (log entry 17 DESIGN CHOICE). -/
def buildLens (counts : List Nat) : List Nat :=
  let l := Config.codeLengths counts
  if l.length = 256 ∧ tableOk l ∧ l.all (· ≤ 15) ∧ (l.zip counts).all (fun (n, c) => (n == 0) == (c == 0)) then l
  else counts.map fun c => if c = 0 then 0 else 8

/-- Σ count × length: the coded total of a region (R181). -/
def codedTotal (counts lens : List Nat) : Nat := ((counts.zip lens).map fun (c, l) => c * l).sum

/-- The canonical code of a symbol: its first code of the length plus its place among the symbols of that length. -/
def codeOf (lens : List Nat) (v : Nat) : Nat :=
  let l := lens.getD v 0
  let first := (List.range l).foldl (fun c i => 2 * (c + (if i = 0 then 0 else tableCount lens i))) 0
  first + ((List.range v).filter fun u => lens.getD u 0 == l).length

/-- The bits of a symbol's code, most significant first. -/
def codeBits (lens : List Nat) (v : Nat) : List Bool :=
  let l := lens.getD v 0
  (List.range l).map fun i => bitOf (codeOf lens v) (l - 1 - i)

/-- Bytes of bits, bit 0 of each first. -/
def packBits : Nat → List Bool → List Byte
  | 0, _ => []
  | n + 1, bs =>
    if bs.isEmpty then []
    else BitVec.ofNat 8 ((bs.take 8).zipIdx.foldl (fun a (b, i) => a + b2n b * 2 ^ i) 0) :: packBits n (bs.drop 8)

/-- A block of a header and a payload, with its CRC (R172). -/
def makeBlock (kind xform tslot tid rawlen nbits stride blockno : Nat) (payload : List Byte) : List Byte :=
  let clen := 32 + payload.length
  let w0 := kind + xform * 2 ^ 2 + tslot * 2 ^ 4 + 1 * 2 ^ 8 + tid * 2 ^ 16 + clen * 2 ^ 32 + rawlen * 2 ^ 45
  let w1 := nbits + stride * 2 ^ 16 + blockno * 2 ^ 28
  let hd := natBytes 8 w0 ++ natBytes 8 w1 ++ natBytes 8 0
  let c := crc32c (hd ++ natBytes 4 0 ++ payload)
  hd ++ natBytes 8 (c * 2 ^ 32) ++ payload

/-- The table block of a region (R173, R178). -/
def tableBlock (slot tid : Nat) (lens : List Nat) : List Byte :=
  makeBlock 3 0 slot tid 0 0 0 0
    ((List.range 128).map fun i => BitVec.ofNat 8 (lens.getD (2 * i) 0 + 16 * lens.getD (2 * i + 1) 0))

/-- A coded block as it is written (R181 step 4, R189): where it is to be verified and does not decode to its raw bytes, `raw`,
the raw block in its place, which counts as one mismatch. -/
def verifyBlock (verify : Bool) (slot tid : Nat) (lens : List Nat) (bytes coded raw : List Byte) : List Byte × Nat :=
  let slots := (List.range 4).map fun k => if k = slot then (tid, lens) else (0, [])
  if verify && expandBlock slots coded != .data bytes then (raw, 1) else (coded, 0)

/-- A data block of a region and the mismatches it met (R181 steps 3 and 4): zero, coded where that is shorter, raw otherwise.
Without a transform STRIDE is ignored (R175) and what it holds is the part's own. Log entry 99 DESIGN CHOICE. -/
def dataBlock (verify : Bool) (xform slot tid stride blockno : Nat) (lens : List Nat) (bytes : List Byte) : List Byte × Nat :=
  let sf := if xform = 1 then stride else Config.idleStride stride % 4096
  if bytes.all (· == 0) then (makeBlock 2 xform slot 0 bytes.length 0 sf blockno [], 0)
  else
    let y := if xform = 1 then xorForward stride bytes else bytes
    let bits := y.flatMap fun b => codeBits lens b.toNat
    let payload := packBits (bits.length / 8 + 1) bits
    let raw := makeBlock 1 xform slot 0 bytes.length 0 sf blockno y
    if y.all (fun b => lens.getD b.toNat 0 != 0) && decide (payload.length < bytes.length) then
      verifyBlock verify slot tid lens bytes (makeBlock 0 xform slot tid bytes.length bits.length sf blockno payload) raw
    else (raw, 0)

/-- A block followed by zeros up to the next 64-byte boundary (R178). -/
def padBlock (bs : List Byte) : List Byte := bs ++ List.replicate (ceilDiv bs.length 64 * 64 - bs.length) 0

end Sys2Proof.Machine
end

