-- ==== Sys2Proof/Machine/Operands.lean ====
section
/-! DEFINITION. The operand forms of the instruction word (R111 to R114) and the issue of an instruction: what every Drevos
meaning goes through before its own effect. -/

namespace Sys2Proof.Machine

/-! ## Fields of the instruction word (R111) -/

/-- OPC. -/
def opcOf (w : Word) : Nat := bf w 56 8
/-- FN. -/
def fnOf (w : Word) : Nat := bf w 52 4
/-- PG. -/
def pgOf (w : Word) : Nat := bf w 49 3
/-- RD. -/
def rdOf (w : Word) : Nat := bf w 43 6
/-- RA. -/
def raOf (w : Word) : Nat := bf w 37 6
/-- RB. -/
def rbOf (w : Word) : Nat := bf w 31 6
/-- RC. -/
def rcOf (w : Word) : Nat := bf w 25 6
/-- SUB of form R. -/
def subOf (w : Word) : Nat := bf w 0 25
/-- IMM of form I, sign-extended. -/
def immOf (w : Word) : Int := sext 37 (bf w 0 37)
/-- OFF of form M, sign-extended. -/
def offOf (w : Word) : Int := sext 31 (bf w 0 31)
/-- SUB read as OFF, as the memory instructions of R128 read it. -/
def subOff (w : Word) : Int := sext 25 (bf w 0 25)

/-- Whether a word is of the row OPC.FN. -/
def opIs (w : Word) (opc fn : Nat) : Bool := decide (opcOf w = opc) && decide (fnOf w = fn)

/-- Whether a word is of the row OPC with any FN. -/
def opcIs (w : Word) (opc : Nat) : Bool := decide (opcOf w = opc)

/-- How many values of FN an opcode defines; 0 for a reserved opcode (R111 to R113, R119 to R155). The rows that read FN as a
modifier check its value themselves. -/
def fnCount (opc : Nat) : Nat :=
  if [0x01, 0x02].contains opc then 13
  else if opc = 0x45 then 7
  else if [0x03, 0x20, 0x70].contains opc then 6
  else if [0x21, 0x22, 0x23].contains opc then 3
  else if [0x43, 0x52].contains opc then 2
  else if [0x27, 0x38, 0x59, 0x5A, 0x82].contains opc then 16
  else if [0x00, 0x04, 0x08, 0x09, 0x0A, 0x0B, 0x0D, 0x0F, 0x24, 0x25, 0x26, 0x30, 0x31, 0x32, 0x33, 0x34, 0x35, 0x39, 0x3A, 0x40,
    0x41, 0x42, 0x44, 0x46, 0x50, 0x51, 0x58, 0x60, 0x61, 0x62, 0x68, 0x69, 0x6A, 0x6B, 0x6C, 0x6D, 0x78, 0x79, 0x7A,
    0x84].contains opc then 1
  else 0

/-- Whether a word has a reserved OPC or FN (R113). Log entry 39 DEDUCED. -/
def reservedOp (w : Word) : Bool := decide (fnCount (opcOf w) ≤ fnOf w)

/-- The class a register field names (R113); `z` is a field the instruction does not use. -/
inductive RClass where
  | g | v | t | p | gp | vp | z
  deriving DecidableEq, Repr

/-- Whether a register field value is legal for its class (R113). -/
def RClass.legal : RClass → Nat → Bool
  | .g, _ => true
  | .v, n => decide (n < 32)
  | .t, n => decide (n < 16)
  | .p, n => decide (n < 8)
  | .gp, n => decide (n % 2 = 0)
  | .vp, n => decide (n % 2 = 0) && decide (n < 31)
  | .z, n => decide (n = 0)

/-- The general registers a field of a class names. -/
def RClass.gRegs : RClass → Nat → List Nat
  | .g, n => [n]
  | .gp, n => [n, n + 1]
  | _, _ => []

/-- The tiles a field of a class names. -/
def RClass.tRegs : RClass → Nat → List Nat
  | .t, n => [n]
  | _, _ => []

/-- The three forms of the tail (R111). -/
inductive Form where
  | r | m | i
  deriving DecidableEq, Repr

/-- How an instruction uses its word: its form, the class of each register field, and how many low bits of the tail it
reads (the bits above must be zero, R111). -/
structure Shape where
  form : Form
  rd : RClass := .z
  ra : RClass := .z
  rb : RClass := .z
  rc : RClass := .z
  tail : Nat := 0
  deriving DecidableEq, Repr

/-- The legality of a word under its shape (R113). -/
def Shape.legal (sh : Shape) (w : Word) : Bool :=
  sh.rd.legal (rdOf w) && sh.ra.legal (raOf w) &&
    match sh.form with
    | .r => sh.rb.legal (rbOf w) && sh.rc.legal (rcOf w) && decide (bf w 0 25 < 2 ^ sh.tail)
    | .m => sh.rb.legal (rbOf w)
    | .i => decide (bf w 0 37 < 2 ^ sh.tail)

/-- The general registers a word reads or writes under its shape. -/
def Shape.gRegs (sh : Shape) (w : Word) : List Nat :=
  sh.rd.gRegs (rdOf w) ++ sh.ra.gRegs (raOf w) ++
    match sh.form with
    | .r => sh.rb.gRegs (rbOf w) ++ sh.rc.gRegs (rcOf w)
    | .m => sh.rb.gRegs (rbOf w)
    | .i => []

/-- The tiles a word reads or writes under its shape. -/
def Shape.tRegs (sh : Shape) (w : Word) : List Nat :=
  sh.rd.tRegs (rdOf w) ++ sh.ra.tRegs (raOf w) ++
    match sh.form with
    | .r => sh.rb.tRegs (rbOf w)
    | _ => []

/-- Form R with all its tail reserved. -/
def shR (rd ra rb rc : RClass) : Shape := { form := .r, rd, ra, rb, rc }
/-- Form R whose SUB is read as OFF (R128). -/
def shRO (rd ra rb rc : RClass) : Shape := { form := .r, rd, ra, rb, rc, tail := 25 }
/-- Form I with `n` bits of IMM read. -/
def shI (rd ra : RClass) (n : Nat) : Shape := { form := .i, rd, ra, tail := n }
/-- Form M. -/
def shM (rd ra rb : RClass) : Shape := { form := .m, rd, ra, rb }

/-! ## Issue -/

/-- What an instruction's own effect comes to: it is done and the next instruction follows; it jumps; it is done and the
program counter stands (a fence, a wait, an attention step in progress); it raises a precise exception; or it stalls, and
nothing happens until it is issued again (R92, R115, R117). -/
inductive Res where
  | ok (s : State)
  | jump (pc : Nat) (s : State)
  | keep (s : State)
  | trap (code info loc : Nat)
  | stall

/-- The general registers whose result has not landed: the status registers of outstanding operations and the pairs of searches
(R117). A failed operation delivers no completion word any more. A result that lands after a fixed latency stands in its register
from its issue on, since latencies are left out (log entry 1 DESIGN CHOICE). -/
def EaselX.pendingG (y : EaselX) : List Nat :=
  (y.outst.filter fun o => !o.failed).map (·.rd) ++ (y.pend.filter fun r => r.due.isNone).flatMap fun r => [r.rd, r.rd + 1]

/-- The cycle a result instruction issues in: one of an easel per cycle (R115). Log entry 47 DEDUCED. -/
def State.resultCycle (s : State) (x : Ea) : Nat := (s.ex x).pend.foldl (fun c r => max c (r.issued + 1)) s.ec

/-- The entries of an easel's pending-result table in use at a cycle (R72, R117). -/
def EaselX.pendAt (y : EaselX) (c : Nat) : List PendX := y.pend.filter fun r => decide (c < r.due.getD (c + 1))

/-- Whether a result instruction finds all 32 entries of the pending-result table in use (R117). Log entry 47 DEDUCED. -/
def State.pendFull (s : State) (x : Ea) : Bool := decide (32 ≤ ((s.ex x).pendAt (s.resultCycle x)).length)

/-- A result instruction takes an entry of the pending-result table: until its latency has passed, or its row lands it (R117).
Log entry 47 DEDUCED. -/
def State.takePend (s : State) (x : Ea) (rd : Nat) (latency : Option Nat) : State :=
  let c := s.resultCycle x
  s.updEx x fun y => { y with pend := y.pendAt c ++ [{ rd, issued := c, due := latency.map (c + ·) }] }

/-- Whether an easel's clock runs: no brake and no relock stops it (R494, R502). -/
def State.clockRuns (s : State) (x : Ea) : Bool :=
  decide (s.fld Reg.pwrStatus Reg.pwrStatus_BRAKE = 0) && decide (s.fld Reg.pwrStatus Reg.pwrStatus_RELOCK = 0)
    && decide (s.fld (Reg.pwrBay1 x.bay) Reg.pwrBay1_STATE ≠ 3)

/-- Whether an easel can issue: it runs, no fence, attention step or wait holds it, and its clock is not stopped for a brake
or a relock (R91, R137, R494, R502). -/
def State.canIssue (s : State) (x : Ea) : Bool :=
  decide (s.est x = stRunning) && (s.ex x).fence.isNone && (s.ex x).run.isNone && (s.ex x).wait.isNone && s.clockRuns x

/-- The tiles the matrix unit or a waiting EXPAND has in use (R125, R126). -/
def State.busyTiles (s : State) (x : Ea) : List Nat :=
  let y := s.ex x
  (if s.ec < y.mmaBusy then y.mmaTiles else [])
    ++ (match y.mmaQ with | some (w, _, _) => [rdOf w, raOf w, rbOf w] | none => [])
    ++ y.expQ.map (·.1)

/-- Whether an instruction stalls on a register or tile it names (R115, R117, R125). g0 never stalls. -/
def State.stalls (s : State) (x : Ea) (sh : Shape) (w : Word) (tiles : Bool) : Bool :=
  (sh.gRegs w).any (fun r => r != 0 && (s.ex x).pendingG.contains r)
    || (tiles && (sh.tRegs w).any fun r => (s.busyTiles x).contains r)

/-- The program counter moved past an instruction of `len` words. -/
def State.advance (s : State) (x : Ea) (len : Nat) : State := s.setPc x (s.pc x + len)

/-- The precise exception of an illegal encoding (R100, R113). -/
def State.illegal (s : State) (x : Ea) : State := s.raise x true 0x01 0 0

/-- What a result comes to. -/
def Res.land (s : State) (x : Ea) (len : Nat) : Res → State
  | .ok t => t.advance x len
  | .jump n t => if n < (s.ex x).imgLen then t.setPc x n else s.illegal x
  | .keep t => t
  | .trap code info loc => s.raise x true code info loc
  | .stall => s

/-- How an instruction is issued: `legal` is the legality of its word, `len` its words, `vec` whether the guard selects lanes
(R114), `tiles` whether it stalls on a tile in use (R125, R126). -/
structure Issue where
  sh : Shape
  legal : Bool := true
  len : Nat := 1
  vec : Bool := false
  tiles : Bool := true

/-- The issue of an instruction on an easel that can issue: the legality of its word first (R572), then its guard (R114), then
the stalls, then its own effect. A long form whose second word lies at or past the image end is illegal (R112). -/
def State.issueOn (s : State) (x : Ea) (w : Word) (i : Issue) (body : State → Res) : State :=
  if (i.sh.legal w && i.legal && (i.len == 1 || decide (s.pc x + 1 < (s.ex x).imgLen))) = false then s.illegal x
  else if (i.vec || (s.pr x (pgOf w)).getLsbD 0) = false then s.advance x i.len
  else if s.stalls x i.sh w i.tiles then s
  else (body s).land s x i.len

/-- The meaning of a Drevos row: its word is the row's, and on an easel that cannot issue nothing happens.
Log entry 1 DESIGN CHOICE, 40 DESIGN CHOICE, 41 DESIGN CHOICE, 44 DEDUCED. -/
def issue (x : Ea) (w : Word) (row : Bool) (i : Issue) (body : State → Res) (s : State) :
    Host.Outcome State Fault Refusal :=
  guarded (x.ok && row) s fun s => if s.canIssue x then s.issueOn x w i body else s

/-! ## Operand-store operands (R123, R128) -/

/-- The operand-store size (R72). -/
abbrev opSize : Nat := 0x300000

/-- The checks of an operand-store range in the order of R572: alignment (0x04), then bound (0x03); `none` where it passes.
An address below zero lies outside as one above does. Log entry 43 DEDUCED. -/
def opCheck (a : Int) (len align : Nat) : Option Res :=
  if a % align ≠ 0 then some (.trap 0x04 0 (narrow 48 a))
  else if a < 0 ∨ (opSize : Int) < a + len then some (.trap 0x03 0 (narrow 48 a))
  else none

/-- The operand-store address gA + OFF of form M (R123). -/
def State.opAddr (s : State) (x : Ea) (w : Word) : Int := (s.gr x (raOf w)).toNat + offOf w

/-- Whether two ranges have a place in common. -/
def rangesMeet (a n b m : Nat) : Bool := decide (a < b + m ∧ b < a + n ∧ n ≠ 0 ∧ m ≠ 0)

/-- Whether an operation in flight holds operand-store bytes against a local instruction (R92, R123): a load that fills them against a
read, a store that reads them against a VST or TST. Log entry 104 DEDUCED. -/
def OutKind.holds (k : OutKind) (write : Bool) : Bool :=
  match k with
  | .ldLoc | .ldH | .catRd | .recv => !write
  | .stLoc | .stH | .stHTok | .wrimm | .send => write
  | _ => false

/-- Whether a local read of operand-store bytes meets a load in flight, or a VST or TST of them a store (R92, R123). Nothing else
stalls (R115): what another instruction writes there, a store in flight or a load that lands later may take or replace.
Log entry 104 DEDUCED. -/
def State.opBusy (s : State) (x : Ea) (a n : Nat) (write : Bool) : Bool :=
  (s.ex x).outst.any fun o => !o.failed && rangesMeet a n o.off o.len && o.kind.holds write

end Sys2Proof.Machine
end

