-- ==== Sys2Proof/Machine/Flags.lean ====
section
/-! DEFINITION. The integer operations and relations of the scalar instructions (R119). The C48 has no flags register: a
relation fills a predicate. -/

namespace Sys2Proof.Machine

/-- The smaller of two words in two's complement. -/
def sMin (a b : Word) : Word := if a.toInt ≤ b.toInt then a else b
/-- The greater of two words in two's complement. -/
def sMax (a b : Word) : Word := if a.toInt ≤ b.toInt then b else a
/-- The smaller of two unsigned words. -/
def uMin (a b : Word) : Word := if a.toNat ≤ b.toNat then a else b
/-- The greater of two unsigned words. -/
def uMax (a b : Word) : Word := if a.toNat ≤ b.toNat then b else a

/-- The operation that FN names in opcodes 0x01, 0x02 and 0x82 (R119); shifts take the low six bits of their count. -/
def aluOp (fn : Nat) (a b : Word) : Word :=
  match fn with
  | 0x0 => a + b
  | 0x1 => a - b
  | 0x2 => a &&& b
  | 0x3 => a ||| b
  | 0x4 => a ^^^ b
  | 0x5 => a <<< (b.toNat % 64)
  | 0x6 => a >>> (b.toNat % 64)
  | 0x7 => a.sshiftRight (b.toNat % 64)
  | 0x8 => a * b
  | 0x9 => sMin a b
  | 0xA => sMax a b
  | 0xB => uMin a b
  | _ => uMax a b

/-- The relation that FN names in opcode 0x03 (R119). -/
def cmpRel (fn : Nat) (a b : Word) : Bool :=
  match fn with
  | 0x0 => a == b
  | 0x1 => a != b
  | 0x2 => decide (a.toInt < b.toInt)
  | 0x3 => decide (a.toInt ≤ b.toInt)
  | 0x4 => decide (a.toNat < b.toNat)
  | _ => decide (a.toNat ≤ b.toNat)

/-- A predicate with one truth value in every lane. -/
def allLanes (b : Bool) : BitVec 128 := if b then BitVec.allOnes 128 else 0

/-- The sign-extended immediate of form I as a word. -/
def immWord (w : Word) : Word := BitVec.ofInt 64 (immOf w)

end Sys2Proof.Machine
end

