-- ==== Sys2Proof/Machine/Scalar.lean ====
section
/-! DEFINITION. The scalar and control instructions (R119, R120). -/

namespace Sys2Proof.Machine

/-- The effect of an ALU row: gD := gA op gB (R119). -/
def aluEff (fn : Nat) (x : Ea) (w : Word) (s : State) : Res :=
  .ok (s.setG x (rdOf w) (aluOp fn (s.gr x (raOf w)) (s.gr x (rbOf w))))

/-- An ALU row of form R (R119). -/
def aluR (fn : Nat) (x : Ea) (w : Word) : State → Host.Outcome State Fault Refusal :=
  issue x w (opIs w 0x01 fn) { sh := shR .g .g .g .z } (aluEff fn x w)

/-- The effect of an ALU row with an immediate: gD := gA op sext(IMM) (R119). -/
def aluImmEff (fn : Nat) (x : Ea) (w : Word) (s : State) : Res :=
  .ok (s.setG x (rdOf w) (aluOp fn (s.gr x (raOf w)) (immWord w)))

/-- An ALU row of form I (R119). -/
def aluI (fn : Nat) (x : Ea) (w : Word) : State → Host.Outcome State Fault Refusal :=
  issue x w (opIs w 0x02 fn) { sh := shI .g .g 37 } (aluImmEff fn x w)

/-- The effect of a compare row: every lane of pD := gA rel gB (R119). -/
def cmpEff (fn : Nat) (x : Ea) (w : Word) (s : State) : Res :=
  .ok (s.setP x (rdOf w) (allLanes (cmpRel fn (s.gr x (raOf w)) (s.gr x (rbOf w)))))

/-- A compare row (R119). -/
def cmpR (fn : Nat) (x : Ea) (w : Word) : State → Host.Outcome State Fault Refusal :=
  issue x w (opIs w 0x03 fn) { sh := shR .p .g .g .z } (cmpEff fn x w)

/-- NOP (R119). The table has no row for a word with a reserved OPC or FN; such a word is issued under this one, and raises the
illegal-encoding exception (R113, log entry 39 DEDUCED). -/
def execNop (x : Ea) (w : Word) (s : State) : Host.Outcome State Fault Refusal :=
  issue x w (opIs w 0x00 0 || reservedOp w) { sh := shI .z .z 0, legal := opIs w 0x00 0 } (fun s => .ok s) s

/-- ADD (R119). -/
def execAdd (x : Ea) (w : Word) (s : State) : Host.Outcome State Fault Refusal := aluR 0x0 x w s
/-- SUB (R119). -/
def execSub (x : Ea) (w : Word) (s : State) : Host.Outcome State Fault Refusal := aluR 0x1 x w s
/-- AND (R119). -/
def execAnd (x : Ea) (w : Word) (s : State) : Host.Outcome State Fault Refusal := aluR 0x2 x w s
/-- OR (R119). -/
def execOr (x : Ea) (w : Word) (s : State) : Host.Outcome State Fault Refusal := aluR 0x3 x w s
/-- XOR (R119). -/
def execXor (x : Ea) (w : Word) (s : State) : Host.Outcome State Fault Refusal := aluR 0x4 x w s
/-- SHL (R119). -/
def execShl (x : Ea) (w : Word) (s : State) : Host.Outcome State Fault Refusal := aluR 0x5 x w s
/-- SHR (R119). -/
def execShr (x : Ea) (w : Word) (s : State) : Host.Outcome State Fault Refusal := aluR 0x6 x w s
/-- SAR (R119). -/
def execSar (x : Ea) (w : Word) (s : State) : Host.Outcome State Fault Refusal := aluR 0x7 x w s
/-- MUL (R119). -/
def execMul (x : Ea) (w : Word) (s : State) : Host.Outcome State Fault Refusal := aluR 0x8 x w s
/-- MIN (R119). -/
def execMin (x : Ea) (w : Word) (s : State) : Host.Outcome State Fault Refusal := aluR 0x9 x w s
/-- MAX (R119). -/
def execMax (x : Ea) (w : Word) (s : State) : Host.Outcome State Fault Refusal := aluR 0xA x w s
/-- MINU (R119). -/
def execMinu (x : Ea) (w : Word) (s : State) : Host.Outcome State Fault Refusal := aluR 0xB x w s
/-- MAXU (R119). -/
def execMaxu (x : Ea) (w : Word) (s : State) : Host.Outcome State Fault Refusal := aluR 0xC x w s

/-- ADDI (R119). -/
def execAddi (x : Ea) (w : Word) (s : State) : Host.Outcome State Fault Refusal := aluI 0x0 x w s
/-- SUBI (R119). -/
def execSubi (x : Ea) (w : Word) (s : State) : Host.Outcome State Fault Refusal := aluI 0x1 x w s
/-- ANDI (R119). -/
def execAndi (x : Ea) (w : Word) (s : State) : Host.Outcome State Fault Refusal := aluI 0x2 x w s
/-- ORI (R119). -/
def execOri (x : Ea) (w : Word) (s : State) : Host.Outcome State Fault Refusal := aluI 0x3 x w s
/-- XORI (R119). -/
def execXori (x : Ea) (w : Word) (s : State) : Host.Outcome State Fault Refusal := aluI 0x4 x w s
/-- SHLI (R119). -/
def execShli (x : Ea) (w : Word) (s : State) : Host.Outcome State Fault Refusal := aluI 0x5 x w s
/-- SHRI (R119). -/
def execShri (x : Ea) (w : Word) (s : State) : Host.Outcome State Fault Refusal := aluI 0x6 x w s
/-- SARI (R119). -/
def execSari (x : Ea) (w : Word) (s : State) : Host.Outcome State Fault Refusal := aluI 0x7 x w s
/-- MULI (R119). -/
def execMuli (x : Ea) (w : Word) (s : State) : Host.Outcome State Fault Refusal := aluI 0x8 x w s
/-- MINI (R119). -/
def execMini (x : Ea) (w : Word) (s : State) : Host.Outcome State Fault Refusal := aluI 0x9 x w s
/-- MAXI (R119). -/
def execMaxi (x : Ea) (w : Word) (s : State) : Host.Outcome State Fault Refusal := aluI 0xA x w s
/-- MINUI (R119). -/
def execMinui (x : Ea) (w : Word) (s : State) : Host.Outcome State Fault Refusal := aluI 0xB x w s
/-- MAXUI (R119). -/
def execMaxui (x : Ea) (w : Word) (s : State) : Host.Outcome State Fault Refusal := aluI 0xC x w s

/-- ALU.L (R119): the long form gD := gA op LIMM for the operation FN names; FN above 0xC is reserved (R113). -/
def execAluL (x : Ea) (w limm : Word) (s : State) : Host.Outcome State Fault Refusal :=
  issue x w (opcIs w 0x82) { sh := shI .g .g 0, legal := decide (fnOf w ≤ 0xC), len := 2 }
    (fun s => .ok (s.setG x (rdOf w) (aluOp (fnOf w) (s.gr x (raOf w)) limm))) s

/-- CMP.EQ (R119). -/
def execCmpEq (x : Ea) (w : Word) (s : State) : Host.Outcome State Fault Refusal := cmpR 0x0 x w s
/-- CMP.NE (R119). -/
def execCmpNe (x : Ea) (w : Word) (s : State) : Host.Outcome State Fault Refusal := cmpR 0x1 x w s
/-- CMP.LT (R119). -/
def execCmpLt (x : Ea) (w : Word) (s : State) : Host.Outcome State Fault Refusal := cmpR 0x2 x w s
/-- CMP.LE (R119). -/
def execCmpLe (x : Ea) (w : Word) (s : State) : Host.Outcome State Fault Refusal := cmpR 0x3 x w s
/-- CMP.LTU (R119). -/
def execCmpLtu (x : Ea) (w : Word) (s : State) : Host.Outcome State Fault Refusal := cmpR 0x4 x w s
/-- CMP.LEU (R119). -/
def execCmpLeu (x : Ea) (w : Word) (s : State) : Host.Outcome State Fault Refusal := cmpR 0x5 x w s

/-- MOVI (R119): gD := sext(IMM). -/
def execMovi (x : Ea) (w : Word) (s : State) : Host.Outcome State Fault Refusal :=
  issue x w (opIs w 0x04 0) { sh := shI .g .z 37 } (fun s => .ok (s.setG x (rdOf w) (immWord w))) s

/-- MOVI.L (R119): gD := LIMM. -/
def execMoviL (x : Ea) (w limm : Word) (s : State) : Host.Outcome State Fault Refusal :=
  issue x w (opIs w 0x84 0) { sh := shI .g .z 0, len := 2 } (fun s => .ok (s.setG x (rdOf w) limm)) s

/-- A branch to IMM[12:0] when `c` holds (R119); a target at or above the image length is illegal (R73). -/
def branch (c : Bool) (w : Word) (s : State) : Res := if c then .jump (bf w 0 13) s else .ok s

/-- BR (R119). -/
def execBr (x : Ea) (w : Word) (s : State) : Host.Outcome State Fault Refusal :=
  issue x w (opIs w 0x08 0) { sh := shI .z .z 13 } (branch true w) s

/-- BZ (R119). -/
def execBz (x : Ea) (w : Word) (s : State) : Host.Outcome State Fault Refusal :=
  issue x w (opIs w 0x09 0) { sh := shI .z .g 13 } (fun s => branch (s.gr x (raOf w) == 0) w s) s

/-- BNZ (R119). -/
def execBnz (x : Ea) (w : Word) (s : State) : Host.Outcome State Fault Refusal :=
  issue x w (opIs w 0x0A 0) { sh := shI .z .g 13 } (fun s => branch (s.gr x (raOf w) != 0) w s) s

/-- BP (R119). -/
def execBp (x : Ea) (w : Word) (s : State) : Host.Outcome State Fault Refusal :=
  issue x w (opIs w 0x0B 0) { sh := shI .z .p 13 } (fun s => branch ((s.pr x (raOf w)).getLsbD 0) w s) s

/-- JR (R119): pc := gA[12:0]. -/
def execJr (x : Ea) (w : Word) (s : State) : Host.Outcome State Fault Refusal :=
  issue x w (opIs w 0x0D 0) { sh := shR .z .g .z .z } (fun s => .jump (bf (s.gr x (raOf w)) 0 13) s) s

/-- A program ends with a status (R82, R120): its launch completes done and its easel is idle. -/
def State.endProgram (s : State) (x : Ea) (status : Nat) : State :=
  match (s.ex x).src with
  | some l => (s.toIdle x).launchDone x l cDone status
  | none => s.toIdle x

/-- The report of a pending imprecise exception at a fence or END (R100, R154), if one is pending. -/
def State.report (s : State) (x : Ea) : Option State :=
  (firstFault (s.ex x).faults).map fun f => s.raise x false f.code f.info f.loc

/-- A fence or END whose condition is met (R93, R100, R120): it reports a pending imprecise exception, or it completes. -/
def State.reportOr (s : State) (x : Ea) (done : State) : State := (s.report x).getD done

/-- END (R120): it waits for the outstanding-operation table to empty; 4 ec after that the program ends with status gA[31:0]. -/
def execEndProg (x : Ea) (w : Word) (s : State) : Host.Outcome State Fault Refusal :=
  issue x w (opIs w 0x0F 0) { sh := shR .z .g .z .z }
    (fun s =>
      let status := bf (s.gr x (raOf w)) 0 32
      if (s.ex x).outst.all (·.failed) then .keep (s.reportOr x ((s.passTo (s.ec + 4)).endProgram x status))
      else .keep (s.updEx x fun y => { y with fence := some { kind := .endProg, arg := status, limit := none } })) s

end Sys2Proof.Machine
end

