-- ==== Sys2Proof/Machine/Vector.lean ====
section
/-! DEFINITION. The vector instructions (R121, R122) on 128 FP32 lanes under the guard (R114). -/

namespace Sys2Proof.Machine

/-- A lane of a vector register. -/
def lane (v : Vec) (i : Nat) : Nat := bf v (32 * i) 32

/-- The lanes of a vector register. -/
def lanes (v : Vec) : List Nat := (List.range 128).map (lane v)

/-- The vector register of lanes. -/
def ofLanes (l : List Nat) : Vec := BitVec.ofNat 4096 (packCodes 32 l)

/-- The lanes of `new` where the guard has a one and of `old` elsewhere (R114). -/
def mergeLanes (guard : BitVec 128) (old new : Vec) : Vec :=
  ofLanes ((List.range 128).map fun i => if guard.getLsbD i then lane new i else lane old i)

/-- The guard's lanes of vD written. -/
def State.putV (s : State) (x : Ea) (w : Word) (new : Vec) : State :=
  s.setV x (rdOf w) (mergeLanes (s.pr x (pgOf w)) (s.vr x (rdOf w)) new)

/-- A vector instruction of two sources. -/
def vec2 (opc fn : Nat) (f : Nat → Nat → Nat) (x : Ea) (w : Word) : State → Host.Outcome State Fault Refusal :=
  issue x w (opIs w opc fn) { sh := shR .v .v .v .z, vec := true } fun s =>
    .ok (s.putV x w (ofLanes (List.zipWith f (lanes (s.vr x (raOf w))) (lanes (s.vr x (rbOf w))))))

/-- A vector instruction of one source. -/
def vec1 (opc fn : Nat) (f : Nat → Nat) (x : Ea) (w : Word) : State → Host.Outcome State Fault Refusal :=
  issue x w (opIs w opc fn) { sh := shR .v .v .z .z, vec := true } fun s =>
    .ok (s.putV x w (ofLanes ((lanes (s.vr x (raOf w))).map f)))

/-- VADD (R121). -/
def execVadd (x : Ea) (w : Word) (s : State) : Host.Outcome State Fault Refusal := vec2 0x20 0x0 fAdd x w s
/-- VSUB (R121). -/
def execVsub (x : Ea) (w : Word) (s : State) : Host.Outcome State Fault Refusal := vec2 0x20 0x1 fSub x w s
/-- VMUL (R121). -/
def execVmul (x : Ea) (w : Word) (s : State) : Host.Outcome State Fault Refusal := vec2 0x20 0x2 fMul x w s
/-- VMAX (R121, R167). -/
def execVmax (x : Ea) (w : Word) (s : State) : Host.Outcome State Fault Refusal := vec2 0x20 0x4 fMax x w s
/-- VMIN (R121, R167). -/
def execVmin (x : Ea) (w : Word) (s : State) : Host.Outcome State Fault Refusal := vec2 0x20 0x5 fMin x w s

/-- VFMA (R121): one rounding. -/
def execVfma (x : Ea) (w : Word) (s : State) : Host.Outcome State Fault Refusal :=
  issue x w (opIs w 0x20 0x3) { sh := shR .v .v .v .v, vec := true }
    (fun s =>
      let a := s.vr x (raOf w)
      let b := s.vr x (rbOf w)
      let c := s.vr x (rcOf w)
      .ok (s.putV x w (ofLanes ((List.range 128).map fun i => fFma (lane a i) (lane b i) (lane c i))))) s

/-- VEXP2 (R121, R168). -/
def execVexp2 (x : Ea) (w : Word) (s : State) : Host.Outcome State Fault Refusal := vec1 0x21 0x0 fExp2 x w s
/-- VLOG2 (R121, R168). -/
def execVlog2 (x : Ea) (w : Word) (s : State) : Host.Outcome State Fault Refusal := vec1 0x21 0x1 fLog2 x w s
/-- VRCP (R121, R168). -/
def execVrcp (x : Ea) (w : Word) (s : State) : Host.Outcome State Fault Refusal := vec1 0x21 0x2 fRcp x w s

/-- One level of the reduction tree: lane pairs (2i, 2i + 1); a lane the guard leaves out takes no part. -/
def reducePairs (f : Nat → Nat → Nat) : List (Option Nat) → List (Option Nat)
  | a :: b :: l =>
    (match a, b with
      | some p, some q => some (f p q)
      | some p, none => some p
      | none, q => q) :: reducePairs f l
  | l => l

/-- `n` levels of the reduction tree (R121). -/
def reduceTree (f : Nat → Nat → Nat) : Nat → List (Option Nat) → Option Nat
  | 0, l => l.headD none
  | n + 1, l => reduceTree f n (reducePairs f l)

/-- A NaN in its one produced form (R167). -/
def canonNan (a : Nat) : Nat := if (ofFp32 a).isNan then 0x7FC00000 else a

/-- A reduction row: gD[31:0] is the reduction over the guarded lanes, gD[63:32] zero (R121). With no lane guarded the spec
states no result: a free value (log entry 18 DESIGN CHOICE). Log entry 44 DEDUCED. -/
def vred (fn : Nat) (f : Nat → Nat → Nat) (x : Ea) (w : Word) : State → Host.Outcome State Fault Refusal :=
  issue x w (opIs w 0x22 fn) { sh := shR .g .v .z .z, vec := true } fun s =>
    let guard := s.pr x (pgOf w)
    let v := s.vr x (raOf w)
    match reduceTree f 7 ((List.range 128).map fun i => if guard.getLsbD i then some (lane v i) else none) with
    | some r => .ok (s.setG x (rdOf w) (BitVec.ofNat 64 (canonNan r)))
    | none => let (r, t) := s.draw; .ok (t.setG x (rdOf w) (BitVec.ofNat 64 (r % 2 ^ 32)))

/-- VREDSUM (R121). -/
def execVredsum (x : Ea) (w : Word) (s : State) : Host.Outcome State Fault Refusal := vred 0x0 fAdd x w s
/-- VREDMAX (R121). -/
def execVredmax (x : Ea) (w : Word) (s : State) : Host.Outcome State Fault Refusal := vred 0x1 fMax x w s
/-- VREDMIN (R121). -/
def execVredmin (x : Ea) (w : Word) (s : State) : Host.Outcome State Fault Refusal := vred 0x2 fMin x w s

/-- The lanes in which a relation holds, as a predicate. -/
def relLanes (r : Fp → Fp → Bool) (a b : Vec) : BitVec 128 :=
  BitVec.ofNat 128 (packCodes 1 ((List.range 128).map fun i => b2n (r (ofFp32 (lane a i)) (ofFp32 (lane b i)))))

/-- A vector compare: the guard's lanes of pD (R121). -/
def vcmp (fn : Nat) (r : Fp → Fp → Bool) (x : Ea) (w : Word) : State → Host.Outcome State Fault Refusal :=
  issue x w (opIs w 0x23 fn) { sh := shR .p .v .v .z, vec := true } fun s =>
    let guard := s.pr x (pgOf w)
    let new := relLanes r (s.vr x (raOf w)) (s.vr x (rbOf w))
    .ok (s.setP x (rdOf w) ((s.pr x (rdOf w) &&& ~~~guard) ||| (new &&& guard)))

/-- VCMP.EQ (R121). -/
def execVcmpEq (x : Ea) (w : Word) (s : State) : Host.Outcome State Fault Refusal := vcmp 0x0 Fp.eq x w s
/-- VCMP.LT (R121). -/
def execVcmpLt (x : Ea) (w : Word) (s : State) : Host.Outcome State Fault Refusal := vcmp 0x1 Fp.lt x w s
/-- VCMP.LE (R121). -/
def execVcmpLe (x : Ea) (w : Word) (s : State) : Host.Outcome State Fault Refusal :=
  vcmp 0x2 (fun a b => a.lt b || a.eq b) x w s

/-- VBCAST (R121). -/
def execVbcast (x : Ea) (w : Word) (s : State) : Host.Outcome State Fault Refusal :=
  issue x w (opIs w 0x24 0) { sh := shR .v .g .z .z, vec := true }
    (fun s => .ok (s.putV x w (ofLanes (List.replicate 128 (bf (s.gr x (raOf w)) 0 32))))) s

/-- VEXT (R121). Log entry 44 DEDUCED. -/
def execVext (x : Ea) (w : Word) (s : State) : Host.Outcome State Fault Refusal :=
  issue x w (opIs w 0x25 0) { sh := shI .g .v 7, vec := true }
    (fun s => .ok (s.setG x (rdOf w) (BitVec.ofNat 64 (lane (s.vr x (raOf w)) (bf w 0 7))))) s

/-- VSEL (R121). -/
def execVsel (x : Ea) (w : Word) (s : State) : Host.Outcome State Fault Refusal :=
  issue x w (opIs w 0x26 0) { sh := shR .v .v .v .p, vec := true }
    (fun s => .ok (s.putV x w (mergeLanes (s.pr x (rcOf w)) (s.vr x (rbOf w)) (s.vr x (raOf w))))) s

/-- VCVT (R122, R160, R164 to R166): down-conversion packs the 128 lanes with zeros beyond the layout; up-conversion
unpacks them. A stochastic down-conversion steps the seed once per lane, guarded or not. -/
def execVcvt (x : Ea) (w : Word) (s : State) : Host.Outcome State Fault Refusal :=
  issue x w (opcIs w 0x27)
    { sh := { form := .r, rd := .v, ra := .v, tail := 2 }, legal := decide (1 ≤ fnOf w ∧ fnOf w ≤ 8), vec := true }
    (fun s =>
      let v := s.vr x (raOf w)
      if bitOf (subOf w) 0 then
        let n := v.toNat
        let str := n % 2 ^ (8 * palStr (fnOf w) 128)
        let sc := n / 2 ^ (8 * palStr (fnOf w) 128)
        .ok (s.putV x w (ofLanes ((List.range 128).map fun i => toFp32 .near (palDecode (fnOf w) str sc i))))
      else if bitOf (subOf w) 1 then
        let seed := Reg.easelSeed x.bay x.easel
        let (modes, after) := seedDraws 128 (s.reg seed)
        .ok ((s.putV x w (BitVec.ofNat 4096 (palEncode (fnOf w) modes (lanes v)))).setReg seed after)
      else .ok (s.putV x w (BitVec.ofNat 4096 (palEncode (fnOf w) (List.replicate 128 .near) (lanes v))))) s

end Sys2Proof.Machine
end

