-- ==== Sys2Proof/Machine/Tile.lean ====
section
/-! DEFINITION. The operand store and tiles, the matrix unit and the expander (R123 to R127, R169, R176, R177). -/

namespace Sys2Proof.Machine

/-! ## Operand store (R123) -/

/-- A load of `n` bytes from the operand store into a register file. -/
def opLoad (opc n align : Nat) (cls : RClass) (put : State → List Byte → State) (x : Ea) (w : Word) :
    State → Host.Outcome State Fault Refusal :=
  issue x w (opIs w opc 0) { sh := shM cls .g .z } fun s =>
    let a := s.opAddr x w
    match opCheck a n align with
    | some r => r
    | none => if s.opBusy x a.toNat n false then .stall else .ok (put s (s.bytes (opBase x + a.toNat) n))

/-- A store of the `n` bytes of a register into the operand store; one that `waits` stalls while an async store still reads them. -/
def opStore (opc n align : Nat) (cls : RClass) (waits : Bool) (get : State → Nat) (x : Ea) (w : Word) :
    State → Host.Outcome State Fault Refusal :=
  issue x w (opIs w opc 0) { sh := shM cls .g .z } fun s =>
    let a := s.opAddr x w
    match opCheck a n align with
    | some r => r
    | none => if waits && s.opBusy x a.toNat n true then .stall else .ok (s.setBytes (opBase x + a.toNat) (natBytes n (get s)))

/-- VLD (R123). -/
def execVld (x : Ea) (w : Word) (s : State) : Host.Outcome State Fault Refusal :=
  opLoad 0x30 512 64 .v (fun s bs => s.setV x (rdOf w) (BitVec.ofNat 4096 (bytesNat bs))) x w s
/-- VST (R123). -/
def execVst (x : Ea) (w : Word) (s : State) : Host.Outcome State Fault Refusal :=
  opStore 0x31 512 64 .v true (fun s => (s.vr x (rdOf w)).toNat) x w s
/-- TLD (R123). -/
def execTld (x : Ea) (w : Word) (s : State) : Host.Outcome State Fault Refusal :=
  opLoad 0x32 4096 64 .t (fun s bs => s.setT x (rdOf w) (BitVec.ofNat 32768 (bytesNat bs))) x w s
/-- TST (R123). -/
def execTst (x : Ea) (w : Word) (s : State) : Host.Outcome State Fault Refusal :=
  opStore 0x33 4096 64 .t true (fun s => (s.tr x (rdOf w)).toNat) x w s
/-- LDG (R123). -/
def execLdg (x : Ea) (w : Word) (s : State) : Host.Outcome State Fault Refusal :=
  opLoad 0x34 8 8 .g (fun s bs => s.setG x (rdOf w) (BitVec.ofNat 64 (bytesNat bs))) x w s
/-- STG (R123). -/
def execStg (x : Ea) (w : Word) (s : State) : Host.Outcome State Fault Refusal :=
  opStore 0x35 8 8 .g false (fun s => (s.gr x (rdOf w)).toNat) x w s

/-! ## Matrix unit (R124, R125, R161, R169) -/

/-- K of a palette code (R124). -/
def mmaK : Nat → Nat
  | 0x0 => 32
  | 0x1 => 64
  | 0x2 => 64
  | 0x6 => 256
  | 0x8 => 256
  | _ => 128

/-- The K exact values of row `r` of tA with its scales from vC (R161). -/
def mmaRow (code : Nat) (ta vc r : Nat) : List Fp :=
  let k := mmaK code
  let b := palBlock code
  (List.range k).map fun i =>
    let e := palElem code (bitsOf ta ((r * k + i) * palBits code) (palBits code))
    if b = 0 then e
    else
      let w := 8 * palScaleBytes code
      match palScale code (bitsOf vc ((r * k / b + i / b) * w) w) with
      | .nan => .nan
      | q => e.mul q

/-- The K exact values of column `n` of tB with its scales from vC + 1 (R161). -/
def mmaCol (code : Nat) (tb vc n : Nat) : List Fp :=
  let k := mmaK code
  let b := palBlock code
  (List.range k).map fun i =>
    let e := palElem code (bitsOf tb ((i * 32 + n) * palBits code) (palBits code))
    if b = 0 then e
    else
      let w := 8 * palScaleBytes code
      match palScale code (bitsOf vc ((n * k / b + i / b) * w) w) with
      | .nan => .nan
      | q => e.mul q

/-- tD + tA × tB (R124, R169): 32 × 32 FP32 values, row-major. -/
def mmaTile (code : Nat) (td ta tb va vb : Nat) : Tile :=
  let rows := (List.range 32).map (mmaRow code ta va)
  let cols := (List.range 32).map (mmaCol code tb vb)
  BitVec.ofNat 32768 (packCodes 32 ((List.range 1024).map fun j =>
    macDot (bitsOf td (32 * j) 32) (rows.getD (j / 32) []) (cols.getD (j % 32) [])))

/-- An MMA starts (R125): the unit is busy for 128 ec with the tiles it names in use, and its result is tD. `va` and `vb` are the
scales as it issued. -/
def State.mmaBegin (s : State) (x : Ea) (w : Word) (va vb : Vec) : State :=
  let r := mmaTile (fnOf w) (s.tr x (rdOf w)).toNat (s.tr x (raOf w)).toNat (s.tr x (rbOf w)).toNat va.toNat vb.toNat
  (s.setT x (rdOf w) r).updEx x fun y =>
    { y with mmaBusy := s.ec + 128, mmaTiles := [rdOf w, raOf w, rbOf w] }

/-- MMA (R115, R124, R125): it takes its scales as program order leaves them at its issue, starts when the unit is free, waits in
the unit's one-entry queue otherwise, and stalls while that is occupied. A tile an EXPAND is still to write stalls it. Codes above
0x8 are reserved; RC names an even v register for the scaled codes and must be zero for the others. -/
def execMma (x : Ea) (w : Word) (s : State) : Host.Outcome State Fault Refusal :=
  issue x w (opcIs w 0x38)
    { sh := { form := .r, rd := .t, ra := .t, rb := .t, rc := if decide (5 ≤ fnOf w) then .vp else .z }
      legal := decide (fnOf w ≤ 8), tiles := false }
    (fun s =>
      let y := s.ex x
      if [rdOf w, raOf w, rbOf w].any fun t => (y.expQ.map (·.1)).contains t then .stall
      else if y.mmaQ.isSome then .stall
      else
        let va := s.vr x (rcOf w)
        let vb := s.vr x (rcOf w + 1)
        if y.mmaBusy ≤ s.ec then .ok (s.mmaBegin x w va vb)
        else .ok (s.updEx x fun y => { y with mmaQ := some (w, va, vb) })) s

/-- MMA_START (R125): the waiting MMA starts in the cycle in which the unit frees. -/
def execMmaStart (x : Ea) (s : State) : Host.Outcome State Fault Refusal :=
  guarded x.ok s fun s =>
    match (s.ex x).mmaQ with
    | some (w, va, vb) => ((s.passTo (s.ex x).mmaBusy).updEx x fun y => { y with mmaQ := none }).mmaBegin x w va vb
    | none => s

/-! ## Expander (R126, R127, R176, R177) -/

/-- EASEL.XTBL with the TID of a slot set (R187). -/
def State.setXtbl (s : State) (x : Ea) (slot tid : Nat) : State :=
  s.setFld (Reg.easelXtbl x.bay x.easel) ⟨16 * slot, 16⟩ tid

/-- The expander's slots, filled up to four. -/
def EaselX.slots (y : EaselX) : List (Nat × List Nat) := fitTo 4 (0, []) y.tables

/-- A table slot set. -/
def State.setSlot (s : State) (x : Ea) (slot tid : Nat) (lens : List Nat) : State :=
  (s.updEx x fun y => { y with tables := putAt y.slots slot (tid, lens) }).setXtbl x slot tid

/-- Every table slot emptied (R176). -/
def State.emptySlots (s : State) (x : Ea) : State :=
  (s.updEx x fun y => { y with tables := [] }).setReg (Reg.easelXtbl x.bay x.easel) 0

/-- An EXPAND starts (R126, R127, R176): it occupies the expander for ⌈C / 64⌉ ec; a sound table block loads its slot, a sound
data block writes tD with zeros beyond RAWLEN, and a damaged block writes nothing, leaves the damaged-block exception for the
next fence, and empties its slot if it is a table. -/
def State.expandBegin (s : State) (x : Ea) (td off : Nat) (bs : List Byte) : State :=
  let hd := blockHdr bs
  let s := s.updEx x fun y => { y with expBusy := s.ec + ceilDiv hd.clen 64 }
  match expandBlock (s.ex x).slots bs with
  | .table slot tid lens => s.setSlot x slot tid lens
  | .data raw => s.setT x td (BitVec.ofNat 32768 (bytesNat raw))
  | .damaged cause =>
    let s := if hd.kind = 3 then s.setSlot x hd.tslot 0 [] else s
    (s.updEx x fun y => { y with opSeq := y.opSeq + 1 }).addFault x { seq := (s.ex x).opSeq, code := 0x08, info := cause * 256, loc := off }

/-- Whether a tile is in use by the matrix unit or named by the MMA that waits for it (R125). -/
def State.mmaUses (s : State) (x : Ea) (t : Nat) : Bool :=
  let y := s.ex x
  (decide (s.ec < y.mmaBusy) && y.mmaTiles.contains t)
    || (match y.mmaQ with | some (w, _, _) => [rdOf w, raOf w, rbOf w].contains t | none => false)

/-- EXPAND (R123, R126, R127): the block is read in program order, once no load fills its header and then none the rest;
alignment, then the bound of the whole block; it starts when the expander is free and tD is not in use, waits with at most one
other otherwise, and stalls while two wait. -/
def execExpand (x : Ea) (w : Word) (s : State) : Host.Outcome State Fault Refusal :=
  issue x w (opIs w 0x39 0) { sh := shR .t .g .z .z, tiles := false }
    (fun s =>
      let a : Int := (s.gr x (raOf w)).toNat
      match opCheck a 32 64 with
      | some r => r
      | none =>
        let off := a.toNat
        if s.opBusy x off 32 false then .stall
        else
        let clen := (blockHdr (s.bytes (opBase x + off) 32)).clen
        match opCheck a (max 32 clen) 64 with
        | some r => r
        | none =>
          let y := s.ex x
          let bs := s.bytes (opBase x + off) (max 32 clen)
          if s.opBusy x off (max 32 clen) false then .stall
          else if y.expQ.isEmpty && decide (y.expBusy ≤ s.ec) && !s.mmaUses x (rdOf w) then .ok (s.expandBegin x (rdOf w) off bs)
          else if y.expQ.length < 2 then .ok (s.updEx x fun y => { y with expQ := y.expQ ++ [(rdOf w, off, bs)] })
          else .stall) s

/-- EXPAND_START (R126, R176): the first waiting EXPAND starts in the cycle in which the expander is free and its tile
released. -/
def execExpandStart (x : Ea) (s : State) : Host.Outcome State Fault Refusal :=
  guarded x.ok s fun s =>
    match (s.ex x).expQ with
    | (td, off, bs) :: l =>
      let t := if (s.ex x).mmaTiles.contains td then max (s.ex x).expBusy (s.ex x).mmaBusy else (s.ex x).expBusy
      let s := s.passTo t
      if s.mmaUses x td then s else (s.updEx x fun y => { y with expQ := l }).expandBegin x td off bs
    | [] => s

/-- TZERO (R127). -/
def execTzero (x : Ea) (w : Word) (s : State) : Host.Outcome State Fault Refusal :=
  issue x w (opIs w 0x3A 0) { sh := shR .t .z .z .z } (fun s => .ok (s.setT x (rdOf w) 0)) s

end Sys2Proof.Machine
end

