-- ==== Sys2Proof/Machine/Locations.lean ====
section
/-! DEFINITION. Locations and where they lie (R43, R52, R275). -/

namespace Sys2Proof.Machine

/-! ## Locations (R52) -/

/-- TIER of a location. -/
def locTier (l : Nat) : Nat := bitsOf l 46 2
/-- BAY of a location. -/
def locBay (l : Nat) : Nat := bitsOf l 42 4
/-- ADDR of a location. -/
def locAddr (l : Nat) : Nat := bitsOf l 0 42
/-- The location of a tier, a bay and an address. -/
def mkLoc (tier bay addr : Nat) : Nat := tier * 2 ^ 46 + bay % 16 * 2 ^ 42 + addr % 2 ^ 42

/-- Strokes of a stack (R275). -/
abbrev stackStrokes : Nat := 167772160
/-- The first stroke of the portfolio table of a stack (R43). -/
abbrev pfTop : Nat := stackStrokes - 16384
/-- Strokes of a bay SRAM (R17). -/
abbrev sramStrokes : Nat := 32768

/-- The memory address at which a location's first stroke lies. -/
def locMem (l : Nat) : Nat :=
  match locTier l with
  | 0 => sramBase (locBay l) + 512 * locAddr l
  | 1 => stackBase (locBay l) + 512 * locAddr l
  | 2 => t2Base + 512 * locAddr l
  | _ => t3Base + 512 * locAddr l

/-- Whether `n` strokes from a location lie inside its bay SRAM or stack. -/
def locFits (l n : Nat) : Bool :=
  match locTier l with
  | 0 => decide (locAddr l + n ≤ sramStrokes)
  | 1 => decide (locAddr l + n ≤ stackStrokes)
  | _ => true

/-- Whether the bay or stack a T0 or T1 location names is ready. -/
def State.locUp (s : State) (l : Nat) : Bool :=
  match locTier l with
  | 0 => s.bayUp (locBay l)
  | 1 => s.stackUp (locBay l)
  | _ => false

/-- Whether the controller of a stack serves a read that reached it at `a`: a stack that trips admits none from then on, and
completes those admitted before (R296). -/
def State.stackReads (s : State) (b a : Nat) : Bool := s.stackUp b && (!(s.stk b).tripping || decide (a < (s.stk b).tripAt))

/-- Whether the bay or stack a T0 or T1 location names serves a read that reached it at `a`. -/
def State.locReads (s : State) (l a : Nat) : Bool :=
  match locTier l with
  | 0 => s.bayUp (locBay l)
  | 1 => s.stackReads (locBay l) a
  | _ => false

/-- Whether `n` strokes from a location may be accessed by the location forms (R131). -/
def State.locOk (s : State) (l n : Nat) : Bool := s.locUp l && locFits l n

/-- Whether a stroke number of memory lies in a stack, and in which. -/
def stackOf (g : Nat) : Option Nat :=
  let sp := g / 2 ^ 55
  if 0x300 ≤ sp ∧ sp < 0x310 then some (sp - 0x300) else none

end Sys2Proof.Machine
end

