-- ==== Sys2Proof/Machine/SlotMap.lean ====
section
/-! DEFINITION. The slot map and the time of near-bank operations (R280, R299, R301, R302). -/

namespace Sys2Proof.Machine

/-! ## The slot map (R280) -/

/-- RN of a slot map. -/
def mapRn (m : Nat) : Nat := 2 ^ bitsOf m 8 2
/-- The count a three-bit code names: 0, 1, 2, 4, 8. -/
def mapCount (c : Nat) : Nat := if c = 0 then 0 else 2 ^ (c - 1)
/-- SN of a slot map. -/
def mapSn (m : Nat) : Nat := mapCount (bitsOf m 24 3)
/-- NN of a slot map. -/
def mapNn (m : Nat) : Nat := mapCount (bitsOf m 40 3)

/-- The near-bank windows' positions. -/
def nbPositions (m : Nat) : List Nat :=
  (List.range (mapNn m)).map fun i => (bitsOf m 32 7 + i * (128 / mapNn m)) % 128

/-- The distance from position `p` forward to `q` in the frame. -/
def ahead (p q : Nat) : Nat := (q + 128 - p) % 128

/-- A window of `len` positions that would overlap a near-bank window begins directly after it (R280). -/
def shiftPast (nb : List Nat) (p len : Nat) : Nat :=
  match nb.find? fun q => decide (ahead p q < len) with
  | some q => (q + 1) % 128
  | none => p

/-- The refresh and scrub windows of a channel, as (first position, positions). -/
def channelWindows (m c : Nat) : List (Nat × Nat) :=
  let nb := nbPositions m
  ((List.range (mapRn m)).map fun i => (shiftPast nb ((bitsOf m 0 7 + c + i * (128 / mapRn m)) % 128) 2, 2)) ++
    ((List.range (mapSn m)).map fun i => (shiftPast nb ((bitsOf m 16 7 + c + i * (128 / mapSn m)) % 128) 1, 1))

/-- Bank of a stroke address. -/
def bankOf (addr : Nat) : Nat := addr / 256 % 32

/-! ## Near-bank operations in time (R301, R302) -/

/-- Cycles per unit of an operation. -/
def nbUnit (fn : Nat) : Nat := if fn = 0 then 48 else if fn = 1 ∨ fn = 2 ∨ fn = 6 then 96 else 144

/-- Windows that begin in [a, b), of those that begin at `starts` of every frame. -/
def beginIn (starts : List Nat) (a b : Nat) : Nat :=
  (starts.map fun p => (b + 12287 - p) / 12288 - (a + 12287 - p) / 12288).sum

/-- The end of work of `n` cycles from `a` on, each window that begins before it adding 192 cycles. -/
def suspended (starts : List Nat) (a n : Nat) : Nat → Nat → Nat
  | 0, e => e
  | k + 1, e =>
    let e' := a + n + 192 * beginIn starts a e
    if e' = e then e else suspended starts a n k e'

/-- Where the refresh windows of a channel begin in a frame, in cycles. -/
def refreshStarts (m c : Nat) : List Nat :=
  (List.range (mapRn m)).map fun i => 96 * shiftPast (nbPositions m) ((bitsOf m 0 7 + c + i * (128 / mapRn m)) % 128) 2

/-- E_c of an operation that started at `start` (R301). -/
def NbX.endOn (op : NbX) (m c : Nat) : Nat :=
  let n := op.units * nbUnit op.fn
  suspended (refreshStarts m c) (op.start + 96) n 1000 (op.start + 96 + n)

/-- The result window of a compare. -/
def nbResult (fn : Nat) : Nat := if fn = 2 ∨ fn = 6 then 96 else 0

/-- Where the scrub windows of a channel begin in a frame, in cycles. -/
def scrubStarts (m c : Nat) : List Nat :=
  (List.range (mapSn m)).map fun i => 96 * shiftPast (nbPositions m) ((bitsOf m 16 7 + c + i * (128 / mapSn m)) % 128) 1

/-- Data strokes of a channel, and all its scrub visits in a pass (R290). -/
abbrev scrubData : Nat := 1310720
@[inherit_doc scrubData] abbrev scrubPass : Nat := 1314816

/-- The bank a scrub visit is to (R290): of a data stroke, or of half a spare row. -/
def scrubBank (k : Nat) : Nat := if k % scrubPass < scrubData then k % scrubPass / 2 % 32 else (k % scrubPass - scrubData) / 128

/-- The first near-bank window that begins at cycle `t` or later; none while NN is 0. -/
def nbWindowFrom (m t : Nat) : Option Nat :=
  ((nbPositions m).map fun q => 96 * q + 12288 * ceilDiv (t - 96 * q) 12288).foldl (fun b w =>
    match b with
    | none => some w
    | some v => some (min v w)) none

/-- Whether an operation has a unit of its ranges in a bank. Log entry 73 DESIGN CHOICE. -/
def NbX.holds (op : NbX) (bank : Nat) : Bool :=
  let hit := fun (l : Nat) => decide ((bank + 32 - locAddr l / 256 % 32) % 32 < op.units)
  hit op.dst || (op.fn != 0 && hit op.src)

/-- Whether an operation has a row of its ranges. -/
def NbX.hasRow (op : NbX) (k : Nat) : Bool :=
  let u := k / 4096 * 32 + k / 128 % 32
  let hit := fun (l : Nat) => decide (locAddr l / 256 ≤ u ∧ u < locAddr l / 256 + op.units)
  hit op.dst || (op.fn != 0 && hit op.src)

/-- Whether `n` strokes from an address meet a range of an operation. -/
def NbX.meets (op : NbX) (addr n : Nat) : Bool :=
  rangesMeet (locAddr op.dst) (256 * op.units) addr n || (op.fn != 0 && rangesMeet (locAddr op.src) (256 * op.units) addr n)

/-- Whether a write to `n` strokes waits for a near-bank operation that has arrived and not started (R302): it is placed once that
has ended. Log entry 73 DESIGN CHOICE. -/
def State.nbQueued (s : State) (g n : Nat) : Bool :=
  match stackOf g with
  | none => false
  | some b => (s.stk b).nbQ.any fun op => decide (op.arrival ≤ s.ec) && op.meets (g % 2 ^ 55) n

/-- The cycle until which the running near-bank operation holds back an access to `n` strokes that arrived at `a` (R302): a read of a
bank it holds until the last E_c of the channels read, a write to its ranges until the largest E_c; 0 where it holds back nothing.
Log entry 73 DESIGN CHOICE. -/
def State.nbUntil (s : State) (g n a : Nat) (write : Bool) : Nat :=
  match stackOf g with
  | none => 0
  | some b =>
    match (s.stk b).nbRun with
    | none => 0
    | some op =>
      let m := (s.stk b).map
      let addr := g % 2 ^ 55
      let e :=
        if write then (if op.arrival ≤ a ∧ op.meets addr n then ((List.range 128).map (op.endOn m)).foldl max 0 else 0)
        else if op.start ≤ a then
          (List.range (min n 8192)).foldl (fun e i =>
            if op.holds (bankOf (addr + i)) then max e (op.endOn m ((addr + i) % 128)) else e) 0
        else 0
      if a < e then e else 0

end Sys2Proof.Machine
end

