-- ==== Sys2Proof/Machine/Admission.lean ====
section
/-! DEFINITION. The mesh, the admission of ordinary accesses and the page buffer (R18, R19, R280, R282 to R285, R302, R570). -/

namespace Sys2Proof.Machine

/-! ## The mesh (R18, R19, R285, R570) -/

/-- The links of the path between two bays, along the row first (R18): link = bay it leaves × 4 + direction. -/
def meshPath : Nat → Nat → Nat → List Nat
  | 0, _, _ => []
  | n + 1, a, b =>
    if a % 4 < b % 4 then (4 * a) :: meshPath n (a + 1) b
    else if b % 4 < a % 4 then (4 * a + 1) :: meshPath n (a - 1) b
    else if a / 4 < b / 4 then (4 * a + 2) :: meshPath n (a + 4) b
    else if b / 4 < a / 4 then (4 * a + 3) :: meshPath n (a - 4) b
    else []

/-- The intervals a transfer that enters at `t` takes: (link, first cycle, cycle after its last). -/
def meshSpans (src dst bytes t : Nat) : List (Nat × Nat × Nat) :=
  (meshPath 6 src dst).mapIdx fun j l => (l, t + 6 * j, t + 6 * j + ceilDiv bytes 128)

/-- Where the intervals of an entry at `t` meet reserved ones: the earliest entry that clears those conflicts. -/
def meshClash (mesh : List (Nat × Nat × Nat)) (src dst bytes t : Nat) : Option Nat :=
  let ends := (meshSpans src dst bytes t).flatMap fun (l, a, e) =>
    (mesh.filter fun (l', a', e') => l' == l && decide (a < e' ∧ a' < e)).map fun (_, _, e') => e' - (a - t)
  if ends.isEmpty then none else some (ends.foldl max (t + 1))

/-- The earliest entry at or after `t` (R285). -/
def meshEntry (mesh : List (Nat × Nat × Nat)) (src dst bytes : Nat) : Nat → Nat → Nat
  | 0, t => t
  | n + 1, t =>
    match meshClash mesh src dst bytes t with
    | some t' => meshEntry mesh src dst bytes n t'
    | none => t

/-- The intervals of a transfer reserved; those that ended a frame ago are forgotten. -/
def State.meshTake (s : State) (src dst bytes t : Nat) : State :=
  { s with mesh := s.mesh.filter (fun e => decide (s.ec < e.2.2 + 12288)) ++ meshSpans src dst bytes t }

/-- Whether a list of numbers comes before another, the first difference deciding. -/
def comesFirst : List Nat → List Nat → Bool
  | a :: as, b :: bs => if a = b then comesFirst as bs else decide (a < b)
  | _, _ => false

/-- An element joins a list in the order of its key, after its equals. -/
def insertBy {α : Type} (key : α → List Nat) (x : α) : List α → List α
  | [] => [x]
  | y :: ys => if comesFirst (key x) (key y) then x :: y :: ys else y :: insertBy key x ys

/-- The element of a list that comes first. -/
def firstBy {α : Type} (key : α → List Nat) : List α → Option α
  | [] => none
  | x :: xs =>
    match firstBy key xs with
    | some y => if comesFirst (key y) (key x) then some y else some x
    | none => some x

/-- The order in which transfers reserve (R285, R570): by the cycle they become ready, then class, in class 3 rank, source bay,
unit and arrival. -/
def transferTurn (t : Transfer) : List Nat := [t.ready, t.cls, if t.cls = 3 then t.rank else 0, t.src, t.unit, t.arrival]

/-- A transfer reserves its intervals in the cycle it becomes ready, at its earliest entry (R285). -/
def State.meshEnter (s : State) (x : Transfer) : State :=
  (s.passTo x.ready).meshTake x.src x.dst x.bytes (meshEntry s.mesh x.src x.dst x.bytes (s.mesh.length + 1) x.ready)

/-! ## Admission (R280, R282 to R284, R302) -/

/-- Whether two windows of a frame overlap. -/
def windowsMeet (v w : Nat × Nat) : Bool := decide (ahead v.1 w.1 < v.2) || decide (ahead w.1 v.1 < w.2)

/-- Channel of a stroke address. -/
def chanOf (addr : Nat) : Nat := addr % 128
/-- The fixed windows of a channel in a frame, in cycles (R280): near-bank, refresh, scrub, and the throttle positions no other
window takes. -/
def fixedWindows (m step c : Nat) : List (Nat × Nat) :=
  let ws := channelWindows m c ++ (nbPositions m).map fun q => (q, 1)
  let thr := (List.range 128).filter fun p => decide ((p + 16 - c % 16) % 16 < step) && !ws.any (windowsMeet (p, 1))
  (ws ++ thr.map fun p => (p, 1)).map fun (p, n) => (96 * p, 96 * n)

/-- The end of a fixed window that [a, a + 96) meets. -/
def fixedClash (fw : List (Nat × Nat)) (a : Nat) : Option Nat :=
  let f := a / 12288 * 12288
  let at_ := fun (w : Nat × Nat) => [f + w.1, f + 12288 + w.1] ++ if 12288 ≤ f then [f - 12288 + w.1] else []
  (fw.flatMap fun w => (at_ w).filterMap fun t => if t < a + 96 ∧ a < t + w.2 then some (t + w.2) else none).head?

/-- The bank a scrub window of a channel that begins `n` windows from now takes: that of the row being remapped, else of the stroke it
visits (R290, R292). -/
def StackX.scrubTarget (y : StackX) (c n : Nat) : Nat :=
  match y.remapping.find? fun r => r.1 % 128 == c && decide (r.2 < 4) with
  | some r => r.1 / 128 % 32
  | none => scrubBank (SMap.get (fun _ => 0) y.scrub c + n)

/-- When a bank is free of the scrub window that targets it, where one that begins now or later holds it at cycle `a` (R282). -/
def State.scrubHold (s : State) (b addr a : Nat) : Option Nat :=
  let y := s.stk b
  let c := chanOf addr
  let starts := scrubStarts y.map c
  let f := a / 12288 * 12288
  (starts.flatMap fun p => [f + p] ++ if 12288 ≤ f then [f - 12288 + p] else []).findSome? fun t =>
    if s.ec ≤ t ∧ t ≤ a ∧ a < t + 192 ∧ y.scrubTarget c (beginIn starts s.ec t) = bankOf addr then some (t + 192) else none

/-- Why cycle `a` is not free for an access, as the next cycle to try (R282). -/
def State.accessClash (s : State) (b : Nat) (fw : List (Nat × Nat)) (addr : Nat) (ret : Option Nat) (a : Nat) : Option Nat :=
  let y := s.stk b
  let c := chanOf addr
  let held := match y.nbRun with
    | some op =>
      let e := op.endOn y.map c
      if op.holds (bankOf addr) ∧ op.start ≤ a ∧ a < e then some e
      else if (op.fn = 2 ∨ op.fn = 6) ∧ e < a + 96 ∧ a < e + 96 then some (e + 96) else none
    | none => none
  (if a < y.shut then some y.shut else none)
    <|> fixedClash fw a
    <|> (y.windows.find? fun w => w.1 == c && decide (w.2 < a + 96 ∧ a < w.2 + 96)).map (fun w => w.2 + 96)
    <|> (y.banks.find? fun k => k.1 == c && k.2.1 == bankOf addr && decide (k.2.2 ≤ a ∧ a < k.2.2 + 192)).map
      (fun k => k.2.2 + 192)
    <|> s.scrubHold b addr a
    <|> held
    <|> ret.bind fun dst => (meshClash s.mesh b dst 512 (a + 272)).map (· - 272)

/-- The earliest admission at or after `a`. -/
def State.admitAt (s : State) (b : Nat) (fw : List (Nat × Nat)) (addr : Nat) (ret : Option Nat) : Nat → Nat → Nat
  | 0, a => a
  | n + 1, a =>
    match s.accessClash b fw addr ret a with
    | some a' => s.admitAt b fw addr ret n a'
    | none => a

/-- The cycle at which an access is admitted (R282). -/
def State.admission (s : State) (b addr arrival : Nat) (ret : Option Nat) : Nat :=
  let y := s.stk b
  s.admitAt b (fixedWindows y.map y.step (chanOf addr)) addr ret (2 * (y.windows.length + y.banks.length + s.mesh.length) + 600)
    arrival

/-- An access admitted (R282, R285): its channel window, its bank and its return slots are taken. -/
def State.takeWindow (s : State) (b addr arrival : Nat) (ret : Option Nat) : State :=
  let a := s.admission b addr arrival ret
  let s1 := s.passTo a
  let live := fun (t : Nat) => decide (s1.ec < t + 12288)
  let s2 := s1.updStk b fun y =>
    { y with windows := y.windows.filter (fun w => live w.2) ++ [(chanOf addr, a)]
             banks := y.banks.filter (fun k => live k.2.2) ++ [(chanOf addr, bankOf addr, a)] }
  match ret with
  | some dst => s2.meshTake b dst 512 (a + 272)
  | none => s2

/-- A page-buffer stroke's write-back admitted: its entry frees (R284). -/
def State.pbFree (s : State) (b addr : Nat) : State :=
  let pb := (s.stk b).pb.filter (·.addr != addr)
  ((if pb.isEmpty then s.quieten b else s).updStk b fun y => { y with pb }).setFld (Reg.bayStkStatus b)
    Reg.bayStkStatus_PBDEPTH pb.length

/-- The bay a read returns to over the mesh, if it does (R282). -/
def accessRet (a : Access) (b : Nat) : Option Nat :=
  if a.write || a.sourceBay == b || a.requester == 13 then none else some a.sourceBay

/-- Where an access stands among those admissible at one cycle (R283). Log entry 127 DEDUCED. -/
def State.accessRank (s : State) (b : Nat) (a : Access) : List Nat :=
  let pb := (s.stk b).pb
  if a.write then
    let i := (pb.findIdx? fun e => e.addr == a.addr).getD pb.length
    [if pb.any (fun e => e.addr == a.addr && e.flush) then 1 else if 224 ≤ pb.length then 3 else 6, i]
  else if a.sourceBay = b ∧ a.requester < 12 then [4, a.requester, a.arrival]
  else if a.sourceBay = b ∧ a.requester = 12 then [5, a.arrival]
  else [2, a.sourceBay, a.arrival]

/-- The order in which accesses are admitted: by the cycle each could be, then by rank (R282, R283). -/
def State.accessTurn (s : State) (b : Nat) (a : Access) : List Nat :=
  s.admission b a.addr a.arrival (accessRet a b) :: s.accessRank b a

/-- An access admitted; a write-back frees its page-buffer entry (R284). -/
def State.admitOne (s : State) (b : Nat) (a : Access) : State :=
  let s1 := s.takeWindow b a.addr a.arrival (accessRet a b)
  if a.write then s1.pbFree b a.addr else s1

/-- The write-back of a page-buffer stroke, as an access from now on. -/
def State.writeBack (s : State) (e : PbEnt) : Access :=
  { write := true, addr := e.addr, requester := 0, arrival := s.ec, sourceBay := 0 }

/-- Whether an access can be admitted: a read of a buffered stroke uses no window (R284), a stack that trips or is not ready
admits no read (R296), and a write-back has its stroke in the buffer. -/
def State.admissible (s : State) (b : Nat) (a : Access) : Bool :=
  let held := (s.stk b).pb.any (·.addr == a.addr)
  if a.write then held else !(s.stk b).tripping && s.stackUp b && !held

/-- Accesses admitted one after another (R283) until those of `named` have been; the others go only where they come first. -/
def State.admitAll (b : Nat) : Nat → List Access → List Access → State → State
  | 0, _, _, s => s
  | n + 1, named, others, s =>
    if named.isEmpty then s
    else
      match firstBy (s.accessTurn b) (named ++ others) with
      | none => s
      | some a => State.admitAll b n (named.erase a) (others.erase a) (s.admitOne b a)

/-- Accesses that wait at a stack admitted, with the write-backs that go before them on their channels (R283). -/
def State.admitThese (s : State) (b : Nat) (as : List Access) : State :=
  let named := as.filter (s.admissible b)
  let pb := (s.stk b).pb
  let others := (pb.filter fun e =>
    (e.flush || decide (224 ≤ pb.length)) && named.any (fun a => chanOf a.addr == chanOf e.addr)
      && !named.any (fun a => a.write && a.addr == e.addr)).map s.writeBack
  State.admitAll b (named.length + others.length) named others s

/-- The write-back that goes first is admitted (R283, R284). -/
def State.writeBackFirst (s : State) (b : Nat) : State :=
  match firstBy (s.accessTurn b) ((s.stk b).pb.map s.writeBack) with
  | some a => s.admitOne b a
  | none => s

/-- A stroke joins the page buffer of its stack (R284): one already held takes no new entry; in a full buffer the write waits until
the write-back that goes first is admitted. -/
def State.pbAdd (s : State) (b addr : Nat) : State :=
  if (s.stk b).pb.any (fun p => p.addr == addr) then s
  else
    let s1 := if 256 ≤ (s.stk b).pb.length then s.writeBackFirst b else s
    let pb := (s1.stk b).pb ++ [{ addr, flush := false }]
    (s1.updStk b fun y => { y with pb }).setFld (Reg.bayStkStatus b) Reg.bayStkStatus_PBDEPTH pb.length

end Sys2Proof.Machine
end

