-- ==== Sys2Proof/Machine/Strokes.lean ====
section
/-! DEFINITION. Strokes and their checks (R52, R275 to R278, R284, R286, R288 to R294, R300, R453, R454). -/

namespace Sys2Proof.Machine

/-! ## Seals -/

/-- The tweak of a stroke reached by handle (R453). Log entry 15 DESIGN CHOICE. -/
def handleTweak (owner session layer sheet stroke : Nat) : Nat :=
  owner + session * 2 ^ 16 + layer * 2 ^ 48 + sheet * 2 ^ 56 + stroke * 2 ^ 76 + 2 ^ 126

/-- The tweak of a T1 location (R453). -/
def locTweak (stack addr : Nat) : Nat := stack + addr * 16 + 2 * 2 ^ 126

/-- The tweak of a T3 location (R453). -/
def flashTweak (addr : Nat) : Nat := addr + 3 * 2 ^ 126

/-- What a stroke stands sealed under; `g` is its memory address over 512. Log entry 15 DESIGN CHOICE. -/
def State.stamp (s : State) (g : Nat) : Seal := SMap.get (fun _ => .none) s.seals g

/-- The seal of a stroke set. -/
def State.setStamp (s : State) (g : Nat) (q : Seal) : State :=
  { s with seals := SMap.set (fun _ => .none) s.seals g q }

/-- The symbol errors of the worst burst of a stroke. -/
def State.errsAt (s : State) (g : Nat) : Nat := SMap.get (fun _ => 0) s.eccErr g

/-- The symbol errors of a stroke set. -/
def State.setErrs (s : State) (g n : Nat) : State := { s with eccErr := SMap.set (fun _ => 0) s.eccErr g n }

/-! ## Stacks -/

/-- The region that holds a stroke of a stack, as (CLEAR, DETONLY) (R288). -/
def State.regionAt (s : State) (b addr : Nat) : Bool × Bool :=
  let u := addr / 256
  match lowestIdx 16 (fun n =>
      let r := Reg.bayRegion b n
      decide (s.fld r Reg.bayRegion_VALID = 1 ∧ s.fld r Reg.bayRegion_BASE ≤ u
        ∧ u < s.fld r Reg.bayRegion_BASE + s.fld r Reg.bayRegion_LEN)) with
  | some n => (s.fld (Reg.bayRegion b n) Reg.bayRegion_CLEAR = 1, s.fld (Reg.bayRegion b n) Reg.bayRegion_DETONLY = 1)
  | none => (false, false)

/-- What a stroke of a stack is sealed under for a key and a tweak: the CRC-64 in a CLEAR region (R278, R288). A stroke fails under
attributes it was not written with (R289), so whether its region is DETONLY is part of it. -/
def State.sealWith (s : State) (b addr kid tweak : Nat) : Seal :=
  let r := s.regionAt b addr
  if r.1 then .clear r.2 else .key kid (if r.2 then tweak + 2 ^ 125 else tweak)

/-- What a location access to a stroke of a stack is checked under (R74, R278, R288, R289). -/
def State.locWant (s : State) (b addr : Nat) : Seal := s.sealWith b addr (s.key 0).kid (locTweak b addr)

/-- The row of a stroke: its channel, bank and row as one number (R275). -/
def rowKey (addr : Nat) : Nat := addr % 128 + 128 * (addr / 256 % 32) + 4096 * (addr / 8192)

/-- The channel and bank of a row. -/
def rowBank (k : Nat) : Nat := k % 4096

/-- A stack event (R291, R293). -/
def State.stackEvent (s : State) (b : Nat) : State :=
  s.log 0x0A b 0 (s.reg (Reg.bayStkErrloc b)) (s.reg (Reg.bayStkStatus b))

/-- A repair entry waits to be written to the repair record (R524). -/
def State.repairNote (s : State) (r : Repair) : State := { s with repairDue := s.repairDue ++ [r] }

/-- Spare rows a row's bank has given out, those of rows remapped again among them (R292, R293). -/
def StackX.usedIn (y : StackX) (row : Nat) : Nat := SMap.get (fun _ => 0) y.spent (rowBank row)

/-- A row that is to be remapped (R292, R293): it joins the rows being remapped unless remapping is off, it is among them, or
its bank has no spare row left, which sets FULLEV and raises a stack event. -/
def State.wantRemap (s : State) (b k : Nat) : State :=
  if s.fld (Reg.bayStkRemapctl b) Reg.bayStkRemapctl_ENABLE = 0 then s
  else
    let y := s.stk b
    if y.remapping.any (fun e => e.1 == k) then s
    else
      let used := y.usedIn k + (y.remapping.filter fun e => rowBank e.1 == rowBank k).length
      if 64 ≤ used then (s.setFld (Reg.bayStkRemap b) Reg.bayStkRemap_FULLEV 1).stackEvent b
      else s.setStk b { y with remapping := y.remapping ++ [(k, 0)] }

/-- A corrected error (R291, R292): counted in CORR and against its row. -/
def State.corrected (s : State) (b addr : Nat) : State :=
  let e := Reg.bayStkEcc b
  let s1 := (s.bump e Reg.bayStkEcc_CORR).setFld e Reg.bayStkEcc_CORREV 1
  let n := SMap.get (fun _ => 0) (s1.stk b).corr (rowKey addr) + 1
  let s2 := s1.updStk b fun y => { y with corr := SMap.set (fun _ => 0) y.corr (rowKey addr) n }
  if s2.fld (Reg.bayStkRemapctl b) Reg.bayStkRemapctl_CORRTH ≤ n then s2.wantRemap b (rowKey addr) else s2

/-- An uncorrectable error (R291, R292, R294, R524): UNCORR, UNCEV, ERRLOC and a stack event; the row is remapped, or in a
detection-only region joins the pending list of 256 rows, of which the repair record gets an entry. `src` is 0 for a read, 1 for
the scrub, 2 for near-bank. -/
def State.uncorrectable (s : State) (b addr src : Nat) (det : Bool) : State :=
  let e := Reg.bayStkEcc b
  let s1 := (s.bump e Reg.bayStkEcc_UNCORR).setFld e Reg.bayStkEcc_UNCEV 1
  let s2 := s1.setReg (Reg.bayStkErrloc b) (BitVec.ofNat 64 (addr % 2 ^ 28 + src % 4 * 2 ^ 28))
  let s3 := s2.stackEvent b
  if det then
    let y := s3.stk b
    if y.detRows.contains (rowKey addr) ∨ 256 ≤ y.detRows.length then s3
    else
      ((s3.setStk b { y with detRows := y.detRows ++ [rowKey addr] }).setFld
        (Reg.bayStkRemap b) Reg.bayStkRemap_PENDING (y.detRows.length + 1)).repairNote ⟨3, b, rowKey addr, 0⟩
  else s3.wantRemap b (rowKey addr)

/-- The check of a stroke on a read (R277, R291, R294, R300): whether it passes under `want`, and the state with the counts. A
portfolio record not written since its stack lost its contents is the zero record under slot 0x0000 that R43 writes there. Beyond
what the code detects (six errors and more, eight in a detection-only region) the spec does not say what is found: a free value
decides between an uncorrectable error and wrong data, which fails its tag (log entry 13 DESIGN CHOICE). Log entry 7 DESIGN
CHOICE, 15 DESIGN CHOICE. -/
def State.check (s : State) (g : Nat) (want : Seal) (src : Nat) : Bool × State :=
  match stackOf g with
  | none => (decide (s.stamp g = want), s)
  | some b =>
    let addr := g % 2 ^ 55
    let e := Reg.bayStkEcc b
    let q := if s.stamp g = .none ∧ pfTop ≤ addr then s.locWant b addr else s.stamp g
    if q = .void then (false, s.setFld e Reg.bayStkEcc_VOIDRD 1)
    else
      let det := (s.regionAt b addr).2
      let n := s.errsAt g
      let (d, s1) := if (if det then 7 else 5) < n then s.draw else (0, s)
      if (if det then 1 else 3) ≤ n ∧ d % 2 = 0 then (false, s1.uncorrectable b addr src det)
      else
        let s2 := if n = 0 ∨ det ∨ 2 < n then s1 else s1.corrected b addr
        if q = want ∧ n < (if det then 1 else 3) then (true, s2)
        else (false, (s2.bump e Reg.bayStkEcc_TAGMIS).setFld e Reg.bayStkEcc_TAGEV 1)

/-- A whole stroke written: bytes, seal, and no error in it; a T1 stroke goes through the page buffer. -/
def State.putStroke (s : State) (g : Nat) (bs : List Byte) (q : Seal) : State :=
  let s1 := ((s.setBytes (512 * g) bs).setStamp g q).setErrs g 0
  match stackOf g with
  | some b => s1.pbAdd b (g % 2 ^ 55)
  | none => s1

/-! ## Transfers by location (R74, R129, R131, R291) -/

/-- The strokes a transfer of `len` bytes from byte `bo` of a stroke touches: (stroke, first byte in it, bytes). -/
def segs (bo len : Nat) : List (Nat × Nat × Nat) :=
  (List.range (ceilDiv (bo + len) 512)).map fun i =>
    let lo := if i = 0 then bo else 0
    (i, lo, min 512 (bo + len - 512 * i) - lo)

/-- `n` free bytes: the ciphertext a location access to handle data in bay SRAM meets (R453; log entry 13 DESIGN CHOICE). -/
def State.drawBytes (s : State) (n : Nat) : List Byte × State :=
  let (d, s1) := s.draw
  (natBytes n d, s1)

/-- Byte ranges whose contents are undefined: free values (R104, R155, R370, R380; log entry 13 DESIGN CHOICE). -/
def State.undefine (s : State) (spans : List (Nat × Nat)) : State :=
  spans.foldl (fun u p =>
    let (bs, u1) := u.drawBytes p.2
    u1.setBytes p.1 bs) s

/-- Whether a stroke of bay SRAM holds ciphertext: handle data placed there by a move (R316, R453). -/
def State.cipherT0 (s : State) (g : Nat) : Bool :=
  decide (g / 2 ^ 55 < 16) && match s.stamp g with | .key _ _ => true | _ => false

/-- Bytes of one stroke read by location: `none` where the stroke fails its check. -/
def State.readSeg (s : State) (l i lo n : Nat) : Option (List Byte) × State :=
  let g := locMem l / 512 + i
  if locTier l = 0 then
    if s.cipherT0 g then
      let (bs, s1) := s.drawBytes n
      (some bs, s1)
    else (some (s.bytes (512 * g + lo) n), s)
  else
    let (ok, s1) := s.check g (s.locWant (locBay l) (locAddr l + i)) 0
    (if ok then some (s1.bytes (512 * g + lo) n) else none, s1)

/-- Every stroke of a transfer read by location. -/
def State.readLoc (s : State) (l : Nat) : List (Nat × Nat × Nat) → List (Option (List Byte)) × State
  | [] => ([], s)
  | (i, lo, n) :: r =>
    let (b, s1) := s.readSeg l i lo n
    let (bs, s2) := s1.readLoc l r
    (b :: bs, s2)

/-- The whole strokes a store by location leaves behind: each part stroke merged into its base as read and checked, or into
the partner's copy where `part` lists it; `none` for a stroke whose base fails. Log entry 89 DEDUCED. -/
def State.mergeLoc (s : State) (l : Nat) (part : List (Nat × List Byte)) :
    List (Nat × Nat × Nat) → List Byte → List (Option (List Byte)) × State
  | [], _ => ([], s)
  | (i, lo, n) :: r, bs =>
    let (base, s1) := if n = 512 then (some [], s) else s.readSeg l i 0 512
    let base := base <|> part.lookup i
    let whole := base.map fun o => if n = 512 then bs.take 512 else patch (fitTo 512 0 o) lo (bs.take n)
    let (ws, s2) := s1.mergeLoc l part r (bs.drop n)
    (whole :: ws, s2)

/-- Whole strokes written by location from stroke `i` of it on. -/
def State.putLoc (s : State) (l : Nat) : Nat → List (List Byte) → State
  | _, [] => s
  | i, bs :: r =>
    let q := if locTier l = 0 then .none else s.locWant (locBay l) (locAddr l + i)
    (s.putStroke (locMem l / 512 + i) bs q).putLoc l (i + 1) r

end Sys2Proof.Machine
end

