-- ==== Sys2Proof/Machine/Sheets.lean ====
section
/-! DEFINITION. Portfolios, sheet lists, the catalogue's banks and the mirrored writes (R35 to R71, R402 to R407, R451). -/

namespace Sys2Proof.Machine

/-! ## Portfolio records (R43, R44) -/

/-- A portfolio record, field by field. -/
structure Pf where
  owner : Nat
  slot : Nat
  session : Nat
  layers : Nat
  kv : Nat
  qper : Nat
  dcode : Nat
  kpal : Nat
  vpal : Nat
  cls : Nat
  tau : Nat
  mode : Nat
  tgt : Nat
  valid : Bool
  hepoch : Nat
  requester : Nat
  home : Nat
  hcount : Nat
  tokens : Nat
  seq : Nat
  list : Nat
  count : Nat
  hanging : List Nat
  deriving DecidableEq, Repr

/-- Where portfolio record `n` lies. -/
def pfAddr (n : Nat) : Nat := stackBase (n % 16) + 512 * (pfTop + n / 16)

/-- A record read from its 512 bytes (R44). -/
def decodePf (bs : List Byte) : Pf :=
  let w0 := wordAt bs 0
  let w1 := wordAt bs 1
  let w2 := wordAt bs 2
  let w3 := wordAt bs 3
  let w5 := wordAt bs 5
  let hc := bitsOf w2 48 6 + 1
  { owner := bitsOf w0 0 16, slot := bitsOf w0 16 16, session := bitsOf w0 32 32
    layers := bitsOf w1 0 8 + 1, kv := bitsOf w1 8 5 + 1, qper := bitsOf w1 13 4 + 1, dcode := bitsOf w1 17 3
    kpal := bitsOf w1 20 4, vpal := bitsOf w1 24 4, cls := bitsOf w1 28 4, tau := bitsOf w1 32 8
    mode := bitsOf w1 40 2, tgt := bitsOf w1 42 8, valid := bitOf w1 63
    hepoch := bitsOf w2 0 32, requester := bitsOf w2 32 12, home := bitsOf w2 44 4, hcount := hc
    tokens := bitsOf w3 0 32, seq := bitsOf w3 32 32
    list := bitsOf (wordAt bs 4) 0 48, count := bitsOf w5 0 32
    hanging := (List.range hc).map fun i => bitsOf (leAt bs 0x30 96) (12 * i) 12 }

/-- Portfolio `n` as it stands (R43). Log entry 69 DEDUCED, 89 DEDUCED. -/
def State.pf (s : State) (n : Nat) : Pf := decodePf (s.bytes (pfAddr n) 512)

/-- Head dimension (R44). -/
def Pf.d (p : Pf) : Nat := [32, 64, 96, 128, 192, 256].getD p.dcode 32
/-- Bytes of a key vector (R37). -/
def Pf.bk (p : Pf) : Nat := palBytes p.kpal p.d
/-- Bytes of a value vector (R37). -/
def Pf.bv (p : Pf) : Nat := palBytes p.vpal p.d
/-- The raw sheet size S (R38). -/
def Pf.size (p : Pf) : Nat := 256 * p.kv * (p.bk + p.bv)
/-- ⌈S / 512⌉ (R40). -/
def Pf.strokes (p : Pf) : Nat := ceilDiv p.size 512
/-- log2 of the sheet class over 64 KiB (R38). -/
def Pf.clsOf (p : Pf) : Nat := ceilLog2 (ceilDiv p.size 65536)
/-- The sketch bytes SK of a sheet (R142). -/
def Pf.sk (p : Pf) : Nat := p.kv * (p.d + 2)
/-- The sketch strokes Ns of a sheet (R227). -/
def Pf.ns (p : Pf) : Nat := ceilDiv p.sk 512

/-- The portfolios whose VALID is set, from the listed bytes that hold it (byte 15 of a record, bit 7). -/
def State.activePfs (s : State) : List Nat :=
  s.mem.filterMap fun e =>
    let sp := e.1 / 2 ^ 64
    let st := e.1 % 2 ^ 64 / 512
    if 0x300 ≤ sp ∧ sp < 0x310 ∧ pfTop ≤ st ∧ e.1 % 512 = 15 ∧ e.2.getLsbD 7 then some ((st - pfTop) * 16 + (sp - 0x300)) else none

/-! ## Key stores (R451) -/

/-- A slot whose check code fails (R476): restored from the partner over the pair channel, or in FAULT where the partner cannot be
reached, with KEYFAULT and an event. Log entry 98 DEDUCED. -/
def State.checkSlot (s : State) (slot : Nat) : State :=
  let k := s.key slot
  if k.state ≠ 1 ∨ !k.bad then s
  else if s.fld Reg.pairStatus Reg.pairStatus_UNREACH = 0 ∧ s.fld Reg.rotStatus Reg.rotStatus_PAIRKEY = 1 then
    s.setKey slot { k with bad := false }
  else
    let s1 := (s.setKey slot { k with state := 2 }).setFld Reg.rotErr Reg.rotErr_KEYFAULT 1
    s1.log 0x11 0xFF slot (s1.reg Reg.rotErr) (BitVec.ofNat 64 k.owner)

/-- Whether a slot stands in a bay's key store; slot 0x0000 always does. -/
def State.slotLoaded (s : State) (b slot : Nat) : Bool := slot == 0 || (s.bay b).keystore.contains slot

/-- Whether a bay's key store can take a slot. Log entry 98 DEDUCED. -/
def State.slotRoom (s : State) (b slot : Nat) : Bool :=
  s.slotLoaded b slot || decide ((s.bay b).keystore.length + 1 < 4096)

/-- A slot loaded into a bay's key store. -/
def State.loadSlot (s : State) (b slot : Nat) : State :=
  if s.slotLoaded b slot then s else s.updBay b fun y => { y with keystore := y.keystore ++ [slot] }

/-- The entries of a bay's key store that no active portfolio homed there and no weight stream names freed. Log entry 98 DEDUCED. -/
def State.trimSlots (s : State) (b : Nat) : State :=
  let used := s.fld (Reg.bayWsCtrl b) Reg.bayWsCtrl_KEYSLOT ::
    (s.activePfs.filter fun n => (s.pf n).home == b).map fun n => (s.pf n).slot
  s.updBay b fun y => { y with keystore := y.keystore.filter used.contains }

/-! ## The pair: mirrored operations (R403 to R407) -/

/-- Pair events (R413): raised in the bays named, and recorded in the event log. Log entry 67 DEDUCED. -/
def State.pairEvent (s : State) (kind pf idx owner session : Nat) (bays : List Nat) : State :=
  let rec0 := BitVec.ofNat 64 (kind + pf * 2 ^ 8 + idx % 2 ^ 32 * 2 ^ 32)
  let s1 := s.log 0x0D 0xFF kind rec0 (BitVec.ofNat 64 (owner + session * 2 ^ 16))
  bays.foldl (fun u b => u.event b 0x43 rec0) s1

/-- Every bay. -/
def allBays : List Nat := List.range 16

/-- Where entry `n` of stack `b`'s log part lies (R407). Log entry 21 DEDUCED. -/
def logAddr (b n : Nat) : Nat := stackBase b + 655288 * 256 * 512 + 16 * n

/-- The entries of stack `b`'s log part. -/
def State.logLen (s : State) (b : Nat) : Nat := SMap.get (fun _ => 0) s.pair.logLen b

/-- A unit logged in a stack's log part (R407): appended, or the part's overflow bit set with a pair event. Log entry 21 DEDUCED. -/
def State.logUnit (s : State) (b : Nat) (e : LogEntry) : State :=
  let n := s.logLen b
  if n < 65536 then
    let v := e.pf % 2 ^ 18 + e.idx % 2 ^ 32 * 2 ^ 18 + e.unit % 16 * 2 ^ 50 + e.seq % 2 ^ 32 * 2 ^ 64
    let g := logAddr b n / 512
    let s1 := (s.setBytes (logAddr b n) (natBytes 16 v)).setStamp g (s.locWant b (g % 2 ^ 55))
    let s2 := { s1 with pair := { s1.pair with logLen := SMap.set (fun _ => 0) s1.pair.logLen b (n + 1) } }
    s2.setFld Reg.pairLog Reg.pairLog_FILL (max (s2.fld Reg.pairLog Reg.pairLog_FILL) (n + 1))
  else
    let m := s.fld Reg.pairLog Reg.pairLog_OVFMASK
    if bitOf m b then s
    else
      ((s.setFld Reg.pairLog Reg.pairLog_OVFMASK (m + 2 ^ b)).setFld Reg.pairLog Reg.pairLog_OVFEV 1).pairEvent
        0x08 0 0 0 0 [b]

/-- A mirrored operation logged (R406, R407); a forward-table entry, for which the log has no unit, as its portfolio's record
(log entry 21 DEDUCED). -/
def State.logOp (s : State) (op : MirrorIn) : State :=
  s.logUnit op.bay (if op.unit = 4 then ⟨op.pf, 0xFFFFFFFF, 3, op.seq⟩ else ⟨op.pf, op.idx, op.unit, op.seq⟩)

/-- Whether no partner copy can be fetched: the partner is unreachable or the node is in SOLO (R573). Log entry 90 DEDUCED. -/
def State.partnerAway (s : State) : Bool :=
  s.fld Reg.pairStatus Reg.pairStatus_UNREACH = 1 || s.fld Reg.pairStatus Reg.pairStatus_SOLO = 1

/-- Whether the pair mirrors nothing: mirroring is off, or the node keys of the pair differ (R433, R452). Log entry 67 DEDUCED. -/
def State.mirrorOff (s : State) : Bool :=
  s.fld Reg.pairCtrl Reg.pairCtrl_ENABLE = 0 || s.fld Reg.rotErr Reg.rotErr_PAIRKEYBAD = 1

/-- The lane groups that run. -/
def State.groupCount (s : State) : Nat := ((List.range 4).filter fun q => bitOf s.pair.groups q).length

/-- The lane group that carries the traffic of a bay (R21, R404): its partition's, or where that does not run those that do in
rotation. -/
def State.mirrorGroup (s : State) (b : Nat) : Option Nat :=
  if bitOf s.pair.groups (b / 4) then some (b / 4)
  else
    let l := (List.range 4).filter fun q => bitOf s.pair.groups q
    l[s.pair.turn % max 1 l.length]?

/-- The cycle a whole-stroke mirrored write placed now is acknowledged at on the pair link (R404). -/
def State.mirrorDue (s : State) (op : MirrorIn) : Nat :=
  let b := (op.writes.map (·.data.length)).sum
  match s.mirrorGroup op.bay with
  | some q => if op.unit ≤ 1 then s.ec + 640 + ceilDiv b (35 * s.groupCount) + 24 * hops op.bay (4 * q + 1) else s.ec
  | none => s.ec

/-- A mirrored operation issued (R384, R403 to R407): queued for its path, a portfolio update under service 1, sheet and sketch
writes under 2 and what the engine commits under 4, and held until its acknowledgement, or logged while the partner is away;
nothing while mirroring is off. While the pair link is parked it waits for the link (R491). -/
def State.mirrorOp (s : State) (iss : Option Ea) (op : MirrorIn) (svc : Nat := 2) : State :=
  if s.mirrorOff then s
  else if s.partnerAway then s.logOp op
  else
    let id := s.pair.nextId
    let s1 := { s with pair := { s.pair with nextId := id + 1, window := s.pair.window ++ [(id, iss, op, s.mirrorDue op)]
                                             turn := s.pair.turn + b2n !bitOf s.pair.groups (op.bay / 4) } }
    (s1.setFld Reg.pairStatus Reg.pairStatus_WINDOW s1.pair.window.length).pairSend (if op.unit = 3 ∨ op.unit = 4 then 1 else svc) op.pf
      (op.writes.map (·.data.length)).sum (.mirror id op)

/-- Whether the window of unacknowledged mirrored operations is full (R405). -/
def State.windowFull (s : State) : Bool := decide (4096 ≤ s.pair.window.length)

/-! ## Leases (R428, R429) -/

/-- LEASE.STATUS.HELD. -/
def State.showLeases (s : State) : State := s.setFld Reg.leaseStatus Reg.leaseStatus_HELD s.leases.length

/-- The lease on a line of a portfolio. -/
def State.leaseOn (s : State) (pf line : Nat) : Option LeaseX := s.leases.find? fun l => l.pf == pf && l.line == line

/-- A lease freed, its staging copy discarded. -/
def State.freeLease (s : State) (pf line : Nat) : State :=
  State.showLeases { s with leases := s.leases.filter fun l => !(l.pf == pf && l.line == line) }

/-- A lease that expires (R428): freed, with pair event 0x09 in the portfolio's home bay, and counted. -/
def State.expireLease (s : State) (pf line : Nat) : State :=
  let p := s.pf pf
  let e := Reg.leaseErr
  let s1 := (((s.freeLease pf line).bump e Reg.leaseErr_EXPIRED).setFld e Reg.leaseErr_EXPEV 1).setFld e Reg.leaseErr_LASTPF pf
  s1.pairEvent 0x09 pf line p.owner p.session [p.home]

/-- Whether bytes of portfolio record `n` from byte `lo` on touch a line under lease. -/
def State.leased (s : State) (n lo len : Nat) : Bool :=
  s.leases.any fun l => l.pf == n && decide (lo < 0x180 + 64 * l.line + 64 ∧ 0x180 + 64 * l.line < lo + len)

/-! ## Portfolio writes (R45, R46, R402, R451) -/

/-- Whether a record breaks a condition of R45 or R402. -/
def State.pfShapeBad (s : State) (p : Pf) : Bool :=
  let me := s.node
  let partner := s.fld Reg.pairStatus Reg.pairStatus_PARTNER
  let k := s.key p.slot
  decide (5 < p.dcode) || decide (p.mode = 3) || decide (8 < p.kpal) || decide (8 < p.vpal)
    || decide (p.cls ≠ p.clsOf) || decide (2097152 < p.size)
    || decide (k.state ≠ 1) || decide (k.owner ≠ p.owner)
    || !s.stackUp p.home
    || p.hanging.any (fun n => decide (0x3FF < n))
    || decide (locTier p.list ≠ 1) || decide (locBay p.list ≠ p.home)
    || decide (pfTop < locAddr p.list + ceilDiv (16 * p.count) 512)
    || (p.hanging.contains me && p.hanging.contains partner)

/-- A portfolio record with its reserved fields zero: they read as zero and ignore writes (R12, R44). -/
def recordOf (bs : List Byte) : List Byte :=
  let w := fun i k n => natBytes 8 (putBits (wordAt bs i) k n 0)
  patch (patch (patch (patch bs 0x8 (w 1 50 13)) 0x10 (w 2 54 10)) 0x20 (w 4 48 16)) 0x90 (List.replicate 0xF0 0)

/-- The mirrored write of a portfolio record as it stands. -/
def State.mirrorRecord (s : State) (iss : Option Ea) (n : Nat) : State :=
  let p := s.pf n
  let a := pfAddr n
  s.mirrorOp iss { pf := n, idx := 0xFFFFFFFF, unit := 3, seq := p.seq, bay := p.home
                   writes := [⟨a, s.stamp (a / 512), s.bytes a 512⟩] }

/-- A write of a portfolio record (R44, R45, R46, R476): `new` is the record as the write leaves it. The conditional form of R46
carries the MIRRORSEQ it expects: no row or descriptor of the spec carries one, so `expect` is none in every write (log entry 115
DESIGN CHOICE). An activation, or a write that leaves an active record active and failing a condition of R45, is refused with
shape, an activation whose slot finds the key store of the home bay full with capacity; one that clears VALID is held to no
condition (log entry 117 DESIGN CHOICE) and ends the record's leases (R428); an accepted write to an active record raises
MIRRORSEQ by one whatever it writes there. -/
def State.writeRecord (s : State) (iss : Option Ea) (n : Nat) (expect : Option Nat) (new : List Byte) : Nat × State :=
  let old := s.pf n
  let new := recordOf new
  let p := decodePf new
  let a := pfAddr n
  let st := a / 512
  let q := s.locWant (n % 16) (pfTop + n / 16)
  let s := if p.valid then s.checkSlot p.slot else s
  if old.valid && expect.any (· ≠ old.seq) then (cSequence, s)
  else if p.valid && s.pfShapeBad p then (cShape, s)
  else if p.valid && !s.slotRoom p.home p.slot then (cCapacity, s)
  else
    let bs := if old.valid then patch new 0x1C (natBytes 4 (old.seq + 1)) else new
    let s1 := s.putStroke st bs q
    let s2 := if p.valid then s1.loadSlot p.home p.slot else s1
    let s3 := if old.valid then s2.trimSlots old.home else s2
    let s4 := if old.valid && !p.valid then (s3.leases.filter (·.pf == n)).foldl (fun u l => u.expireLease n l.line) s3 else s3
    (cDone, s4.mirrorRecord iss n)

/-! ## Sheet-list entries (R49) -/

/-- LOC of a sheet-list entry. -/
def seLoc (e : Nat) : Nat := bitsOf e 0 48
/-- LAYER. -/
def seLayer (e : Nat) : Nat := bitsOf e 48 8
/-- SHEET. -/
def seSheet (e : Nat) : Nat := bitsOf e 56 20
/-- NTOK, at most 256. -/
def seNtok (e : Nat) : Nat := min 256 (bitsOf e 76 9)
/-- SLEN. -/
def seSlen (e : Nat) : Nat := bitsOf e 85 13
/-- UNWRITTEN. -/
def seUnwritten (e : Nat) : Bool := bitOf e 98
/-- COMPRESSED. -/
def seCompressed (e : Nat) : Bool := bitOf e 99
/-- SUSPECT. -/
def seSuspect (e : Nat) : Bool := bitOf e 100
/-- DAMAGED. -/
def seDamaged (e : Nat) : Bool := bitOf e 101

/-- Where entry `idx` of a portfolio's sheet list lies. -/
def Pf.entryAddr (p : Pf) (idx : Nat) : Nat := stackBase p.home + 512 * locAddr p.list + 16 * idx

/-- Entry `idx` of a portfolio's sheet list. -/
def State.listEntry (s : State) (p : Pf) (idx : Nat) : Nat := bytesNat (s.bytes (p.entryAddr idx) 16)

/-- The STATE a catalogue entry takes for a sheet-list entry (R50). One with both UNWRITTEN and DAMAGED set takes valid unwritten,
the first of R50's list. Log entry 118 DESIGN CHOICE. -/
def catStateOf (e : Nat) : Nat :=
  if seUnwritten e then 2 else if seDamaged e then 5 else if seSuspect e then 3 else 1

/-- The search key of a sheet (R52). -/
def sheetKey (owner session layer sheet kind : Nat) : Nat :=
  owner * 2 ^ 64 + session * 2 ^ 32 + layer * 2 ^ 24 + sheet * 2 ^ 4 + kind

/-! ## The catalogue's banks (R51 to R55, R57, R63 to R69) -/

/-- Where entry `n` of bank `k` stands in the tables. -/
def catIdx (k n : Nat) : Nat := k * 2 ^ 22 + n

/-- CAT.STATUS.LIVEBANK. -/
def State.liveBank (s : State) : Nat := s.fld Reg.catStatus Reg.catStatus_LIVEBANK

/-- The copy or clear of the shadow bank that has not reached entry `n` of bank `k` yet, if there is one (R63): every slice is filled
from its first entry on. Log entry 52 DEDUCED. -/
def State.unfilled (s : State) (k n : Nat) : Option CatFill :=
  s.catc.fill.filter fun f => k != s.liveBank && decide (f.per * (s.ec - f.start) ≤ n % s.perSlice)

/-- An entry image as the tier shows it: on LVC48-S CARE reads as all ones (R51). -/
def State.catShow (s : State) (v : BitVec 256) : BitVec 256 :=
  if s.perSlice = 65536 then BitVec.ofNat 256 (putBits v.toNat 80 80 (2 ^ 80 - 1)) else v

/-- Entry `n` of bank `k` (R51, R63). -/
def State.catEnt (s : State) (k n : Nat) : BitVec 256 :=
  let m := match s.unfilled k n with | some f => f.old | none => s.cat
  s.catShow (SMap.get (fun _ => 0) m (catIdx k n))

/-- Whether entry `n` of bank `k` fails its parity check (R63, R68). -/
def State.catBadAt (s : State) (k n : Nat) : Bool :=
  let m := match s.unfilled k n with | some f => f.oldBad | none => s.catBad
  SMap.get (fun _ => false) m (catIdx k n)

/-- Entry `n` of bank `k` written, with sound parity. On LVC48-S CARE reads as all ones; reserved bits are zero
(R12, R51). -/
def State.setCat (s : State) (k n : Nat) (v : BitVec 256) : State :=
  let i := catIdx k n
  let w := s.catShow (BitVec.ofNat 256 (bitsOf v.toNat 0 220))
  match s.unfilled k n with
  | some f =>
    { s with catc := { s.catc with
        fill := some { f with old := SMap.set (fun _ => 0) f.old i w, oldBad := SMap.set (fun _ => false) f.oldBad i false } } }
  | none =>
    { s with cat := SMap.set (fun _ => 0) s.cat i w
             catBad := SMap.set (fun _ => false) s.catBad i false }

/-- A write to the live bank (R57, R63, R66): counted and journalled while a rebuild is Filling or Ready; a full journal
sets JOVF. -/
def State.liveWrite (s : State) (n : Nat) (v : BitVec 256) : State :=
  let s1 := s.setCat s.liveBank n v
  if s1.fld Reg.catStatus Reg.catStatus_STATE = 0 then s1
  else
    let s2 := s1.count Reg.catLivewr Reg.catLivewr_COUNT 1
    if s2.catc.journal.length < 4096 then
      let s3 := { s2 with catc := { s2.catc with journal := s2.catc.journal ++ [n] } }
      s3.setReg Reg.catJrnl (BitVec.ofNat 64 (s3.catc.journal.headD 0 + 2 ^ 31))
    else s2.setFld Reg.catStatus Reg.catStatus_JOVF 1

/-- KEY, CARE, PRI, LOC and STATE of an entry image (R51). -/
def ceKey (v : BitVec 256) : Nat := bf v 0 80
@[inherit_doc ceKey] def ceCare (v : BitVec 256) : Nat := bf v 80 80
@[inherit_doc ceKey] def cePri (v : BitVec 256) : Nat := bf v 160 8
@[inherit_doc ceKey] def ceLoc (v : BitVec 256) : Nat := bf v 168 48
@[inherit_doc ceKey] def ceState (v : BitVec 256) : Nat := bf v 216 4

/-- Whether an entry matches a key under a mask (R53). -/
def ceMatch (v : BitVec 256) (k g : Nat) : Bool :=
  decide (ceState v ≠ 0) && decide (((k ^^^ ceKey v) &&& ceCare v) &&& g = 0)

/-- Whether a slice takes part in searches (R69). -/
def State.sliceUp (s : State) (b : Nat) : Bool := bitOf (s.fld Reg.catStatus Reg.catStatus_SLICEUP) b

/-- The matching entries of the live bank in the slices that take part, in entry order. -/
def State.catMatches (s : State) (k g : Nat) : List (Nat × BitVec 256) :=
  s.cat.filterMap fun e =>
    let n := e.1 % 2 ^ 22
    if e.1 / 2 ^ 22 = s.liveBank ∧ n < s.catEntries ∧ s.sliceUp (n / s.perSlice) ∧ ceMatch e.2 k g then some (n, e.2)
    else none

/-- The winner of matching entries (R54): the highest PRI, then the lowest number. -/
def catWinner : List (Nat × BitVec 256) → Option (Nat × BitVec 256)
  | [] => none
  | e :: l =>
    match catWinner l with
    | none => some e
    | some f => if cePri e.2 < cePri f.2 then some f else some e

/-- The two result words of a search (R55, R68, R69). -/
def State.searchWords (s : State) (k g : Nat) : Word × Word :=
  let partialBit := if (List.range 16).all s.sliceUp then 0 else 2 ^ 62
  let ms := s.catMatches k g
  match catWinner ms with
  | none => (BitVec.ofNat 64 partialBit, 0)
  | some (n, v) =>
    let multi := if 1 < ms.length then 2 ^ 61 else 0
    let w0 :=
      if s.catBadAt s.liveBank n then 2 ^ 60 + multi + partialBit + 2 ^ 63
      else ceLoc v + cePri v * 2 ^ 48 + ceState v % 16 * 2 ^ 56 + 2 ^ 60 + multi + partialBit
    (BitVec.ofNat 64 w0, BitVec.ofNat 64 n)

/-- The live catalogue entry rewritten for a sheet-list entry (R50, R317): only where the winner of the sheet's key has just
that key and a CARE of all ones, and passes its check; otherwise nothing, and the answer is true (NOCAT). -/
def State.catFollow (s : State) (p : Pf) (e : Nat) : Bool × State :=
  let k := sheetKey p.owner p.session (seLayer e) (seSheet e) 0
  match catWinner (s.catMatches k (2 ^ 80 - 1)) with
  | some (n, v) =>
    if ceKey v = k ∧ ceCare v = 2 ^ 80 - 1 ∧ s.catBadAt s.liveBank n = false then
      (false, s.liveWrite n (BitVec.ofNat 256 (putBits (putBits v.toNat 168 48 (seLoc e)) 216 4 (catStateOf e))))
    else (true, s)
  | none => (true, s)

/-- The state of the catalogue's winner for a sheet (R59, R97: blocked). -/
def State.catBlocked (s : State) (p : Pf) (e : Nat) : Bool :=
  match catWinner (s.catMatches (sheetKey p.owner p.session (seLayer e) (seSheet e) 0) (2 ^ 80 - 1)) with
  | some (_, v) => decide (ceState v = 4)
  | none => false

/-- A sheet-list entry written by the C48 (R50, R286): the entry first, the live catalogue entry second; the answer is NOCAT. The
bytes of the entry are part of a stroke of the home stack, which is read, checked, merged and sealed anew. A base that fails its
check is taken from the partner's copy, which mirroring keeps equal to this node's; while no partner copy can be fetched nothing
is written. Log entry 128 DEDUCED. -/
def State.putEntry (s : State) (p : Pf) (idx e : Nat) : Bool × State :=
  let a := p.entryAddr idx
  let addr := a % 2 ^ 64 / 512
  let q := s.locWant p.home addr
  let (ok, s0) := s.check (a / 512) q 0
  if !ok && s.partnerAway then (false, s0)
  else ((((s0.setBytes a (natBytes 16 e)).setStamp (a / 512) q).setErrs (a / 512) 0).pbAdd p.home addr).catFollow p e

/-- The mirrored write of a sheet-list entry as it stands (R403). -/
def State.mirrorEntry (s : State) (iss : Option Ea) (pf : Nat) (p : Pf) (idx : Nat) (svc : Nat := 2) : State :=
  let a := p.entryAddr idx
  s.mirrorOp iss { pf, idx, unit := 2, seq := p.seq, bay := p.home, writes := [⟨a, s.stamp (a / 512), s.bytes a 16⟩] } svc

/-! ## Handles (R74, R128 to R131, R138) -/

/-- The code a handle or an attention step is refused with for its portfolio (R131, R138, R451), or done. -/
def State.pfCode (s : State) (n : Nat) (p : Pf) : Nat :=
  if !s.stackUp (n % 16) then cUnavailable
  else if !p.valid then cNoSession
  else
    let k := s.key p.slot
    if k.state = 1 then
      if k.owner ≠ p.owner then cNoSession else if s.slotLoaded p.home p.slot then cDone else cKey
    else cKey

/-- What stroke `i` of a sheet is sealed under (R36, R278). -/
def State.sheetSeal (s : State) (p : Pf) (e i : Nat) : Seal :=
  .key (s.key p.slot).kid (handleTweak p.owner p.session (seLayer e) (seSheet e) i)

/-- Where stroke `i` of a sheet lies in memory, over 512. -/
def sheetStroke (e i : Nat) : Nat := locMem (seLoc e) / 512 + i

/-- The bytes of a raw image that belong to a token slot below NTOK (R39, R41). -/
def Pf.present (p : Pf) (ntok a : Nat) : Bool :=
  let kb := 256 * p.kv * p.bk
  if a < kb then decide (a / p.bk % 256 < ntok)
  else if a < p.size then decide ((a - kb) / p.bv % 256 < ntok)
  else false

/-- Whether stroke `i` of an uncompressed image holds no byte of a present token (R41). -/
def Pf.absentStroke (p : Pf) (ntok i : Nat) : Bool := (List.range 512).all fun j => !p.present ntok (512 * i + j)

/-- The bytes of an uncompressed image's stroke with those of absent slots as zero (R41). -/
def Pf.maskAbsent (p : Pf) (ntok i : Nat) (bs : List Byte) : List Byte :=
  bs.mapIdx fun j b => if p.present ntok (512 * i + j) then b else 0

/-- Whether stroke `i` of a sheet lies in a CLEAR or DETONLY region (R289). -/
def State.inRegion (s : State) (e i : Nat) : Bool :=
  if locTier (seLoc e) = 1 then
    let r := s.regionAt (locBay (seLoc e)) (locAddr (seLoc e) + i)
    r.1 || r.2
  else false

/-- Stroke `i` of a sheet read by handle (R41, R61, R130, R286): zeros for a stroke beyond SLEN + Ns, of an unwritten sheet
or with no present token; none in a CLEAR or DETONLY region (R289); otherwise its bytes where it passes its check, or the partner's
where `part` lists it. -/
def State.readSheet (s : State) (p : Pf) (e i : Nat) (part : PartnerCopies) : Option (List Byte) × State :=
  let zeros : List Byte := List.replicate 512 0
  if seSlen e + p.ns ≤ i ∨ seUnwritten e then (some zeros, s)
  else if !seCompressed e && decide (i < seSlen e) && p.absentStroke (seNtok e) i then (some zeros, s)
  else if s.inRegion e i then (none, s)
  else
    let g := sheetStroke e i
    let (ok, s1) := s.check g (s.sheetSeal p e i) 0
    let raw := if ok then some (s1.bytes (512 * g) 512) else if s.partnerAway then none else (part.lookup i).map (fitTo 512 0)
    (raw.map fun bs => if seCompressed e || decide (seSlen e ≤ i) then bs else p.maskAbsent (seNtok e) i bs, s1)

/-- `n` strokes of a sheet read by handle from stroke `i` on. -/
def State.readSheets (s : State) (p : Pf) (e : Nat) (part : PartnerCopies) : Nat → Nat → List (Option (List Byte)) × State
  | 0, _ => ([], s)
  | n + 1, i =>
    let (b, s1) := s.readSheet p e i part
    let (bs, s2) := s1.readSheets p e part n (i + 1)
    (b :: bs, s2)

/-- Strokes of a sheet written by handle: (stroke, bytes). -/
def State.putSheet (s : State) (p : Pf) (e : Nat) (ws : List (Nat × List Byte)) : State :=
  ws.foldl (fun u w => u.putStroke (sheetStroke e w.1) w.2 (u.sheetSeal p e w.1)) s

/-- The mirrored write of strokes of a sheet as they stand (R403). -/
def State.mirrorStrokes (s : State) (iss : Option Ea) (pf : Nat) (p : Pf) (idx e : Nat) (is : List Nat) (svc : Nat := 2) : State :=
  let wr := fun i => let g := sheetStroke e i
    (⟨512 * g, s.stamp g, s.bytes (512 * g) 512⟩ : MWrite)
  let op := fun unit (l : List Nat) (u : State) =>
    if l.isEmpty then u
    else u.mirrorOp iss { pf, idx, unit, seq := p.seq, bay := p.home, writes := l.map wr } svc
  op 1 (is.filter fun i => decide (seSlen e ≤ i)) (op 0 (is.filter fun i => decide (i < seSlen e)) s)

/-- A sheet unit logged because a stroke or block failed its check while the partner is away (R573). -/
def State.logDamage (s : State) (pf : Nat) (p : Pf) (idx unit : Nat) : State := s.logUnit p.home ⟨pf, idx, unit, p.seq⟩

/-- A sheet found damaged on both copies (R31, R71): its entry and its catalogue entry are marked; while the partner is away
the unit is logged and nothing is marked (R573). -/
def State.markDamaged (s : State) (pf : Nat) (p : Pf) (idx e unit : Nat) : State :=
  if s.partnerAway then s.logDamage pf p idx unit
  else if seDamaged e then s
  else ((s.putEntry p idx (e + 2 ^ 101)).2).mirrorEntry none pf p idx

/-- The entry of a sheet once its first stroke is written (R62): UNWRITTEN cleared. -/
def written (e : Nat) : Nat := if seUnwritten e then e - 2 ^ 98 else e

/-- The token slot a write of `t` may take (R42): the NTOK it leaves, or none where it is refused. -/
def tokAccept (ntok t : Nat) : Option Nat := if t ≤ ntok ∧ t ≤ 255 then some (if t = ntok then t + 1 else ntok) else none

/-- The bytes a token's key and value vectors take in the raw image (R39): (image byte, position in the KV × (Bk + Bv) bytes
written, length), keys first, head by head. -/
def Pf.tokRanges (p : Pf) (t : Nat) : List (Nat × Nat × Nat) :=
  ((List.range p.kv).map fun h => ((h * 256 + t) * p.bk, h * p.bk, p.bk)) ++
    ((List.range p.kv).map fun h => (256 * p.kv * p.bk + (h * 256 + t) * p.bv, p.kv * p.bk + h * p.bv, p.bv))

/-- Merge of byte runs into strokes: for every stroke of `is`, its base with every range of `rs` that meets it laid over. -/
def overlay (rs : List (Nat × List Byte)) (i : Nat) (base : List Byte) : List Byte :=
  base.mapIdx fun j b =>
    let a := 512 * i + j
    match rs.find? fun r => decide (r.1 ≤ a ∧ a < r.1 + r.2.length) with
    | some r => r.2.getD (a - r.1) b
    | none => b

/-- The strokes byte runs touch, in order. -/
def touched (rs : List (Nat × List Byte)) : List Nat :=
  (rs.flatMap fun r => (List.range (ceilDiv (r.1 % 512 + r.2.length) 512)).map fun i => r.1 / 512 + i).eraseDups

/-- Whether every byte of stroke `i` is overlaid. -/
def coversStroke (rs : List (Nat × List Byte)) (i : Nat) : Bool :=
  (List.range 512).all fun j => rs.any fun r => decide (r.1 ≤ 512 * i + j ∧ 512 * i + j < r.1 + r.2.length)

/-- A write to a sheet noted for the engine operation that may be running on it (R183, R319). Log entry 48 DEDUCED. -/
def State.noteWrite (s : State) (b pf idx : Nat) : State :=
  s.updBay b fun y => { y with engine := y.engine.map fun g => { g with dirty := g.dirty ++ [pf * 2 ^ 32 + idx] } }

/-- Byte runs written into a sheet's stored image by handle (R42, R50, R62, R229, R286): false where the base of a part stroke
fails on every copy, and then nothing is written. The entry's image must be raw. The sheet-list entry becomes `e'`, and strokes
and entry are mirrored. Log entry 48 DEDUCED. -/
def State.writeSheet (s : State) (iss : Option Ea) (pf : Nat) (p : Pf) (idx e e' : Nat) (rs : List (Nat × List Byte))
    (part : PartnerCopies) : Bool × State :=
  let go := (touched rs).foldl (fun (acc : Option (List (Nat × List Byte)) × State) i =>
    match acc with
    | (none, u) => (none, u)
    | (some l, u) =>
      if coversStroke rs i then (some (l ++ [(i, overlay rs i (List.replicate 512 0))]), u)
      else
        match u.readSheet p e i part with
        | (none, u1) => (none, u1)
        | (some b, u1) => (some (l ++ [(i, overlay rs i b)]), u1)) (some [], s)
  match go with
  | (none, s1) => (false, s1)
  | (some ws, s1) =>
    let s2 := (s1.putSheet p e' ws).noteWrite p.home pf idx
    let s3 := if e' = e then s2 else (s2.putEntry p idx e').2
    let s4 := s3.mirrorStrokes iss pf p idx e' (ws.map (·.1))
    (true, if e' = e then s4 else s4.mirrorEntry iss pf p idx)

end Sys2Proof.Machine
end

