-- ==== Sys2Proof/Machine/Attn.lean ====
section
/-! DEFINITION. Washes, the attention update, glazing and the sketch bound (R191 to R209, R228 to R241): arithmetic only, no
state. -/

namespace Sys2Proof.Machine

/-! ## Rounding toward +∞ -/

/-- An exact value rounded to FP32 toward +∞. -/
def upFp : Fp → Nat
  | .fin true m e => fp32.signBit true + min (fp32.magCode .down m 1 e) (fp32.infCode - 1)
  | v => toFp32 .up v

/-- up(a + b) on FP32 bits. -/
def addUp (a b : Nat) : Nat := upFp ((ofFp32 a).add (ofFp32 b))
/-- up(a - b). -/
def subUp (a b : Nat) : Nat := upFp ((ofFp32 a).add (ofFp32 b).neg)
/-- up(a × b). -/
def mulUp (a b : Nat) : Nat := upFp ((ofFp32 a).mul (ofFp32 b))

/-- The next FP32 value above a non-negative one. -/
def nextUp (a : Nat) : Nat := if a < fp32.infCode then a + 1 else a

/-- ⌊√n⌋ below 2^k. -/
def isqrt : Nat → Nat → Nat → Nat
  | 0, _, r => r
  | k + 1, n, r => if (r + 2 ^ k) * (r + 2 ^ k) ≤ n then isqrt k n (r + 2 ^ k) else isqrt k n r

/-- up(√a) of an FP32 value that is not negative. -/
def sqrtUp (a : Nat) : Nat :=
  match ofFp32 a with
  | .fin false m e =>
    let odd : Bool := e % 2 ≠ 0
    let n := (if odd then 2 * m else m) * 2 ^ 64
    let e' := ((if odd then e - 1 else e) - 64) / 2
    let r := isqrt 64 n 0
    if r * r = n then upFp (.fin false r e') else upFp (.fin false (2 * r + 1) (e' - 1))
  | v => upFp v

/-- FP32 bits rounded to BF16 to nearest-even, as FP32 bits. -/
def bf16Of (a : Nat) : Nat := encUnscaled 0x1 .near a * 65536

/-! ## Washes (R195 to R200) -/

/-- A wash. -/
structure Wash where
  m : Nat
  l : Nat
  s : Nat
  tokens : Nat
  sheets : Nat
  skipped : Nat
  flags : Nat
  seq : Nat
  damaged : Nat
  head : Nat
  tokidx : Nat
  part : Nat
  body : List Nat
  deriving DecidableEq, Repr

/-- FP32 −∞. -/
abbrev negInf : Nat := 0xFF800000
/-- FP32 +∞. -/
abbrev posInf : Nat := 0x7F800000
/-- The NaN of R167. -/
abbrev qNan : Nat := 0x7FC00000

/-- Bytes of a wash. -/
abbrev washSize : Nat := 544

/-- A wash read from its bytes (R195, R196). -/
def washOf (bs : List Byte) : Wash :=
  let w0 := wordAt bs 0
  let w1 := wordAt bs 1
  let w2 := wordAt bs 2
  let w3 := wordAt bs 3
  { m := bitsOf w0 0 32, l := bitsOf w0 32 32, s := bitsOf w1 0 32, tokens := bitsOf w1 32 32, sheets := bitsOf w2 0 24
    skipped := bitsOf w2 24 24, flags := bitsOf w2 48 16, seq := bitsOf w3 0 32, damaged := bitsOf w3 32 16
    head := bitsOf w3 48 9, tokidx := bitsOf w3 57 2, part := bitsOf w3 59 1
    body := (List.range 128).map fun i => leAt bs (32 + 4 * i) 4 }

/-- The bytes of a wash; reserved bits are produced as 0 (R197). -/
def Wash.bytes (w : Wash) : List Byte :=
  natBytes 8 (w.m + w.l * 2 ^ 32) ++ natBytes 8 (w.s + w.tokens * 2 ^ 32)
    ++ natBytes 8 (w.sheets + w.skipped * 2 ^ 24 + (w.flags &&& 0xF1FF) * 2 ^ 48)
    ++ natBytes 8 (w.seq + w.damaged * 2 ^ 32 + w.head * 2 ^ 48 + w.tokidx * 2 ^ 57 + w.part * 2 ^ 59)
    ++ w.body.flatMap (natBytes 4)

/-- The blank wash of R200. -/
def blankWash : Wash :=
  { m := negInf, l := 0, s := 0, tokens := 0, sheets := 0, skipped := 0, flags := 0, seq := 0, damaged := 0, head := 0
    tokidx := 0, part := 0, body := List.replicate 128 0 }

/-- The flags of R197 by bit. -/
abbrev flDamage : Nat := 0
@[inherit_doc flDamage] abbrev flNan : Nat := 1
@[inherit_doc flDamage] abbrev flInf : Nat := 2
@[inherit_doc flDamage] abbrev flMalformed : Nat := 3
@[inherit_doc flDamage] abbrev flSeqmix : Nat := 4
@[inherit_doc flDamage] abbrev flIdmix : Nat := 5
@[inherit_doc flDamage] abbrev flPartner : Nat := 6
@[inherit_doc flDamage] abbrev flSuspect : Nat := 7
@[inherit_doc flDamage] abbrev flSat : Nat := 8

/-- A flag set where `c` holds. -/
def Wash.mark (w : Wash) (f : Nat) (c : Bool) : Wash := if c then { w with flags := w.flags ||| 2 ^ f } else w

/-- Whether a value is NaN, is infinite, is nonzero. -/
def isNanBits (a : Nat) : Bool := (ofFp32 a).isNan
@[inherit_doc isNanBits] def isInfBits (a : Nat) : Bool := a % 2 ^ 31 == fp32.infCode
@[inherit_doc isNanBits] def nonzero (a : Nat) : Bool := a % 2 ^ 31 != 0

/-- Whether two FP32 values that are not NaN are equal: +0 equals −0. -/
def sameFp (a b : Nat) : Bool := decide (a = b) || (!nonzero a && !nonzero b)

/-- The conditions of R198. -/
inductive WashCond where
  | poisoned | infinite | malformed | empty | valid
  deriving DecidableEq, Repr

/-- The condition of a wash, tested in the order of R198. -/
def Wash.cond (w : Wash) : WashCond :=
  if bitOf w.flags flNan || isNanBits w.m || isNanBits w.l || isNanBits w.s || w.body.any isNanBits then .poisoned
  else if decide (w.m = posInf) || isInfBits w.l || w.body.any isInfBits then .infinite
  else if (fNeg w.l && nonzero w.l) || (fNeg w.s && nonzero w.s)
      || (decide (w.m = negInf) && (nonzero w.l || nonzero w.s || w.body.any nonzero)) then .malformed
  else if w.m = negInf then .empty
  else .valid

/-- Whether a wash is blank (R198). -/
def Wash.blank (w : Wash) : Bool :=
  decide (w.cond = .empty) && decide (w.tokens = 0) && decide (w.sheets = 0) && decide (w.skipped = 0)
    && decide (w.damaged = 0) && decide (w.flags = 0)

/-- The poison of R199: counts, SEQ, identity and other flags stay. -/
def Wash.poison (w : Wash) : Wash :=
  ({ w with m := qNan, l := qNan, s := qNan, body := List.replicate 128 qNan }).mark flNan true

/-- The poison a wash of a bad condition comes to (R198, R204); any other wash as it is. -/
def Wash.condPoison (w : Wash) : Wash :=
  match w.cond with
  | .poisoned => w.poison
  | .infinite => w.poison.mark flInf true
  | .malformed => w.poison.mark flMalformed true
  | _ => w

/-- A count raised, saturating at `w` bits, with SAT on saturation. -/
def satAdd (w a b : Nat) : Nat × Bool := if a + b < 2 ^ w then (a + b, false) else (2 ^ w - 1, true)

/-- TOKENS raised by `n` and SHEETS by one (R202, R203). -/
def Wash.read (w : Wash) (n : Nat) : Wash :=
  let t := satAdd 32 w.tokens n
  let h := satAdd 24 w.sheets 1
  ({ w with tokens := t.1, sheets := h.1 }).mark flSat (t.2 || h.2)

/-- DAMAGED raised, DAMAGE set (R205). -/
def Wash.leaveOut (w : Wash) : Wash :=
  let d := satAdd 16 w.damaged 1
  (({ w with damaged := d.1 }).mark flSat d.2).mark flDamage true

/-! ## The update by one sheet (R202, R203) -/

/-- Whether the accumulator of `macGroups`, one of its groups or one of its accumulations is infinite (R203). -/
def macInf : Nat → Nat → List Fp → Bool
  | 0, acc, _ => isInfBits acc
  | n + 1, acc, ps =>
    let g := toFp32 .near (Fp.sum (ps.take 32))
    isInfBits acc || (!ps.isEmpty && (isInfBits g || macInf n (fAdd acc g) (ps.drop 32)))

/-- One read sheet brought into a wash: the scores of its slots (−∞ from NTOK on), the token count, and the values of each
body element. -/
def Wash.update (w : Wash) (n : Nat) (sc : List Nat) (vals : List (List Fp)) : Wash :=
  let r := w.read n
  if bitOf w.flags flNan then r
  else
    let present := sc.take n
    if present.any (fun a => isNanBits a || decide (a = posInf)) then
      r.poison.mark flInf (present.contains posInf)
    else
      let mj := sc.foldl fMax negInf
      let m1 := fMax w.m mj
      let a := if m1 = negInf ∨ w.m = negInf then 0 else fExp2 (fSub w.m m1)
      let sa :=
        if m1 = negInf ∨ w.m = negInf then 0 else if sameFp w.m m1 then 0x3F800000 else nextUp (fExp2 (subUp w.m m1))
      let ws := sc.map fun x => if x = negInf then 0 else bf16Of (fExp2 (fSub x m1))
      let wv := ws.map ofFp32
      let l := macGroups (wv.length + 1) (fMul a w.l) wv
      let o := (w.body.zip vals).map fun (b, vs) => if vs.isEmpty then 0 else macDot (fMul a b) wv vs
      let s := mulUp sa w.s
      if isNanBits l || o.any isNanBits || isInfBits l || o.any isInfBits then
        r.poison.mark flInf (macInf (wv.length + 1) (fMul a w.l) wv || (w.body.zip vals).any fun (b, vs) =>
          !vs.isEmpty && macInf (wv.length + 1) (fMul a b) ((wv.zip vs).map fun (x, y) => x.mul y))
      else { r with m := m1, l, s, body := o }

/-! ## Glazing (R208, R209) -/

/-- factor() of R208. -/
def glazeFactor (mi m : Nat) : Nat := if mi = negInf then 0 else if sameFp mi m then 0x3F800000 else fExp2 (fSub mi m)
/-- sfactor() of R208. -/
def glazeSFactor (mi m : Nat) : Nat :=
  if mi = negInf then 0 else if sameFp mi m then 0x3F800000 else nextUp (fExp2 (subUp mi m))

/-- The header of a glaze (R209): counts summed, flags joined, identity from the destination unless it is blank. -/
def glazeHeader (d x : Wash) : Wash :=
  let t := satAdd 32 d.tokens x.tokens
  let h := satAdd 24 d.sheets x.sheets
  let k := satAdd 24 d.skipped x.skipped
  let g := satAdd 16 d.damaged x.damaged
  let id := if d.blank then x else d
  let both := !d.blank && !x.blank
  let w := { id with tokens := t.1, sheets := h.1, skipped := k.1, damaged := g.1, flags := d.flags ||| x.flags }
  ((w.mark flSat (t.2 || h.2 || k.2 || g.2)).mark flSeqmix (both && decide (d.seq ≠ x.seq))).mark flIdmix
    (both && (decide (d.head ≠ x.head) || decide (d.tokidx ≠ x.tokidx) || decide (d.part ≠ x.part)))

/-- Whether a wash poisons a glaze (R198). -/
def Wash.bad (w : Wash) : Bool :=
  match w.cond with
  | .poisoned | .infinite | .malformed => true
  | _ => false

/-- GLAZE of source `x` into destination `d` (R208, R209). -/
def glazeWash (d x : Wash) : Wash :=
  let h := glazeHeader d x
  if d.bad || x.bad then
    (h.poison.mark flInf (decide (d.cond = .infinite) || decide (x.cond = .infinite))).mark flMalformed
      (decide (d.cond = .malformed) || decide (x.cond = .malformed))
  else
    let m := fMax d.m x.m
    let fd := glazeFactor d.m m
    let fx := glazeFactor x.m m
    let l := fFma fx x.l (fMul fd d.l)
    let o := (d.body.zip x.body).map fun (a, b) => fFma fx b (fMul fd a)
    let s := addUp (mulUp (glazeSFactor d.m m) d.s) (mulUp (glazeSFactor x.m m) x.s)
    if isInfBits l || o.any isInfBits then h.poison.mark flInf true
    else if m = negInf then { h with m := negInf, l := 0, s := 0, body := List.replicate 128 0 }
    else { h with m, l, s, body := o }

/-! ## Skipping (R241) -/

/-- up(256 × bf16(exp2(up(b − m)))). -/
def skipWeight (b m : Nat) : Nat := mulUp 0x43800000 (bf16Of (fExp2 (subUp b m)))

/-- The smallest running maximum of the washes; −∞ while one is numerically empty or poisoned. -/
def minMax (ws : List Wash) : Nat :=
  if ws.any (fun w => bitOf w.flags flNan || decide (w.m = negInf)) then negInf
  else ws.foldl (fun a w => fMin a w.m) posInf

/-- Whether a ranked sheet with bound `b` is skipped, and whether it is read only because of the bound target. -/
def skipTest (ws : List Wash) (b tau mode tgt : Nat) : Bool × Bool :=
  if mode = 1 then (false, false)
  else
    let tauF := toFp32 .near (.fin false tau 0)
    let low := (ofFp32 (addUp b tauF)).lt (ofFp32 (minMax ws))
    if low ∧ mode = 2 then
      let ok := ws.all fun w =>
        let cap := match ofFp32 w.l with
          | .fin n m e => toFp32 .down (.fin n m (e - (tgt + 1)))
          | v => toFp32 .near v
        !((ofFp32 cap).lt (ofFp32 (addUp w.s (skipWeight b w.m))))
      (ok, !ok)
    else (low, false)

/-- A wash of a skipped sheet (R205, R241). -/
def Wash.skip (w : Wash) (b : Nat) : Wash :=
  let k := satAdd 24 w.skipped 1
  ({ w with s := addUp w.s (skipWeight b w.m), skipped := k.1 }).mark flSat k.2

/-! ## Sketches (R228, R230, R236) -/

/-- Whether a radius is a positive finite FP16 value. -/
def radiusOk (r : Nat) : Bool := decide (1 ≤ r ∧ r ≤ 0x7BFF)

/-- Whether the radii of a sketch set's bytes are all valid. -/
def radiiOk (kv : Nat) (bs : List Byte) : Bool := (List.range kv).all fun h => radiusOk (leAt bs (2 * h) 2)

/-- The bound b of one query vector and one head's sketch; +∞ where a step overflows or yields NaN. -/
def sketchBound (q c : List Fp) (r : Nat) : Nat :=
  let qc := upFp (Fp.sum ((q.zip c).map fun (a, b) => a.mul b))
  let nq := sqrtUp (upFp (Fp.sum (q.map fun a => a.mul a)))
  let nc := sqrtUp (upFp (Fp.sum (c.map fun a => a.mul a)))
  let rf := toFp32 .near (fp16.decode r)
  let e := addUp rf (mulUp 0x35800000 (addUp nc rf))
  let b := addUp (addUp qc (mulUp nq e)) (toFp32 .near (.fin false 1 (-140)))
  if [qc, nq, nc, e, mulUp nq e, b].any (fun a => isNanBits a || isInfBits a) then posInf else b

/-- The greater of two bounds. -/
def boundMax (a b : Nat) : Nat := if (ofFp32 a).lt (ofFp32 b) then b else a

/-- A bound as a number that orders it: −0 and +0 are equal. -/
def boundKey (b : Nat) : Nat :=
  let a := if b % 2 ^ 31 = 0 then 0 else b % 2 ^ 32
  if bitOf a 31 then 2 ^ 32 - 1 - a else a + 2 ^ 31

/-- A rank entry put into a list in descending order of bound, equal bounds by ascending index (R238). -/
def rankInsert (e : Nat × Nat) : List (Nat × Nat) → List (Nat × Nat)
  | [] => [e]
  | f :: l => if boundKey f.2 < boundKey e.2 then e :: f :: l else f :: rankInsert e l

/-- Rank entries in order (R238): (staged index, bound), given in ascending index order. -/
def rankSort (l : List (Nat × Nat)) : List (Nat × Nat) := l.foldl (fun r e => rankInsert e r) []

/-! ## Compressed images (R175, R178) -/

/-- The blocks of a compressed image in order (R178): (table, TSLOT, raw bytes, BLOCKNO). -/
def imageBlocks (p : Pf) : List (Bool × Nat × Nat × Nat) :=
  let k := 256 * p.kv * p.bk
  let v := p.size - k
  let nk := ceilDiv k 4096
  let cut := fun slot total first =>
    (List.range (ceilDiv total 4096)).map fun i => (false, slot, min 4096 (total - 4096 * i), first + i)
  [(true, 0, 0, 0), (true, 1, 0, 0)] ++ cut 0 k 0 ++ cut 1 v nk

/-- Whether a block's header is that of its place in the list of R178. -/
def blockFits (h : BlockHdr) (want : Bool × Nat × Nat × Nat) : Bool :=
  let (tab, slot, raw, no) := want
  if tab then decide (h.kind = 3) && decide (h.tslot = slot)
  else decide (h.kind < 3) && decide (h.rawlen = raw) && decide (h.blockno = no)
    && (decide (h.kind ≠ 0) || decide (h.tslot = slot))

/-- What a compressed image expands to: its raw bytes, or the number and cause of its first damaged block and the byte of the
image it begins at. -/
inductive ImageRes where
  | raw (bs : List Byte)
  | damaged (blockno cause off : Nat)
  deriving DecidableEq, Repr

/-- The blocks of a compressed image expanded one after another, each at the next 64-byte boundary (R175, R178); `off` is the
byte the first one begins at. Log entry 100 DEDUCED. -/
def expandRun (off : Nat) : List (Bool × Nat × Nat × Nat) → List (Nat × List Nat) → List Byte → ImageRes
  | [], _, _ => .raw []
  | want :: l, slots, bs =>
    let h := blockHdr bs
    let n := ceilDiv h.clen 64 * 64
    if bs.length < 32 then .damaged want.2.2.2 3 off
    else
    match expandBlock slots bs with
    | .damaged c => .damaged want.2.2.2 c off
    | .table slot tid lens =>
      if blockFits h want then expandRun (off + n) l (putAt slots slot (tid, lens)) (bs.drop n)
      else .damaged want.2.2.2 3 off
    | .data raw =>
      if blockFits h want then
        match expandRun (off + n) l slots (bs.drop n) with
        | .raw rest => .raw (raw ++ rest)
        | d => d
      else .damaged want.2.2.2 3 off

/-- A compressed image expanded (R178). -/
def expandImage (p : Pf) (bs : List Byte) : ImageRes :=
  expandRun 0 (imageBlocks p) (List.replicate 4 (0, [])) bs

/-- The keys region of a compressed image expanded, from its two tables and keys blocks alone. -/
def expandKeys (p : Pf) (bs : List Byte) : ImageRes :=
  expandRun 0 ((imageBlocks p).take (2 + ceilDiv (256 * p.kv * p.bk) 4096)) (List.replicate 4 (0, [])) bs

/-! ## Heads of a raw image (R39) -/

/-- The exact values of the key vector of head `h` and slot `t`. -/
def Pf.keyVec (p : Pf) (img : List Byte) (h t : Nat) : List Fp :=
  palRun p.kpal p.d ((img.drop ((h * 256 + t) * p.bk)).take p.bk)

/-- The exact values of the value vector of head `h` and slot `t`. -/
def Pf.valVec (p : Pf) (img : List Byte) (h t : Nat) : List Fp :=
  palRun p.vpal p.d ((img.drop (256 * p.kv * p.bk + (h * 256 + t) * p.bv)).take p.bv)

end Sys2Proof.Machine
end

