-- ==== Sys2Proof/Machine/Heat.lean ====
section
/-! DEFINITION. The heat tables (R309 to R312, R336) and the flash channels as the engine uses them (R328, R333, R340). -/

namespace Sys2Proof.Machine

/-! ## Heat tables -/

/-- The heat table of a bay. -/
def State.heatOf (s : State) (b : Nat) : HeatX := SMap.get (fun _ => {}) s.heat b

/-- The heat table of a bay set, and BAY.HEAT.STATUS.USED with it. -/
def State.setHeat (s : State) (b : Nat) (h : HeatX) : State :=
  State.setFld { s with heat := SMap.set (fun _ => {}) s.heat b h } (Reg.bayHeatStatus b) Reg.bayHeatStatus_USED
    (h.ents.filter fun e : Nat × HeatEnt => e.2.used).length

/-- The tick counter of a bay. -/
def State.heatTick (s : State) (b : Nat) : Nat := s.fld (Reg.bayHeatStatus b) Reg.bayHeatStatus_TICK

/-- The effective count of an entry (R311). -/
def HeatEnt.eff (e : HeatEnt) (tick : Nat) : Nat :=
  if e.used then e.count / 2 ^ min 16 ((tick + 2 ^ 32 - e.stamp) % 2 ^ 32) else 0

/-- The set of a sheet (R309). -/
def heatSet (pf idx : Nat) : Nat := (idx + 1021 * pf) % 16384

/-- Way `w` of a set. -/
def HeatX.way (h : HeatX) (set w : Nat) : HeatEnt := SMap.get (fun _ => {}) h.ents (4 * set + w)

/-- Way `w` of a set put. -/
def HeatX.put (h : HeatX) (set w : Nat) (e : HeatEnt) : HeatX :=
  { h with ents := SMap.set (fun _ => {}) h.ents (4 * set + w) e }

/-- The way that holds a sheet. -/
def HeatX.find (h : HeatX) (pf idx : Nat) : Option Nat :=
  lowestIdx 4 fun w => let e := h.way (heatSet pf idx) w; e.used && e.pf == pf && e.idx == idx

/-- The way with the lowest effective count, ties to the lowest way (R310). -/
def HeatX.victim (h : HeatX) (set tick : Nat) : Nat :=
  (List.range 4).foldl (fun b w => if (h.way set w).eff tick < (h.way set b).eff tick then w else b) 0

/-- An access to a sheet counted in its home bay's table (R309, R310, R312). -/
def State.heatAccess (s : State) (b pf idx : Nat) : State :=
  if s.fld (Reg.bayHeatCtrl b) Reg.bayHeatCtrl_ENABLE = 0 then s
  else
    let h := s.heatOf b
    let tick := s.heatTick b
    let set := heatSet pf idx
    let th := s.fld (Reg.bayHeatCtrl b) Reg.bayHeatCtrl_THRESH
    let (n, s1) :=
      match h.find pf idx with
      | some w =>
        let n := min 65535 ((h.way set w).eff tick + 1)
        (if (h.way set w).eff tick = n then 0 else n,
          s.setHeat b (h.put set w { used := true, pf, idx, count := n, stamp := tick }))
      | none =>
        let w := h.victim set tick
        let s1 := s.setHeat b (h.put set w { used := true, pf, idx, count := 1, stamp := tick })
        (1, if 0 < (h.way set w).eff tick then s1.bump (Reg.bayHeatEvict b) Reg.bayHeatEvict_COUNT else s1)
    if th ≠ 0 ∧ n = th then s1.event b 0x50 (BitVec.ofNat 64 (pf + idx % 2 ^ 32 * 2 ^ 32)) else s1

/-- HEAT_TICK (R311): the tick counter of a bay advances at its HALFLIFE. -/
def execHeatTick (bay : Nat) (s : State) : Host.Outcome State Fault Refusal :=
  guarded (decide (bay < 16)) s fun s =>
    let h := s.heatOf bay
    let due := h.tickAt + s.fld (Reg.bayHeatCtrl bay) Reg.bayHeatCtrl_HALFLIFE
    let s1 := s.passTo (96 * due)
    (s1.setHeat bay { h with tickAt := due }).count (Reg.bayHeatStatus bay) Reg.bayHeatStatus_TICK 1

/-- HEAT_SWEEP_STEP (R311): the sweep restamps one set and frees its entries of count 0. -/
def execHeatSweepStep (bay : Nat) (s : State) : Host.Outcome State Fault Refusal :=
  guarded (decide (bay < 16)) s fun s =>
    let h := s.heatOf bay
    let tick := s.heatTick bay
    let h1 := (List.range 4).foldl (fun g w =>
      let e := g.way h.sweep w
      if e.used then
        g.put h.sweep w (if e.eff tick = 0 then {} else { e with count := e.eff tick, stamp := tick })
      else g) h
    s.setHeat bay { h1 with sweep := (h.sweep + 1) % 16384 }

/-- BAY_HEAT_CLEAR (R336): BAY.HEAT.CTRL.CLEAR frees every entry. -/
def execBayHeatClear (bay : Nat) (s : State) : Host.Outcome State Fault Refusal :=
  guarded (decide (bay < 16)) s fun s => s.setHeat bay { s.heatOf bay with ents := [] }

/-! ## Flash channels -/

/-- What no register shows of a flash channel. -/
def State.fch (s : State) (c : Nat) : FlashX := SMap.get (fun _ => {}) s.flash c

/-- What no register shows of a flash channel, set. -/
def State.setFch (s : State) (c : Nat) (f : FlashX) : State := { s with flash := SMap.set (fun _ => {}) s.flash c f }

/-- What no register shows of a flash channel, changed. -/
def State.updFch (s : State) (c : Nat) (f : FlashX → FlashX) : State := s.setFch c (f (s.fch c))

/-- The channel of a logical page (R328). -/
def pageCh (lpage : Nat) : Nat := lpage % 32

/-- Whether the channel of a T3 stroke is ready (R328, R340). -/
def State.t3Up (s : State) (addr : Nat) : Bool :=
  bitOf (s.fld Reg.flashStatus Reg.flashStatus_CHREADY) (pageCh (addr / 32))

/-- Whether a logical page is mapped. -/
def State.pageMapped (s : State) (lpage : Nat) : Bool := SMap.get (fun _ => 0) (s.fch (pageCh lpage)).map lpage != 0

/-- Whether a T3 stroke can be read: its page is mapped and not lost, and its codeword did not fail (R327, R335, R341). -/
def State.t3Good (s : State) (addr : Nat) : Bool :=
  let p := addr / 32
  let f := s.fch (pageCh p)
  s.pageMapped p && !(SMap.get (fun _ => false) f.lost p) && !(SMap.get (fun _ => false) f.bad (4 * p + addr % 32 / 8))

/-- LUNs of a channel's flash. -/
def FlashX.luns (f : FlashX) : Nat := (f.geom.map fun g => g.targets * g.lunsPer).getD 0

/-- Blocks per LUN. -/
def FlashX.perLun (f : FlashX) : Nat := (f.geom.map (·.blocks)).getD 0

/-- Pages of a block that hold data: all but its closing summary page (R334, log entry 25 DEDUCED). -/
def FlashX.pageCount (f : FlashX) : Nat := (f.geom.map (·.pages - 1)).getD 0

/-- A block of a channel, by LUN × 2^32 + block. -/
def FlashX.block (f : FlashX) (k : Nat) : FlashBlock := SMap.get (fun _ => {}) f.blocks k

/-- A block of a channel changed. -/
def FlashX.setBlock (f : FlashX) (k : Nat) (b : FlashBlock) : FlashX :=
  { f with blocks := SMap.set (fun _ => {}) f.blocks k b }

/-- The keys of the blocks of a LUN, in block order. -/
def FlashX.keysOf (f : FlashX) (lun : Nat) : List Nat := (List.range f.perLun).map fun b => lun * 2 ^ 32 + b

/-- The keys of every block. -/
def FlashX.keys (f : FlashX) : List Nat := (List.range f.luns).flatMap f.keysOf

/-- The place of a logical page: 1 + block key × 4,096 + page, 0 where it is unmapped. -/
def FlashX.at_ (f : FlashX) (lpage : Nat) : Nat := SMap.get (fun _ => 0) f.map lpage

/-- Whether a page of a block still stands for a logical page. -/
def FlashX.live (f : FlashX) (k lpage : Nat) : Bool := f.at_ lpage != 0 && (f.at_ lpage - 1) / 4096 == k

/-- The logical pages a block still holds. -/
def FlashX.valid (f : FlashX) (k : Nat) : List Nat := ((f.block k).pages.filter (f.live k)).eraseDups

/-- Whether a block can be collected to some gain: it is closed and holds a page that no longer stands for its logical page. -/
def FlashX.stale (f : FlashX) (k : Nat) : Bool :=
  (f.block k).st == .closed && decide ((f.valid k).length < (f.block k).pages.length)

/-- Whether a LUN has a page to program or a block to collect (R332). -/
def FlashX.lunRoom (f : FlashX) (lun : Nat) : Bool :=
  (f.keysOf lun).any fun k =>
    match (f.block k).st with
    | .free => true
    | .opened => decide ((f.block k).pages.length < f.pageCount)
    | .closed => f.stale k
    | .retired => false

/-- Whether a channel has a page to program or a block to collect (R332). -/
def FlashX.room (f : FlashX) : Bool := (List.range f.luns).any f.lunRoom

/-- Whether a channel is ready. -/
def State.chUp (s : State) (c : Nat) : Bool := s.fld (Reg.flashChStatus c) Reg.flashChStatus_READY = 1

/-- The logical pages of a channel. -/
def State.chPages (s : State) : Nat := s.fld Reg.flashCap Reg.flashCap_LPAGES / 32

/-- Strokes of a channel's map region (R329): 4 bytes a logical page and 4 bytes a block's erase count (log entry 25 DEDUCED). -/
def State.mapStrokes (s : State) (c : Nat) : Nat :=
  let f := s.fch c
  ceilDiv (4 * s.chPages + 4 * (f.luns * f.perLun)) 512

/-- Whether FLASH.CH.MAPBASE names a region that lies in stack ⌊c / 2⌋ below the portfolio table (R329). -/
def State.mapBaseOk (s : State) (c : Nat) : Bool :=
  let l := s.fld (Reg.flashChMapbase c) Reg.flashChMapbase_LOC
  decide (l ≠ 0) && decide (locTier l = 1) && decide (locBay l = c / 2)
    && decide (locAddr l + s.fld (Reg.flashChMaplen c) Reg.flashChMaplen_STROKES ≤ pfTop)

/-- A 4-byte word of a channel's map region written (R329). Log entry 123 DESIGN CHOICE. -/
def State.putMap (s : State) (c i v : Nat) : State :=
  let a := 512 * (locMem (s.fld (Reg.flashChMapbase c) Reg.flashChMapbase_LOC) / 512) + 4 * i
  let addr := a / 512 % 2 ^ 55
  (((s.setBytes a (natBytes 4 v)).setStamp (a / 512) (s.locWant (c / 2) addr)).setErrs (a / 512) 0).pbAdd (c / 2) addr

/-- The map region of a channel follows its map and its erase counts from `old` on (R329): the words of the pages and blocks that have
changed. Log entry 123 DESIGN CHOICE. -/
def State.showMap (s : State) (c : Nat) (old : FlashX) : State :=
  let f := s.fch c
  let ps := ((old.map.map (·.1)) ++ (f.map.map (·.1))).eraseDups.filter fun p => f.at_ p != old.at_ p
  let ks := (f.keys.zipIdx).filter fun k => (f.block k.1).erases != (old.block k.1).erases
  let s1 := ps.foldl (fun u p => u.putMap c (p / 32) (Config.mapWord (f.at_ p))) s
  ks.foldl (fun u k => u.putMap c (u.chPages + k.2) (f.block k.1).erases) s1

/-- What no register shows of a channel that is ready, set, and its map region with it. -/
def State.setFlash (s : State) (c : Nat) (f : FlashX) : State :=
  if s.chUp c && s.mapBaseOk c then (s.setFch c f).showMap c (s.fch c) else s.setFch c f

/-- The map region of a channel written whole (R329, R334). -/
def State.loadMap (s : State) (c : Nat) : State :=
  let f := s.fch c
  let s1 := (List.range s.chPages).foldl (fun u i => u.putMap c i (Config.mapWord (f.at_ (32 * i + c)))) s
  (f.keys.zipIdx).foldl (fun u k => u.putMap c (u.chPages + k.2) (f.block k.1).erases) s1

/-- A logical page unmapped (R333). -/
def State.unmapPage (s : State) (lpage : Nat) : State :=
  let lo := t3Base / 512 + 32 * lpage
  let f := s.fch (pageCh lpage)
  let s1 := s.setFlash (pageCh lpage)
    { f with map := SMap.set (fun _ => 0) f.map lpage 0, lost := SMap.set (fun _ => false) f.lost lpage false
             bad := SMap.clear f.bad (4 * lpage) (4 * lpage + 4), queue := f.queue.filter (· != lpage)
             place := SMap.set (fun _ => 0) f.place lpage 0
             patrolled := f.patrolled.filter (· != lpage) }
  { s1 with mem := SMap.clear s1.mem (512 * lo) (512 * (lo + 32)), seals := SMap.clear s1.seals lo (lo + 32) }

/-- A logical page given new contents: its program is awaited (R334), on the LUN whose turn it is (R330). -/
def State.queuePage (s : State) (lpage : Nat) : State :=
  s.updFch (pageCh lpage) fun f =>
    if f.queue.contains lpage then f
    else { f with queue := f.queue ++ [lpage], place := SMap.set (fun _ => 0) f.place lpage f.turn, turn := (f.turn + 1) % max 1 f.luns }

/-- A logical page whose program is no longer awaited. -/
def FlashX.unqueue (f : FlashX) (lpage : Nat) : FlashX :=
  { f with queue := f.queue.filter (· != lpage), place := SMap.set (fun _ => 0) f.place lpage 0 }

/-- Whether a stroke of a stack lies in the map region of a flash channel (R329). -/
def State.inFlashMap (s : State) (b addr : Nat) : Bool :=
  [2 * b, 2 * b + 1].any fun c =>
    let base := locAddr (s.fld (Reg.flashChMapbase c) Reg.flashChMapbase_LOC)
    let n := s.fld (Reg.flashChMaplen c) Reg.flashChMaplen_STROKES
    decide (s.fld (Reg.flashChMapbase c) Reg.flashChMapbase_LOC ≠ 0 ∧ base ≤ addr ∧ addr < base + n)

/-! ## Host extents (R323 to R325) -/

/-- The extent of a T2 address. -/
def t2Ext (addr : Nat) : Nat := bitsOf addr 32 8

/-- Whether strokes from a T2 address lie inside one extent that is granted and not withdrawn. Log entry 57 DESIGN CHOICE. -/
def State.t2Fits (s : State) (addr n : Nat) : Bool :=
  let e := t2Ext addr
  decide (s.fld (Reg.tier2Ext0 e) Reg.tier2Ext0_VALID = 1)
    && decide (bitsOf addr 0 32 + n ≤ s.fld (Reg.tier2Ext1 e) Reg.tier2Ext1_LEN)

/-- Whether an extent admits new accesses (R325, R531). Log entry 57 DESIGN CHOICE. -/
def State.t2Up (s : State) (addr : Nat) : Bool :=
  decide (s.fld (Reg.tier2Ext0 (t2Ext addr)) Reg.tier2Ext0_WITHDRAW = 0) && s.linkUp 0

/-- Whether a withdrawal of an extent is complete (R325). -/
def State.t2Gone (s : State) (addr : Nat) : Bool := decide (s.fld (Reg.tier2Ext0 (t2Ext addr)) Reg.tier2Ext0_GONE = 1)

/-- The host address of a T2 stroke: HBASE + 520s (R323). -/
def State.t2Host (s : State) (addr : Nat) : Nat :=
  s.fld (Reg.tier2Ext0 (t2Ext addr)) Reg.tier2Ext0_HBASE * 4096 + 520 * bitsOf addr 0 32

/-- The 520 bytes of a stroke on the host bus: its ciphertext and its tag (R323). Log entry 15 DESIGN CHOICE. -/
def State.wire (s : State) (g : Nat) : List Byte :=
  let (k, t) := match s.stamp g with | .key k t => (k, t) | _ => (0, 0)
  (List.range 520).map fun i => BitVec.ofNat 8 (Config.wireByte k t ((s.bytes (512 * g) 512).map (·.toNat)) i)

/-- A bus-master read of a T2 stroke issued (R324, R533). -/
def State.t2Read (s : State) (addr : Nat) : State :=
  let rd : HostRead := ⟨0, addr⟩
  State.emit { s with host := { s.host with reads := s.host.reads ++ [(rd, s.ec)], t2Failed := s.host.t2Failed.filter (· != addr) } }
    (.hostRead 0 (s.t2Host addr) 520 rd)

/-- A T2 stroke of a portfolio written to the host, when PCI Express egress grants it (R323, R324, R384). -/
def State.t2Write (s : State) (pf addr : Nat) : State :=
  s.enqueueOwn 9 2 pf 520 (.hostWrite 0 (s.t2Host addr) (s.wire (t2Base / 512 + addr)))

end Sys2Proof.Machine
end

