-- ==== Sys2Proof/Machine/MemOps.lean ====
section
/-! DEFINITION. The memory instructions and their completion (R128 to R134, R291, R316). -/

namespace Sys2Proof.Machine

/-! ## Issue (R128, R129, R131) -/

/-- The operand-store offset gA + OFF of the memory instructions of form R (R128). -/
def State.opAddrR (s : State) (x : Ea) (w : Word) : Int := (s.gr x (raOf w)).toNat + subOff w

/-- An async operation taken into the outstanding-operation table, or a stall while it is full. -/
def State.async (s : State) (x : Ea) (kind : OutKind) (rd off a b len after : Nat) : Res :=
  match s.takeEntry x kind rd off a b len after with
  | some t => .ok t
  | none => .stall

/-- The bytes of one token of a portfolio's shape: KV × (Bk + Bv) (R130). -/
def Pf.tokBytes (p : Pf) : Nat := p.kv * (p.bk + p.bv)

/-- Completion count of a location form (R129). -/
def locCount (x : Ea) (load : Bool) (l bo len : Nat) : Nat :=
  let h := 12 * hops x.bay (locBay l)
  let n := ceilDiv (bo + len) 512
  if len = 0 then 4
  else if locTier l = 0 then (if load then 20 else 16) + h + ceilDiv len 128
  else if load then 288 + h + 4 * (n - 1)
  else if bo = 0 ∧ len % 512 = 0 then 160 + h + 4 * (n - 1)
  else 448 + h + 4 * (n - 1)

/-- Whether a store is of whole strokes with a byte offset set in T1, which is misaligned (R131; log entry 22 DEDUCED). -/
def wholeOffset (l bo len : Nat) : Bool := decide (locTier l = 1 ∧ bo ≠ 0 ∧ len ≠ 0 ∧ len % 512 = 0)

/-- A location form (R128, R129, R131): operand-store alignment, then the location's, then the bound. Log entry 22 DEDUCED. -/
def locForm (fn : Nat) (load : Bool) (x : Ea) (w : Word) : State → Host.Outcome State Fault Refusal :=
  issue x w (opIs w fn 0) { sh := shRO .g .g .gp .g } fun s =>
    let a := s.opAddrR x w
    let l := (s.gr x (rbOf w)).toNat % 2 ^ 48
    let bo := bf (s.gr x (rbOf w + 1)) 0 9
    let len := (s.gr x (rcOf w)).toNat
    if a % 64 ≠ 0 then .trap 0x04 0 (narrow 48 a)
    else if !load && wholeOffset l bo len then .trap 0x04 0 l
    else
      match opCheck a len 64 with
      | some r => r
      | none =>
        s.async x (if load then .ldLoc else .stLoc) (rdOf w) a.toNat l bo len (locCount x load l bo len)

/-- LD.LOC (R129). -/
def execLdLoc (x : Ea) (w : Word) (s : State) : Host.Outcome State Fault Refusal := locForm 0x40 true x w s
/-- ST.LOC (R129). -/
def execStLoc (x : Ea) (w : Word) (s : State) : Host.Outcome State Fault Refusal := locForm 0x41 false x w s

/-- PF of a handle (R128). Log entry 45 DEDUCED. -/
def hdPf (h : Nat) : Nat := bitsOf h 0 18
/-- Sheet-list index of a handle. Log entry 45 DEDUCED. -/
def hdIdx (h : Nat) : Nat := bitsOf h 18 32
/-- Stroke of a handle. -/
def hdStroke (h : Nat) : Nat := bitsOf h 50 13

/-- The code a handle access that reached the home stack at `a` is refused with before its sheet is looked at (R130, R131, R296): the
portfolio's, then shape for an index past the list, unavailable for a home stack that is not ready or trips. Log entry 43 DEDUCED. -/
def State.handleCode (s : State) (h a : Nat) : Nat :=
  let p := s.pf (hdPf h)
  let c := s.pfCode (hdPf h) p
  if c ≠ cDone then c
  else if p.count ≤ hdIdx h then cShape
  else if !s.stackReads p.home a then cUnavailable
  else cDone

/-- The code a handle load of strokes `is` that reached their stack at `a` is refused with (R130, R289, R296), or done. -/
def State.loadCode (s : State) (p : Pf) (e : Nat) (is : List Nat) (a : Nat) : Nat :=
  if seUnwritten e then cDone
  else if 2 ≤ locTier (seLoc e) then cUnavailable
  else if !s.locReads (seLoc e) a then cUnavailable
  else if is.any (fun i => decide (i < seSlen e + p.ns) && s.inRegion e i) then cKey
  else cDone

/-- The code a handle store of strokes `is` is refused with (R130, R179, R289), or done. -/
def State.storeCode (s : State) (p : Pf) (e : Nat) (is : List Nat) : Nat :=
  if 2 ≤ locTier (seLoc e) then cUnavailable
  else if !s.locUp (seLoc e) then cUnavailable
  else if seCompressed e then cSequence
  else if is.any (fun i => decide (seSlen e + p.ns ≤ i)) then cShape
  else if is.any (s.inRegion e) then cKey
  else cDone

/-- The byte runs of a token write (R39, R130). -/
def Pf.tokRuns (p : Pf) (t : Nat) (bs : List Byte) : List (Nat × List Byte) :=
  (p.tokRanges t).map fun (a, i, n) => (a, (bs.drop i).take n)

/-- The byte runs a token written to a slot comes to (R42, R231): the slot that fills the sheet also writes the first sketch stroke as
zeros. -/
def Pf.slotRuns (p : Pf) (e t nt : Nat) (bs : List Byte) : List (Nat × List Byte) :=
  p.tokRuns t bs ++ (if nt = 256 ∧ seNtok e ≠ 256 then [(512 * seSlen e, List.replicate 512 0)] else [])

/-- The code a token write of a handle is refused with before it moves anything (R42, R130), or done. -/
def State.tokenCode (s : State) (p : Pf) (h t : Nat) : Nat :=
  let c := s.handleCode h s.ec
  let e := s.listEntry p (hdIdx h)
  if c ≠ cDone then c
  else
    match tokAccept (seNtok e) t with
    | none => cSequence
    | some nt => s.storeCode p e (touched (p.slotRuns e t nt (List.replicate p.tokBytes 0)))

/-- The code a handle form over strokes is refused with once its sheet-list entry has been read (R130), or done. -/
def State.formCode (s : State) (load : Bool) (h len : Nat) : Nat :=
  let p := s.pf (hdPf h)
  let c := s.handleCode h s.ec
  let e := s.listEntry p (hdIdx h)
  let is := (List.range (len / 512)).map (hdStroke h + ·)
  if c ≠ cDone then c else if load then s.loadCode p e is s.ec else s.storeCode p e is

/-- Completion count of a handle form (R129): a refusal's is the read of the sheet-list entry. -/
def State.handleCount (s : State) (x : Ea) (load : Bool) (h len : Nat) : Nat :=
  let p := s.pf (hdPf h)
  let base := 288 + 12 * hops x.bay p.home
  if len = 0 then 4
  else if s.formCode load h len ≠ cDone then base
  else
    let e := s.listEntry p (hdIdx h)
    if seUnwritten e ∧ load then 8 + ceilDiv len 128
    else base + locCount x load (seLoc e) 0 len

/-- A handle form over whole strokes (R128 to R131): alignment, the length among it, then the bound. -/
def handleForm (fn : Nat) (load : Bool) (x : Ea) (w : Word) : State → Host.Outcome State Fault Refusal :=
  issue x w (opIs w fn 0) { sh := shRO .g .g .g .g } fun s =>
    let a := s.opAddrR x w
    let h := (s.gr x (rbOf w)).toNat
    let len := (s.gr x (rcOf w)).toNat
    if a % 64 ≠ 0 ∨ len % 512 ≠ 0 then .trap 0x04 0 (narrow 48 a)
    else
      match opCheck a len 64 with
      | some r => r
      | none =>
        s.async x (if load then .ldH else .stH) (rdOf w) a.toNat h 0 len (s.handleCount x load h len)

/-- LD.H (R129, R130). -/
def execLdH (x : Ea) (w : Word) (s : State) : Host.Outcome State Fault Refusal := handleForm 0x42 true x w s
/-- ST.H (R129, R130). -/
def execStH (x : Ea) (w : Word) (s : State) : Host.Outcome State Fault Refusal := handleForm 0x43 false x w s

/-- ST.H.TOK (R42, R129, R130). -/
def execStHTok (x : Ea) (w : Word) (s : State) : Host.Outcome State Fault Refusal :=
  issue x w (opIs w 0x43 1) { sh := shRO .g .g .gp .z } (fun s =>
    let a := s.opAddrR x w
    let h := (s.gr x (rbOf w)).toNat
    let t := bf (s.gr x (rbOf w + 1)) 0 9
    let p := s.pf (hdPf h)
    match opCheck a p.tokBytes 64 with
    | some r => r
    | none =>
      let base := 288 + 12 * hops x.bay p.home
      let after :=
        if s.tokenCode p h t ≠ cDone then base
        else base + 448 + 12 * hops x.bay (locBay (seLoc (s.listEntry p (hdIdx h)))) + 4 * (2 * p.kv - 1)
      s.async x .stHTok (rdOf w) a.toNat h t p.tokBytes after) s

/-- FLUSH.RANGE (R132): the page-buffer strokes of the range; `d` of them are counted at issue. -/
def execFlushRange (x : Ea) (w : Word) (s : State) : Host.Outcome State Fault Refusal :=
  issue x w (opIs w 0x44 0) { sh := shR .g .z .g .g } (fun s =>
    let l := (s.gr x (rbOf w)).toNat % 2 ^ 48
    let len := (s.gr x (rcOf w)).toNat
    let lo := locAddr l
    let hi := lo + ceilDiv len 512
    let inside := fun (p : PbEnt) => decide (lo ≤ p.addr ∧ p.addr < hi)
    let b := locBay l
    if locTier l = 1 then
      let d := ((s.stk b).pb.filter inside).length
      let s1 := s.updStk b fun y => { y with pb := y.pb.map fun p => if inside p then { p with flush := true } else p }
      s1.async x .flush (rdOf w) 0 l d len (32 + 12 * hops x.bay b + 4 * d)
    else s.async x .flush (rdOf w) 0 l 0 len (32 + 12 * hops x.bay b)) s

/-- DMA.POST (R134): the descriptor is taken 8 ec after issue. -/
def execDmaPost (x : Ea) (w : Word) (s : State) : Host.Outcome State Fault Refusal :=
  issue x w (opIs w 0x46 0) { sh := shM .g .g .z } (fun s =>
    let a := s.opAddr x w
    match opCheck a 64 64 with
    | some r => r
    | none =>
      s.async x .dmaPost (rdOf w) a.toNat (bytesNat (s.bytes (opBase x + a.toNat) 64)) 0 64 8) s

/-! ## Completion (R129 to R132, R291) -/

/-- The strokes of memory an operation has still to touch, as (first, count) over 512: a message reads those of its location until its
last packet has begun, a receive buffer is written until it completes. -/
def State.opStrokes (s : State) (o : OutOp) : Nat × Nat :=
  if o.len = 0 then (0, 0)
  else
  let src := if 2 ^ 63 ≤ o.off then (locMem (o.off % 2 ^ 48) / 512, ceilDiv o.len 512) else (0, 0)
  match o.kind with
  | .ldLoc | .stLoc => (locMem o.a / 512, ceilDiv (o.b + o.len) 512)
  | .wrimm | .send =>
    if (s.conn (o.a / 2 ^ 16)).msgs.any fun m => m.first == o.a % 2 ^ 16 && decide (m.next < m.n) then src else (0, 0)
  | .recv => if o.a < 2 ^ 40 then src else (0, 0)
  | .ldH | .stH =>
    let p := s.pf (hdPf o.a)
    (sheetStroke (s.listEntry p (hdIdx o.a)) (hdStroke o.a), o.len / 512)
  | .stHTok =>
    let p := s.pf (hdPf o.a)
    (sheetStroke (s.listEntry p (hdIdx o.a)) 0, p.strokes)
  | _ => (0, 0)

/-- Whether an operation stores strokes, and is mirrored when it completes (R403). -/
def OutKind.mirrors : OutKind → Bool
  | .stLoc | .stH | .stHTok => true
  | _ => false

/-- Whether an operation places data in the easel's operand store, which waits for the easel's clock (R484). -/
def OutKind.loads : OutKind → Bool
  | .ldLoc | .ldH => true
  | _ => false

/-- When an operation of an easel reaches the controller of a bay. -/
def OutOp.reaches (o : OutOp) (x : Ea) (b : Nat) : Nat := o.issued + 6 * hops x.bay b

/-- Where a store of an easel stands in the order in which the controller of its strokes admits (R156, R283): by the cycle it reaches
it, the easels of other bays, lower bays first, before the bay's own, lower logical easels first. Log entry 112 DEDUCED. -/
def State.storeTurn (s : State) (x : Ea) (o : OutOp) : Nat :=
  let b := (s.opStrokes o).1 / 2 ^ 55 % 16
  o.reaches x b * 256 + (if x.bay = b then 192 + x.easel else x.key)

/-- Whether an operation waits for another on the same stroke that is still to take effect there: an earlier one of its easel (R92),
or for a store one of another easel that is admitted first (R156). Log entry 112 DEDUCED. -/
def State.mustWait (s : State) (x : Ea) (o : OutOp) : Bool :=
  let r := s.opStrokes o
  let meets := fun (p : OutOp) => let q := s.opStrokes p; !p.failed && rangesMeet r.1 r.2 q.1 q.2
  ((s.ex x).outst.any fun p => decide (p.seq < o.seq) && meets p)
    || (o.kind.mirrors && allEasels.any fun y =>
      y != x && (s.ex y).outst.any fun p => p.kind.mirrors && meets p && decide (s.storeTurn y p < s.storeTurn x o))

/-- The cycle an operation completes at: its count, and the slot delay a near-bank operation adds to it (R302). -/
def State.opDue (s : State) (x : Ea) (o : OutOp) : Nat :=
  let r := s.opStrokes o
  let a := o.reaches x (r.1 / 2 ^ 55 % 16)
  o.due + (s.nbUntil r.1 r.2 a o.kind.mirrors - a)

/-- Whether an operation waits for its bay, which admits no access until it is awake (R488, R502), or for a near-bank operation
that has still to start (R302). -/
def State.opAsleep (s : State) (o : OutOp) : Bool :=
  let sp := (s.opStrokes o).1 / 2 ^ 55
  let home := match o.kind with
    | .ldH | .stH | .stHTok => !s.admits (s.pf (hdPf o.a)).home
    | _ => false
  let r := s.opStrokes o
  home || (decide (r.2 ≠ 0) && o.kind.mirrors && s.nbQueued r.1 r.2)
    || (decide (r.2 ≠ 0) && (decide (sp < 16) && !s.admits sp || decide (0x300 ≤ sp ∧ sp < 0x310) && !s.admits (sp - 0x300)))

/-- Bytes read placed segment by segment in the operand store; a failing one leaves its bytes. -/
def State.placeSegs (s : State) (x : Ea) : Nat → List (Nat × Nat × Nat) → List (Option (List Byte)) → State
  | off, (_, _, n) :: r, b :: bs =>
    (match b with | some v => s.setBytes (opBase x + off) v | none => s).placeSegs x (off + n) r bs
  | _, _, _ => s

/-- The bytes of the segments that passed. -/
def segsPlaced : List (Nat × Nat × Nat) → List (Option (List Byte)) → Nat
  | (_, _, n) :: r, b :: bs => (if b.isSome then n else 0) + segsPlaced r bs
  | _, _ => 0

/-- The index of the first failing segment. -/
def firstFail (bs : List (Option (List Byte))) : Nat := (bs.findIdx? (·.isNone)).getD 0

/-- LD.LOC completes (R104, R129, R131, R291, R296): the bytes a failing one should have placed are free values. -/
def State.endLdLoc (s : State) (x : Ea) (o : OutOp) : State :=
  let sg := segs o.b o.len
  if !s.locOk o.a sg.length || !s.locReads o.a (o.reaches x (locBay o.a)) then (s.undefine [(opBase x + o.off, o.len)]).failOp x o 0x05 o.a
  else
    let (bs, s1) := s.readLoc o.a sg
    let s2 := s1.placeSegs x o.off sg bs
    if bs.all (·.isSome) then s2.finish x o (compWord cDone o.len 0)
    else s2.finish x o (compWord cDamaged (segsPlaced sg bs) (firstFail bs))

/-- The records a store by location writes (R43, R45, R46), one stroke each: the code of the first refused one. -/
def State.storeRecords (s : State) (iss : Option Ea) (b : Nat) : Nat → List (List Byte) → Nat × State
  | _, [] => (cDone, s)
  | addr, bs :: r =>
    let (c, s1) := s.writeRecord iss ((addr - pfTop) * 16 + b) none bs
    let (c', s2) := s1.storeRecords iss b (addr + 1) r
    (if c = cDone then c' else c, s2)

/-- The active portfolio whose sheet list holds a stroke of a stack, if any (R49, R286). -/
def State.listOwner (s : State) (b addr : Nat) : Option Nat :=
  s.activePfs.find? fun n =>
    let p := s.pf n
    decide (p.home = b ∧ locAddr p.list ≤ addr ∧ addr < locAddr p.list + ceilDiv (16 * p.count) 512)

/-- The mirrored write of strokes a location store put into a sheet list (R403). -/
def State.mirrorList (s : State) (iss : Option Ea) (l : Nat) (is : List Nat) : State :=
  is.foldl (fun u i =>
    match u.listOwner (locBay l) (locAddr l + i) with
    | some n =>
      let p := u.pf n
      let g := locMem l / 512 + i
      u.mirrorOp iss { pf := n, idx := (locAddr l + i - locAddr p.list) * 32, unit := 2, seq := p.seq, bay := p.home
                       writes := [⟨512 * g, u.stamp g, u.bytes (512 * g) 512⟩] }
    | none => u) s

/-- Bytes stored by location (R46, R74, R286, R291, R403), for an easel or the host, busy for an easel's write to a line under
lease (R429): each part stroke is merged into its base as read and checked, or into the partner's copy where the stroke is a
mirrored one outside a detection-only region (R294), and a base that fails writes nothing. Portfolio records then go through their
own rule; other strokes are sealed, and mirrored where they are part of an active sheet list. The answer is the code. -/
def State.storeLoc (s : State) (iss : Option Ea) (l bo : Nat) (bs : List Byte) (part : PartnerCopies) : Nat × State :=
  let sg := segs bo bs.length
  let isRec := fun (i : Nat) => locTier l == 1 && decide (pfTop ≤ locAddr l + i)
  if iss.isSome && sg.any (fun e => isRec e.1 && s.leased ((locAddr l + e.1 - pfTop) * 16 + locBay l) e.2.1 e.2.2) then (cBusy, s)
  else
    let usable := if s.partnerAway then [] else part.filter fun c =>
      locTier l == 1 && !(s.regionAt (locBay l) (locAddr l + c.1)).2 && (isRec c.1 || (s.listOwner (locBay l) (locAddr l + c.1)).isSome)
    let (ws, s1) := s.mergeLoc l usable sg bs
    match ws.mapM id with
    | none => (cDamaged, s1)
    | some whole =>
      let k := if locTier l = 1 then pfTop - locAddr l else whole.length
      let s2 := (s1.putLoc l 0 (whole.take k)).mirrorList iss l (if locTier l = 1 then (sg.map (·.1)).take k else [])
      s2.storeRecords iss (locBay l) (locAddr l + k) (whole.drop k)

/-- ST.LOC completes (R129, R131, R286, R329). -/
def State.endStLoc (s : State) (x : Ea) (o : OutOp) (part : PartnerCopies) : State :=
  let n := ceilDiv (o.b + o.len) 512
  let map := locTier o.a == 1 && (List.range n).any fun i => s.inFlashMap (locBay o.a) (locAddr o.a + i)
  if !s.locOk o.a n || map then s.failOp x o 0x05 o.a
  else
    let (c, s1) := s.storeLoc (some x) o.a o.b (s.bytes (opBase x + o.off) o.len) part
    s1.finish x o (compWord c (if c = cDone then o.len else 0) 0)

/-- LD.H completes (R130, R291, R309, R573). -/
def State.endLdH (s : State) (x : Ea) (o : OutOp) (part : PartnerCopies) : State :=
  let at_ := fun (b : Nat) => o.reaches x b
  let c := s.handleCode o.a (at_ (s.pf (hdPf o.a)).home)
  if c ≠ cDone then s.finish x o (compWord c 0 0)
  else
    let n := hdPf o.a
    let p := s.pf n
    let e := s.listEntry p (hdIdx o.a)
    let k := o.len / 512
    let i0 := hdStroke o.a
    let c := s.loadCode p e ((List.range k).map (i0 + ·)) (at_ (locBay (seLoc e)))
    if c ≠ cDone then s.finish x o (compWord c 0 0)
    else
      let (bs, s1) := s.readSheets p e part k i0
      let s1 := if i0 = 0 ∧ !seUnwritten e ∧ !seDamaged e ∧ seNtok e ≠ 0 then s1.heatAccess p.home n (hdIdx o.a) else s1
      let s2 := s1.placeSegs x o.off (segs 0 o.len) bs
      if bs.all (·.isSome) then s2.finish x o (compWord cDone k 0)
      else
        let f := firstFail bs
        let s3 := if i0 + f < seSlen e then s2.markDamaged n p (hdIdx o.a) e 0
          else if s2.partnerAway then s2.logDamage n p (hdIdx o.a) 1 else s2
        s3.finish x o (compWord cDamaged (bs.filter (·.isSome)).length f)

/-- ST.H completes (R130, R403). -/
def State.endStH (s : State) (x : Ea) (o : OutOp) (part : PartnerCopies) : State :=
  let c := s.handleCode o.a (o.reaches x (s.pf (hdPf o.a)).home)
  let n := hdPf o.a
  let p := s.pf n
  let idx := hdIdx o.a
  let e := s.listEntry p idx
  let k := o.len / 512
  let c := if c ≠ cDone then c else s.storeCode p e ((List.range k).map (hdStroke o.a + ·))
  if c ≠ cDone then s.finish x o (compWord c 0 0)
  else
    let (_, s1) := s.writeSheet (some x) n p idx e (written e)
      [(512 * hdStroke o.a, s.bytes (opBase x + o.off) o.len)] part
    s1.finish x o (compWord cDone k 0)

/-- A token written to a slot (R42, R62, R231): the code, and the NTOK it leaves. -/
def State.writeToken (s : State) (iss : Option Ea) (n idx t : Nat) (bs : List Byte) (part : PartnerCopies) :
    Nat × Nat × State :=
  let p := s.pf n
  let e := s.listEntry p idx
  match tokAccept (seNtok e) t with
  | none => (cSequence, 0, s)
  | some nt =>
    let runs := p.slotRuns e t nt bs
    let c := s.storeCode p e (touched runs)
    if c ≠ cDone then (c, 0, s)
    else
      let (ok, s1) := s.writeSheet iss n p idx e (putBits (written e) 76 9 nt) runs part
      if ok then (cDone, nt, s1) else (cDamaged, 0, s1.markDamaged n p idx e 0)

/-- ST.H.TOK completes (R42, R130). -/
def State.endStHTok (s : State) (x : Ea) (o : OutOp) (part : PartnerCopies) : State :=
  let c := s.handleCode o.a (o.reaches x (s.pf (hdPf o.a)).home)
  if c ≠ cDone then s.finish x o (compWord c 0 0)
  else
    let (c, nt, s1) := s.writeToken (some x) (hdPf o.a) (hdIdx o.a) o.b (s.bytes (opBase x + o.off) o.len) part
    s1.finish x o (compWord c nt 0)

/-- FLUSH.RANGE completes (R132, R283, R284): the write-backs it raised are admitted in their order and their entries free. -/
def State.endFlush (s : State) (x : Ea) (o : OutOp) : State :=
  let b := locBay o.a
  let lo := locAddr o.a
  let hi := lo + ceilDiv o.len 512
  if locTier o.a ≠ 1 then s.finish x o (compWord cDone 0 0)
  else
    let raised := (s.stk b).pb.filter fun p => decide (lo ≤ p.addr ∧ p.addr < hi) && p.flush
    (s.admitThese b (raised.map s.writeBack)).finish x o (compWord cDone o.b 0)

/-- DMA.POST completes (R134): the engine of the bay takes the descriptor, or its queue is full. -/
def State.endDmaPost (s : State) (x : Ea) (o : OutOp) : State :=
  if Config.engineDepth ≤ (s.bay x.bay).engineQ.length then s.finish x o (compWord cBusy 0 0)
  else
    let ws := (List.range 8).map fun i => bitsOf o.a (64 * i) 64
    (s.updBay x.bay fun y => { y with engineQ := y.engineQ ++ [ws] }).finish x o (compWord cDone 0 0)

end Sys2Proof.Machine
end

