-- ==== Sys2Proof/Machine/NearBank.lean ====
section
/-! DEFINITION. Near-bank operations (R133, R297 to R306). -/

namespace Sys2Proof.Machine

/-! ## Issue and checks (R297, R298) -/

/-- The attributes of every unit of a range are one set (R298). -/
def State.oneAttr (s : State) (b addr units : Nat) : Bool :=
  (List.range units).all fun i => s.regionAt b (addr + 256 * i) == s.regionAt b addr

/-- A unit range that stands on units, inside the data of its stack and in one attribute set that is not DETONLY. -/
def State.unitsOk (s : State) (b addr units : Nat) : Bool :=
  decide (addr % 256 = 0) && decide (addr + 256 * units ≤ pfTop) && s.oneAttr b addr units && !(s.regionAt b addr).2

/-- Whether a range has strokes in the page buffer (R298). -/
def State.pbMeets (s : State) (b addr units : Nat) : Bool :=
  (s.stk b).pb.any fun p => decide (addr ≤ p.addr ∧ p.addr < addr + 256 * units)

/-- The code an NB is refused with (R298), checked in its order, or done. Log entry 43 DEDUCED. -/
def State.nbCode (s : State) (fn dst src units ty : Nat) : Nat :=
  let b := locBay dst
  let da := locAddr dst
  let sa := locAddr src
  let two := decide (fn ≠ 0)
  if locTier dst ≠ 1 ∨ (two ∧ (locTier src ≠ 1 ∨ locBay src ≠ b)) then cShape
  else if !s.unitsOk b da units || (two && !s.unitsOk b sa units) then cShape
  else if two ∧ rangesMeet da (256 * units) sa (256 * units) then cShape
  else if 3 ≤ fn ∧ ty = 3 then cShape
  else if 3 ≤ fn ∧ (!(s.regionAt b da).1 || !(s.regionAt b sa).1) then cKey
  else if s.pbMeets b da units || (two && s.pbMeets b sa units) then cSequence
  else if 8 ≤ (s.stk b).nbQ.length then cBusy
  else if !s.stackUp b then cUnavailable
  else cDone

/-- NB of one FN (R133, R153, R298): the confidential restriction first, then the descriptor's offset; a refusal completes
with its code, and an accepted operation joins the queue of its stack. -/
def nbForm (fn : Nat) (x : Ea) (w : Word) : State → Host.Outcome State Fault Refusal :=
  issue x w (opIs w 0x45 fn) { sh := shM .g .g .z } fun s =>
    if 3 ≤ fn ∧ s.conf then .trap 0x07 0 0
    else
      let a := s.opAddr x w
      match opCheck a 64 64 with
      | some r => r
      | none =>
        let d := s.bytes (opBase x + a.toNat) 64
        let dst := bitsOf (wordAt d 0) 0 48
        let src := bitsOf (wordAt d 1) 0 48
        let units := bitsOf (wordAt d 2) 0 14 + 1
        let ty := bitsOf (wordAt d 2) 16 2
        let b := locBay dst
        match freeEntry (s.ex x).outst with
        | none => .stall
        | some n =>
          let c := s.nbCode fn dst src units ty
          if c ≠ cDone then .ok (s.setG x (rdOf w) (compWord c 0 0))
          else
            match s.takeEntry x .nb (rdOf w) a.toNat dst src 0 0 with
            | none => .stall
            | some t =>
              let op : NbX :=
                { x, entry := n, fn, dst, src, units, ty, pattern := wordAt d 3, arrival := s.ec + 6 * hops x.bay b
                  refusing := [], start := 0, due := 0, result := 0 }
              let t1 := t.updStk b fun y => { y with nbQ := y.nbQ ++ [op] }
              .ok (t1.setFld (Reg.bayStkStatus b) Reg.bayStkStatus_NBQ (t1.stk b).nbQ.length)

/-- NB FN 0x0 (R300). -/
def execNbFill (x : Ea) (w : Word) (s : State) : Host.Outcome State Fault Refusal := nbForm 0 x w s
/-- NB FN 0x1 (R300). -/
def execNbCopy (x : Ea) (w : Word) (s : State) : Host.Outcome State Fault Refusal := nbForm 1 x w s
/-- NB FN 0x2 (R300, R303). -/
def execNbCompareEqual (x : Ea) (w : Word) (s : State) : Host.Outcome State Fault Refusal := nbForm 2 x w s
/-- NB FN 0x3 (R300). -/
def execNbSum (x : Ea) (w : Word) (s : State) : Host.Outcome State Fault Refusal := nbForm 3 x w s
/-- NB FN 0x4 (R300). -/
def execNbMax (x : Ea) (w : Word) (s : State) : Host.Outcome State Fault Refusal := nbForm 4 x w s
/-- NB FN 0x5 (R300). -/
def execNbMin (x : Ea) (w : Word) (s : State) : Host.Outcome State Fault Refusal := nbForm 5 x w s
/-- NB FN 0x6 (R300, R303). -/
def execNbOrderedCompare (x : Ea) (w : Word) (s : State) : Host.Outcome State Fault Refusal := nbForm 6 x w s

/-! ## The operation (R299 to R303, R305) -/

/-- An FP32 value as a number in the order of totalOrder (R303). -/
def totalKey (a : Nat) : Nat := if bitOf a 31 then 2 ^ 32 - 1 - a % 2 ^ 32 else a % 2 ^ 32 + 2 ^ 31

/-- Whether element `a` is greater than `b` under TYPE (R303). -/
def nbGreater (ty a b : Nat) : Bool :=
  match ty with
  | 0 => decide (totalKey b < totalKey a)
  | 1 => decide (sext 32 b < sext 32 a)
  | _ => decide (b < a)

/-- DST op SRC on one 32-bit element (R300). -/
def nbElem (fn ty d x : Nat) : Nat :=
  match fn, ty with
  | 3, 0 => fAdd d x
  | 3, _ => (d + x) % 2 ^ 32
  | 4, 0 => fMax d x
  | 4, _ => if nbGreater ty x d then x else d
  | _, 0 => fMin d x
  | _, _ => if nbGreater ty d x then x else d

/-- The 32-bit elements of a stroke. -/
def State.elems (s : State) (g : Nat) : List Nat := (List.range 128).map fun i => bytesNat (s.bytes (512 * g + 4 * i) 4)

/-- Whether near-bank logic finds a stroke it decodes uncorrectable (R277, R291, R300): counted where it does, as a correction is.
A void stroke counts in VOIDRD only, and one never written holds no code word. Beyond what the code detects a free value decides
(log entry 13 DESIGN CHOICE). Log entry 129 DEDUCED. -/
def State.nbBad (s : State) (b addr : Nat) : Bool × State :=
  let g := stackBase b / 512 + addr
  let n := s.errsAt g
  if s.stamp g = .void then (true, s.setFld (Reg.bayStkEcc b) Reg.bayStkEcc_VOIDRD 1)
  else if s.stamp g = .none then (true, s.uncorrectable b addr 2 false)
  else
    let (d, s1) := if 5 < n then s.draw else (0, s)
    if 3 ≤ n ∧ d % 2 = 0 then (true, s1.uncorrectable b addr 2 false)
    else (false, if 0 < n ∧ n ≤ 2 then s1.corrected b addr else s1)

/-- One stroke of a fill, copy, sum, max or min (R300); whether it met an uncorrectable stroke. -/
def State.nbStroke (s : State) (op : NbX) (j : Nat) : Bool × State :=
  let b := locBay op.dst
  let da := locAddr op.dst + j
  let sa := locAddr op.src + j
  let gd := stackBase b / 512 + da
  let gs := stackBase b / 512 + sa
  let clear := (s.regionAt b da).1
  let put := fun (u : State) bs q => ((u.setBytes (512 * gd) bs).setStamp gd q).setErrs gd 0
  match op.fn with
  | 0 =>
    if clear then (false, put s ((List.replicate 64 (natBytes 8 op.pattern)).flatten) (.clear false))
    else (false, put s (List.replicate 512 0xFF) .void)
  | 1 => (false, ((s.setBytes (512 * gd) (s.bytes (512 * gs) 512)).setStamp gd (s.stamp gs)).setErrs gd (s.errsAt gs))
  | _ =>
    let (bs, s1) := s.nbBad b sa
    let (bd, s2) := s1.nbBad b da
    if bs || bd then (true, put s2 (List.replicate 512 0xFF) .void)
    else
      let r := ((s2.elems gd).zip (s2.elems gs)).map fun (d, x) => nbElem op.fn op.ty d x
      (false, put s2 (r.flatMap (natBytes 4)) (.clear false))

/-- The strokes of a range that the accepting channels work on, in order (R275, R305). -/
def NbX.strokes (op : NbX) : List Nat :=
  (List.range (256 * op.units)).filter fun j => !op.refusing.contains (j % 128)

/-- Whether stroke `j` of the two ranges of a compare differs, data, check symbols and tags; for the ordered compare the
elements, an uncorrectable stroke counting as differing. -/
def State.nbDiffers (s : State) (op : NbX) (j : Nat) : Bool :=
  let base := stackBase (locBay op.dst) / 512
  let gd := base + locAddr op.dst + j
  let gs := base + locAddr op.src + j
  if op.fn = 2 then s.bytes (512 * gd) 512 != s.bytes (512 * gs) 512 || decide (s.stamp gd ≠ s.stamp gs)
      || decide (s.errsAt gd ≠ s.errsAt gs)
  else s.elems gd != s.elems gs || (s.nbBad (locBay op.dst) (locAddr op.dst + j)).1 || (s.nbBad (locBay op.dst) (locAddr op.src + j)).1

/-- COUNT and DETAIL of a compare (R303). -/
def State.nbCompare (s : State) (op : NbX) : Nat × Nat :=
  let diff := op.strokes.filter (s.nbDiffers op)
  let us := (diff.map (· / 256)).eraseDups
  match diff with
  | [] => (0, 0)
  | j0 :: _ =>
    let u := j0 / 256
    let inU := diff.filter fun j => j / 256 == u
    let ch := inU.foldl (fun m j => min m (j % 128)) 127
    let j := (inU.find? fun j => j % 128 == ch).getD j0
    let base := stackBase (locBay op.dst) / 512
    let pair := ((s.elems (base + locAddr op.dst + j)).zip (s.elems (base + locAddr op.src + j))).find? fun (d, x) => d != x
    let gt := match pair with
      | some (d, x) => op.fn == 6 && nbGreater op.ty x d
      | none => false
    (us.length, u + ch * 2 ^ 24 + b2n gt * 2 ^ 31)

/-- Uncorrectable strokes of an ordered compare, counted (R300). -/
def State.nbScan (s : State) (op : NbX) : Bool × State :=
  op.strokes.foldl (fun (acc : Bool × State) j =>
    let (a, s1) := acc.2.nbBad (locBay op.dst) (locAddr op.src + j)
    let (b, s2) := s1.nbBad (locBay op.dst) (locAddr op.dst + j)
    (acc.1 || a || b, s2)) (false, s)

/-- The effect and the completion word of an operation (R300, R303, R305). -/
def State.nbRunOp (s : State) (op : NbX) : Word × State :=
  let b := locBay op.dst
  let (bad, s1) :=
    if op.fn = 2 then (false, s)
    else if op.fn = 6 then s.nbScan op
    else op.strokes.foldl (fun (acc : Bool × State) j =>
      let (e, u) := acc.2.nbStroke op j
      (acc.1 || e, u)) (false, s)
  let (cnt, det) := if op.fn = 2 ∨ op.fn = 6 then s.nbCompare op else (op.units, 0)
  if op.refusing ≠ [] then
    let lo := op.refusing.foldl min 127
    let s2 := (s1.setFld (Reg.bayStkMaperr b) Reg.bayStkMaperr_NBFAIL 1).stackEvent b
    (compWord cUnavailable op.units (lo + op.refusing.length * 2 ^ 8), s2)
  else (compWord (if bad then cDamaged else cDone) cnt det, s1)

/-- NB_WINDOW_START (R299, R301, R302): in the first near-bank window at least 24 cycles after its arrival the head of the stack's
queue starts on every channel but those that refuse it; none starts while NN is 0, or while a row of its ranges is being remapped.
Its effect stands from here on: no access sees its ranges before it has ended there. Log entry 73 DESIGN CHOICE. -/
def execNbWindowStart (stack : Nat) (refusing : List Nat) (s : State) : Host.Outcome State Fault Refusal :=
  guarded (decide (stack < 16) && refusing.all (fun c => decide (c < 128))) s fun s =>
    let y := s.stk stack
    match y.nbRun, (if s.admits stack then y.nbQ else []) with
    | none, op :: q =>
      if y.remapping.any fun r => r.2 != 0 && op.hasRow r.1 then s
      else
        match nbWindowFrom y.map (max s.ec (op.arrival + 24)) with
        | none => s
        | some w =>
          let run := { op with refusing := refusing.eraseDups, start := w }
          let last := ((List.range 128).map (run.endOn y.map)).foldl max 0
          let st := Reg.bayStkStatus stack
          let (word, s1) := (s.passTo w).nbRunOp run
          ((s1.updStk stack fun y => { y with nbRun := some { run with due := last + nbResult op.fn, result := word }, nbQ := q }).setFld
            st Reg.bayStkStatus_NBBUSY 1).setFld st Reg.bayStkStatus_NBQ q.length
    | _, _ => s

/-- NB_COMPLETE (R301, R303, R306): the running operation ends on every channel and its completion word lands; a stack that a
relock caught with it running enters self-refresh. Log entry 73 DESIGN CHOICE. -/
def execNbComplete (stack : Nat) (s : State) : Host.Outcome State Fault Refusal :=
  guarded (decide (stack < 16)) s fun s =>
    match (s.stk stack).nbRun with
    | some op =>
      let s1 := s.passTo (op.due + 16 + 6 * hops op.x.bay stack)
      let st := Reg.bayStkStatus stack
      let s2 := ((s1.updStk stack fun y => { y with nbRun := none }).quieten stack).setFld st Reg.bayStkStatus_NBBUSY 0
      let s3 := if s2.fld (Reg.pwrBay1 stack) Reg.pwrBay1_STATE = 3 ∧ s2.stackUp stack then s2.setFld st Reg.bayStkStatus_SELFREF 1 else s2
      match s3.entry op.x op.entry with
      | some o => if o.kind = .nb then s3.finish op.x o op.result else s3
      | none => s3
    | none => s

end Sys2Proof.Machine
end

