-- ==== Sys2Proof/Machine/AttnOps.lean ====
section
/-! DEFINITION. ATTN.STEP, SKETCH.RANK, the partner's copy, tier misses and GLAZE (R98, R135 to R143, R202 to R208, R228 to
R241, R249, R573). -/

namespace Sys2Proof.Machine

/-! ## Descriptors (R135, R141) -/

/-- The descriptor of ATTN.STEP and SKETCH.RANK. -/
structure AttnDesc where
  pf : Nat
  nq : Nat
  layer : Nat
  ranked : Bool
  init : Bool
  list : Nat
  n : Nat
  rank : Nat
  qoff : Nat
  wash : Nat
  seq : Nat
  reserved : Bool
  deriving DecidableEq, Repr

/-- A descriptor read from its 64 bytes; `rank` tells SKETCH.RANK, which ignores RANKED, INIT, WASH and SEQ, but no reserved bit
(R135, R141). -/
def attnDesc (rank : Bool) (bs : List Byte) : AttnDesc :=
  let w := wordAt bs
  { pf := bitsOf (w 0) 0 18, nq := bitsOf (w 0) 18 2 + 1, layer := bitsOf (w 0) 20 8
    ranked := !rank && bitOf (w 0) 28, init := !rank && bitOf (w 0) 29
    list := bitsOf (w 1) 0 22, n := bitsOf (w 1) 22 13, rank := bitsOf (w 2) 0 22, qoff := bitsOf (w 3) 0 22
    wash := bitsOf (w 4) 0 22, seq := bitsOf (w 5) 0 32
    reserved := decide (bitsOf (w 0) 30 34 ≠ 0) || decide (bitsOf (w 1) 35 29 ≠ 0) || decide (bitsOf (w 2) 22 42 ≠ 0)
      || decide (bitsOf (w 3) 22 42 ≠ 0) || decide (bitsOf (w 4) 22 42 ≠ 0)
      || decide (bitsOf (w 5) 32 32 ≠ 0) || decide (w 6 ≠ 0) || decide (w 7 ≠ 0) }

/-- Query heads of a portfolio (R191). -/
def Pf.qh (p : Pf) : Nat := p.kv * p.qper
/-- Parts of a wash (R196). -/
def Pf.parts (p : Pf) : Nat := if p.d ≤ 128 then 1 else 2

/-- A staged sheet-list entry. -/
def State.staged (s : State) (x : Ea) (d : AttnDesc) (i : Nat) : Nat := bytesNat (s.bytes (opBase x + d.list + 16 * i) 16)

/-- A rank entry: (staged index, bound). -/
def State.rankEntry (s : State) (x : Ea) (d : AttnDesc) (v : Nat) : Nat × Nat :=
  let w := bytesNat (s.bytes (opBase x + d.rank + 8 * v) 8)
  (bitsOf w 0 32, bitsOf w 32 32)

/-- Whether numbers stand in strictly ascending order. -/
def ascending : List Nat → Bool
  | a :: b :: l => decide (a < b) && ascending (b :: l)
  | _ => true

/-- Numbers put in ascending order. -/
def insertNat (a : Nat) : List Nat → List Nat
  | [] => [a]
  | b :: l => if a ≤ b then a :: b :: l else b :: insertNat a l

/-- The staged entries a run visits, in its order (R239): all N of them, or those its rank list names. -/
def State.runIndices (s : State) (x : Ea) (d : AttnDesc) : List Nat :=
  if d.ranked then (List.range d.n).map fun v => (s.rankEntry x d v).1 else List.range d.n

/-- The list checks of R136 and R239: true where they fail. -/
def State.listBad (s : State) (x : Ea) (d : AttnDesc) : Bool :=
  let idx := s.runIndices x d
  let sorted := idx.foldl (fun l a => insertNat a l) []
  idx.any (fun i => decide (4096 ≤ i)) || !ascending sorted
    || idx.any (fun i => decide (seLayer (s.staged x d i) ≠ d.layer))
    || !ascending (sorted.map fun i => seSheet (s.staged x d i))

/-- Whether a ranked run names a staged entry that does not lie in the operand store (R100, R239); an index of 4,096 or above
names none. Log entry 113 DEDUCED. -/
def State.stagedOut (s : State) (x : Ea) (d : AttnDesc) : Bool :=
  d.ranked && (s.runIndices x d).any fun i => decide (i < 4096 ∧ opSize < d.list + 16 * (i + 1))

/-- The precise checks of a descriptor in the order of R572: the alignment of its offsets, the bounds of what it names, its
contents, the list; `none` where it passes. A ranked run reads the staged entries its rank list names, so LIST is bounded by
those. Log entry 113 DEDUCED. -/
def State.descCheck (s : State) (x : Ea) (rank : Bool) (d : AttnDesc) : Option Res :=
  let p := s.pf d.pf
  let offs := [(d.list, if d.ranked then 0 else 16 * d.n), (d.rank, if rank ∨ d.ranked then 8 * d.n else 0), (d.qoff, 2 * d.nq * p.qh * p.d)]
    ++ (if rank then [] else [(d.wash, washSize * d.nq * p.qh * p.parts)])
  match offs.find? fun o => decide (o.1 % 64 ≠ 0) with
  | some o => some (.trap 0x04 0 o.1)
  | none =>
    match offs.find? fun o => decide (opSize < o.1 + o.2) with
    | some o => some (.trap 0x03 0 o.1)
    | none =>
      if s.stagedOut x d then some (.trap 0x03 0 d.list)
      else if d.reserved || decide (d.n = 0) || decide (4096 < d.n) then some (.trap 0x01 0 0)
      else if s.listBad x d then some (.trap 0x06 0 0)
      else none

/-! ## The wash area (R196, R200, R204, R206) -/

/-- The washes of a step: (query token, query head, part) of each index. -/
def Pf.places (p : Pf) (nq : Nat) : List (Nat × Nat × Nat) :=
  (List.range (nq * p.qh * p.parts)).map fun i => (i / (p.qh * p.parts), i / p.parts % p.qh, i % p.parts)

/-- A wash of the area. -/
def State.washAt (s : State) (x : Ea) (off i : Nat) : Wash := washOf (s.bytes (opBase x + off + washSize * i) washSize)

/-- Every wash of the area, changed. -/
def State.mapWashes (s : State) (x : Ea) (p : Pf) (d : AttnDesc) (f : Nat × Nat × Nat → Wash → Wash) : State :=
  ((p.places d.nq).zipIdx).foldl (fun u (pl, i) =>
    u.setBytes (opBase x + d.wash + washSize * i) (f pl (u.washAt x d.wash i)).bytes) s

/-- The washes as the first sheet finds them (R200, R204, R206). -/
def State.initWashes (s : State) (x : Ea) (p : Pf) (d : AttnDesc) : State :=
  s.mapWashes x p d fun (tok, h, part) w =>
    let fresh := { blankWash with seq := d.seq, head := h, tokidx := tok, part }
    if d.init then fresh
    else if w.blank then { w with seq := d.seq, head := h, tokidx := tok, part }
    else w.condPoison.mark flSeqmix (decide (w.seq ≠ d.seq))

/-- The query vector of a token and head, BF16 (R135, R192). -/
def State.query (s : State) (x : Ea) (p : Pf) (d : AttnDesc) (tok h : Nat) : List Fp :=
  palRun 0x1 p.d (s.bytes (opBase x + d.qoff + 2 * p.d * (tok * p.qh + h)) (2 * p.d))

/-- The scores of a sheet's slots for one query vector (R137, R194): −∞ from NTOK up to Nt. -/
def scores (q : List Fp) (keys : List (List Fp)) (n : Nat) : List Nat :=
  keys.map (macDot 0 q) ++ List.replicate (32 * ceilDiv n 32 - n) negInf

/-- A read sheet brought into every wash (R202, R205). -/
def State.attend (s : State) (x : Ea) (p : Pf) (d : AttnDesc) (e : Nat) (img : List Byte) (partner : Bool) : State :=
  let n := seNtok e
  let nt := 32 * ceilDiv n 32
  let ks := (List.range p.kv).map fun h => (List.range n).map (p.keyVec img h)
  let vs := (List.range p.kv).map fun h =>
    (List.range n).map (p.valVec img h) ++ List.replicate (nt - n) (List.replicate p.d (.fin false 0 0))
  let sc := (List.range (d.nq * p.qh)).map fun i =>
    scores (s.query x p d (i / p.qh) (i % p.qh)) (ks.getD (i % p.qh / p.qper) []) n
  s.mapWashes x p d fun (tok, h, part) w =>
    let v := vs.getD (h / p.qper) []
    let vals := (List.range 128).map fun i =>
      let dim := 128 * part + i
      if dim < p.d then v.map fun t => t.getD dim (.fin false 0 0) else []
    ((w.update n (sc.getD (tok * p.qh + h) []) vals).mark flPartner partner).mark flSuspect (seSuspect e)

/-! ## Reading a sheet for a step (R41, R131, R139, R178) -/

/-- The image of a sheet, or none where a stroke or block of it fails. -/
def State.sheetImage (s : State) (p : Pf) (e : Nat) : Option (List Byte) × State :=
  if seCompressed e then
    let (bs, s1) := s.readSheets p e [] (seSlen e) 0
    match bs.mapM id with
    | none => (none, s1)
    | some l =>
      match expandImage p l.flatten with
      | .raw img => (some img, s1)
      | .damaged _ _ _ => (none, s1)
  else
    let (bs, s1) := s.readSheets p e [] p.strokes 0
    ((bs.mapM id).map List.flatten, s1)

/-- The image in the bytes of a partner's copy. -/
def partnerImage (p : Pf) (e : Nat) (bs : List Byte) : Option (List Byte) :=
  if seCompressed e then
    match expandImage p (fitTo (512 * seSlen e) 0 bs) with
    | .raw img => some img
    | .damaged _ _ _ => none
  else some (fitTo (512 * p.strokes) 0 bs)

/-- The sketch strokes of a sheet as a rank finds them (R233): none where a stroke fails, the first stroke alone where its
radii are not all valid. -/
def State.sketchSet (s : State) (p : Pf) (e : Nat) : Option (List Byte) × State :=
  let (b, s1) := s.readSheet p e (seSlen e) []
  match b with
  | none => (none, s1)
  | some first =>
    if radiiOk p.kv first then
      let (bs, s2) := s1.readSheets p e [] (p.ns - 1) (seSlen e + 1)
      ((bs.mapM id).map fun l => first ++ l.flatten, s2)
    else (some first, s1)

/-- The score bound B of a sheet from its sketch bytes (R230, R236). -/
def State.rankBound (s : State) (x : Ea) (p : Pf) (d : AttnDesc) (bs : List Byte) : Nat :=
  if radiiOk p.kv bs = false then posInf
  else
    let cs := (List.range p.kv).map fun h => palRun 0x3 p.d ((bs.drop (2 * p.kv + h * p.d)).take p.d)
    (List.range (d.nq * p.qh)).foldl (fun m i =>
      let h := i % p.qh / p.qper
      boundMax m (sketchBound (s.query x p d (i / p.qh) (i % p.qh)) (cs.getD h []) (leAt bs (2 * h) 2))) negInf

/-- The sheet-list index of a staged entry in the live list (R139). -/
def State.liveIndex (s : State) (p : Pf) (e : Nat) : Option Nat :=
  lowestIdx p.count fun i =>
    let l := s.listEntry p i
    seLayer l == seLayer e && seSheet l == seSheet e

/-- The live entry of a staged sheet marked damaged (R139, R573); nothing where the list holds none. -/
def State.markLive (s : State) (n : Nat) (p : Pf) (e : Nat) : State :=
  match s.liveIndex p e with
  | some i => s.markDamaged n p i (s.listEntry p i) 0
  | none => s

/-- The live entry of a staged one, with the staged NTOK (R139, R140); the staged entry where the list holds none. -/
def State.liveEntry (s : State) (p : Pf) (e : Nat) : Nat :=
  match s.liveIndex p e with
  | some i => putBits (s.listEntry p i) 76 9 (seNtok e)
  | none => e

/-! ## Visits -/

/-- What a visit of a sheet comes to. -/
inductive Visit where
  | next (r : RunX) (s : State)
  | fetch (r : RunX) (s : State)
  | miss (loc idx : Nat) (r : RunX) (s : State)
  | stop (code : Nat) (r : RunX) (s : State)

/-- A bay counter of the sparse block, which does not count in confidential mode (R248). -/
def State.spsCount (s : State) (off : Nat) (f : Fld) : State := if s.conf then s else s.count off f 1

/-- A sheet left out as damaged (R31, R71, R205). -/
def State.leaveOut (s : State) (x : Ea) (p : Pf) (d : AttnDesc) (r : RunX) : Visit :=
  .next { r with damaged := r.damaged + 1 } (s.mapWashes x p d fun _ w => w.leaveOut)

/-- A sheet read (R202, R309): counted, in a ranked run in BAY.SPS.READ also. -/
def State.readIn (s : State) (x : Ea) (p : Pf) (d : AttnDesc) (r : RunX) (e : Nat) (img : List Byte) (partner : Bool) :
    Visit :=
  let s0 := s.attend x p d e img partner
  let s1 := match s0.liveIndex p e with
    | some i => s0.heatAccess p.home d.pf i
    | none => s0
  .next { r with count := r.count + 1 }
    (if d.ranked then s1.spsCount (Reg.baySpsRead x.bay) Reg.baySpsRead_SHEETS else s1)

/-- What a read of a sheet that failed comes to (R139, R573): the live entry is read; where it names another place the sheet
is read again there, else the partner's copy is fetched, or while the partner is away the read ends as failed on both. -/
def State.afterFail (s : State) (p : Pf) (r : RunX) (e : Nat) (again failed : State → Visit) : Visit :=
  if !r.live && decide (seLoc (s.liveEntry p e) ≠ seLoc e) then again s
  else if s.partnerAway then failed s
  else .fetch r s

/-- What ends a step before it reads strokes `is` of a sheet (R30, R289, R296): one of them in a CLEAR or DETONLY region, with key; a
stack that trips or is tripped, with unavailable. Log entry 130 DEDUCED. -/
def State.stepStop (s : State) (e : Nat) (is : List Nat) : Option Nat :=
  let b := locBay (seLoc e)
  if locTier (seLoc e) ≠ 1 then none
  else if (s.stk b).tripping || decide (s.fld (Reg.bayStkStatus b) Reg.bayStkStatus_TRIP = 1) then some cUnavailable
  else if is.any (s.inRegion e) then some cKey
  else none

/-- ATTN.STEP's read of one sheet (R98, R131, R139). `deep` tells whether the staged entry may still prove stale. -/
def State.attnRead (s : State) (x : Ea) (p : Pf) (d : AttnDesc) (r : RunX) (staged : Nat) (fetched : Option (Option (List Byte)))
    (deep : Nat) : Visit :=
  let e := if r.live then s.liveEntry p staged else staged
  let idx := (s.liveIndex p staged).getD 0
  if seDamaged e then s.leaveOut x p d r
  else if 2 ≤ locTier (seLoc e) then .miss (seLoc e) idx r s
  else
    match fetched with
    | some (some bs) =>
      match partnerImage p e bs with
      | some img => s.readIn x p d r e img true
      | none => (s.markLive d.pf p staged).leaveOut x p d r
    | some none => (s.markLive d.pf p staged).leaveOut x p d r
    | none =>
      match s.stepStop e (List.range (seSlen e)) with
      | some c => .stop c r s
      | none =>
      if !s.locOk (seLoc e) (seSlen e) then
        .next { r with locFault := r.locFault <|> some (seLoc e) } s
      else
        let (img, s1) := s.sheetImage p e
        match img with
        | some i => s1.readIn x p d r e i false
        | none =>
          s1.afterFail p r e
            (fun u => match deep with
              | 0 => .fetch r u
              | k + 1 => u.attnRead x p d { r with live := true } staged none k)
            (fun u => (u.markLive d.pf p staged).leaveOut x p d r)

/-- Visit `v` of an ATTN.STEP (R71, R205, R239 to R241). An entry with DAMAGED set and UNWRITTEN or NTOK = 0 besides makes no
change, as R205 says of those; R71 would set the damage flag. Log entry 114 DESIGN CHOICE. -/
def State.attnVisit (s : State) (x : Ea) (p : Pf) (d : AttnDesc) (r : RunX) (v : Nat)
    (fetched : Option (Option (List Byte))) : Visit :=
  let (i, b) := if d.ranked then s.rankEntry x d v else (v, posInf)
  let e := s.staged x d i
  if seNtok e = 0 ∨ seUnwritten e then .next r s
  else if seDamaged e then s.leaveOut x p d r
  else
    let ws := (List.range (d.nq * p.qh * p.parts)).map (s.washAt x d.wash)
    let (skip, forced) :=
      if d.ranked && fetched.isNone && !r.live then skipTest ws b p.tau p.mode p.tgt else (false, false)
    if skip then
      .next { r with skipped := r.skipped + 1 }
        ((s.mapWashes x p d fun _ w => w.skip b).spsCount (Reg.baySpsSkip x.bay) Reg.baySpsSkip_SHEETS)
    else
      (if forced then s.spsCount (Reg.baySpsForced x.bay) Reg.baySpsForced_SHEETS else s).attnRead x p d r e fetched 1

/-- A sketch set that failed on every copy (R249, R573); the counter does not count in confidential mode (R248). -/
def State.sketchLost (s : State) (x : Ea) (d : AttnDesc) (p : Pf) (r : RunX) (i e : Nat) : Visit :=
  let s1 := match s.liveIndex p e with
    | some idx => if s.partnerAway then s.logDamage d.pf p idx 1 else s
    | none => s
  let k := Reg.baySpsSkdmg x.bay
  let s2 := ((if s1.conf then s1 else s1.bump k Reg.baySpsSkdmg_COUNT).setFld k Reg.baySpsSkdmg_SKDMGEV 1).setReg
    (Reg.baySpsLastdmg x.bay) (BitVec.ofNat 64 (seLoc e))
  .next { r with bounds := r.bounds ++ [(i, posInf)] } (s2.log 0x08 x.bay 0 (s2.reg (Reg.baySpsLastdmg x.bay)) (s2.reg k))

/-- Visit `i` of a SKETCH.RANK (R141, R233, R236, R249). -/
def State.rankVisit (s : State) (x : Ea) (p : Pf) (d : AttnDesc) (r : RunX) (i : Nat)
    (fetched : Option (Option (List Byte))) (deep : Nat) : Visit :=
  let staged := s.staged x d i
  let e := if r.live then s.liveEntry p staged else staged
  let idx := (s.liveIndex p staged).getD 0
  let done := fun (u : State) bs =>
    Visit.next { r with count := r.count + 1, bounds := r.bounds ++ [(i, u.rankBound x p d bs)] } u
  if seNtok e = 0 ∨ seUnwritten e then .next { r with bounds := r.bounds ++ [(i, negInf)] } s
  else if seDamaged e then .next { r with damaged := r.damaged + 1, bounds := r.bounds ++ [(i, negInf)] } s
  else if seNtok e < 256 then .next { r with bounds := r.bounds ++ [(i, posInf)] } s
  else if 2 ≤ locTier (seLoc e) then .miss (seLoc e) idx r s
  else
    match fetched with
    | some (some bs) => done s (fitTo (512 * p.ns) 0 bs)
    | some none => s.sketchLost x d p r i e
    | none =>
      match s.stepStop e ((List.range p.ns).map (seSlen e + ·)) with
      | some c => .stop c r s
      | none =>
      if !s.locOk (seLoc e) (seSlen e + p.ns) then
        .next { r with locFault := r.locFault <|> some (seLoc e), bounds := r.bounds ++ [(i, posInf)] } s
      else
        let (b, s1) := s.sketchSet p e
        match b with
        | some bs => done s1 bs
        | none =>
          s1.afterFail p r e
            (fun u => match deep with
              | 0 => .fetch r u
              | k + 1 => u.rankVisit x p d { r with live := true } i none k)
            (fun u => u.sketchLost x d p r i e)

/-! ## The run -/

/-- The run's end (R138, R139, R142, R176): the rank list is written, the completion word lands, the expander's slots empty, the entry
frees and the next instruction follows; where a location exception was met, the entry stays for the next fence to report it. -/
def State.runEnd (s : State) (x : Ea) (d : AttnDesc) (r : RunX) (code : Nat) : State :=
  let s1 :=
    if r.rank ∧ code = cDone then
      s.setBytes (opBase x + d.rank) ((rankSort r.bounds).flatMap fun (i, b) => natBytes 4 i ++ natBytes 4 b)
    else s
  let s2 := ((s1.emptySlots x).setG x r.rd (compWord code r.count (r.skipped % 2 ^ 16 + r.damaged % 2 ^ 16 * 2 ^ 16))).advance x 1
  let s3 : State := match r.locFault, (s2.ex x).outst.find? (·.kind == .run) with
    | some l, some o => (s2.updEx x fun y => { y with run := none }).failOp x o 0x05 l
    | _, _ => s2.updEx x EaselX.dropRun
  s3.boundary x

/-- A tier miss (R88, R98, R309): the easel is held and the bay's tier-miss bindings fire; where none is enabled, the unbound-miss
exception. -/
def State.tierMiss (s : State) (x : Ea) (d : AttnDesc) (r : RunX) (loc idx : Nat) : State :=
  let s := if r.rank then s else s.heatAccess (decodePf r.recd).home d.pf idx
  if s.boundTo x.bay 0x40 = [] then (s.updEx x EaselX.dropRun).raise x true 0x0B 0 loc
  else
    let s1 := (s.updEx x fun y => { y with run := some { r with hold := .miss, live := true } }).setEst x stHeld
    s1.fire x.bay 0x40 (BitVec.ofNat 64 (x.easel + d.pf * 2 ^ 4 + idx % 2 ^ 32 * 2 ^ 32)) 0

/-- The visits still to be made, until the run ends or waits (R136, R139); the request for a partner's copy leaves under service 3
(R384). Log entry 96 DEDUCED. -/
def State.runGo (x : Ea) (d : AttnDesc) (p : Pf) (fetched : Option (Option (List Byte))) :
    List Nat → RunX → State → State
  | [], r, s => s.runEnd x d { r with left := [] } cDone
  | v :: vs, r, s =>
    let code := s.pfCode d.pf p
    if code = cKey then s.runEnd x d r cKey
    else
      let out := if r.rank then s.rankVisit x p d r v fetched 1 else s.attnVisit x p d r v fetched
      match out with
      | .next r' s' => State.runGo x d p none vs { r' with live := false } s'
      | .fetch r' s' =>
        (s'.updEx x fun y => { y with run := some { r' with left := v :: vs, hold := .fetch } }).pairSend 3 d.pf 0 (.pairMsg 0x12 [d.pf, v])
      | .miss l idx r' s' => s'.tierMiss x d { r' with left := v :: vs } l idx
      | .stop c r' s' => s'.runEnd x d r' c

/-- A run that waited goes on. Log entry 96 DEDUCED. -/
def State.runResume (s : State) (x : Ea) (r : RunX) (fetched : Option (Option (List Byte))) : State :=
  State.runGo x (attnDesc r.rank (s.bytes (opBase x + r.desc) 64)) (decodePf r.recd) fetched r.left r s

/-- ATTN.STEP and SKETCH.RANK (R91, R135 to R142). -/
def runForm (fn : Nat) (rank : Bool) (x : Ea) (w : Word) : State → Host.Outcome State Fault Refusal :=
  issue x w (opIs w fn 0) { sh := shR .g .g .z .z } fun s =>
    let a : Int := (s.gr x (raOf w)).toNat
    match opCheck a 64 64 with
    | some r => r
    | none =>
      let d := attnDesc rank (s.bytes (opBase x + a.toNat) 64)
      match s.descCheck x rank d with
      | some r => r
      | none =>
        match s.takeEntry x .run (rdOf w) 0 0 0 0 0 with
        | none => .stall
        | some s =>
          let recd := s.bytes (pfAddr d.pf) 512
          let p := decodePf recd
          let code := s.pfCode d.pf p
          let r : RunX :=
            { rank, rd := rdOf w, desc := a.toNat, recd, left := List.range d.n, count := 0, skipped := 0, damaged := 0
              locFault := none, bounds := [], hold := .fetch, live := false }
          if code ≠ cDone then .keep (s.runEnd x d { r with rank := false } code)
          else
            let s1 := if rank then s else s.initWashes x p d
            .keep (State.runGo x d p none r.left r s1)

/-- ATTN.STEP (R137). Log entry 96 DEDUCED. -/
def execAttnStep (x : Ea) (w : Word) (s : State) : Host.Outcome State Fault Refusal := runForm 0x50 false x w s

/-- SKETCH.RANK (R142). Log entry 96 DEDUCED. -/
def execSketchRank (x : Ea) (w : Word) (s : State) : Host.Outcome State Fault Refusal := runForm 0x51 true x w s

/-- PARTNER_FETCH_DONE (R139, R249): the partner's copy of the sheet or sketch set a step waits for arrives, intact or not.
Log entry 90 DEDUCED. -/
def execPartnerFetchDone (x : Ea) (data : Option (List Byte)) (s : State) : Host.Outcome State Fault Refusal :=
  guarded x.ok s fun s =>
    match (s.ex x).run with
    | some r => if r.hold = .fetch then s.runResume x r (some data) else s
    | none => s

/-! ## GLAZE (R143, R208) -/

/-- The checks of a wash offset (R143, R572): alignment to 32 bytes, then the bound. -/
def washCheck (s : State) (x : Ea) (r : Nat) : Option Res := opCheck (s.gr x r).toNat washSize 32

/-- GLAZE (R143, R208, R209). -/
def execGlaze (x : Ea) (w : Word) (s : State) : Host.Outcome State Fault Refusal :=
  issue x w (opIs w 0x52 0) { sh := shR .g .g .z .z } (fun s =>
    let d := (s.gr x (rdOf w)).toNat
    let a := (s.gr x (raOf w)).toNat
    if d % 32 ≠ 0 then .trap 0x04 0 d
    else if a % 32 ≠ 0 then .trap 0x04 0 a
    else
      match washCheck s x (rdOf w) <|> washCheck s x (raOf w) with
      | some r => r
      | none =>
        if d ≠ a ∧ rangesMeet d washSize a washSize then .trap 0x01 0 d
        else if s.opBusy x d washSize false || s.opBusy x a washSize false then .stall
        else .ok (s.setBytes (opBase x + d) (glazeWash (s.washAt x d 0) (s.washAt x a 0)).bytes)) s

/-- GLAZE.EMPTY (R143, R200). -/
def execGlazeEmpty (x : Ea) (w : Word) (s : State) : Host.Outcome State Fault Refusal :=
  issue x w (opIs w 0x52 1) { sh := shR .g .z .z .z } (fun s =>
    match washCheck s x (rdOf w) with
    | some r => r
    | none =>
      let d := (s.gr x (rdOf w)).toNat
      .ok (s.setBytes (opBase x + d) blankWash.bytes)) s

end Sys2Proof.Machine
end

