-- ==== Sys2Proof/Machine/Catalogue.lean ====
section
/-! DEFINITION. The catalogue: searches, entry accesses, the rebuild and the scrub (R53 to R69, R144, R145). -/

namespace Sys2Proof.Machine

/-! ## Searches (R56, R144) -/

/-- The 80-bit value of a register pair. -/
def State.pair80 (s : State) (x : Ea) (r : Nat) : Nat :=
  (s.gr x r).toNat + bf (s.gr x (r + 1)) 0 16 * 2 ^ 64

/-- CAT.SEARCH (R144): with RB = 0 the mask is all ones. It stalls while its bay's queue of 16 is full. -/
def execCatSearch (x : Ea) (w : Word) (s : State) : Host.Outcome State Fault Refusal :=
  issue x w (opIs w 0x58 0) { sh := shR .gp .gp (if rbOf w = 0 then .z else .gp) .z } (fun s =>
    if s.pendFull x then .trap 0x0C 0 0
    else if 16 ≤ (s.bay x.bay).searchQ.length then .stall
    else
      let q : SearchX :=
        { x, rd := rdOf w, key := s.pair80 x (raOf w)
          mask := if rbOf w = 0 then 2 ^ 80 - 1 else s.pair80 x (rbOf w), result := none, due := 0 }
      .ok ((s.updBay x.bay fun y => { y with searchQ := y.searchQ ++ [q] }).takePend x (rdOf w) none)) s

/-- The first search slot of a bay at or after cycle `c` that no search of the bay was admitted in (R56). -/
def searchSlot (b c : Nat) (done : List SearchX) : Nat :=
  let k := c + (2 * b + 32 - c % 32) % 32
  if done.any fun q => q.due == k + 128 then k + 32 else k

/-- SEARCH_ADMISSION (R56, R64): the head of a bay's queue is admitted in the bay's next slot outside a flip round, and its
result is that of the live bank in that cycle. -/
def execSearchAdmission (bay : Nat) (s : State) : Host.Outcome State Fault Refusal :=
  guarded (decide (bay < 16)) s fun s =>
    let y := s.bay bay
    match y.searchQ with
    | [] => s
    | q :: qs =>
      let slot := searchSlot bay (max s.ec s.catc.flipEnd) y.searching
      let s1 := s.passTo slot
      let q' := { q with result := some (s1.searchWords q.key q.mask), due := slot + 128 }
      s1.updBay bay fun y => { y with searchQ := qs, searching := y.searching ++ [q'] }

/-- The oldest entry of a search's pair taken out of the pending-result table. -/
def dropPend (rd : Nat) (l : List PendX) : List PendX := l.eraseP fun p => p.rd == rd && p.due.isNone

/-- SEARCH_RESULT (R55, R56): the oldest admitted search of an easel lands in its register pair. -/
def execSearchResult (x : Ea) (s : State) : Host.Outcome State Fault Refusal :=
  guarded x.ok s fun s =>
    let y := s.bay x.bay
    match y.searching.find? fun q => q.x == x with
    | some q =>
      let s1 := s.passTo q.due
      let w := q.result.getD (0, 0)
      let s2 := (s1.setG x q.rd w.1).setG x (q.rd + 1) w.2
      (s2.updBay x.bay fun y => { y with searching := y.searching.erase q }).updEx x fun y =>
        { y with pend := dropPend q.rd y.pend }
    | none => s

/-! ## Entry accesses (R57, R60, R145) -/

/-- The port cycle of an access issued now to entry `n` (R57): at least 48 ec on, and 2 ec after every scheduled access to
the same bank of the same slice. -/
def State.catCycle (s : State) (n : Nat) (shadow : Bool) : Nat :=
  s.catc.pendAcc.foldl (fun c a =>
    if a.n / s.perSlice = n / s.perSlice ∧ a.shadow = shadow then max c (a.due + 2) else c) (s.ec + 48)

/-- CAT.WR and CAT.RD at issue (R145). FN above 1 is reserved. -/
def catAccess (opc : Nat) (write : Bool) (x : Ea) (w : Word) : State → Host.Outcome State Fault Refusal :=
  issue x w (opcIs w opc) { sh := shR .g .g .g .z, legal := decide (fnOf w ≤ 1) } fun s =>
    let a : Int := (s.gr x (raOf w)).toNat
    let n := bf (s.gr x (rbOf w)) 0 22
    match opCheck a 32 32 with
    | some r => r
    | none =>
      match freeEntry (s.ex x).outst with
      | none => .stall
      | some e =>
        let shadow := fnOf w == 1
        let due := s.catCycle n shadow
        match s.takeEntry x (if write then .catWr else .catRd) (rdOf w) a.toNat n 0 32 (due - s.ec) with
        | none => .stall
        | some t =>
          let acc : CatAcc :=
            { x, entry := e, write, shadow, n, off := a.toNat
              image := BitVec.ofNat 256 (bytesNat (s.bytes (opBase x + a.toNat) 32)), due }
          .ok { t with catc := { t.catc with pendAcc := t.catc.pendAcc ++ [acc] } }

/-- CAT.WR (R145): the image is taken at issue. -/
def execCatWr (x : Ea) (w : Word) (s : State) : Host.Outcome State Fault Refusal := catAccess 0x59 true x w s
/-- CAT.RD (R145). -/
def execCatRd (x : Ea) (w : Word) (s : State) : Host.Outcome State Fault Refusal := catAccess 0x5A false x w s

/-- The code of an entry access in its cycle (R60, R63, R69). Log entry 43 DEDUCED. -/
def State.catCode (s : State) (a : CatAcc) : Nat :=
  if s.catEntries ≤ a.n then cLicence
  else if !s.sliceUp (a.n / s.perSlice) then cUnavailable
  else if a.write && a.shadow && decide (s.fld Reg.catStatus Reg.catStatus_STATE ≠ 2) then cRebuild
  else cDone

/-- CAT_ACCESS_COMMIT (R57, R59, R60, R63, R145): a scheduled access takes place in its cycle, in the bank that is live or
shadow then, and its completion word lands 12h ec later; a refused access whose entry lies in no slice has no hops h to count.
Log entry 53 DEDUCED, 120 DESIGN CHOICE. -/
def execCatAccessCommit (index : Nat) (s : State) : Host.Outcome State Fault Refusal :=
  guarded true s fun s =>
    match s.catc.pendAcc[index]? with
    | none => s
    | some a =>
      let s1 := s.passTo a.due
      let s2 := { s1 with catc := { s1.catc with pendAcc := s1.catc.pendAcc.eraseIdx index } }
      let c := s2.catCode a
      let bank := if a.shadow then 1 - s2.liveBank else s2.liveBank
      let image := s2.catEnt bank a.n
      let s3 :=
        if c = cLicence then s2.logLic 0xFF 0x03 a.n
        else if c ≠ cDone ∨ a.write = false then s2
        else if a.shadow then s2.setCat bank a.n a.image
        else s2.liveWrite a.n a.image
      let s4 := if c = cLicence then s3 else s3.passTo (a.due + 12 * hops a.x.bay (a.n / s3.perSlice))
      match s4.entry a.x a.entry with
      | some o =>
        if o.kind = .catWr ∨ o.kind = .catRd then
          let s5 := if c = cDone ∧ a.write = false then s4.setBytes (opBase a.x + a.off) (natBytes 32 image.toNat) else s4
          s5.finish a.x o (compWord c 0 0)
        else s4
      | none => s4

/-! ## The rebuild (R63 to R66) -/

/-- One shadow bank out of two: what the copy or clear has reached of `new`, what it has not of `old` (R63). -/
def fillUpTo {α : Type} [DecidableEq α] (dflt : Nat → α) (reached : Nat → Bool) (old new : SMap α) : SMap α :=
  (old.filter fun e => !reached e.1).foldl (fun m e => SMap.set dflt m e.1 e.2) (new.filter fun e => reached e.1)

/-- A copy or clear that is cut short leaves the shadow bank filled up to where it has come (R63). Log entry 52 DEDUCED. -/
def State.cutFill (s : State) : State :=
  match s.catc.fill with
  | none => s
  | some f =>
    let reached := fun (i : Nat) => (s.unfilled (i / 2 ^ 22) (i % 2 ^ 22)).isNone
    let shadow := fun (i : Nat) => decide (i / 2 ^ 22 ≠ s.liveBank)
    { s with cat := fillUpTo (fun _ => 0) reached (f.old.filter fun e => shadow e.1) s.cat
             catBad := fillUpTo (fun _ => false) reached (f.oldBad.filter fun e => shadow e.1) s.catBad
             catc := { s.catc with fill := none } }

/-- The rebuild dropped to Idle: no flip stands armed, and the shadow bank is left as it is (R63). -/
def State.catAbort (s : State) : State :=
  let s0 := s.cutFill
  let s1 := { s0 with catc := { s0.catc with flipAt := none } }
  ((s1.setFld Reg.catStatus Reg.catStatus_STATE 0).setFld Reg.catCtrl Reg.catCtrl_START 0).setFld
    Reg.catCtrl Reg.catCtrl_FLIP 0

/-- COUNT := 0, the journal emptied and JOVF cleared (R63). -/
def State.catFresh (s : State) : State :=
  let s1 := { s with catc := { s.catc with journal := [] } }
  ((s1.setFld Reg.catLivewr Reg.catLivewr_COUNT 0).setReg Reg.catJrnl 0).setFld Reg.catStatus Reg.catStatus_JOVF 0

/-- The shadow bank of a sparse map of entries replaced by a copy of the live one, or set all invalid: R63 does not say what KEY,
CARE, PRI and LOC of an entry set invalid then read, and they are zero. Log entry 119 DESIGN CHOICE. -/
def shadowOf {α : Type} (live : Nat) (clone : Bool) (m : SMap α) : SMap α :=
  let keep := m.filter fun e => decide (e.1 / 2 ^ 22 = live)
  let copy := if clone then keep.map fun e => (catIdx (1 - live) (e.1 % 2 ^ 22), e.2) else []
  if live = 0 then keep ++ copy else copy ++ keep

/-- CAT.CTRL.START (R63): a snapshot of the live bank or a clear fills the shadow bank from the START cycle on, entry by entry, as
long as R63 says. Log entry 52 DEDUCED. -/
def State.catStart (s : State) (clone : Bool) : State :=
  let live := s.liveBank
  let s0 := s.catAbort
  let s1 := { s0 with cat := shadowOf live clone s0.cat, catBad := shadowOf live clone s0.catBad }
  let per := if clone then 4 else 16
  let fill : CatFill := { start := s.ec, per, old := s0.cat, oldBad := s0.catBad }
  let s2 := { s1.catFresh with catc := { s1.catFresh.catc with fillEnd := s.ec + s.perSlice / per, fill := some fill } }
  (s2.setFld Reg.catStatus Reg.catStatus_STATE 1).setFld Reg.catCtrl Reg.catCtrl_START 1

/-- CAT.CTRL.FLIP (R63, R64): from Ready the flip is armed for the next round, else FLIPSTALE. -/
def State.catFlip (s : State) : State :=
  if s.fld Reg.catStatus Reg.catStatus_STATE = 2 then
    let s1 := { s with catc := { s.catc with flipAt := some (s.catc.flipAt.getD (32 * (s.ec / 32 + 1))) } }
    s1.setFld Reg.catCtrl Reg.catCtrl_FLIP 1
  else s.setFld Reg.catStatus Reg.catStatus_FLIPSTALE 1

/-- CAT.CTRL.KEEP (R63, R65): from Idle to Ready; an armed flip is dropped. -/
def State.catKeep (s : State) : State :=
  if s.fld Reg.catStatus Reg.catStatus_STATE = 0 then s.catFresh.setFld Reg.catStatus Reg.catStatus_STATE 2
  else ({ s with catc := { s.catc with flipAt := none } } : State).setFld Reg.catCtrl Reg.catCtrl_FLIP 0

/-- The action bits of one write of CAT.CTRL (R63): ABORT, START, KEEP and FLIP in this order, each from the state the previous
one left; the write has stored CLONE before. -/
def State.catCommand (s : State) (v : Word) : State :=
  let on := fun (f : Fld) => bf v f.lo 1 = 1
  let s1 := if on Reg.catCtrl_ABORT then s.catAbort else s
  let s2 := if on Reg.catCtrl_START then s1.catStart (s1.fld Reg.catCtrl Reg.catCtrl_CLONE = 1) else s1
  let s3 := if on Reg.catCtrl_KEEP then s2.catKeep else s2
  if on Reg.catCtrl_FLIP then s3.catFlip else s3

/-- CAT_CTRL_START (R63): the write stores CLONE and starts the rebuild. -/
def execCatCtrlStart (clone : Bool) (s : State) : Host.Outcome State Fault Refusal :=
  .next ((s.setFld Reg.catCtrl Reg.catCtrl_CLONE (b2n clone)).catStart clone)

/-- CAT_CTRL_FLIP (R64). -/
def execCatCtrlFlip (s : State) : Host.Outcome State Fault Refusal := .next s.catFlip

/-- CAT_CTRL_ABORT (R63). -/
def execCatCtrlAbort (s : State) : Host.Outcome State Fault Refusal := .next s.catAbort

/-- CAT_CTRL_KEEP (R65). -/
def execCatCtrlKeep (s : State) : Host.Outcome State Fault Refusal := .next s.catKeep

/-- REBUILD_FILL_DONE (R63): Filling ends and START reads 0. Log entry 52 DEDUCED. -/
def execRebuildFillDone (s : State) : Host.Outcome State Fault Refusal :=
  .next (if s.fld Reg.catStatus Reg.catStatus_STATE = 1 then
    let s1 := s.passTo s.catc.fillEnd
    ((({ s1 with catc := { s1.catc with fill := none } } : State).setFld Reg.catStatus Reg.catStatus_STATE 2).setFld Reg.catCtrl
      Reg.catCtrl_START 0)
  else s)

/-- FLIP_ROUND (R64): the round decides an armed flip: the banks are exchanged where the counts agree and JOVF is clear, and
no search is admitted in the round; else FLIPSTALE is set. -/
def execFlipRound (s : State) : Host.Outcome State Fault Refusal :=
  .next (match s.catc.flipAt with
    | none => s
    | some t =>
      let s1 := s.passTo t
      let s2 := State.setFld { s1 with catc := { s1.catc with flipAt := none } } Reg.catCtrl Reg.catCtrl_FLIP 0
      if s2.fld Reg.catLivewr Reg.catLivewr_COUNT = s2.fld Reg.catExpect Reg.catExpect_EXPECTWR
          ∧ s2.fld Reg.catStatus Reg.catStatus_JOVF = 0 then
        let s3 := { s2 with catc := { s2.catc with flipEnd := t + 32 } }
        (s3.setFld Reg.catStatus Reg.catStatus_LIVEBANK (1 - s3.liveBank)).setFld Reg.catStatus Reg.catStatus_STATE 0
      else s2.setFld Reg.catStatus Reg.catStatus_FLIPSTALE 1)

/-- CAT_JRNLPOP (R67): the oldest journal record goes. -/
def execCatJrnlpop (s : State) : Host.Outcome State Fault Refusal :=
  let j := s.catc.journal.drop 1
  .next (State.setReg { s with catc := { s.catc with journal := j } } Reg.catJrnl
    (BitVec.ofNat 64 (j.headD 0 + if j.isEmpty then 0 else 2 ^ 31)))

/-! ## The scrub (R68) -/

/-- A failed entry found by the scrub (R68): invalid, counted, and a catalogue event in the log and in its slice's bay. -/
def State.poison (s : State) (k n : Nat) : State :=
  let v := s.catEnt k n
  let s1 := s.setCat k n (BitVec.ofNat 256 (putBits v.toNat 216 4 0))
  let s2 := (s1.bump Reg.catErr Reg.catErr_POISONCNT).setFld Reg.catErr Reg.catErr_LASTPOISON n
  let s3 := s2.setFld Reg.catErr Reg.catErr_POISONEV 1
  let b := n / s3.perSlice
  (s3.log 0x06 b 0 (s3.reg Reg.catErr) 0).event b 0x44 (BitVec.ofNat 64 n)

/-- CAT_SCRUB_STEP (R68): one local index in every slice and both banks; the position moves on whatever ENABLE holds.
Log entry 55 DEDUCED. -/
def execCatScrubStep (s : State) : Host.Outcome State Fault Refusal :=
  let s1 := s.passTo (64 * ceilDiv s.ec 64)
  let i := s1.catc.scrubIdx % s1.perSlice
  let s2 :=
    if s1.fld Reg.catScrub Reg.catScrub_ENABLE = 1 then
      (List.range 32).foldl (fun u j =>
        let n := j / 2 * u.perSlice + i
        if u.catBadAt (j % 2) n then u.poison (j % 2) n else u) s1
    else s1
  .next { s2 with catc := { s2.catc with scrubIdx := (i + 1) % s2.perSlice } }

end Sys2Proof.Machine
end

