-- ==== Sys2Proof/Machine/EngineOps.lean ====
section
/-! DEFINITION. The bay's DMA and compression engine (R134, R180 to R184, R188, R232 to R235, R313 to R322, R333). -/

namespace Sys2Proof.Machine

/-! ## Descriptors (R180, R314) -/

/-- An engine descriptor's fields. -/
structure EngDesc where
  op : Nat
  db : Nat
  n : Nat
  xform : Nat
  tag : Nat
  pf : Nat
  idx : Nat
  dst : Nat
  dstlen : Nat
  tid : Nat
  res : Nat
  src : Nat
  deriving DecidableEq, Repr

/-- A descriptor read from its words. Log entry 45 DEDUCED. -/
def engDesc (ws : List Nat) : EngDesc :=
  let w := fun i => ws.getD i 0
  { op := bitsOf (w 0) 0 8, db := bitsOf (w 0) 8 6, n := bitsOf (w 0) 14 6 + 1, xform := bitsOf (w 0) 20 2
    tag := bitsOf (w 0) 32 32, pf := bitsOf (w 1) 0 18, idx := bitsOf (w 1) 18 32, dst := bitsOf (w 2) 0 48
    dstlen := bitsOf (w 3) 0 32, tid := bitsOf (w 4) 0 16, res := bitsOf (w 5) 0 48, src := bitsOf (w 1) 0 48 }

/-- A per-sheet record (R184, R321). -/
def sheetRec (code slen comp tier nocat : Nat) : Nat :=
  code + slen % 2 ^ 13 * 2 ^ 4 + comp * 2 ^ 17 + tier * 2 ^ 18 + nocat * 2 ^ 20

/-- The record of a sheet left as it is. -/
def recOf (op code e : Nat) : Nat :=
  if op = 0x23 ∨ op = 0x18 then code
  else sheetRec code (seSlen e) (b2n (seCompressed e)) (if op = 0x10 then locTier (seLoc e) else 0) 0

/-- The running descriptor of a bay's engine whose operation has not run, where its OP is one of `ops`. -/
def State.engine (s : State) (bay : Nat) (op : Nat) : Option EngX :=
  match (s.bay bay).engine with
  | some g => if g.ran = false ∧ (engDesc g.desc).op = op then some g else none
  | none => none

/-- The engine's running descriptor set. -/
def State.setEngine (s : State) (bay : Nat) (g : EngX) : State := s.updBay bay fun y => { y with engine := some g }

/-- The T2 strokes of the sheets of a run read from the host (R323, R324, R533): those the engine can reach. -/
def State.t2Issue (s : State) (d : EngDesc) : State :=
  let p := s.pf d.pf
  if d.op ≠ 0x10 ∨ s.pfCode d.pf p ≠ cDone then s
  else
    (List.range d.n).foldl (fun u i =>
      let e := u.listEntry p (d.idx + i)
      let a := locAddr (seLoc e)
      let n := seSlen e + p.ns
      if locTier (seLoc e) = 2 ∧ d.idx + i < p.count ∧ !seUnwritten e ∧ u.t2Fits a n ∧ u.t2Up a then
        (List.range n).foldl (fun v j => v.t2Read (a + j)) u
      else u) s

/-- ENGINE_DESCRIPTOR_START (R134, R235, R324, R494): the engine takes its next descriptor, but not during a brake; a move's reads
of T2 are issued. -/
def execEngineDescriptorStart (bay : Nat) (s : State) : Host.Outcome State Fault Refusal :=
  guarded (decide (bay < 16)) s fun s =>
    match (s.bay bay).engine, (if s.admits bay && s.fld Reg.pwrStatus Reg.pwrStatus_BRAKE = 0 then (s.bay bay).engineQ else []) with
    | none, ws :: q =>
      let pass := match (engDesc ws).op with | 0x20 => 1 | 0x21 => 3 | _ => 0
      (((s.updBay bay fun y => { y with engine := some { desc := ws }, engineQ := q }).setFld
        (Reg.bayCmpStatus bay) Reg.bayCmpStatus_PASS pass).setFld (Reg.bayCmpStatus bay) Reg.bayCmpStatus_DONE 0).t2Issue (engDesc ws)
    | _, _ => s

/-- The code that ends a whole sheet operation (R131, R180, R315), or done: the portfolio's, then the home bay's engine,
then unavailable for a home stack that is not ready. -/
def State.engCode (s : State) (bay : Nat) (d : EngDesc) : Nat :=
  let p := s.pf d.pf
  let c := s.pfCode d.pf p
  if c ≠ cDone then c else if p.home ≠ bay then cShape else if !s.stackReads p.home s.ec then cUnavailable else cDone

/-- The engine's running descriptor set, and DONE, which counts its sheets, with it (R186). -/
def State.engNote (s : State) (bay : Nat) (g : EngX) : State :=
  (s.setEngine bay g).setFld (Reg.bayCmpStatus bay) Reg.bayCmpStatus_DONE g.results.length

/-- The record of a sheet of a run that stays as it is (R184, R321): what its entry holds is shown wherever its list can be read. -/
def State.keptRec (s : State) (d : EngDesc) (i code : Nat) : Nat :=
  let p := s.pf d.pf
  if s.stackUp (d.pf % 16) && p.valid && s.stackUp p.home && decide (d.idx + i < p.count) then
    recOf d.op code (s.listEntry p (d.idx + i))
  else code

/-- A whole operation that ends with one code for every sheet. -/
def State.engAll (s : State) (bay : Nat) (g : EngX) (code : Nat) : State :=
  let d := engDesc g.desc
  s.engNote bay { g with ran := true, results := (List.range d.n).map fun i => s.keptRec d i code }

/-! ## Images (R41, R181, R182, R188) -/

/-- The partner's strokes of sheet `i` of a run. -/
def partOf (part : PartnerCopies) (i : Nat) : PartnerCopies :=
  part.filterMap fun c => if c.1 / 8192 = i then some (c.1 % 8192, c.2) else none

/-- A damaged block met by the engine (R186, R188). -/
def State.cmpDamaged (s : State) (bay e no cause off : Nat) : State :=
  let k := Reg.bayCmpErr bay
  ((s.bump k Reg.bayCmpErr_DAMAGED).setFld k Reg.bayCmpErr_DAMEV 1).setReg (Reg.bayCmpLastdmg bay)
    (BitVec.ofNat 64 ((seLoc e + off / 512) % 2 ^ 48 + no % 2 ^ 12 * 2 ^ 48 + cause % 8 * 2 ^ 60))

/-- The compression event of R188. -/
def State.cmpEvent (s : State) (bay : Nat) : State :=
  s.log 0x07 bay 0 (s.reg (Reg.bayCmpLastdmg bay)) (s.reg (Reg.bayCmpErr bay))

/-- A compressed image expanded from its strokes, then from the partner's where a block is damaged (R188); failing strokes
stand as zeros, and their blocks fail their CRC. -/
def State.engExpand (s : State) (bay : Nat) (p : Pf) (e : Nat) (f : List Byte → ImageRes) (part : PartnerCopies) :
    Option (List Byte) × State :=
  let (bs, s1) := s.readSheets p e part (seSlen e) 0
  match f (bs.map (·.getD (List.replicate 512 0))).flatten with
  | .raw img => (some img, s1)
  | .damaged no cause off =>
    let s2 := s1.cmpDamaged bay e no cause off
    let copy := (List.range (seSlen e)).map fun i => part.lookup i
    if s2.partnerAway || copy.any (·.isNone) then (none, s2.cmpEvent bay)
    else
      match f ((copy.map (·.getD [])).map (fitTo 512 0)).flatten with
      | .raw img => (some img, s2)
      | .damaged no cause off => (none, (s2.cmpDamaged bay e no cause off).cmpEvent bay)

/-- The raw image of a sheet as the engine counts it: token slots at or above NTOK as zeros (R41, R179). -/
def State.rawImage (s : State) (bay : Nat) (p : Pf) (e : Nat) (part : PartnerCopies) : Option (List Byte) × State :=
  let (img, s1) :=
    if seCompressed e then s.engExpand bay p e (expandImage p) part
    else
      let (bs, s1) := s.readSheets p e part p.strokes 0
      ((bs.mapM id).map List.flatten, s1)
  (img.map fun bs => (fitTo p.size 0 bs).mapIdx fun a b => if p.present (seNtok e) a then b else 0, s1)

/-- The code a sheet of a compress, expand or build operation is refused with before its image is read (R308, R289), or
done. Log entry 49 DEDUCED. -/
def State.sheetCode (s : State) (p : Pf) (idx e : Nat) : Nat :=
  if p.count ≤ idx then cShape
  else if seUnwritten e then cDone
  else if 2 ≤ locTier (seLoc e) ∨ !s.locReads (seLoc e) s.ec then cUnavailable
  else if (List.range (seSlen e + p.ns)).any (s.inRegion e) then cKey
  else cDone

/-- Sketch strokes carried to a new image (R227, R278): one that passes its check is sealed under its new stroke number, one
that does not is carried as it is. -/
def State.carrySketch (s : State) (p : Pf) (e e' : Nat) : State :=
  (List.range p.ns).foldl (fun u i =>
    let g := sheetStroke e (seSlen e + i)
    let q := if u.stamp g = u.sheetSeal p e (seSlen e + i) then u.sheetSeal p e' (seSlen e' + i) else u.stamp g
    u.putStroke (sheetStroke e' (seSlen e' + i)) (u.bytes (512 * g) 512) q) s

/-- A new image placed with its sketch strokes, and both mirrored (R181, R182, R403); the numbers of the mirrored operations
that are to be acknowledged. -/
def State.placeImage (s : State) (pf : Nat) (p : Pf) (idx e e' : Nat) (img : List Byte) : List Nat × State :=
  let n := seSlen e'
  let s1 := s.putSheet p e' ((List.range n).map fun i => (i, fitTo 512 0 ((img.drop (512 * i)).take 512)))
  let s2 := s1.carrySketch p e e'
  let s3 := s2.mirrorStrokes none pf p idx e' (List.range (n + p.ns)) 4
  ((List.range (s3.pair.nextId - s2.pair.nextId)).map (s2.pair.nextId + ·), s3)

/-- A sheet-list entry with a new LOC, SLEN and COMPRESSED. -/
def newEntry (e loc slen : Nat) (comp : Bool) : Nat :=
  putBits (putBits (putBits e 0 48 loc) 85 13 slen) 99 1 (b2n comp)

/-! ## Compression (R181) -/

/-- The raw blocks of a region (R178). -/
def regionBlocks (bs : List Byte) : List (List Byte) := chunks 4096 (bs.length / 4096 + 1) bs

/-- Byte counts of a region over a group of images, with the transform or without. -/
def regionCounts (xor : Bool) (stride : Nat) (regions : List (List Byte)) : List Nat :=
  let cs := regions.map fun r => byteCounts ((regionBlocks r).map fun b => if xor then xorForward stride b else b).flatten
  cs.foldl (fun a b => (a.zip b).map fun (x, y) => x + y) (List.replicate 256 0)

/-- The transform and the code lengths of a region for XFORM of the descriptor: 0b10 keeps the smaller coded total, none on
a tie. -/
def regionCode (xform stride : Nat) (regions : List (List Byte)) : Nat × List Nat :=
  let c0 := regionCounts false stride regions
  let c1 := regionCounts true stride regions
  let l0 := buildLens c0
  let l1 := buildLens c1
  if xform = 0 then (0, l0)
  else if xform = 1 then (1, l1)
  else if codedTotal c1 l1 < codedTotal c0 l0 then (1, l1)
  else (0, l0)

/-- A compressed image and the verify mismatches of its blocks (R178, R181). Log entry 94 DEDUCED. -/
def buildImage (verify : Bool) (p : Pf) (tid : Nat) (ck cv : Nat × List Nat) (img : List Byte) : List Byte × Nat :=
  let k := 256 * p.kv * p.bk
  let kb := regionBlocks (img.take k)
  let vb := regionBlocks (img.drop k)
  let ks := kb.zipIdx.map fun (b, i) => dataBlock verify ck.1 0 tid p.bk i ck.2 b
  let vs := vb.zipIdx.map fun (b, i) => dataBlock verify cv.1 1 (tid + 1) p.bv (kb.length + i) cv.2 b
  (padBlock (tableBlock 0 tid ck.2) ++ padBlock (tableBlock 1 (tid + 1) cv.2) ++ ((ks ++ vs).flatMap fun b => padBlock b.1),
    ((ks ++ vs).map (·.2)).sum)

/-- A sheet read for an operation: its position, entry, refusing code and image. -/
structure Gathered where
  i : Nat
  e : Nat
  code : Nat
  img : Option (List Byte)

/-- The sheets of a run read one after another (R181, R182); one that is refused or, where `skip` holds for its entry, passed
over has no image. -/
def State.gather (s : State) (bay : Nat) (d : EngDesc) (p : Pf) (part : PartnerCopies) (skip : Nat → Bool) :
    List Gathered × State :=
  (List.range d.n).foldl (fun (acc : List Gathered × State) i =>
    let e := acc.2.listEntry p (d.idx + i)
    let c := acc.2.sheetCode p (d.idx + i) e
    if c ≠ cDone ∨ seUnwritten e ∨ skip e then (acc.1 ++ [⟨i, e, c, none⟩], acc.2)
    else
      let (img, u) := acc.2.rawImage bay p e (partOf part i)
      match img with
      | some b => (acc.1 ++ [⟨i, e, cDone, some b⟩], u)
      | none => (acc.1 ++ [⟨i, e, cDamaged, none⟩], if u.partnerAway then u.logDamage d.pf p (d.idx + i) 0 else u)) ([], s)

/-- New images placed consecutively from DST (R181, R183): `f` gives a gathered sheet's new image, or none where it is kept.
When DSTLEN runs out, the sheet and every later one take capacity; a place in a CLEAR or DETONLY region is refused with key (R289). -/
def State.placeAll (s : State) (d : EngDesc) (p : Pf) (comp : Bool) (f : Gathered → Option (List Byte)) (g : EngX) :
    List Gathered → Bool → EngX × State
  | [], _ => (g, s)
  | x :: l, full =>
    let keep := fun code => { g with results := g.results ++ [recOf d.op code x.e] }
    if full then State.placeAll s d p comp f (keep cCapacity) l true
    else
      match f x with
      | none => State.placeAll s d p comp f (keep x.code) l false
      | some img =>
        let slen := ceilDiv img.length 512
        if d.dstlen < g.used + slen + p.ns then State.placeAll s d p comp f (keep cCapacity) l true
        else
          let e' := newEntry x.e (d.dst + g.used) slen comp
          if (List.range (slen + p.ns)).any (s.inRegion e') then State.placeAll s d p comp f (keep cKey) l false
          else
          let (ids, s1) := s.placeImage d.pf p (d.idx + x.i) x.e e' img
          State.placeAll s1 d p comp f
            { g with results := g.results ++ [recOf d.op cDone x.e], commits := g.commits ++ [(x.i, x.e, e')]
                     ids := g.ids ++ ids, used := g.used + slen + p.ns } l false

/-- Whether DST is a T1 location in the home bay's stack that DSTLEN strokes fit (R180). -/
def dstOk (p : Pf) (d : EngDesc) : Bool :=
  decide (locTier d.dst = 1) && decide (locBay d.dst = p.home) && decide (locAddr d.dst + d.dstlen ≤ pfTop)

/-- An operation that has run. -/
def State.engRan (s : State) (bay : Nat) (g : EngX) (pass : Nat) : State :=
  (s.engNote bay { g with ran := true }).setFld (Reg.bayCmpStatus bay) Reg.bayCmpStatus_PASS pass

/-- Verify mismatches counted in BAY.CMP.ERR (R181 step 4, R186). -/
def State.verifyFailed (s : State) (bay n : Nat) : State :=
  let k := Reg.bayCmpErr bay
  if n = 0 then s else ((List.range n).foldl (fun u _ => u.bump k Reg.bayCmpErr_VERIFYFAIL) s).setFld k Reg.bayCmpErr_VERIFYEV 1

/-- COMPRESS_GROUP (R181): count, build, encode, verify and place; the entries are rewritten once the partner has acknowledged.
Log entry 94 DEDUCED. -/
def execCompressGroup (bay : Nat) (partner : PartnerCopies) (s : State) : Host.Outcome State Fault Refusal :=
  guarded (decide (bay < 16)) s fun s =>
    match s.engine bay 0x20 with
    | none => s
    | some g =>
      let d := engDesc g.desc
      let p := s.pf d.pf
      let c := s.engCode bay d
      if c ≠ cDone then s.engAll bay g c
      else if d.xform = 3 ∨ d.tid % 2 = 1 ∨ d.tid = 0 ∨ !dstOk p d then s.engAll bay g cShape
      else if s.nbQueued (locMem d.dst / 512) d.dstlen then s
      else
        let (gs, s1) := s.gather bay d p partner fun _ => false
        let imgs := gs.filterMap (·.img)
        let k := 256 * p.kv * p.bk
        let ck := regionCode d.xform p.bk (imgs.map (·.take k))
        let cv := regionCode d.xform p.bv (imgs.map (·.drop k))
        let verify := decide (s.fld (Reg.bayCmpCtrl bay) Reg.bayCmpCtrl_VERIFY = 1)
        let made := fun x : Gathered => x.img.map (buildImage verify p d.tid ck cv)
        let kept := fun x : Gathered => (made x).bind fun b => if ceilDiv b.1.length 512 < p.strokes then some b.1 else none
        let (g1, s2) := State.placeAll (s1.verifyFailed bay ((gs.filterMap made).map (·.2)).sum) d p true kept g gs false
        let s3 :=
          if s2.conf then s2
          else
            (s2.count (Reg.bayCmpRawin bay) Reg.bayCmpRawin_BYTES (g1.commits.length * p.size)).count
              (Reg.bayCmpStoredout bay) Reg.bayCmpStoredout_BYTES (512 * (g1.commits.map fun x => seSlen x.2.2).sum)
        s3.engRan bay g1 2

/-- EXPAND_SHEETS (R182). -/
def execExpandSheets (bay : Nat) (partner : PartnerCopies) (s : State) : Host.Outcome State Fault Refusal :=
  guarded (decide (bay < 16)) s fun s =>
    match s.engine bay 0x21 with
    | none => s
    | some g =>
      let d := engDesc g.desc
      let p := s.pf d.pf
      let c := s.engCode bay d
      if c ≠ cDone then s.engAll bay g c
      else if !dstOk p d then s.engAll bay g cShape
      else if s.nbQueued (locMem d.dst / 512) d.dstlen then s
      else
        let (gs, s1) := s.gather bay d p partner fun e => !seCompressed e
        let (g1, s2) := State.placeAll s1 d p false (fun x => x.img.map (fitTo (512 * p.strokes) 0)) g gs false
        s2.engRan bay g1 3

/-! ## Sketches (R232 to R234) -/

/-- An exact value as FP8 E4M3, to nearest-even, saturating (R165, R232). -/
def e4m3Of : Fp → Nat
  | .fin n m e => e4m3.signBit n + satCode e4m3 .near m 1 e e4m3.maxCode
  | _ => 0x7F

/-- FP32 bits as FP16 toward +∞, of a value that is not negative. -/
def fp16Up (a : Nat) : Nat :=
  match ofFp32 a with
  | .fin _ m e => min (fp16.magCode .up m 1 e) fp16.infCode
  | .inf _ => fp16.infCode
  | .nan => 0x7E00

/-- The centroid codes and the radius of one head's keys. -/
def headSketch (d : Nat) (keys : List (List Fp)) : List Nat × Nat :=
  let c := (List.range d).map fun i =>
    match Fp.sum (keys.map fun k => k.getD i .nan) with
    | .fin n m e => e4m3Of (.fin n m (e - 8))
    | v => e4m3Of v
  if keys.any hasSpecial then (c, 0x7E00)
  else
    let cf := c.map e4m3.decode
    let rho := keys.map fun k => sqrtUp (upFp (Fp.sum ((k.zip cf).map fun (a, b) =>
      let x := a.add b.neg
      x.mul x)))
    let r := fp16Up (rho.foldl boundMax 0)
    (c, if r = 0 then 1 else r)

/-- The sketch strokes of a sheet from its keys region (R228, R232). -/
def sketchBytes (p : Pf) (keys : List Byte) : List Byte :=
  let hs := (List.range p.kv).map fun h => headSketch p.d ((List.range 256).map (p.keyVec keys h))
  fitTo (512 * p.ns) 0 (hs.flatMap (fun h => natBytes 2 h.2) ++ hs.flatMap fun h => h.1.map (BitVec.ofNat 8))

/-- The keys region of a sheet as a build reads it, from the key strokes or key blocks alone. -/
def State.keysOf (s : State) (bay : Nat) (p : Pf) (e : Nat) (part : PartnerCopies) : Option (List Byte) × State :=
  if seCompressed e then s.engExpand bay p e (expandKeys p) part
  else
    let (bs, s1) := s.readSheets p e part (ceilDiv (256 * p.kv * p.bk) 512) 0
    ((bs.mapM id).map List.flatten, s1)

/-- Whether a mirrored operation that the engine awaits is still unacknowledged. -/
def State.engWaits (s : State) (g : EngX) : Bool := g.ids.any fun i => s.pair.window.any fun w => w.1 == i

/-- The strokes `ws` of sheet `i` of a build placed and mirrored, and the engine awaiting them (R233, R403). -/
def State.buildWrite (s : State) (d : EngDesc) (p : Pf) (i : Nat) (ws : List (Nat × List Byte)) (g : EngX) : EngX × State :=
  let e := s.listEntry p (d.idx + i)
  let v := (s.putSheet p e ws).mirrorStrokes none d.pf p (d.idx + i) e (ws.map (·.1))
  ({ g with ids := (List.range (v.pair.nextId - s.pair.nextId)).map (s.pair.nextId + ·) }, v)

/-- The first sketch stroke of a sheet written once the partner has acknowledged the sheet's other sketch strokes (R233). -/
def State.settleFirst (s : State) (bay : Nat) : State :=
  match (s.bay bay).engine with
  | none => s
  | some g =>
    match g.first with
    | none => s
    | some (i, bs) =>
      if s.engWaits g then s
      else
        let d := engDesc g.desc
        let p := s.pf d.pf
        let (g1, s1) := s.buildWrite d p i [(seSlen (s.listEntry p (d.idx + i)), bs)] { g with first := none }
        s1.setEngine bay g1

/-- One sheet of a build (R232, R234): its record, and where it is built every sketch stroke but the first written. -/
def State.buildSheet (s : State) (bay : Nat) (d : EngDesc) (p : Pf) (part : PartnerCopies) (i : Nat) (g : EngX) : EngX × State :=
  let e := s.listEntry p (d.idx + i)
  let c := s.pfCode d.pf p
  let c := if c = cDone then s.sheetCode p (d.idx + i) e else c
  let out := fun code (v : State) => ({ g with results := g.results ++ [code] }, v)
  let g0 := sheetStroke e (seSlen e)
  let built := s.stamp g0 = s.sheetSeal p e (seSlen e) && radiiOk p.kv (s.bytes (512 * g0) 512)
  if c ≠ cDone then out c s
  else if seNtok e < 256 ∨ seUnwritten e ∨ built then out cSequence s
  else
    match s.keysOf bay p e (partOf part i) with
    | (none, v) => out cDamaged (if v.partnerAway then v.logDamage d.pf p (d.idx + i) 0 else v)
    | (some ks, v) =>
      let bs := sketchBytes p ks
      let ws := (List.range p.ns).map fun j => (seSlen e + j, (bs.drop (512 * j)).take 512)
      v.buildWrite d p i (ws.drop 1)
        { g with results := g.results ++ [cDone], changed := g.changed + 1, first := some (i, bs.take 512) }

/-- Whether a near-bank operation that has still to start is to use the sketch strokes of a sheet of a run (R302). -/
def State.sketchHeld (s : State) (d : EngDesc) (p : Pf) (i : Nat) : Bool :=
  let e := s.listEntry p (d.idx + i)
  s.nbQueued (sheetStroke e (seSlen e)) p.ns

/-- BUILD_SKETCHES (R232 to R235): the next sheet of the run is built, once the writes of the one before it are acknowledged.
Log entry 124 DESIGN CHOICE. -/
def execBuildSketches (bay : Nat) (partner : PartnerCopies) (s : State) : Host.Outcome State Fault Refusal :=
  guarded (decide (bay < 16)) s fun s =>
    match s.engine bay 0x23 with
    | none => s
    | some g =>
      let d := engDesc g.desc
      let p := s.pf d.pf
      let c := s.engCode bay d
      if g.results.isEmpty && decide (c ≠ cDone) then s.engAll bay g c
      else if g.first.isSome || s.engWaits g || s.sketchHeld d p g.results.length then s
      else
        let (g1, s1) := s.buildSheet bay d p partner g.results.length g
        (s1.engNote bay { g1 with ran := decide (d.n ≤ g1.results.length) }).settleFirst bay

/-! ## Moves (R315 to R321) -/

/-- Whether a move's DST keeps the rules of R315. -/
def State.moveDst (s : State) (p : Pf) (d : EngDesc) : Bool :=
  match locTier d.dst with
  | 0 => decide (locBay d.dst = p.home) && decide (locAddr d.dst + d.dstlen ≤ sramStrokes)
  | 1 => decide (locBay d.dst = p.home) && decide (locAddr d.dst + d.dstlen ≤ pfTop)
  | 2 => s.t2Fits (locAddr d.dst) 1
  | _ => decide (locAddr d.dst % 32 = 0)
      && decide (locAddr d.dst + d.dstlen ≤ 32 * s.fld Reg.flashCap Reg.flashCap_LPAGES)

/-- Whether `n` strokes of a place can be reached now, as a code (R323, R325, R328, R340). -/
def State.reachCode (s : State) (l n : Nat) : Nat :=
  match locTier l with
  | 2 =>
    if s.t2Gone (locAddr l) then cUnavailable
    else if !s.t2Fits (locAddr l) n then cShape
    else if s.t2Up (locAddr l) then cDone else cUnavailable
  | 3 =>
    if 32 * s.fld Reg.flashCap Reg.flashCap_LPAGES < locAddr l + n then cShape
    else if (List.range (ceilDiv n 32)).all (fun i => s.t3Up (locAddr l + 32 * i)) then cDone else cUnavailable
  | _ => if s.locReads l s.ec then cDone else cUnavailable

/-- One stroke of a move (R316): copied verbatim where it passes its check, from the partner's copy where it does not; an
absent stroke of a raw image is carried unchecked (R41); one placed in T2 is written to the host. Log entry 49 DEDUCED. -/
def State.moveStroke (s : State) (pf : Nat) (p : Pf) (e e' i : Nat) (part : PartnerCopies) : Bool × State :=
  let g := sheetStroke e i
  let g' := sheetStroke e' i
  let q := s.sheetSeal p e i
  let put := fun (u : State) bs q =>
    let v := u.putStroke g' bs q
    if locTier (seLoc e') = 2 then v.t2Write pf (locAddr (seLoc e') + i) else v
  let carry := fun (u : State) => put u (u.bytes (512 * g) 512) (u.stamp g)
  if !seCompressed e && decide (i < seSlen e) && p.absentStroke (seNtok e) i then (true, carry s)
  else
    let (ok, s1) := s.check g q 0
    let good := ok && (locTier (seLoc e) != 3 || s1.t3Good (locAddr (seLoc e) + i))
      && !(locTier (seLoc e) == 2 && s1.host.t2Failed.contains (locAddr (seLoc e) + i))
    if good then (true, carry s1)
    else
      match (if s1.partnerAway then none else part.lookup i) with
      | some bs => (true, put s1 (fitTo 512 0 bs) q)
      | none => (false, s1)

/-- The pages of a T3 place given contents, their programs awaited (R334). -/
def State.queuePages (s : State) (l n : Nat) : List Nat × State :=
  if locTier l = 3 then
    let ps := (List.range (ceilDiv n 32)).map fun i => locAddr l / 32 + i
    (ps, ps.foldl (fun u q => u.queuePage q) s)
  else ([], s)

/-- The rest of the last flash page of `n` strokes at a T3 place filled with zero strokes (R316). -/
def State.padPage (s : State) (l n : Nat) : State :=
  if locTier l = 3 then
    (List.range (32 * ceilDiv n 32 - n)).foldl (fun u j => u.putStroke (locMem l / 512 + n + j) (List.replicate 512 0) .none) s
  else s

/-- The strokes of a sheet copied to its new place, until one fails on both copies: which, and the state (R316 step 4). -/
def State.moveStrokes (s : State) (pf : Nat) (p : Pf) (e e' : Nat) (part : PartnerCopies) : Option Nat × State :=
  (List.range (seSlen e + p.ns)).foldl (fun (acc : Option Nat × State) j =>
    if acc.1.isSome then acc
    else
      let (ok, u) := acc.2.moveStroke pf p e e' j part
      (if ok then none else some j, u)) (none, s)

/-- Whether every flash channel of `n` strokes from a place has room (R332, R342). -/
def State.moveRoom (s : State) (l n : Nat) : Bool :=
  decide (locTier l ≠ 3) || (List.range (ceilDiv n 32)).all fun j => (s.fch (pageCh (locAddr l / 32 + j))).room

/-- One sheet of a move, steps 1 to 4 (R289, R316, R319). A sheet that fails keeps its entry, but one whose image fails on both
copies is marked damaged (R31, R341); a write of the sheet noted before its step 4 is in the image that is copied. Log entry 49
DEDUCED. -/
def State.moveSheet (s : State) (d : EngDesc) (p : Pf) (part : PartnerCopies) (g : EngX) (i : Nat) : EngX × State :=
  let idx := d.idx + i
  let e := s.listEntry p idx
  let out := fun code (g : EngX) (u : State) => ({ g with results := g.results ++ [recOf d.op code e] }, u)
  let n := seSlen e + p.ns
  let pos := if locTier d.dst = 3 then 32 * ceilDiv g.used 32 else g.used
  let l := d.dst + pos
  let c := s.pfCode d.pf p
  if p.count ≤ idx then out cShape g s
  else if g.full then out cCapacity g s
  else if c ≠ cDone then out c g s
  else if seUnwritten e then out cDone g s
  else if s.catBlocked p e then out cBlocked g s
  else if d.dstlen < pos + n then out cCapacity { g with full := true } s
  else
    let cs := s.reachCode (seLoc e) n
    let cd := s.reachCode l n
    if cs ≠ cDone then out cs g s
    else if cd ≠ cDone then out cd g s
    else if (List.range n).any (fun j => s.inRegion e j || s.inRegion (putBits e 0 48 l) j) then out cKey g s
    else if !s.moveRoom l n then out cCapacity g s
    else
      let g := { g with used := if locTier l = 3 then pos + 32 * ceilDiv n 32 else pos + n
                        dirty := g.dirty.filter (· != d.pf * 2 ^ 32 + idx) }
      let e' := putBits e 0 48 l
      match s.moveStrokes d.pf p e e' (partOf part i) with
      | (some j, s1) => out cDamaged g (if j < seSlen e then s1.markDamaged d.pf p idx e 0 else s1)
      | (none, s1) =>
        let (ps, s2) := (s1.padPage l n).queuePages l n
        out cDone { g with commits := g.commits ++ [(i, e, e')], moves := g.moves ++ [i], pages := g.pages ++ ps }
          (if s2.partnerAway || s2.mirrorOff then s2 else s2.pairSend 4 d.pf (512 * n) (.pairMsg 0x10 [d.pf, idx, l]))

/-- The release of a move's source (R316, R318, R333): a T3 source is discarded. -/
def State.releaseSource (s : State) (p : Pf) (e : Nat) : State :=
  if locTier (seLoc e) = 3 then
    (List.range (ceilDiv (seSlen e + p.ns) 32)).foldl (fun u i => u.unmapPage (locAddr (seLoc e) / 32 + i)) s
  else s

/-- A sheet's record replaced. -/
def EngX.setResult (g : EngX) (i r : Nat) : EngX := { g with results := putAt g.results i r }

/-- Whether a sheet of an operation was written meanwhile (R183, R319). -/
def EngX.written (g : EngX) (d : EngDesc) (i : Nat) : Bool := g.dirty.contains (d.pf * 2 ^ 32 + (d.idx + i))

/-- A sheet of an operation committed (R50, R183, R316, R317, R319): abandoned with sequence where it was written meanwhile,
else its entries are rewritten and mirrored, and while the partner is away the units of a moved sheet are logged (R403, R407).
Log entry 48 DEDUCED. -/
def State.commitSheet (s : State) (d : EngDesc) (p : Pf) (g : EngX) (cm : Nat × Nat × Nat) : EngX × State :=
  let (i, e, e') := cm
  let idx := d.idx + i
  if g.written d i then (g.setResult i (recOf d.op cSequence (s.listEntry p idx)), s)
  else
    let new := newEntry (s.listEntry p idx) (seLoc e') (seSlen e') (seCompressed e')
    let (nocat, s1) := s.putEntry p idx new
    let s2 := s1.mirrorEntry none d.pf p idx 4
    let s3 := if d.op = 0x10 then s2.releaseSource p e else s2
    let s4 := if d.op = 0x10 ∧ s3.partnerAway then (s3.logDamage d.pf p idx 0).logDamage d.pf p idx 1 else s3
    let r := recOf d.op cDone new + (if d.op = 0x10 then b2n nocat * 2 ^ 20 else 0)
    ({ g.setResult i r with changed := g.changed + 1 }, s4)

/-- Commits of an operation carried out one after another. -/
def State.commitAll (s : State) (d : EngDesc) (p : Pf) (g : EngX) (cms : List (Nat × Nat × Nat)) : EngX × State :=
  cms.foldl (fun (acc : EngX × State) c => acc.2.commitSheet d p acc.1 c) (g, s)

/-- Whether a logical page holds a part of a moved sheet's new place. -/
def pageOf (p : Pf) (cm : Nat × Nat × Nat) (lpage : Nat) : Bool :=
  let l := seLoc cm.2.2
  locTier l == 3 && decide (locAddr l ≤ 32 * lpage + 31 ∧ 32 * lpage < locAddr l + seSlen cm.2.2 + p.ns)

/-- The sheets of a move whose partner's move is acknowledged, or is awaited no longer (R573), and whose pages have all been
programmed (R334): their entries are rewritten and their sources released (R316 steps 6 and 7). -/
def State.settleMoves (s : State) (bay : Nat) : State :=
  match (s.bay bay).engine with
  | none => s
  | some g =>
    let d := engDesc g.desc
    if d.op ≠ 0x10 then s
    else
      let p := s.pf d.pf
      let g := if s.partnerAway || s.mirrorOff then { g with moves := [] } else g
      let ready := fun (cm : Nat × Nat × Nat) => !g.moves.contains cm.1 && !g.pages.any (pageOf p cm)
      let (g1, s1) := s.commitAll d p { g with commits := g.commits.filter fun c => !ready c } (g.commits.filter ready)
      s1.setEngine bay g1

/-- Whether a read of a T2 stroke of a sheet is outstanding. -/
def State.t2Waits (s : State) (p : Pf) (e : Nat) : Bool :=
  locTier (seLoc e) == 2 && s.host.reads.any fun r =>
    r.1.kind == 0 && decide (locAddr (seLoc e) ≤ r.1.arg ∧ r.1.arg < locAddr (seLoc e) + seSlen e + p.ns)

/-- MOVE_SHEETS (R315, R316, R319): the next sheet of the run takes steps 1 to 4, once its reads of T2 have ended; step 5 awaits the
partner's own move of it, but while the partner is away or mirroring is off. Log entry 124 DESIGN CHOICE. -/
def execMoveSheets (bay : Nat) (partner : PartnerCopies) (s : State) : Host.Outcome State Fault Refusal :=
  guarded (decide (bay < 16)) s fun s =>
    match s.engine bay 0x10 with
    | none => s
    | some g =>
      let d := engDesc g.desc
      let p := s.pf d.pf
      let c := s.pfCode d.pf p
      let i := g.results.length
      let e := s.listEntry p (d.idx + i)
      if g.results.isEmpty && decide (c ≠ cDone) then s.engAll bay g c
      else if g.results.isEmpty && (decide (p.home ≠ bay) || !s.moveDst p d) then s.engAll bay g cShape
      else if g.results.isEmpty && !s.stackReads p.home s.ec then s.engAll bay g cUnavailable
      else if s.t2Waits p e || s.nbQueued (locMem d.dst / 512 + g.used) (seSlen e + p.ns) then s
      else
        let (g1, s1) := s.moveSheet d p partner g i
        let a := locAddr (seLoc e)
        let mine := fun (x : Nat) => decide (locTier (seLoc e) = 2 ∧ a ≤ x ∧ x < a + seSlen e + p.ns)
        let s2 : State := { s1 with host := { s1.host with t2Failed := s1.host.t2Failed.filter fun x => !mine x } }
        (s2.engNote bay { g1 with ran := decide (d.n ≤ g1.results.length) }).settleMoves bay

/-- MOVE_PARTNER_ACK (R316, R320): the partner's move of the next sheet is done, and once its own pages are programmed its entries are
rewritten and the source released, or it was refused, and the sheet takes unavailable. Log entry 90 DEDUCED. -/
def execMovePartnerAck (bay : Nat) (applied : Bool) (s : State) : Host.Outcome State Fault Refusal :=
  guarded (decide (bay < 16)) s fun s =>
    match (s.bay bay).engine with
    | none => s
    | some g =>
      match g.moves with
      | i :: ms =>
        if applied then (s.setEngine bay { g with moves := ms }).settleMoves bay
        else
          let g1 := { g with moves := ms, commits := g.commits.filter fun c => c.1 != i }
          let g2 := (g.commits.filter fun c => c.1 == i).foldl (fun h c => h.setResult i (recOf (engDesc g.desc).op cUnavailable c.2.1)) g1
          s.setEngine bay g2
      | [] => s

/-- The partner's request to move a sheet of this node's own copy (R320): the image goes to the same place on this node's tiers,
with the strokes the request brings for those that fail here; acknowledged once it is placed and its pages are programmed, else
refused and what was written discarded. Log entry 126 DEDUCED. -/
def State.partnerMove (s : State) (op : MirrorIn) : State :=
  let p := s.pf op.pf
  let e := s.listEntry p op.idx
  let l := (op.writes.headD ⟨0, .none, []⟩).addr
  let n := seSlen e + p.ns
  let refuse := fun (u : State) => u.emit (.mirrorAck false)
  let fits := decide (locTier l = 2) || decide (locTier l = 3 ∧ locAddr l % 32 = 0)
    || decide (locTier l = 0 ∧ locAddr l + n ≤ sramStrokes) || decide (locTier l = 1 ∧ locAddr l + n ≤ pfTop)
  if s.pfCode op.pf p ≠ cDone ∨ p.count ≤ op.idx ∨ !fits ∨ s.reachCode (seLoc e) n ≠ cDone ∨ s.reachCode l n ≠ cDone
      ∨ !s.moveRoom l n then refuse s
  else
    let part := (op.writes.drop 1).map fun w => (w.addr, w.data)
    match s.moveStrokes op.pf p e (putBits e 0 48 l) part with
    | (some _, s1) => refuse (if locTier l = 3 then s1.releaseSource p (putBits e 0 48 l) else s1)
    | (none, s1) =>
      let (ps, s2) := (s1.padPage l n).queuePages l n
      if ps.isEmpty then s2.emit (.mirrorAck true)
      else { s2 with pair := { s2.pair with moveWaits := s2.pair.moveWaits ++ [(ps, ps)] } }

/-- A page of a partner's move programmed: the move is acknowledged with its last one. -/
def State.partnerPage (s : State) (lpage : Nat) : State :=
  let ws := s.pair.moveWaits.map fun w => (w.1.filter (· != lpage), w.2)
  (ws.filter fun w => w.1.isEmpty).foldl (fun u _ => u.emit (.mirrorAck true))
    { s with pair := { s.pair with moveWaits := ws.filter fun w => !w.1.isEmpty } }

/-- A page of a partner's move that could not be programmed: the move is refused and its pages discarded (R320). -/
def State.partnerFail (s : State) (lpage : Nat) : State :=
  let hit := fun (w : List Nat × List Nat) => w.1.contains lpage
  (s.pair.moveWaits.filter hit).foldl (fun u w => (w.2.foldl (fun v q => v.unmapPage q) u).emit (.mirrorAck false))
    { s with pair := { s.pair with moveWaits := s.pair.moveWaits.filter fun w => !hit w } }

/-! ## T3 ranges and heat (R313, R322, R333) -/

/-- The summary code of a range operation kept in the only record. -/
def State.engOne (s : State) (bay : Nat) (g : EngX) (code extra : Nat) : State :=
  s.setEngine bay { g with ran := true, results := [code], used := extra }

/-- DISCARD_T3_RANGE (R333). -/
def execDiscardT3Range (bay : Nat) (s : State) : Host.Outcome State Fault Refusal :=
  guarded (decide (bay < 16)) s fun s =>
    match s.engine bay 0x11 with
    | none => s
    | some g =>
      let d := engDesc g.desc
      let a := locAddr d.dst
      if locTier d.dst ≠ 3 ∨ a % 32 ≠ 0 ∨ d.dstlen % 32 ≠ 0
          ∨ 32 * s.fld Reg.flashCap Reg.flashCap_LPAGES < a + d.dstlen then s.engOne bay g cShape 0
      else if (List.range (d.dstlen / 32)).any (fun i => !s.t3Up (a + 32 * i)) then s.engOne bay g cUnavailable 0
      else ((List.range (d.dstlen / 32)).foldl (fun u i => u.unmapPage (a / 32 + i)) s).engOne bay g cDone 0

/-- What a stroke of a 0x14 copy is sealed under in its place (R322, R453). -/
def State.copySeal (s : State) (l i : Nat) : Seal :=
  match locTier l with
  | 0 => .none
  | 1 => s.locWant (locBay l) (locAddr l + i)
  | _ => .key (s.key 0).kid (flashTweak (locAddr l + i))

/-- One stroke of a 0x14 copy (R322): zeros from an unmapped page. -/
def State.copyStroke (s : State) (src dst i : Nat) : Bool × State :=
  let g := locMem src / 512 + i
  let g' := locMem dst / 512 + i
  let put := fun (u : State) bs => u.putStroke g' bs (u.copySeal dst i)
  if locTier src = 3 ∧ !s.pageMapped ((locAddr src + i) / 32) then (true, put s (List.replicate 512 0))
  else if locTier src = 0 then
    let (b, s1) := s.readSeg src i 0 512
    (true, put s1 (b.getD []))
  else
    let (ok, s1) := s.check g (s.copySeal src i) 0
    if ok && (locTier src != 3 || s1.t3Good (locAddr src + i)) then (true, put s1 (s1.bytes (512 * g) 512)) else (false, s1)

/-- Whether strokes from a T1 place on meet the portfolio table or a flash map region, which take no stroke from an engine (R46,
R329). Log entry 50 DEDUCED. -/
def State.reserved (s : State) (l n : Nat) : Bool :=
  decide (locTier l = 1) && (decide (pfTop < locAddr l + n)
    || (List.range n).any fun i => s.inFlashMap (locBay l) (locAddr l + i))

/-- COPY_T3 (R322): a stroke that fails its check ends the copy with damaged, and RES holds its index. Log entry 50 DEDUCED, 125
DEDUCED. -/
def execCopyT3 (bay : Nat) (s : State) : Host.Outcome State Fault Refusal :=
  guarded (decide (bay < 16)) s fun s =>
    match s.engine bay 0x14 with
    | none => s
    | some g =>
      let d := engDesc g.desc
      let n := d.dstlen
      let t3 := fun l => decide (locTier l = 3)
      let far := if t3 d.src then d.src else d.dst
      let near := if t3 d.src then d.dst else d.src
      if t3 d.src = t3 d.dst ∨ 2 ≤ locTier near ∨ locAddr far % 32 ≠ 0 ∨ n % 32 ≠ 0
          ∨ 32 * s.fld Reg.flashCap Reg.flashCap_LPAGES < locAddr far + n ∨ !locFits near n
          ∨ (t3 d.src && s.reserved near n) = true then s.engOne bay g cShape 0
      else if !s.locReads near s.ec ∨ (List.range (n / 32)).any (fun i => !s.t3Up (locAddr far + 32 * i)) then
        s.engOne bay g cUnavailable 0
      else if t3 d.dst ∧ (List.range (n / 32)).any (fun j => !(s.fch (pageCh (locAddr far / 32 + j))).room) then
        s.engOne bay g cCapacity 0
      else if s.nbQueued (locMem d.dst / 512) n then s
      else
        let (bad, s1) := (List.range n).foldl (fun (acc : Option Nat × State) i =>
          if acc.1.isSome then acc
          else
            let (ok, u) := acc.2.copyStroke d.src d.dst i
            (if ok then none else some i, u)) (none, s)
        match bad with
        | some i => s1.engOne bay g cDamaged i
        | none =>
          let (ps, s2) := s1.queuePages d.dst n
          s2.engOne bay { g with pages := ps } cDone 0

/-- HEAT_REPORT (R313). -/
def execHeatReport (bay : Nat) (s : State) : Host.Outcome State Fault Refusal :=
  guarded (decide (bay < 16)) s fun s =>
    match s.engine bay 0x18 with
    | none => s
    | some g =>
      let d := engDesc g.desc
      let p := s.pf d.pf
      if !p.valid then s.engAll bay g cNoSession
      else if p.home ≠ bay then s.engAll bay g cShape
      else
        let h := s.heatOf bay
        let tick := s.heatTick bay
        let recs := (List.range d.n).map fun i =>
          match h.find d.pf (d.idx + i) with
          | some w => (h.way (heatSet d.pf (d.idx + i)) w).eff tick + 2 ^ 16
          | none => 0
        s.setEngine bay { g with ran := true, results := recs }

/-! ## Completion (R184, R321) -/

/-- Bytes written to a T0 location by the engine. -/
def State.putT0 (s : State) (l off : Nat) (bs : List Byte) : State :=
  let a := locMem l + off
  if locTier l = 0 ∧ locFits l (ceilDiv (off + bs.length) 512) then
    (List.range (ceilDiv (a % 512 + bs.length) 512)).foldl (fun u i => u.setStamp (a / 512 + i) .none) (s.setBytes a bs)
  else s

/-- The summary record (R184). -/
def summaryRec (rs : List Nat) (changed used : Nat) : Nat :=
  ((rs.map (· % 16)).find? (· != 0)).getD 0 + changed % 2 ^ 7 * 2 ^ 4 + used % 2 ^ 32 * 2 ^ 32

/-- The records an operation leaves at RES (R184, R313, R321, R322): one for each sheet and the summary; a heat report has its
records alone; a discard has its summary, a copy the index of its first failing stroke (0 where none fails) and its summary. Log
entry 125 DEDUCED. -/
def engRecords (op : Nat) (g : EngX) : List Nat :=
  if op = 0x18 ∧ g.results.all (fun r => 2 ^ 16 ≤ r ∨ r = 0) then g.results
  else if op = 0x11 then [summaryRec g.results 0 0]
  else if op = 0x14 then [g.used, summaryRec g.results 0 0]
  else g.results ++ [summaryRec g.results g.changed g.used]

/-- The sheets of a compression that were written after its count began and have kept their entries take sequence (R183). -/
def State.abandonAll (s : State) (d : EngDesc) (g : EngX) : EngX :=
  if d.op ≠ 0x20 then g
  else
    { g with results := g.results.mapIdx fun i r =>
        if g.written d i ∧ (r % 16 = cDone ∨ r % 16 = cCapacity) then s.keptRec d i cSequence else r }

/-- Whether an operation still waits: for an acknowledgement, a partner's move, a page or the first stroke of a sketch. -/
def State.engPending (s : State) (d : EngDesc) (g : EngX) : Bool :=
  s.engWaits g || !g.moves.isEmpty || !g.pages.isEmpty || g.first.isSome || (d.op == 0x10 && !g.commits.isEmpty)

/-- ENGINE_OP_COMPLETE (R181 to R184, R233, R334): once every mirrored image is acknowledged, every partner's move answered and every
page programmed, the entries of a compress or expand are rewritten, the records written and the doorbell rung. An OP that R180,
R232, R313 and R314 do not list ends with shape. -/
def execEngineOpComplete (bay : Nat) (s : State) : Host.Outcome State Fault Refusal :=
  guarded (decide (bay < 16)) s fun s =>
    let u := (s.settleMoves bay).settleFirst bay
    match (u.bay bay).engine with
    | none => s
    | some g =>
      let d := engDesc g.desc
      let known := [0x10, 0x11, 0x14, 0x18, 0x20, 0x21, 0x23].contains d.op
      if (!g.ran && known) || u.engPending d g then s
      else
        let p := u.pf d.pf
        let (g1, s1) := if known then u.commitAll d p { u.abandonAll d g with commits := [] } g.commits else ({ g with results := [cShape] }, u)
        let s2 := s1.putT0 d.res 0 ((engRecords d.op g1).flatMap (natBytes 8))
        let s3 := (((s2.updBay bay fun y => { y with engine := none }).quieten bay).setFld (Reg.bayCmpStatus bay) Reg.bayCmpStatus_PASS 0)
        s3.arrive bay d.db (dbRecord d.tag s3.node (Config.sourceKind 2))

end Sys2Proof.Machine
end

