-- ==== Sys2Proof/Machine/Launch.lean ====
section
/-! DEFINITION. Launches, waiting, doorbells, timers and easel control (R75 to R90, R99 to R110, R149, R150, R485, R486). -/

namespace Sys2Proof.Machine

/-! ## The program table (R75 to R77) -/

/-- Entry `n` of a bay's program table as committed: word 0 in bits 63 to 0. -/
def State.prog (s : State) (b n : Nat) : BitVec 128 := SMap.get (fun _ => 0) (s.bay b).prog n

/-- LOC of a program-table entry. -/
def pgLoc (e : BitVec 128) : Nat := bf e 0 48
/-- The image length in words. -/
def pgWords (e : BitVec 128) : Nat := bf e 48 13 + 1
/-- VALID. -/
def pgValid (e : BitVec 128) : Bool := e.getLsbD 63
/-- GEN. -/
def pgGen (e : BitVec 128) : Nat := bf e 64 16
/-- ROLE. -/
def pgRole (e : BitVec 128) : Nat := bf e 80 4
/-- ENTRY. -/
def pgEntry (e : BitVec 128) : Nat := bf e 84 13
/-- LIMIT. -/
def pgLimit (e : BitVec 128) : Nat := bf e 104 24

/-- The bytes of an image as they stand (R75): read by location in T0; zeros where its bay is not ready or the range leaves it.
Log entry 41 DESIGN CHOICE, 51 DEDUCED, 95 DEDUCED. -/
def State.imageBytes (s : State) (e : BitVec 128) : List Byte × State :=
  let n := 8 * pgWords e
  let l := pgLoc e
  if locTier l = 0 ∧ s.locOk l (ceilDiv n 512) then
    let (bs, s1) := s.readLoc l (segs 0 n)
    (bs.flatMap (·.getD []), s1)
  else (List.replicate n 0, s)

/-- BAY_PROG_UPPER_WRITE (R76): word 1 of an entry is staged. -/
def execBayProgUpperWrite (bay entry : Nat) (value : BitVec 64) (s : State) : Host.Outcome State Fault Refusal :=
  guarded (decide (bay < 16) && decide (entry < 64)) s fun s =>
    s.setReg (Reg.bayProg1 bay entry)
      (BitVec.ofNat 64 (bf value 0 33 + bf value 40 24 * 2 ^ 40))

/-- BAY_PROG_COMMIT (R76, R77): word 0 commits the entry with the staged word 1; in confidential mode only an image whose
digest is registered. Log entry 95 DEDUCED. -/
def execBayProgCommit (bay entry : Nat) (value : BitVec 64) (s : State) : Host.Outcome State Fault Refusal :=
  guarded (decide (bay < 16) && decide (entry < 64)) s fun s =>
    let w0 := bf value 0 61 + bf value 63 1 * 2 ^ 63
    let e := BitVec.ofNat 128 (w0 + (s.reg (Reg.bayProg1 bay entry)).toNat * 2 ^ 64)
    let (bs, s1) := s.imageBytes e
    if s.conf && !s.rot.digests.contains (Config.sha256 bs) then
      s1.setFld (Reg.bayDispErr bay) Reg.bayDispErr_ATTEST 1
    else
      (s.setReg (Reg.bayProg0 bay entry) (BitVec.ofNat 64 w0)).updBay bay fun y =>
        { y with prog := SMap.set (fun _ => 0) y.prog entry e }

/-! ## Launches (R78 to R81) -/

/-- A launch read from its 64-byte descriptor (R78), with its target bay; a reserved bit set shows as a reserved mode. -/
def launchOf (src : Src) (bs : List Byte) : Nat × Launch :=
  let w0 := wordAt bs 0
  let bad := bitsOf w0 24 8 ≠ 0 ∨ wordAt bs 5 ≠ 0 ∨ wordAt bs 6 ≠ 0 ∨ wordAt bs 7 ≠ 0
  (bitsOf w0 6 4,
    { src, prog := bitsOf w0 0 6, mask := bitsOf w0 10 12, mode := if bad then 4 else bitsOf w0 22 2, tag := bitsOf w0 32 32
      args := (List.range 4).map fun i => BitVec.ofNat 64 (wordAt bs (i + 1)) })

/-- A licence exception (R4, R100): the event and the precise exception. -/
def State.licTrap (s : State) (x : Ea) (kind res : Nat) : State := (s.logLic x.bay kind res).raise x true 0x02 0 0

/-- The lowest logical easel of a mask outside the tier. -/
def State.outside (s : State) (mask : Nat) : Nat := (lowestIdx 12 fun e => bitOf mask e && decide (s.easelsPerBay ≤ e)).getD 0

/-- LAUNCH (R78, R79, R149): the descriptor, read at issue, reaches the target bay 6h + 4 ec later. A MASK outside the tier, once the
descriptor can be read, raises the licence exception and reaches no bay. Log entry 107 DEDUCED. -/
def execLaunch (x : Ea) (w : Word) (s : State) : Host.Outcome State Fault Refusal :=
  issue x w (opIs w 0x68 0) { sh := shR .g .g .g .z } (fun s =>
    let a : Int := (s.gr x (raOf w)).toNat
    match opCheck a 64 64 with
    | some r => r
    | none =>
      let db := (s.gr x (rbOf w)).toNat
      let n := (freeEntry (s.ex x).outst).getD 0
      let (b, l) := launchOf (.easel x n (if rbOf w = 0 then none else some (bitsOf db 6 4, bitsOf db 0 6)))
        (s.bytes (opBase x + a.toNat) 64)
      if s.tierMask < l.mask then .keep (s.licTrap x 0x01 (b * 16 + s.outside l.mask))
      else
        match s.takeEntry x .launch (rdOf w) a.toNat b 0 64 (6 * hops x.bay b + 4) with
        | some t => .ok (t.updBay b fun y => { y with incoming := y.incoming ++ [l] })
        | none => .stall) s

/-- Whether an easel can take a launch: it runs no program, none is being copied to it, and it is not failed or in reset. -/
def State.idleFor (s : State) (x : Ea) : Bool :=
  let y := s.ex x
  y.src.isNone && y.copy.isNone && y.wait.isNone && !y.failed && y.switching.isNone && decide (y.resetDue.getD 0 ≤ s.ec)
    && (s.est x == stIdle || s.est x == stSleep || s.est x == stOff)

/-- The logical easels of a bay that are out of service (R431). -/
def State.failedMask (s : State) (b : Nat) : Nat := s.fld (Reg.baySpare b) Reg.baySpare_FAILED

/-- The easels a launch takes, if all it needs are idle (R79, R431). -/
def State.pick (s : State) (b : Nat) (l : Launch) : Option (List Nat) :=
  let idle := fun e => bitOf l.mask e && s.idleFor ⟨b, e⟩
  if l.mode = 0 then (lowestIdx 12 idle).map fun e => [e]
  else
    let need := (List.range 12).filter fun e => bitOf l.mask e
    if need.all idle then some need else none

/-- The code an arriving launch is refused with (R4, R79, R103, R431), or done. R79 names no answer to an empty MASK: it is
refused with shape, as a reserved mode is. Log entry 43 DEDUCED, 108 DESIGN CHOICE. -/
def State.launchCode (s : State) (b : Nat) (l : Launch) : Nat :=
  let failed := s.failedMask b
  if 2 ≤ l.mode ∨ l.mask = 0 then cShape
  else if s.tierMask < l.mask then cLicence
  else if pgValid (s.prog b l.prog) = false then cShape
  else if (s.bay b).blocked.contains l.prog then cBusy
  else if (l.mode = 1 ∧ l.mask &&& failed ≠ 0) ∨ l.mask &&& failed = l.mask then cUnavailable
  else if 64 ≤ (s.bay b).queue.length then cBusy
  else cDone

/-- What the source of a launch learns when the bay takes or refuses it (R79, R149, R544): a LAUNCH its completion word, the
host a completion of a refusal; a binding nothing. -/
def State.launchAnswer (s : State) (b : Nat) (l : Launch) (code : Nat) : State :=
  match l.src with
  | .host q => if code = cDone then s else s.hostPost q l.tag code b 0 0 0
  | .easel x n _ =>
    match s.entry x n with
    | some o => if o.kind = .launch then s.finish x o (compWord code 0 0) else s
    | none => s
  | .bind _ _ => s

/-- A refused launch: the counters and events of its code, and its answer. -/
def State.refuseLaunch (s : State) (b : Nat) (l : Launch) (code : Nat) : State :=
  let s1 :=
    if code = cLicence then s.logLic b 0x01 (b * 16 + s.outside l.mask)
    else if code = cBusy then s.setFld (Reg.bayDispErr b) Reg.bayDispErr_BUSY 1
    else s
  s1.launchAnswer b l code

/-- BAY.DISP.STATUS shows the queue and whether an image is being copied (R109). -/
def State.dispStatus (s : State) (b : Nat) : State :=
  let copying := (List.range 12).any fun e => ((s.ex ⟨b, e⟩).copy.map (·.copying)).getD false
  (s.setFld (Reg.bayDispStatus b) Reg.bayDispStatus_QDEPTH (s.bay b).queue.length).setFld
    (Reg.bayDispStatus b) Reg.bayDispStatus_QCOPY (b2n copying)

/-- Whether the instruction store of an easel holds an entry at its generation (R80). -/
def State.holdsImage (s : State) (x : Ea) (prog : Nat) (e : BitVec 128) : Bool :=
  let st := Reg.easelStatus x.bay x.easel
  decide (s.fld st Reg.easelStatus_PROG = prog ∧ s.fld st Reg.easelStatus_GEN = pgGen e ∧ 0 < (s.ex x).imgLen)

/-- The copy of a placed launch begins (R76, R80): it runs the entry kept from its placement, or as committed now; the copy is
left out where the instruction store holds the entry at its generation. An entry invalidated meanwhile ends the launch with shape.
Log entry 51 DEDUCED. -/
def State.beginCopy (s : State) (x : Ea) (l : Launch) (kept : Option (BitVec 128)) : State :=
  let e := kept.getD (s.prog x.bay l.prog)
  let st := Reg.easelStatus x.bay x.easel
  if pgValid e = false then
    (((s.setEst x stIdle).updEx x fun y => { y with copy := none }).launchDone x l cShape 0).dispStatus x.bay
  else
    let n := 8 * pgWords e
    let same := s.holdsImage x l.prog e
    let (bs, s1) := if same then ([], s) else s.imageBytes e
    let s2 := if same then s else s1.setBytes (isBase x) bs
    let len := if same then (s.ex x).imgLen else pgWords e
    let count := 48 + (if same then 0 else 12 * hops (locBay (pgLoc e)) x.bay + ceilDiv n 128) + (if s.conf then 3072 else 0)
    let c : CopyX := { launch := l, kept := true, entry := e, begun := true, firstAt := s.ec + count, copying := !same }
    let s3 := (s2.setFld st Reg.easelStatus_PROG l.prog).setFld st Reg.easelStatus_GEN (pgGen e)
    ((s3.setEst x stIdle).updEx x fun y => { y with copy := some c, imgLen := len, wake := none }).dispStatus x.bay

/-- A launch placed on an easel (R76, R80, R486): the copy begins, after the wake count of a gated easel; one that needs no copy there
runs the entry as committed now. -/
def State.placeOn (s : State) (b : Nat) (l : Launch) (e : Nat) : State :=
  let x : Ea := ⟨b, e⟩
  let p := s.prog b l.prog
  if s.est x = stIdle then s.beginCopy x l none
  else
    s.updEx x fun y =>
      { y with copy := some { launch := l, kept := pgValid p && s.holdsImage x l.prog p, entry := p, begun := false, firstAt := 0,
                              copying := false }
               wake := some (y.wake.getD { due := s.ec + s.wakeCount x }) }

/-- The precedence of launches (R79): bindings by number, host entries, LAUNCH by issuing bay and easel. Of host entries of several
queues that wait in one bay the lower queue goes first; within a queue the earlier. Log entry 109 DESIGN CHOICE. -/
def Launch.rank (l : Launch) : Nat :=
  match l.src with
  | .bind n _ => n
  | .host k => 64 + k % 64
  | .easel x _ _ => 128 + x.key

/-- The incoming launch of highest precedence, the earliest among equals. -/
def firstLaunch : List Launch → Option Launch
  | [] => none
  | l :: ls =>
    match firstLaunch ls with
    | some m => if m.rank < l.rank then some m else some l
    | none => some l

/-- The cycle a launch has reached its bay: that of its LAUNCH entry, else now. -/
def State.launchAt (s : State) (l : Launch) : Nat :=
  match l.src with
  | .easel x n _ => ((s.entry x n).map (·.due)).getD 0
  | _ => 0

/-- The launch a bay takes in next and the cycle it does (R79): the first cycle at which it is free and one has reached it, and of
those that have the one of highest precedence. Log entry 109 DESIGN CHOICE. -/
def State.nextLaunch (s : State) (b : Nat) : Option (Launch × Nat) :=
  let ls := (s.bay b).incoming
  match (ls.map s.launchAt).min? with
  | none => none
  | some first =>
    let t := max (max (s.bay b).acceptAt s.ec) first
    (firstLaunch (ls.filter fun l => decide (s.launchAt l ≤ t))).map fun l => (l, t)

/-- LAUNCH_ACCEPT (R79, R518): the bay takes in one launch per 4 ec by precedence, and places it, queues it or refuses it. A
deep bay takes none until it is active. -/
def execLaunchAccept (bay : Nat) (s : State) : Host.Outcome State Fault Refusal :=
  guarded (decide (bay < 16)) s fun s =>
    match s.nextLaunch bay with
    | none => s
    | some (l, t) =>
      if s.bayUp bay && s.asleep bay then s
      else
        let s1 := s.passTo t
        let s2 := s1.updBay bay fun y => { y with incoming := y.incoming.erase l, acceptAt := s1.ec + 4 }
        let code := if s2.bayUp bay then s2.launchCode bay l else cUnavailable
        if code ≠ cDone then s2.refuseLaunch bay l code
        else
          let s3 := s2.launchAnswer bay l cDone
          match if (s3.bay bay).queue.isEmpty then s3.pick bay l else none with
          | some es => es.foldl (fun u e => u.placeOn bay l e) s3
          | none => (s3.updBay bay fun y => { y with queue := y.queue ++ [l] }).dispStatus bay

/-- LAUNCH_PLACE (R79, R106): the head of the launch queue is placed once every easel it needs is idle. -/
def execLaunchPlace (bay : Nat) (s : State) : Host.Outcome State Fault Refusal :=
  guarded (decide (bay < 16)) s fun s =>
    match (s.bay bay).queue with
    | [] => s
    | l :: q =>
      match s.pick bay l with
      | some es => es.foldl (fun u e => u.placeOn bay l e) ((s.updBay bay fun y => { y with queue := q }).dispStatus bay)
      | none => s

/-- The registers of an easel cleared: g, and in a confidential launch v, t, p and the operand store with them (R80, R81). -/
def State.clearG (s : State) (x : Ea) : State := { s with g := SMap.clear s.g (x.key * 64) (x.key * 64 + 64) }

/-- The confidential clear of R80, with EASEL.SEED zero. -/
def State.clearEasel (s : State) (x : Ea) : State :=
  State.setReg { s with v := SMap.clear s.v (x.key * 32) (x.key * 32 + 32), t := SMap.clear s.t (x.key * 16) (x.key * 16 + 16)
                        p := SMap.clear s.p (x.key * 8) (x.key * 8 + 8)
                        mem := SMap.clear s.mem (opBase x) (opBase x + opSize) } (Reg.easelSeed x.bay x.easel) 0

/-- The source word of R81. -/
def Launch.source (l : Launch) : Word :=
  match l.src with
  | .bind _ r => r
  | _ => BitVec.ofNat 64 l.tag

/-- LAUNCH_FIRST_INSTRUCTION (R80, R81, R176): the program starts. -/
def execLaunchFirstInstruction (x : Ea) (s : State) : Host.Outcome State Fault Refusal :=
  guarded x.ok s fun s =>
    match (s.ex x).copy with
    | none => s
    | some c =>
      if c.begun = false then s
      else
        let s1 := s.passTo c.firstAt
        let s2 := (if s1.conf then s1.clearEasel x else s1).clearG x
        let e := c.entry
        let a := fun i => c.launch.args.getD i 0
        let s3 := ((((s2.setG x 1 (a 0)).setG x 2 (a 1)).setG x 3 (a 2)).setG x 4 (a 3)).setG x 5 c.launch.source
        let s4 := (s3.setG x 6 (BitVec.ofNat 64 (pgGen e + c.launch.prog * 2 ^ 16))).setG x 7
          (BitVec.ofNat 64 (x.easel + x.bay * 16))
        let s5 := (s4.updEx x fun y =>
          { y with src := some c.launch, copy := none, role := pgRole e, limit := pgLimit e, startGc := s4.gc
                   wait := none, fence := none, run := none, faults := [] }).emptySlots x
        (((s5.setPc x (pgEntry e)).setReg (Reg.easelRuntime x.bay x.easel) 0).setEst x stRunning).dispStatus x.bay

/-- RUN_LIMIT_EXPIRY (R102): the program has run for its LIMIT. Log entry 42 DESIGN CHOICE. -/
def execRunLimitExpiry (x : Ea) (s : State) : Host.Outcome State Fault Refusal :=
  guarded x.ok s fun s =>
    let y := s.ex x
    if y.src.isNone || y.limit == 0 || s.est x == stStopped || s.est x == stIdle then s
    else
      let s1 := s.passTo (96 * (y.startGc + y.limit))
      (s1.updEx x fun y => { y.dropRun with wait := none, fence := none }).raise x true 0x0A 0 0

/-! ## Waiting and doorbells (R83 to R87, R149, R150) -/

/-- WAIT and SLEEP at issue (R85, R87, R150, R486). -/
def waitForm (fn : Nat) (sleep : Bool) (x : Ea) (w : Word) : State → Host.Outcome State Fault Refusal :=
  issue x w (opIs w fn 0) { sh := shR .gp .g .g .z } fun s =>
    if s.pendFull x then .trap 0x0C 0 0
    else
      let mask := (s.gr x (raOf w)).toNat
      let lim := (s.gr x (rbOf w)).toNat
      let deep := sleep && s.quiet x
      let s1 := s.setEst x (if deep then s.gateState x else stWaiting)
      let got := (s1.headRecord x.bay mask).map fun r => (s.ec + (if deep then s1.wakeCount x else 4), r.1, r.2)
      let q : WaitX := { mask, limit := if lim = 0 then none else some (s.gc + lim + 1), rd := rdOf w, sleep, got }
      .keep (s1.updEx x fun y => { y with wait := some q })

/-- WAIT (R85, R149). -/
def execWait (x : Ea) (w : Word) (s : State) : Host.Outcome State Fault Refusal := waitForm 0x6B false x w s
/-- SLEEP (R87, R149). -/
def execSleep (x : Ea) (w : Word) (s : State) : Host.Outcome State Fault Refusal := waitForm 0x6C true x w s

/-- A wait ends (R85, R150): with the doorbell and its record, or on its limit; without either it goes on. R85 gives the 48 ec of a
running clock for an arrival; after a limit the next instruction runs as many later. Log entry 110 DESIGN CHOICE. -/
def State.endWait (s : State) (x : Ea) : State :=
  match (s.ex x).wait with
  | none => s
  | some w =>
    let resume := fun (t : Nat) (a b : Word) =>
      let s1 := ((s.passTo t).setEst x stRunning).updEx x fun y => { y with wait := none }
      (((s1.setG x w.rd a).setG x (w.rd + 1) b).advance x 1).boundary x
    match w.got, w.limit with
    | some (t, d, r), _ => resume t (BitVec.ofNat 64 d) r
    | none, some g => resume (96 * g + s.wakeCount x) (BitVec.ofNat 64 (2 ^ 63)) 0
    | none, none => s

/-- WAIT_RESUME (R85): an easel that waits with its clock running resumes. Log entry 42 DESIGN CHOICE. -/
def execWaitResume (x : Ea) (s : State) : Host.Outcome State Fault Refusal :=
  guarded x.ok s fun s => if s.est x = stWaiting then s.endWait x else s

/-- EASEL_WAKE_DONE (R87, R486): an easel asleep or off runs again; a gated idle one begins the copy of its launch. -/
def execEaselWakeDone (x : Ea) (s : State) : Host.Outcome State Fault Refusal :=
  guarded x.ok s fun s =>
    let y := s.ex x
    if s.est x ≠ stSleep ∧ s.est x ≠ stOff then s
    else if y.wait.isSome then s.endWait x
    else
      match y.wake with
      | none => s
      | some k =>
        let s1 := ((s.passTo k.due).setEst x stIdle).updEx x fun y => { y with wake := none, idleSince := k.due / 96 }
        match y.copy with
        | some c => s1.beginCopy x c.launch (if c.kept then some c.entry else none)
        | none => s1

/-- DBPOP (R86, R149): the head record with bit 63 set; from an empty doorbell a record with bit 63 clear, whose other bits the
spec does not state: a free value (log entry 13 DESIGN CHOICE). -/
def execDbpop (x : Ea) (w : Word) (s : State) : Host.Outcome State Fault Refusal :=
  issue x w (opIs w 0x6D 0) { sh := shR .g .g .z .z } (fun s =>
    let d := bf (s.gr x (raOf w)) 0 6
    if s.pendFull x then .trap 0x0C 0 0
    else
      let s := s.takePend x (rdOf w) (some 8)
      match s.fifo x.bay d with
      | r :: q => .ok ((s.setFifo x.bay d q).setG x (rdOf w) (r ||| BitVec.ofNat 64 (2 ^ 63)))
      | [] => let (v, s1) := s.draw; .ok (s1.setG x (rdOf w) (BitVec.ofNat 64 (v % 2 ^ 63)))) s

/-- DB.RING (R83, R91, R149): it takes an entry, and the record is placed in the doorbell of the bay 6h + 4 ec after issue, by
MEMORY_OP_COMPLETE. Log entry 46 DEDUCED. -/
def execDbRing (x : Ea) (w : Word) (s : State) : Host.Outcome State Fault Refusal :=
  issue x w (opIs w 0x6A 0) { sh := shR .z .g .g .z } (fun s =>
    let a := s.gr x (raOf w)
    s.async x .ring 0 0 (bf a 0 10) (bf (s.gr x (rbOf w)) 0 32) 0 (6 * hops x.bay (bf a 0 4) + 4)) s

/-- DOORBELL_ARRIVAL (R84): a record arrives at a doorbell. -/
def execDoorbellArrival (bay db : Nat) (record : BitVec 64) (s : State) : Host.Outcome State Fault Refusal :=
  guarded (decide (bay < 16) && decide (db < 64)) s fun s =>
    s.arrive bay db (BitVec.ofNat 64 (bf record 0 48))

/-- BAY_TIMER_EXPIRY (R90): an enabled timer whose count reaches PERIOD fires its event. The expiry count of R88 goes on over a
time in which the timer is disabled. Log entry 42 DESIGN CHOICE, 85 DEDUCED, 111 DESIGN CHOICE. -/
def execBayTimerExpiry (bay timer : Nat) (s : State) : Host.Outcome State Fault Refusal :=
  guarded (decide (bay < 16) && decide (timer < 8)) s fun s =>
    let r := Reg.bayTimer bay timer
    let period := s.fld r Reg.bayTimer_PERIOD
    if s.fld r Reg.bayTimer_ENABLE = 0 ∨ period = 0 then s
    else
      let at_ := SMap.get (fun _ => 0) (s.bay bay).timerStart timer + period
      let s1 := s.passTo (96 * at_)
      let n := (SMap.get (fun _ => 0) (s1.bay bay).timerCount timer + 1) % 2 ^ 32
      let s2 := s1.updBay bay fun y =>
        { y with timerStart := SMap.set (fun _ => 0) y.timerStart timer at_
                 timerCount := SMap.set (fun _ => 0) y.timerCount timer n }
      let s3 := if s2.fld r Reg.bayTimer_PERIODIC = 1 then s2 else s2.setFld r Reg.bayTimer_ENABLE 0
      s3.event bay (0x48 + timer) (BitVec.ofNat 64 (timer + n * 2 ^ 32))

/-! ## RESUME and easel control (R98, R99, R104, R105) -/

/-- A stopped easel restarts at its program counter (R104): a fence or END that reported an imprecise exception is re-armed,
and the failed operations' entries are freed. -/
def State.restart (s : State) (x : Ea) : State :=
  let s1 := s.setEst x stRunning
  if s.fld (Reg.easelExc x.bay x.easel) Reg.easelExc_PRECISE = 0 then
    s1.updEx x fun y => { y.dropRun with outst := y.dropRun.outst.filter (!·.failed), faults := [], wait := none, fence := none }
  else s1.updEx x fun y => { y.dropRun with wait := none, fence := none }

/-- An easel resumed (R98, R99, R104): the code, and the state. -/
def State.resumeEasel (s : State) (x : Ea) : Nat × State :=
  if s.est x = stHeld then
    match (s.ex x).run with
    | some r => (cDone, (s.setEst x stRunning).runResume x r none)
    | none => (cDone, s.setEst x stRunning)
  else if s.est x = stStopped then (cDone, s.restart x)
  else (cSequence, s)

/-- RESUME (R91, R149): a logical easel outside the tier is refused; else it takes an entry, and takes effect 6h + 4 ec after
issue, by MEMORY_OP_COMPLETE. Log entry 46 DEDUCED. -/
def execResume (x : Ea) (w : Word) (s : State) : Host.Outcome State Fault Refusal :=
  issue x w (opIs w 0x69 0) { sh := shR .g .g .z .z } (fun s =>
    let a := s.gr x (raOf w)
    let t : Ea := ⟨bf a 4 4, bf a 0 4⟩
    if s.easelsPerBay ≤ t.easel then .keep (s.licTrap x 0x01 (t.bay * 16 + t.easel))
    else s.async x .resume (rdOf w) 0 (t.bay * 16 + t.easel) 0 0 (6 * hops x.bay t.bay + 4)) s

/-- Whether a logical easel is one of the tier (R3): the register block of one outside it ignores writes. -/
def State.inTier (s : State) (x : Ea) : Bool := decide (x.easel < s.easelsPerBay)

/-- EASEL_CTRL_STOP (R3, R105): a running easel stops at its next boundary: at once between instructions, at a wait and at a
barrier; after the instruction that holds it otherwise. -/
def execEaselCtrlStop (x : Ea) (s : State) : Host.Outcome State Fault Refusal :=
  guarded x.ok s fun s =>
    let y := s.ex x
    let st := s.est x
    let between := y.run.isNone && (match y.fence with | some f => f.kind == .barrier | none => true)
    if !s.inTier x then s
    else if (st == stRunning && between) || ((st == stWaiting || st == stSleep || st == stOff) && y.wait.isSome) then s.stopNow x
    else if st == stRunning || st == stHeld then s.setFld (Reg.easelCtrl x.bay x.easel) Reg.easelCtrl_STOP 1
    else s

/-- EASEL_CTRL_RESUME (R3, R104). -/
def execEaselCtrlResume (x : Ea) (s : State) : Host.Outcome State Fault Refusal :=
  guarded x.ok s fun s => if s.inTier x ∧ s.est x = stStopped then s.restart x else s

/-! ## Easel reset (R155, R517 to R520) -/

/-- A register range that a reset loses: free values (log entry 13 DESIGN CHOICE). -/
def loseRange {w : Nat} (f k n : Nat) (m : SMap (BitVec w)) : SMap (BitVec w) :=
  SMap.setRange (fun _ => 0) m k ((List.range n).map fun i => BitVec.ofNat w (Config.freeNat (f + i)))

/-- The registers of an easel lost (R520). Log entry 6 DESIGN CHOICE. -/
def State.loseRegs (s : State) (x : Ea) : State :=
  { s with g := loseRange s.free (x.key * 64) 64 s.g, v := loseRange (s.free + 64) (x.key * 32) 32 s.v
           t := loseRange (s.free + 96) (x.key * 16) 16 s.t, p := loseRange (s.free + 112) (x.key * 8) 8 s.p
           free := s.free + 120 }

/-- A DB.RING takes effect (R83, R149): its record is placed. Log entry 46 DEDUCED. -/
def State.endRing (s : State) (x : Ea) (o : OutOp) : State :=
  (s.arrive (bitsOf o.a 0 4) (bitsOf o.a 4 6) (dbRecord o.b s.node (Config.sourceKind 0))).finish x o 0

/-- A RESUME takes effect (R98, R104, R149). Log entry 46 DEDUCED. -/
def State.endResume (s : State) (x : Ea) (o : OutOp) : State :=
  let (c, s1) := s.resumeEasel ⟨o.a / 16, o.a % 16⟩
  s1.finish x o (compWord c 0 0)

/-- The stores of an easel that the controller has taken are placed, what it has sent to other bays arrives, and their completions are
dropped (R155, R518). -/
def State.drainStores (s : State) (x : Ea) : State :=
  (s.ex x).outst.foldl (fun u o =>
    if o.failed then u
    else
      match o.kind with
      | .stLoc => u.endStLoc x o []
      | .stH => u.endStH x o []
      | .stHTok => u.endStHTok x o []
      | .flush => u.endFlush x o
      | .dmaPost => u.endDmaPost x o
      | .ring => u.endRing x o
      | .resume => u.endResume x o
      | _ => u) s

/-- Completions still to come for an easel find no entry (R155). -/
def State.orphan (s : State) (x : Ea) : State :=
  let s1 := { s with catc := { s.catc with
    pendAcc := s.catc.pendAcc.map fun a => if a.x = x then { a with entry := 99 } else a } }
  let cut := fun (l : Launch) => match l.src with
    | .easel y _ d => if y = x then { l with src := .easel y 99 d } else l
    | _ => l
  let nb := fun (n : NbX) => if n.x = x then { n with entry := 99 } else n
  (List.range 16).foldl (fun u b =>
    (u.updBay b fun y =>
      { y with incoming := y.incoming.map cut, searchQ := y.searchQ.filter (·.x != x)
               searching := y.searching.filter (·.x != x) }).updStk b fun y =>
      { y with nbQ := y.nbQ.map nb, nbRun := y.nbRun.map nb }) s1

/-- The block of a logical easel at its After reset values, but PHYS (R519). -/
def State.resetEaselBlock (s : State) (x : Ea) : State :=
  let st := Reg.easelStatus x.bay x.easel
  let phys := s.fld st Reg.easelStatus_PHYS
  let lo := Reg.easelCtrl x.bay x.easel
  State.setFld { s with regs := SMap.clear s.regs lo (lo + 0x10000) } st Reg.easelStatus_PHYS phys

/-- Lane e of the weight stream stops with its easel; the ring's bytes are free values (R272; log entry 13 DESIGN CHOICE). -/
def State.cutLane (s : State) (x : Ea) : State :=
  if (SMap.get (fun _ => ({} : LaneX)) (s.bay x.bay).lanes x.easel).run then
    let w1 := Reg.bayWsLane1 x.bay x.easel
    let (bs, s1) := s.drawBytes (64 + 512 * (s.fld w1 Reg.bayWsLane1_RINGSZ + 9))
    let s2 := s1.setBytes (opBase x + s.fld w1 Reg.bayWsLane1_RINGOFF) bs
    (s2.updBay x.bay fun y => { y with lanes := SMap.set (fun _ => {}) y.lanes x.easel {} }).setFld
      (Reg.bayWsStatus x.bay) ⟨Reg.bayWsStatus_RUN.lo + x.easel, 1⟩ 0
  else s

/-- What the ATTN.STEP or SKETCH.RANK in progress of an easel was writing: its washes or its rank list, as address and bytes. -/
def State.runBytes (s : State) (x : Ea) : List (Nat × Nat) :=
  match (s.ex x).run with
  | none => []
  | some r =>
    let d := attnDesc r.rank (s.bytes (opBase x + r.desc) 64)
    let p := decodePf r.recd
    if r.rank then [(opBase x + d.rank, 8 * d.n)] else [(opBase x + d.wash, washSize * (d.nq * p.qh * p.parts))]

/-- An ATTN.STEP or SKETCH.RANK cut short: every wash or rank entry it was writing is a free value (R33, R155; log entry 13 DESIGN
CHOICE). -/
def State.cutRun (s : State) (x : Ea) : State := s.undefine (s.runBytes x)

/-- An easel reset of a logical easel (R155, R272, R517 to R520): it is idle from `due` on. -/
def State.resetEasel (s : State) (x : Ea) (due : Nat) : State :=
  let s1 := ((((s.cutRun x).drainStores x).cutLane x).orphan x).resetEaselBlock x
  let y := s1.ex x
  ((s1.setEx x { imgLen := 0, opSeq := y.opSeq, idleSince := due / 96, resetDue := some due, failed := y.failed,
                  gate := bitOf (s.fld (Reg.pwrBay0 x.bay) Reg.pwrBay0_IDLEGATE) x.easel }).loseRegs
    x).dispStatus x.bay

/-- EASEL_CTRL_RESET (R3, R517): the easel is idle 512 ec after the request; one out of service or being replaced by a spare stays
off. -/
def execEaselCtrlReset (x : Ea) (s : State) : Host.Outcome State Fault Refusal :=
  guarded x.ok s fun s =>
    if !s.inTier x || (s.ex x).failed || (s.ex x).switching.isSome then s else s.resetEasel x (s.ec + 512)

/-! ## Completion of asynchronous and remote operations -/

/-- MEMORY_OP_COMPLETE (R92, R129, R149, R405): the operation of an entry completes at its count and its completion word lands.
One on a stroke that an earlier one of the easel has still to reach waits for it, as does a load for an easel whose clock stands
(R484, R495), one to a deep bay until that is active (R488), one to a bank held near-bank until that ends (R302) and a mirrored
one while the window of unacknowledged operations is full. A WRIMM, SEND or RECV refused at its issue completes here (R148, R364).
-/
def execMemoryOpComplete (x : Ea) (entry : Nat) (partner : PartnerCopies) (s : State) :
    Host.Outcome State Fault Refusal :=
  guarded (x.ok && decide (entry < 32)) s fun s =>
    match s.entry x entry with
    | none => s
    | some o =>
      if o.failed || s.mustWait x o || s.opAsleep o || (o.kind.loads && !s.clockRuns x) || (o.kind.mirrors && s.windowFull) then s
      else
        let s := s.passTo (s.opDue x o)
        match o.kind with
        | .ldLoc => if o.len = 0 then s.finish x o (compWord cDone 0 0) else s.endLdLoc x o
        | .stLoc => if o.len = 0 then s.finish x o (compWord cDone 0 0) else s.endStLoc x o partner
        | .ldH => if o.len = 0 then s.finish x o (compWord cDone 0 0) else s.endLdH x o partner
        | .stH => if o.len = 0 then s.finish x o (compWord cDone 0 0) else s.endStH x o partner
        | .stHTok => s.endStHTok x o partner
        | .flush => s.endFlush x o
        | .dmaPost => s.endDmaPost x o
        | .wrimm | .send | .recv => if 2 ^ 40 ≤ o.a then s.finish x o (compWord (o.a - 2 ^ 40) 0 0) else s
        | .ring => s.endRing x o
        | .resume => s.endResume x o
        | _ => s

end Sys2Proof.Machine
end

