-- ==== Sys2Proof/Machine/Fences.lean ====
section
/-! DEFINITION. Fences and the system instructions (R91 to R96, R100, R151, R152, R154). -/

namespace Sys2Proof.Machine

/-! ## Conditions (R93, R406) -/

/-- Whether an operation touches the easel's own bay SRAM or stack (R93). -/
def State.ownBay (s : State) (x : Ea) (o : OutOp) : Bool :=
  match o.kind with
  | .ldLoc | .stLoc | .flush => decide (locTier o.a ≤ 1) && locBay o.a == x.bay
  | .ldH | .stH | .stHTok =>
    let p := s.pf (hdPf o.a)
    let l := seLoc (s.listEntry p (hdIdx o.a))
    p.home == x.bay || (decide (locTier l ≤ 1) && locBay l == x.bay)
  | .nb => locBay o.a == x.bay
  | _ => false

/-- Whether an operation goes to another node (R93, R147, R148). -/
def OutKind.fabric : OutKind → Bool
  | .wrimm | .send | .recv => true
  | _ => false

/-- Whether an operation is of the remote class (R91, R149): it writes no location of the node. -/
def OutKind.remote : OutKind → Bool
  | .wrimm | .send | .recv | .launch | .ring | .resume => true
  | _ => false

/-- Whether mirrored operations of an easel are held no more: the node stands alone, or the partner can be reached and the
members are not resynchronising (R406, R409). -/
def State.pairSettled (s : State) : Bool :=
  s.fld Reg.pairStatus Reg.pairStatus_SOLO = 1
    || (s.fld Reg.pairStatus Reg.pairStatus_UNREACH = 0 && s.fld Reg.pairStatus Reg.pairStatus_RESYNC = 0 && !s.pair.owed)

/-- Whether every earlier operation in the scope of a fence has completed (R93). -/
def State.drained (s : State) (x : Ea) (f : FenceX) : Bool :=
  let all := fun (p : OutOp → Bool) => (s.ex x).outst.all fun o => o.failed || !p o
  match f.kind with
  | .easel | .endProg => s.quiet x
  | .bay | .barrier => all (s.ownBay x)
  | .node => all fun o => !o.kind.remote
  | .pair => all (·.kind.mirrors) && s.pair.window.all (fun e => e.2.1 != some x) && s.pairSettled
  | .peer => all fun o => o.kind.fabric && o.b == f.arg

/-- The count of a fence from its condition (R151). -/
def FenceKind.count : FenceKind → Nat
  | .easel => 2
  | .bay | .barrier => 24
  | .node => 96
  | .pair => 8
  | .peer => 4
  | .endProg => 4

/-! ## Issue (R94, R151) -/

/-- A fence entered: it completes by FENCE_COMPLETE. -/
def State.enterFence (s : State) (x : Ea) (kind : FenceKind) (arg : Nat) (limit : Option Nat) : Res :=
  .keep (s.updEx x fun y => { y with fence := some { kind, arg, limit } })

/-- FENCE.EASEL (R151). -/
def execFenceEasel (x : Ea) (w : Word) (s : State) : Host.Outcome State Fault Refusal :=
  issue x w (opIs w 0x70 0) { sh := shR .z .z .z .z } (fun s => s.enterFence x .easel 0 none) s

/-- FENCE.BAY (R151). -/
def execFenceBay (x : Ea) (w : Word) (s : State) : Host.Outcome State Fault Refusal :=
  issue x w (opIs w 0x70 1) { sh := shR .z .z .z .z } (fun s => s.enterFence x .bay 0 none) s

/-- FENCE.BAY with barrier (R94, R151): licence first, then the issuing easel's own bit (R572). -/
def execFenceBayBarrier (x : Ea) (w : Word) (s : State) : Host.Outcome State Fault Refusal :=
  issue x w (opIs w 0x70 2) { sh := shR .z .g .g .z } (fun s =>
    let a := s.gr x (raOf w)
    let mask := bf a 0 12
    let lim := (s.gr x (rbOf w)).toNat
    if s.tierMask < mask then .keep (s.licTrap x 0x01 (x.bay * 16 + s.outside mask))
    else if bitOf mask x.easel = false then .trap 0x01 0 0
    else s.enterFence x .barrier (mask + bf a 16 8 * 2 ^ 16) (if lim = 0 then none else some (s.gc + lim))) s

/-- FENCE.NODE (R151). -/
def execFenceNode (x : Ea) (w : Word) (s : State) : Host.Outcome State Fault Refusal :=
  issue x w (opIs w 0x70 3) { sh := shR .z .z .z .z } (fun s => s.enterFence x .node 0 none) s

/-- FENCE.PAIR (R151, R406). -/
def execFencePair (x : Ea) (w : Word) (s : State) : Host.Outcome State Fault Refusal :=
  issue x w (opIs w 0x70 4) { sh := shR .z .z .z .z } (fun s => s.enterFence x .pair 0 none) s

/-- FENCE.PEER (R151): a node outside R8's range is illegal. -/
def execFencePeer (x : Ea) (w : Word) (s : State) : Host.Outcome State Fault Refusal :=
  issue x w (opIs w 0x70 5) { sh := shR .z .g .z .z } (fun s =>
    let n := bf (s.gr x (raOf w)) 0 12
    if 0x3FF < n then .trap 0x01 0 0 else s.enterFence x .peer n none) s

/-! ## Completion (R93, R94, R100, R154) -/

/-- Whether an easel stands at a barrier of a mask and tag with its earlier writes placed and nothing to report (R93, R94). R94
speaks of the tag alone; two easels whose masks differ do not meet. Log entry 106 DESIGN CHOICE. -/
def State.atBarrier (s : State) (x : Ea) (arg : Nat) : Bool :=
  match (s.ex x).fence with
  | some f => f.kind == .barrier && f.arg == arg && s.drained x f && (s.ex x).faults.isEmpty && s.est x == stRunning
  | none => false

/-- The easel at a fence goes on. -/
def State.leaveFence (s : State) (x : Ea) : State :=
  ((s.updEx x fun y => { y with fence := none }).advance x 1).boundary x

/-- FENCE_COMPLETE (R93, R100, R120, R151, R154): once the condition of the fence or END is met, a pending imprecise exception
is reported at it, or it completes after its count. A barrier completes for every easel of its mask together. -/
def execFenceComplete (x : Ea) (s : State) : Host.Outcome State Fault Refusal :=
  guarded x.ok s fun s =>
    match (s.ex x).fence with
    | none => s
    | some f =>
      if s.drained x f = false then s
      else if (s.ex x).faults ≠ [] then
        let s1 := s.updEx x fun y => { y with fence := none }
        s1.reportOr x s1
      else
        match f.kind with
        | .endProg => (s.passTo (s.ec + 4)).endProgram x f.arg
        | .barrier =>
          let mem := (List.range 12).filter fun e => bitOf f.arg e
          if mem.all fun e => s.atBarrier ⟨x.bay, e⟩ f.arg then
            mem.foldl (fun u e => u.leaveFence ⟨x.bay, e⟩) (s.passTo (s.ec + 24))
          else s
        | k => (s.passTo (s.ec + k.count)).leaveFence x

/-- BARRIER_TIMEOUT (R94, R151): the limit of a barrier expires. -/
def execBarrierTimeout (x : Ea) (s : State) : Host.Outcome State Fault Refusal :=
  guarded x.ok s fun s =>
    match (s.ex x).fence with
    | some f =>
      match f.kind, f.limit with
      | .barrier, some g =>
        let s1 := s.passTo (96 * g)
        (s1.updEx x fun y => { y with fence := none }).raise x true 0x09 0 0
      | _, _ => s
    | none => s

/-! ## System (R152, R153) -/

/-- RDGC (R117, R152). -/
def execRdgc (x : Ea) (w : Word) (s : State) : Host.Outcome State Fault Refusal :=
  issue x w (opIs w 0x78 0) { sh := shR .g .z .z .z } (fun s =>
    if s.pendFull x then .trap 0x0C 0 0 else .ok ((s.takePend x (rdOf w) (some 8)).setG x (rdOf w) (BitVec.ofNat 64 s.gc))) s

/-- PERF.RD (R117, R152, R153): the spec names no counter; the value is free (log entry 13 DESIGN CHOICE). -/
def execPerfRd (x : Ea) (w : Word) (s : State) : Host.Outcome State Fault Refusal :=
  issue x w (opIs w 0x79 0) { sh := shI .g .z 8 } (fun s =>
    if s.conf then .trap 0x07 0 0
    else if s.pendFull x then .trap 0x0C 0 0
    else
      let (v, s1) := (s.takePend x (rdOf w) (some 4)).draw
      .ok (s1.setG x (rdOf w) (BitVec.ofNat 64 v))) s

/-- TRACE (R152, R153): the oldest entry makes room in a full buffer (log entry 8 DEDUCED). -/
def execTrace (x : Ea) (w : Word) (s : State) : Host.Outcome State Fault Refusal :=
  issue x w (opIs w 0x7A 0) { sh := shR .z .g .z .z } (fun s =>
    if s.conf then .trap 0x07 0 0
    else
      .ok (s.updBay x.bay fun y =>
        let l := y.trace ++ [s.gr x (raOf w)]
        { y with trace := l.drop (l.length - Config.traceDepth) })) s

end Sys2Proof.Machine
end

