-- ==== Sys2Proof/Machine/WeightStream.lean ====
section
/-! DEFINITION. The weight stream unit of a bay, and the clearing of its engine's counters (R186, R248, R258 to R274, R451). -/

namespace Sys2Proof.Machine

/-- BAY_CMP_STATCLR (R186). -/
def execBayCmpStatclr (bay : Nat) (s : State) : Host.Outcome State Fault Refusal :=
  guarded (decide (bay < 16)) s fun s => (s.setReg (Reg.bayCmpRawin bay) 0).setReg (Reg.bayCmpStoredout bay) 0

/-- BAY_SPS_CLR (R248). -/
def execBaySpsClr (bay : Nat) (s : State) : Host.Outcome State Fault Refusal :=
  guarded (decide (bay < 16)) s fun s =>
    ((s.setReg (Reg.baySpsRead bay) 0).setReg (Reg.baySpsSkip bay) 0).setReg (Reg.baySpsForced bay) 0

/-! ## Lanes -/

/-- A lane. -/
def State.lane (s : State) (b e : Nat) : LaneX := SMap.get (fun _ => {}) (s.bay b).lanes e

/-- A lane set. -/
def State.setLane (s : State) (b e : Nat) (l : LaneX) : State :=
  s.updBay b fun y => { y with lanes := SMap.set (fun _ => {}) y.lanes e l }

/-- RINGSZ of a lane. -/
def State.ringSize (s : State) (b e : Nat) : Nat := s.fld (Reg.bayWsLane1 b e) Reg.bayWsLane1_RINGSZ

/-- Where the ring of a lane begins in memory. -/
def State.ringBase (s : State) (b e : Nat) : Nat := opBase ⟨b, e⟩ + s.fld (Reg.bayWsLane1 b e) Reg.bayWsLane1_RINGOFF

/-- Bits of BAY.WS.STATUS set or cleared for a lane. -/
def State.wsBit (s : State) (b e : Nat) (f : Fld) (on : Bool) : State :=
  s.setFld (Reg.bayWsStatus b) ⟨f.lo + e, 1⟩ (b2n on)

/-- STATUS of a ring written (R261). -/
def State.ringStatus (s : State) (b e code entry : Nat) : State :=
  s.setBytes (s.ringBase b e + 16) (natBytes 8 (code + entry % 4096 * 2 ^ 16))

/-- The error registers of a lane that stops on an error (R268, R269). -/
def State.wsError (s : State) (b e code entry loc : Nat) : State :=
  let s1 := s.setReg (Reg.bayWsErr b) (BitVec.ofNat 64 (e + code * 2 ^ 4 + 2 ^ 8 + entry % 4096 * 2 ^ 16))
  (s1.setReg (Reg.bayWsErrloc b) (BitVec.ofNat 64 (loc % 2 ^ 48))).wsBit b e Reg.bayWsStatus_ERRSTOP true

/-- A lane stops (R261, R268): STATUS shows its code and the entry being landed, and a code other than done stands in the error
registers with the entry being fetched and the stroke involved. Log entry 54 DEDUCED. -/
def State.wsEnd (s : State) (b e code entry loc : Nat) : State :=
  let l := s.lane b e
  let landing := ((l.flights.find? (!·.landed)).map (·.entry)).getD l.landing
  let s1 := (((s.setLane b e { l with run := false, stopping := none, flights := [] }).quieten b).wsBit b e
    Reg.bayWsStatus_RUN false).ringStatus b e code landing
  if code = cDone then s1 else s1.wsError b e code entry loc

/-- A lane that is stopping stops once nothing it issued is still to land (R268). -/
def State.wsSettle (s : State) (b e : Nat) : State :=
  let l := s.lane b e
  match l.stopping with
  | some (code, entry, loc) => if l.flights.all (·.landed) then s.wsEnd b e code entry loc else s
  | none => s

/-- The entry a lane fetches and the stroke it issues next. -/
def State.wsAt (s : State) (b e : Nat) : Nat × Nat :=
  match (s.lane b e).spans.getLast? with
  | some p => (p.entry, mkLoc 1 b (p.addr + p.issued))
  | none => ((s.lane b e).next, 0)

/-- A lane told to stop with a code, at an entry and a location (R260, R263, R268). -/
def State.wsStopAt (s : State) (b e : Nat) (c : Nat × Nat × Nat) : State :=
  let l := s.lane b e
  if l.run ∧ l.stopping.isNone then (s.setLane b e { l with stopping := some c }).wsSettle b e else s

/-- A lane told to stop with a code where it fetches. -/
def State.wsStop (s : State) (b e code : Nat) : State := s.wsStopAt b e (code, s.wsAt b e)

/-- Every lane of a bay told to stop. -/
def State.wsStopAll (s : State) (b code : Nat) : State := (List.range 12).foldl (fun u e => u.wsStop b e code) s

/-- A slot destroyed or empty stops every running lane that decrypts under it with key (R266). -/
def State.wsKeyLost (s : State) (slot : Nat) : State :=
  allBays.foldl (fun u b =>
    if u.fld (Reg.bayWsCtrl b) Reg.bayWsCtrl_KEYSLOT = slot then u.wsStopAll b cKey else u) s

/-- The stack of a bay enters reset: every running lane stops at once with unavailable (R268). -/
def State.wsDown (s : State) (b : Nat) : State :=
  (List.range 12).foldl (fun u e =>
    if (u.lane b e).run then u.wsEnd b e cUnavailable (u.wsAt b e).1 (u.wsAt b e).2 else u) s

/-- WS_LANE_START (R258, R261, R268): a lane outside the tier is refused, one whose ring does not fit is refused with shape and is
stopped, with nothing written at that ring; else bytes 0 to 63 of the ring are zeroed and fetching begins at FIRST. Log entry 54
DEDUCED. -/
def execWsLaneStart (bay lane : Nat) (s : State) : Host.Outcome State Fault Refusal :=
  guarded (decide (bay < 16) && decide (lane < 12)) s fun s =>
    if s.easelsPerBay ≤ lane then s.logLic bay 0x04 (bay * 16 + lane)
    else if s.fld (Reg.bayWsCtrl bay) Reg.bayWsCtrl_ENABLE = 0 then s
    else
      let w1 := Reg.bayWsLane1 bay lane
      let n := s.ringSize bay lane
      let off := s.fld w1 Reg.bayWsLane1_RINGOFF
      let first := s.fld w1 Reg.bayWsLane1_FIRST
      if n < 16 ∨ 4096 < n ∨ off % 64 ≠ 0 ∨ opSize < off + 64 + 512 * (n + 9) then
        let s1 := if (s.lane bay lane).run then (s.setLane bay lane {}).quieten bay else s.setLane bay lane {}
        (s1.wsBit bay lane Reg.bayWsStatus_RUN false).wsError bay lane cShape first 0
      else
        let s1 := (s.setLane bay lane { run := true, next := first, landing := first }).setBytes (s.ringBase bay lane) (List.replicate 64 0)
        let s2 := (s1.wsBit bay lane Reg.bayWsStatus_RUN true).wsBit bay lane Reg.bayWsStatus_ERRSTOP false
        s2.setReg (Reg.bayWsLane2 bay lane) (BitVec.ofNat 64 first)

/-- WS_LANE_STOP (R258, R268); of a lane outside the tier it is refused under R4. -/
def execWsLaneStop (bay lane : Nat) (s : State) : Host.Outcome State Fault Refusal :=
  guarded (decide (bay < 16) && decide (lane < 12)) s fun s =>
    if s.easelsPerBay ≤ lane then s.logLic bay 0x04 (bay * 16 + lane) else s.wsStop bay lane cDone

/-- ENABLE of BAY.WS.CTRL written (R269). -/
def State.wsEnable (s : State) (b : Nat) (on : Bool) : State :=
  let s1 := s.setFld (Reg.bayWsCtrl b) Reg.bayWsCtrl_ENABLE (b2n on)
  if on then s1 else s1.wsStopAll b cDone

/-- WS_ENABLE_WRITE (R269). -/
def execWsEnableWrite (bay : Nat) (enable : Bool) (s : State) : Host.Outcome State Fault Refusal :=
  guarded (decide (bay < 16)) s fun s => s.wsEnable bay enable

/-- Whether a key slot is INSTALLED. -/
def State.keyGood (s : State) (slot : Nat) : Bool := (s.key slot).state == 1

/-- KEYSLOT of BAY.WS.CTRL written (R266, R451, R476): the slot is loaded into the bay key store, and one that holds no key stops
the running lanes; a full store leaves the write without effect. -/
def State.wsKeyslot (s : State) (b slot : Nat) : State :=
  let s := s.checkSlot slot
  if s.slotRoom b slot then
    let s1 := ((s.loadSlot b slot).setFld (Reg.bayWsCtrl b) Reg.bayWsCtrl_KEYSLOT slot).trimSlots b
    if s1.keyGood slot then s1 else s1.wsStopAll b cKey
  else s

/-- KEYSLOT_WRITE (R451). -/
def execKeyslotWrite (bay slot : Nat) (s : State) : Host.Outcome State Fault Refusal :=
  guarded (decide (bay < 16) && decide (slot < 65536)) s fun s => s.wsKeyslot bay slot

/-! ## Fetching (R259, R260, R264 to R266) -/

/-- Entry `n` of a lane's list, as (word 0, word 1); an entry past the bay SRAM reads as zeros. -/
def State.wsEntry (s : State) (b e n : Nat) : Nat × Nat :=
  let a := 512 * locAddr (s.fld (Reg.bayWsLane0 b e) Reg.bayWsLane0_LIST) + 16 * n
  if a + 16 ≤ 512 * sramStrokes then
    (bytesNat (s.bytes (sramBase b + a) 8), bytesNat (s.bytes (sramBase b + a + 8) 8))
  else (0, 0)

/-- The number of the entry that follows a span. -/
def WsSpan.following (p : WsSpan) : Nat := if p.last then 0 else p.entry + 1

/-- The lane reads its next entry (R260): the code, entry and location it stops with, or the span it fetches.
Log entry 54 DEDUCED. -/
def State.wsFetch (s : State) (b e : Nat) (l : LaneX) : Except (Nat × Nat × Nat) WsSpan :=
  let prev := l.spans.getLast?
  let n := (prev.map (·.following)).getD l.next
  if 4096 ≤ n then .error (cShape, 4095, (s.wsAt b e).2)
  else
    let (w0, w1) := s.wsEntry b e n
    let loc := bitsOf w0 0 48
    let layer := bitsOf w0 48 8
    let strokes := bitsOf w1 0 24
    let back := match prev with
      | some p => !p.last && decide (layer < p.layer)
      | none => false
    if bitOf w0 63 = false ∨ locTier loc ≠ 1 ∨ locBay loc ≠ b ∨ strokes = 0 ∨ stackStrokes < locAddr loc + strokes then
      .error (cShape, n, loc)
    else if back then .error (cSequence, n, loc)
    else .ok { entry := n, layer, start := l.issued, addr := locAddr loc, strokes, issued := 0, stop := bitOf w0 61
               last := bitOf w0 62 }

/-- The layer changes along spans (R264). -/
def layerSteps : List WsSpan → Nat
  | p :: q :: r => (if p.layer = q.layer then 0 else 1) + layerSteps (q :: r)
  | _ => 0

/-- Whether a span still holds strokes at or above RELEASED, issued or to be issued. -/
def WsSpan.live (p : WsSpan) (released : Nat) : Bool := decide (released < p.start + p.issued ∨ p.issued < p.strokes)

/-- Whether a lane whose last span has strokes to issue may issue one (R264); the consume entry is the first live span. -/
def State.wsMay (s : State) (b e : Nat) (l : LaneX) : Bool :=
  decide (layerSteps (l.spans.filter (·.live l.released)) ≤ s.fld (Reg.bayWsCtrl b) Reg.bayWsCtrl_PFD)
    && decide (l.issued - l.released < s.ringSize b e)

/-- A lane's turn (R260, R264, R265): it reads its next entry where the last is used up, and issues a stroke if it may; the
answer is whether it took the slot. -/
def State.wsTurn (s : State) (b e : Nat) : Bool × State :=
  let l := s.lane b e
  if l.run = false ∨ l.stopping.isSome then (false, s)
  else
    let fresh := match l.spans.getLast? with
      | some p => decide (p.issued = p.strokes)
      | none => true
    let got := if fresh then (s.wsFetch b e l).map fun p => { l with spans := l.spans ++ [p] } else .ok l
    match got with
    | .error c => (false, (s.setFld (Reg.bayWsLane2 b e) Reg.bayWsLane2_ENTRY c.2.1).wsStopAt b e c)
    | .ok l1 =>
      let s1 := s.setLane b e l1
      match l1.spans.getLast? with
      | none => (false, s1)
      | some p =>
        let s2 := s1.setFld (Reg.bayWsLane2 b e) Reg.bayWsLane2_ENTRY p.entry
        if s2.wsMay b e l1 then
          let end_ := decide (p.issued + 1 = p.strokes)
          let f : WsFlight :=
            { seq := l1.issued, addr := p.addr + p.issued, entry := p.entry, due := s2.ec + 296, retry := false
              landed := false, kid := (s2.key (s2.fld (Reg.bayWsCtrl b) Reg.bayWsCtrl_KEYSLOT)).kid }
          let l2 := { l1 with spans := l1.spans.dropLast ++ [{ p with issued := p.issued + 1 }]
                              flights := l1.flights ++ [f], issued := l1.issued + 1
                              stopping := if end_ && p.stop then some (cDone, p.entry, 0) else none }
          (true, ((s2.setLane b e l2).setFld (Reg.bayWsLane2 b e) Reg.bayWsLane2_FETCHED l2.issued).updBay b
            fun y => { y with wsTurn := (e + 1) % 12 })
        else (false, s2)

/-- Lanes offered a slot in turn until one takes it. -/
def State.wsOffer (s : State) (b : Nat) : List Nat → State
  | [] => s
  | e :: es =>
    let (took, s1) := s.wsTurn b e
    if took then s1 else s1.wsOffer b es

/-- Whether the unit takes a slot that descriptor work wants too (R265): some running lane holds fewer than RINGSZ / 2 landed and
unreleased strokes. -/
def State.wsShort (s : State) (b : Nat) : Bool :=
  (List.range 12).any fun e =>
    let l := s.lane b e
    l.run && decide (2 * (l.landed - l.released) < s.ringSize b e)

/-- Whether descriptor work wants the slots of a bay's engine: an operation of the engine has still to run. Log entry 54 DEDUCED. -/
def State.descWants (s : State) (b : Nat) : Bool :=
  match (s.bay b).engine with
  | some g => !g.ran
  | none => false

/-- WS_STROKE_ISSUE (R265, R266, R268, R494): the next lane in turn that may fetch issues a stroke read, unless descriptor work
takes the slot; a key slot that is destroyed or empty stops every running lane with key; nothing is read during a brake or while the
stack is not ready. -/
def execWsStrokeIssue (bay : Nat) (s : State) : Host.Outcome State Fault Refusal :=
  guarded (decide (bay < 16)) s fun s =>
    if s.fld Reg.pwrStatus Reg.pwrStatus_BRAKE = 1 ∨ s.stackReads bay s.ec = false ∨ s.admits bay = false then s
    else if s.keyGood (s.fld (Reg.bayWsCtrl bay) Reg.bayWsCtrl_KEYSLOT) = false then s.wsStopAll bay cKey
    else if s.descWants bay && !s.wsShort bay then s
    else
      let t := (s.bay bay).wsTurn
      s.wsOffer bay ((List.range 12).map fun i => (t + i) % 12)

/-! ## Landing (R262, R271) -/

/-- The check of a weight stroke (R266) under the key its read was issued under. Log entry 54 DEDUCED. -/
def State.wsCheck (s : State) (b addr kid : Nat) : Bool × State :=
  s.check (stackBase b / 512 + addr) (s.sealWith b addr kid (locTweak b addr)) 0

/-- The strokes at the head of the stream that have landed, and the rest. -/
def landedPrefix (fs : List WsFlight) : List WsFlight × List WsFlight := (fs.takeWhile (·.landed), fs.dropWhile (·.landed))

/-- A stroke lands (R261, R262): its slot, the copy of slots 0 to 8, then LANDED over the landed prefix; a lane whose entry
says STOPAFTER stops after its last stroke. -/
def State.wsLand (s : State) (b e : Nat) (f : WsFlight) : State :=
  let n := s.ringSize b e
  let j := f.seq % n
  let base := s.ringBase b e
  let bs := s.bytes (stackBase b + 512 * f.addr) 512
  let s1 := s.setBytes (base + 64 + 512 * j) bs
  let s2 := if j < 9 then s1.setBytes (base + 64 + 512 * (n + j)) bs else s1
  let l := s2.lane b e
  let (pre, rest) := landedPrefix (l.flights.map fun g => if g.seq = f.seq then { g with landed := true } else g)
  let l1 := { l with flights := rest, landed := l.landed + pre.length, landing := ((pre.getLast?).map (·.entry)).getD l.landing }
  let s3 := (s2.setLane b e l1).count (Reg.bayWsStrokes b) Reg.bayWsStrokes_COUNT 1
  let s4 := if pre.isEmpty then s3
    else (s3.setBytes base (natBytes 8 (l1.landed % 2 ^ 32))).ringStatus b e cDone l1.landing
  s4.wsSettle b e

/-- A stroke of a lane read again, or for the second time (R271). -/
def State.wsTry (s : State) (b e : Nat) (f : WsFlight) : State :=
  let s0 := s.passTo f.due
  let (ok, s1) := s0.wsCheck b f.addr f.kid
  if ok then s1.wsLand b e f
  else if f.retry then
    let s2 := s1.wsEnd b e cDamaged f.entry (mkLoc 1 b f.addr)
    s2.log 0x09 b e (s2.reg (Reg.bayWsErr b)) (s2.reg (Reg.bayWsErrloc b))
  else
    let l := s1.lane b e
    s1.setLane b e { l with flights := l.flights.map fun g =>
      if g.seq = f.seq then { g with retry := true, due := f.due + 288 } else g }

/-- WS_STROKE_LAND (R262): the oldest stroke of a lane on its first read. -/
def execWsStrokeLand (bay lane : Nat) (s : State) : Host.Outcome State Fault Refusal :=
  guarded (decide (bay < 16) && decide (lane < 12)) s fun s =>
    match (s.lane bay lane).flights.find? fun f => !f.landed && !f.retry with
    | some f => s.wsTry bay lane f
    | none => s

/-- WS_STROKE_RETRY (R271): the second read of a stroke that failed its tag. -/
def execWsStrokeRetry (bay lane : Nat) (s : State) : Host.Outcome State Fault Refusal :=
  guarded (decide (bay < 16) && decide (lane < 12)) s fun s =>
    match (s.lane bay lane).flights.find? fun f => !f.landed && f.retry with
    | some f => s.wsTry bay lane f
    | none => s

/-- WS_RELEASED_SAMPLE (R263): the slots below RELEASED become free, or a RELEASED further than RINGSZ from LANDED stops the
lane with sequence. -/
def execWsReleasedSample (bay lane : Nat) (s : State) : Host.Outcome State Fault Refusal :=
  guarded (decide (bay < 16) && decide (lane < 12)) s fun s =>
    let l := s.lane bay lane
    if l.run = false then s
    else
      let r := bytesNat (s.bytes (s.ringBase bay lane + 8) 4)
      let ahead := (l.landed + 2 ^ 32 - r) % 2 ^ 32
      if s.ringSize bay lane < ahead then s.wsStop bay lane cSequence
      else
        let rel := l.landed - ahead
        let keep := l.spans.filter (·.live rel)
        let spans := if keep.isEmpty then (match l.spans.getLast? with | some p => [p] | none => []) else keep
        s.setLane bay lane { l with released := rel, spans }

end Sys2Proof.Machine
end

