-- ==== Sys2Proof/Machine/StackOps.lean ====
section
/-! DEFINITION. The stacks: slot map, admission, mesh, page buffer, scrub, remap and regions (R279 to R294, R499, R570). -/

namespace Sys2Proof.Machine

/-! ## Ready reporting (R513, R514) -/

/-- A bit of GLOBAL.READY set or cleared: a change writes an event record, and a bit that falls sets DROPEV. -/
def State.setReady (s : State) (f : Fld) (i : Nat) (v : Bool) : State :=
  let old := s.reg Reg.globalReady
  let s1 := s.setFld Reg.globalReady ⟨f.lo + i, 1⟩ (b2n v)
  if s1.reg Reg.globalReady = old then s1
  else
    let s2 := if v then s1 else s1.setFld Reg.globalReady Reg.globalReady_DROPEV 1
    s2.log 0x01 0xFF 0 old (s2.reg Reg.globalReady)

/-- BAY.STK.STATUS.READY of a stack, and its bit of GLOBAL.READY. -/
def State.setStackReady (s : State) (b : Nat) (v : Bool) : State :=
  (s.setFld (Reg.bayStkStatus b) Reg.bayStkStatus_READY (b2n v)).setReady Reg.globalReady_STACK b v

/-! ## The slot map (R280, R281) -/

/-- Whether any two of a list of windows overlap. -/
def anyMeet : List (Nat × Nat) → Bool
  | [] => false
  | w :: ws => ws.any (windowsMeet w) || anyMeet ws

/-- Whether a slot map is refused (R281): a reserved encoding, or two refresh or scrub windows of one channel that overlap. -/
def mapBad (m : Nat) : Bool :=
  bitsOf m 8 2 == 3 || decide (4 < bitsOf m 24 3) || decide (4 < bitsOf m 40 3)
    || (List.range 128).any fun c => anyMeet (channelWindows m c)

/-- The fields of BAY.SLOTMAP. -/
def mapFields (v : Nat) : Nat :=
  bitsOf v 0 7 + bitsOf v 8 2 * 2 ^ 8 + bitsOf v 16 7 * 2 ^ 16 + bitsOf v 24 3 * 2 ^ 24 + bitsOf v 32 7 * 2 ^ 32
    + bitsOf v 40 3 * 2 ^ 40

/-- The refresh floor of a stack (R480, R501), coded as REFN: the plan's, one step above it in a lower frequency bin. -/
def State.refFloor (s : State) (b : Nat) : Nat :=
  s.fld (Reg.pwrStk b) Reg.pwrStk_RNMIN + (if s.fld Reg.pwrFreq Reg.pwrFreq_BIN = 0 then 0 else 1)

/-- Whether a slot map lies below its stack's floors (R501). Log entry 82 DEDUCED. -/
def State.belowFloors (s : State) (b m : Nat) : Bool :=
  decide (bitsOf m 8 2 < s.refFloor b) || decide (bitsOf m 24 3 < s.fld (Reg.pwrStk b) Reg.pwrStk_SNMIN)

/-- A slot map raised to its stack's floors, with SCRUBPOS := REFPOS + 8 (R501). Log entry 82 DEDUCED. -/
def State.raised (s : State) (b m : Nat) : Nat :=
  if s.belowFloors b m then
    putBits (putBits (putBits m 8 2 (max (bitsOf m 8 2) (s.refFloor b))) 24 3
      (max (bitsOf m 24 3) (s.fld (Reg.pwrStk b) Reg.pwrStk_SNMIN))) 16 7 (bitsOf m 0 7 + 8)
  else m

/-- A slot map that changes REFN restarts the retention test of its stack, which reads 0 until its first result (R499). -/
def State.newRefresh (s : State) (b old new : Nat) : State :=
  if bitsOf old 8 2 = bitsOf new 8 2 then s else s.setFld (Reg.pwrStk b) Reg.pwrStk_RMARGIN 0

/-- The floors applied to a stack's slot map (R501, R502): where R281 would refuse it, the old map stays and REPLANFAIL is set. -/
def State.floorMap (s : State) (b : Nat) : State :=
  let m := (s.reg (Reg.baySlotmap b)).toNat
  if s.belowFloors b m then
    let n := s.raised b m
    if mapBad n then s.setFld Reg.pwrAgeEvt Reg.pwrAgeEvt_REPLANFAIL 1
    else ((s.newRefresh b (s.stk b).map n).setReg (Reg.baySlotmap b) (BitVec.ofNat 64 n)).updStk b fun y =>
      { y with map := n, pendMap := none }
  else s

/-- A slot map written (R281, R501): it takes effect at the next frame start, or is refused with MAPBAD. -/
def State.writeMap (s : State) (b v : Nat) : State :=
  let m := mapFields v
  if mapBad m || s.belowFloors b m then s.setFld (Reg.bayStkMaperr b) Reg.bayStkMaperr_MAPBAD 1
  else (s.setReg (Reg.baySlotmap b) (BitVec.ofNat 64 m)).updStk b fun y => { y with pendMap := some m }

/-- BAY_SLOTMAP_WRITE (R281). -/
def execBaySlotmapWrite (bay : Nat) (value : BitVec 64) (s : State) : Host.Outcome State Fault Refusal :=
  guarded (decide (bay < 16)) s fun s => s.writeMap bay value.toNat

/-! ## Regions (R289) -/

/-- A region register written: refused with REGBAD where it would overlap another valid region, reach the portfolio table, or
set CLEAR in confidential mode. -/
def State.writeRegion (s : State) (b n v : Nat) : State :=
  let base := bitsOf v 0 20
  let len := bitsOf v 20 20
  let valid := bitOf v 63
  let clash := valid && (List.range 16).any fun k =>
    let r := Reg.bayRegion b k
    k != n && decide (s.fld r Reg.bayRegion_VALID = 1)
      && rangesMeet base len (s.fld r Reg.bayRegion_BASE) (s.fld r Reg.bayRegion_LEN)
  if clash || (valid && decide (pfTop < 256 * (base + len))) || (s.conf && bitOf v 40) then
    s.setFld (Reg.bayStkMaperr b) Reg.bayStkMaperr_REGBAD 1
  else s.setReg (Reg.bayRegion b n) (BitVec.ofNat 64 (bitsOf v 0 42 + bitsOf v 63 1 * 2 ^ 63))

/-- BAY_REGION_WRITE (R289). -/
def execBayRegionWrite (bay region : Nat) (value : BitVec 64) (s : State) : Host.Outcome State Fault Refusal :=
  guarded (decide (bay < 16) && decide (region < 16)) s fun s => s.writeRegion bay region value.toNat

/-! ## The mesh and admission (R280, R282 to R285, R302, R570) -/

/-- MESH_TRANSFER_ENTER (R285, R570): transfers ready to cross reserve their link intervals one after another and enter. -/
def execMeshTransferEnter (transfers : List Transfer) (s : State) : Host.Outcome State Fault Refusal :=
  guarded (transfers.all fun t => decide (t.src < 16) && decide (t.dst < 16)) s fun s =>
    (transfers.foldl (fun l t => insertBy transferTurn t l) []).foldl State.meshEnter s

/-- ACCESS_ADMISSION (R282 to R284, R296): accesses that wait at a stack are admitted, each at the first cycle at which its
channel, bank and return slots are free, in the order of R283. One that is deep or waking, or under a relock, admits nothing
(R488, R502). Log entry 1 DESIGN CHOICE, 73 DESIGN CHOICE. Log entry 1 DESIGN CHOICE. -/
def execAccessAdmission (stack : Nat) (accesses : List Access) (s : State) : Host.Outcome State Fault Refusal :=
  guarded (decide (stack < 16) && accesses.all fun a => decide (a.addr < stackStrokes) && decide (a.sourceBay < 16)) s fun s =>
    if s.admits stack then s.admitThese stack accesses else s

/-- WRITE_BACK_ADMIT (R283, R284): of the page buffer's write-backs the one that goes first. -/
def execWriteBackAdmit (stack : Nat) (s : State) : Host.Outcome State Fault Refusal :=
  guarded (decide (stack < 16)) s fun s => if s.admits stack then s.writeBackFirst stack else s

/-- The seal an access under a key slot and a tweak checks or makes: CRC-64 in a CLEAR region (R278, R288). -/
def State.sealUnder (s : State) (b addr slot tweak : Nat) : Seal :=
  s.sealWith b addr (s.key slot).kid tweak

/-- STROKE_READ_COMPLETE (R286, R291): a stroke with `errs` symbol errors in its worst burst is checked under a key slot and a
tweak, and counted. Log entry 91 DEDUCED. -/
def execStrokeReadComplete (stack addr slot tweak errs : Nat) (s : State) : Host.Outcome State Fault Refusal :=
  guarded (decide (stack < 16) && decide (addr < stackStrokes) && decide (slot < 65536)) s fun s =>
    let g := stackBase stack / 512 + addr
    ((s.setErrs g errs).check g (s.sealUnder stack addr slot tweak) 0).2

/-- PAGE_BUFFER_WRITE (R284, R286, R302): bytes of a stroke, encrypted and placed in the page buffer; part of a stroke is merged
into the stroke as read and checked, and a base that fails leaves the stroke as it was. A stroke of a range that a near-bank
operation has still to finish is not placed until it has. -/
def execPageBufferWrite (stack addr slot tweak offset : Nat) (data : List (BitVec 8)) (s : State) :
    Host.Outcome State Fault Refusal :=
  guarded (decide (stack < 16) && decide (addr < stackStrokes) && decide (slot < 65536)
      && decide (offset + data.length ≤ 512)) s fun s =>
    let g := stackBase stack / 512 + addr
    let q := s.sealUnder stack addr slot tweak
    if s.nbQueued g 1 then s
    else if data.length = 512 then s.putStroke g data q
    else
      let (ok, s1) := s.check g q 0
      if ok then s1.putStroke g (patch (s1.bytes (512 * g) 512) offset data) q else s1

/-! ## Refresh and scrub (R280, R290 to R294, R498, R499, R515) -/

/-- REFRESH_WINDOW (R280, R515): four rows of every bank of the channel are refreshed, and the channel is re-centred or fails
to be; a deep stack has no windows (R487). -/
def execRefreshWindow (stack channel : Nat) (centred : Bool) (s : State) : Host.Outcome State Fault Refusal :=
  guarded (decide (stack < 16) && decide (channel < 128)) s fun s =>
    if s.asleep stack then s
    else s.updStk stack fun y =>
      { y with refresh := SMap.set (fun _ => 0) y.refresh channel ((SMap.get (fun _ => 0) y.refresh channel + 4) % 20544)
               badTiming := y.badTiming || !centred }

/-- A row that needed correction in a scrub pass (R498): one that did so in the pass before is weak and is remapped. -/
def State.weakRow (s : State) (b row pass : Nat) : State :=
  let seen := SMap.get (fun _ => 0) (s.stk b).weak row
  let s1 := s.updStk b fun y => { y with weak := SMap.set (fun _ => 0) y.weak row (pass + 1) }
  if seen = pass ∧ pass ≠ 0 then (s1.bump (Reg.pwrStk b) Reg.pwrStk_WEAK).wantRemap b row else s1

/-- A channel's scrub position moved on. -/
def State.scrubNext (s : State) (b c : Nat) : State :=
  s.updStk b fun y =>
    { y with scrub := SMap.set (fun _ => 0) y.scrub c (SMap.get (fun _ => 0) y.scrub c + 1)
             scrubFix := SMap.set (fun _ => false) y.scrubFix c false }

/-- A scrub visit that finds `n` symbol errors in a data stroke. -/
def State.scrubFind (s : State) (b c addr pass n : Nat) : State :=
  let det := (s.regionAt b addr).2
  let (d, s1) := if (if det then 7 else 5) < n then s.draw else (0, s)
  if n = 0 ∨ ((if det then 7 else 5) < n ∧ d % 2 = 1) then s1.scrubNext b c
  else if det ∨ 3 ≤ n then (s1.uncorrectable b addr 1 det).scrubNext b c
  else
    ((s1.corrected b addr).weakRow b (rowKey addr) pass).updStk b fun y =>
      { y with scrubFix := SMap.set (fun _ => false) y.scrubFix c true }

/-- A scrub visit of half a spare row that no row stands on (R290, R291): counted, and a correction is written back; its place is
no stroke address, so ERRLOC.ADDR is a free value (log entry 13 DESIGN CHOICE). Log entry 131 DEDUCED. -/
def State.scrubSpare (s : State) (b c k n : Nat) : State :=
  let e := Reg.bayStkEcc b
  if n = 0 then s.scrubNext b c
  else if n ≤ 2 then
    let j := k % scrubPass - scrubData
    let row := c + 128 * (j / 128) + 4096 * (20480 + j % 128 / 2)
    ((s.bump e Reg.bayStkEcc_CORR).setFld e Reg.bayStkEcc_CORREV 1).updStk b fun y =>
      { y with corr := SMap.set (fun _ => 0) y.corr row (SMap.get (fun _ => 0) y.corr row + 1)
               scrubFix := SMap.set (fun _ => false) y.scrubFix c true }
  else
    let (d, s1) := s.draw
    let s2 := (s1.bump e Reg.bayStkEcc_UNCORR).setFld e Reg.bayStkEcc_UNCEV 1
    ((s2.setReg (Reg.bayStkErrloc b) (BitVec.ofNat 64 (d % 2 ^ 28 + 2 ^ 28))).stackEvent b).scrubNext b c

/-- The data stroke a scrub visit reads (R290): of a visit to a spare row the one that stands there, if any. -/
def StackX.scrubAddr (y : StackX) (c k : Nat) : Option Nat :=
  let pos := k % scrubPass
  if pos < scrubData then some (pos * 128 + c)
  else
    let j := pos - scrubData
    (y.remap.find? fun e => rowBank e.1 == c + 128 * (j / 128) && e.2 == j % 128 / 2 + 1).map fun e =>
      8192 * (e.1 / 4096) + 256 * (j / 128) + 128 * (j % 2) + c

/-- The start of a channel's scrub window that the present cycle lies in, or of the last before it. -/
def scrubBegan (m c t : Nat) : Nat :=
  let f := t / 12288 * 12288
  let l := ((scrubStarts m c).flatMap fun p => [f + p] ++ if 12288 ≤ f then [f - 12288 + p] else []).filter fun a => decide (a ≤ t)
  if l.isEmpty then t else l.foldl max 0

/-- SCRUB_WINDOW (R282, R290, R292): the window carries a remap of the channel that has begun, writes a correction back, or reads
the channel's next stroke, in which it finds `errs` symbol errors; its bank is busy for 192 cycles. No remap begins during a brake
(R494). -/
def execScrubWindow (stack channel errs : Nat) (s : State) : Host.Outcome State Fault Refusal :=
  guarded (decide (stack < 16) && decide (channel < 128)) s fun s =>
    let y := s.stk stack
    let t := scrubBegan y.map channel s.ec
    let busy := fun (u : State) (bank : Nat) => u.updStk stack fun y => { y with banks := y.banks ++ [(channel, bank, t)] }
    if mapSn y.map = 0 ∨ s.asleep stack then s
    else
      match y.remapping.findIdx? fun r => r.1 % 128 == channel && decide (r.2 < 4)
          && (decide (r.2 ≠ 0) || decide (s.fld Reg.pwrStatus Reg.pwrStatus_BRAKE = 0)) with
      | some i =>
        let r := y.remapping.getD i (0, 0)
        busy (s.setStk stack { y with remapping := putAt y.remapping i (r.1, r.2 + 1) }) (r.1 / 128 % 32)
      | none =>
        let k := SMap.get (fun _ => 0) y.scrub channel
        let bank := scrubBank k
        if y.nbRun.any (fun op => op.holds bank && decide (s.ec < op.endOn y.map channel)) then s
        else
          let s1 := busy s bank
          let fix := SMap.get (fun _ => false) y.scrubFix channel
          match y.scrubAddr channel k with
          | some addr =>
            let g := stackBase stack / 512 + addr
            if fix then (s1.setErrs g 0).scrubNext stack channel
            else (s1.setErrs g errs).scrubFind stack channel addr (k / scrubPass) errs
          | none => if fix then s1.scrubNext stack channel else s1.scrubSpare stack channel k errs

/-- A row put on the next spare row of its bank (R292); a row remapped again gives its spare row up. Log entry 56 DEDUCED. -/
def State.remapRow (s : State) (b row : Nat) : State :=
  let y := s.stk b
  let used := y.usedIn row
  let r := Reg.bayStkRemap b
  let s1 := s.setStk b { y with remap := SMap.set (fun _ => 0) y.remap row (used + 1)
                                spent := SMap.set (fun _ => 0) y.spent (rowBank row) (used + 1)
                                corr := SMap.set (fun _ => 0) y.corr row 0
                                remapping := y.remapping.filter (·.1 != row) }
  let s2 := s1.setFld r Reg.bayStkRemap_USED (s1.stk b).remap.length
  let s3 := s2.setFld r Reg.bayStkRemap_MINSPARE (min (s2.fld r Reg.bayStkRemap_MINSPARE) (64 - (used + 1)))
  (s3.setFld r Reg.bayStkRemap_REMAPEV 1).repairNote ⟨2, b, row, used + 1⟩

/-- ROW_REMAP_COMMIT (R292): the first row that has had its four windows, or any while SN is 0, stands on its spare row. -/
def execRowRemapCommit (stack : Nat) (s : State) : Host.Outcome State Fault Refusal :=
  guarded (decide (stack < 16)) s fun s =>
    let y := s.stk stack
    match y.remapping.find? fun r => r.2 == 4 || mapSn y.map == 0 with
    | some r => (s.remapRow stack r.1).quieten stack
    | none => s

/-! ## Self-refresh, trip and retraining (R296, R306, R515) -/

/-- The near-bank operations queued for a stack complete with unavailable (R306). Log entry 72 DEDUCED. -/
def State.nbCancel (s : State) (b : Nat) : State :=
  let s1 := (s.stk b).nbQ.foldl (fun u op =>
    match u.entry op.x op.entry with
    | some o => if o.kind = .nb then u.finish op.x o (compWord cUnavailable 0 0) else u
    | none => u) s
  (s1.updStk b fun y => { y with nbQ := [] }).setFld (Reg.bayStkStatus b) Reg.bayStkStatus_NBQ 0

/-- The page buffer of a stack written back. -/
def State.pbDrain (s : State) (b : Nat) : State :=
  (s.updStk b fun y => { y with pb := [] }).setFld (Reg.bayStkStatus b) Reg.bayStkStatus_PBDEPTH 0

/-- ALARM_N, low while the supply warning is declared, a stack is in TRIP or the die is at TJ_WARN (R566). -/
def State.showAlarm (s : State) : State :=
  let on := decide (s.fld Reg.pwrSupply Reg.pwrSupply_WARN = 1) || s.pwr.dieWarm
    || (List.range 16).any fun b => decide (s.fld (Reg.bayStkStatus b) Reg.bayStkStatus_TRIP = 1)
  if on = s.pwr.alarm then s else State.emit { s with pwr := { s.pwr with alarm := on } } (.pin "ALARM_N" (!on))

/-- STACK_TRIP_SELFREF (R296, R306): once no near-bank operation runs, a tripping stack enters self-refresh. -/
def execStackTripSelfref (stack : Nat) (s : State) : Host.Outcome State Fault Refusal :=
  guarded (decide (stack < 16)) s fun s =>
    let y := s.stk stack
    if y.tripping && y.nbRun.isNone then
      let s1 := ((s.nbCancel stack).pbDrain stack).updStk stack fun y => { y with tripping := false }
      let st := Reg.bayStkStatus stack
      let s2 := (s1.setFld st Reg.bayStkStatus_SELFREF 1).setFld st Reg.bayStkStatus_TRIP 1
      ((s2.setFld (Reg.bayStkTherm stack) Reg.bayStkTherm_TRIPEV 1).setStackReady stack false).showAlarm
    else s

/-- A stack's training begins (R510 step 5, R526). Log entry 88 DEDUCED. -/
def State.startTraining (s : State) (b : Nat) : State :=
  if s.stackUp b then s else s.setFld (Reg.bayStkStatus b) Reg.bayStkStatus_TRAIN 1

/-- The next frame start at or after a ground cycle. -/
def frameAfter (g : Nat) : Nat := 128 * ceilDiv g 128

/-- STACK_RETRAIN (R515): a stack whose re-centring has failed completes what it has admitted and enters self-refresh at the
next frame start. -/
def execStackRetrain (stack : Nat) (s : State) : Host.Outcome State Fault Refusal :=
  guarded (decide (stack < 16)) s fun s =>
    let y := s.stk stack
    if y.badTiming && y.nbRun.isNone && s.stackUp stack then
      let f := frameAfter (ceilDiv s.ec 96)
      let s1 := ((s.passTo (96 * f)).nbCancel stack).pbDrain stack
      let s2 := s1.updStk stack fun y => { y with badTiming := false, readyAt := some (f + 12800) }
      let st := Reg.bayStkStatus stack
      ((s2.setFld st Reg.bayStkStatus_SELFREF 1).setFld st Reg.bayStkStatus_TRAIN 1).setStackReady stack false
    else s

/-- STACK_RETRAIN_DONE (R515): the stack is ready at F + 12,800 gc. -/
def execStackRetrainDone (stack : Nat) (s : State) : Host.Outcome State Fault Refusal :=
  guarded (decide (stack < 16)) s fun s =>
    let st := Reg.bayStkStatus stack
    match (s.stk stack).readyAt with
    | some t =>
      if s.fld st Reg.bayStkStatus_TRAIN = 1 ∧ s.fld st Reg.bayStkStatus_SELFREF = 1 then
        let s1 := ((s.passTo (96 * t)).updStk stack fun y => { y with readyAt := none }).quieten stack
        ((s1.setFld st Reg.bayStkStatus_SELFREF 0).setFld st Reg.bayStkStatus_TRAIN 0).setStackReady stack true
      else s
    | none => s

end Sys2Proof.Machine
end

