-- ==== Sys2Proof/Machine/Flash.lean ====
section
/-! DEFINITION. Host extents and the flash channels (R323 to R343, R516). -/

namespace Sys2Proof.Machine

/-! ## Host extents (R325) -/

/-- EXTENT_WITHDRAW (R325): the host withdraws a granted extent, which admits no new access. -/
def execExtentWithdraw (extent : Nat) (s : State) : Host.Outcome State Fault Refusal :=
  guarded (decide (extent < 256)) s fun s =>
    let r := Reg.tier2Ext0 extent
    if s.fld r Reg.tier2Ext0_VALID = 1 then s.setFld r Reg.tier2Ext0_WITHDRAW 1 else s

/-- Whether a bus-master read of the host interface is one of a T2 stroke of an extent. -/
def ofExtent (n : Nat) (r : HostRead) : Bool := r.kind == 0 && t2Ext (r.arg % 2 ^ 40) == n

/-- EXTENT_GONE (R325): once the accesses admitted to it are over, a withdrawn extent clears VALID and sets GONE. -/
def execExtentGone (extent : Nat) (s : State) : Host.Outcome State Fault Refusal :=
  guarded (decide (extent < 256)) s fun s =>
    let r := Reg.tier2Ext0 extent
    if s.fld r Reg.tier2Ext0_WITHDRAW = 1 ∧ !(s.host.reads.any fun q => ofExtent extent q.1) then
      ((s.setFld r Reg.tier2Ext0_VALID 0).setFld r Reg.tier2Ext0_WITHDRAW 0).setFld r Reg.tier2Ext0_GONE 1
    else s

/-! ## Channels: what their registers show (R337, R338) -/

/-- Free blocks of a LUN. -/
def FlashX.freeIn (f : FlashX) (lun : Nat) : Nat := ((f.keysOf lun).filter fun k => (f.block k).st == .free).length

/-- FREE and WEAR of a channel, from its blocks: retired blocks have no part in the wear (log entry 25 DEDUCED). -/
def State.flashShow (s : State) (c : Nat) : State :=
  let f := s.fch c
  let used := (f.keys.map f.block).filter (·.st != .retired)
  let es := used.map (·.erases)
  let w := Reg.flashChWear c
  let lo := es.foldl min (es.headD 0)
  ((s.setFld (Reg.flashChStatus c) Reg.flashChStatus_FREE (used.filter (·.st == .free)).length).setFld
    w Reg.flashChWear_MINERASE lo).setFld w Reg.flashChWear_MAXERASE (es.foldl max 0)

/-- READY of a channel, its bit of CHREADY, FLASH.STATUS.READY, which is set while every channel with chip enables found is
ready and there is one, REBUILD, and GLOBAL.READY.FLASH (R337, R513). -/
def State.setChUp (s : State) (c : Nat) (v : Bool) : State :=
  let s1 := (s.setFld (Reg.flashChStatus c) Reg.flashChStatus_READY (b2n v)).setFld Reg.flashStatus
    ⟨Reg.flashStatus_CHREADY.lo + c, 1⟩ (b2n v)
  let found := (List.range 32).filter fun k => s1.fld (Reg.flashChStatus k) Reg.flashChStatus_LUNS != 0
  let all := !found.isEmpty && found.all s1.chUp
  let s2 := s1.setFld Reg.flashStatus Reg.flashStatus_READY (b2n all)
  let busy := (List.range 32).any fun k => (s2.fch k).rebuilding
  (s2.setFld Reg.flashStatus Reg.flashStatus_REBUILD (b2n busy)).setReady Reg.globalReady_FLASH 0 all

/-- The map rebuild of a channel starts once its interface is trained and MAPBASE is valid (R329, R510 step 9). -/
def State.startRebuild (s : State) (c : Nat) : State :=
  if (s.fch c).geom.isSome && s.mapBaseOk c then (s.updFch c fun f => { f with rebuilding := true }).setChUp c false
  else (s.updFch c fun f => { f with rebuilding := false }).setChUp c false

/-- A page that is no longer awaited, taken out of every engine's operation by `f`, and the sheets that awaited nothing else
committed. -/
def State.pageOver (s : State) (lpage : Nat) (f : State → EngX → EngX) : State :=
  allBays.foldl (fun u b =>
    match (u.bay b).engine with
    | some g =>
      if g.pages.contains lpage then (u.setEngine b (f u { g with pages := g.pages.filter (· != lpage) })).settleMoves b else u
    | none => u) (s.updFch (pageCh lpage) fun x => x.unqueue lpage)

/-- A logical page whose program fails its operation with a code (R332, R340, R342): the sheet of a move that awaits it keeps its
entry and its source, a copy ends with the code; the partner's move that awaits it is refused. -/
def State.failPage (s : State) (lpage code : Nat) : State :=
  (s.pageOver lpage fun u g =>
    let d := engDesc g.desc
    if d.op = 0x14 then { g with results := [code] }
    else
      let hit := pageOf (u.pf d.pf)
      (g.commits.filter fun c => hit c lpage).foldl (fun h c => h.setResult c.1 (recOf d.op code c.2.1))
        { g with commits := g.commits.filter fun c => !hit c lpage }).partnerFail lpage

/-- The work of a channel that stops serving completes with unavailable (R340). -/
def State.failChannel (s : State) (c : Nat) : State :=
  ((s.fch c).queue.foldl (fun u p => u.failPage p cUnavailable) s).setChUp c false

/-- A flash event in the event log. -/
def State.flashEvent (s : State) (c : Nat) : State :=
  s.log 0x0B c 0 (s.reg (Reg.flashChErr c)) (s.reg (Reg.flashChLastlost c))

/-! ## Programming, erasing and collecting (R330, R331, R334) -/

/-- The open block of a LUN that has a page left. -/
def FlashX.openBlock (f : FlashX) (lun : Nat) : Option Nat :=
  (f.keysOf lun).find? fun k => (f.block k).st == .opened && decide ((f.block k).pages.length < f.pageCount)

/-- The least-worn free block of a LUN, ties to the lowest block number (R330). Log entry 25 DEDUCED. -/
def FlashX.leastWorn (f : FlashX) (lun : Nat) : Option Nat :=
  ((f.keysOf lun).filter fun k => (f.block k).st == .free).foldl (fun best k =>
    match best with
    | none => some k
    | some j => if (f.block k).erases < (f.block j).erases then some k else best) none

/-- The block the next page of a LUN goes to, opened where the open one is full. -/
def FlashX.target (f : FlashX) (lun : Nat) : Option (Nat × FlashX) :=
  match f.openBlock lun with
  | some k => some (k, f)
  | none =>
    match f.leastWorn lun with
    | some k => some (k, { f.setBlock k { f.block k with st := .opened, pages := [] } with opened := f.opened + 1 })
    | none => none

/-- A logical page put into a block: the new place replaces the old one, and a full block closes. -/
def FlashX.put (f : FlashX) (k lpage : Nat) : FlashX :=
  let b := f.block k
  let pages := b.pages ++ [lpage]
  let f1 := f.setBlock k { b with pages, st := if f.pageCount ≤ pages.length then .closed else .opened }
  { f1 with map := SMap.set (fun _ => 0) f1.map lpage (1 + k * 4096 + b.pages.length) }

/-- New contents of a logical page programmed into a block: what was lost of it is no more (R335). -/
def FlashX.program (f : FlashX) (k lpage : Nat) : FlashX :=
  let f1 := f.put k lpage
  { f1 with lost := SMap.set (fun _ => false) f1.lost lpage false
            bad := SMap.clear f1.bad (4 * lpage) (4 * lpage + 4) }

/-- The LUNs in their turns from `lun` on (R330). -/
def FlashX.turns (f : FlashX) (lun : Nat) : List Nat := (List.range f.luns).map fun i => (lun + i) % f.luns

/-- A logical page rewritten as it stands on the next LUN in turn that has a page for it (R330, R331, R335): a lost page stays
lost. -/
def FlashX.rewrite (f : FlashX) (lpage : Nat) : FlashX :=
  match (f.turns f.turn).filterMap fun l => (f.target l).map fun t => (l, t) with
  | (l, k, g) :: _ => { g.put k lpage with turn := (l + 1) % max 1 f.luns }
  | [] => f

/-- A block retired: its valid pages are rewritten elsewhere, and it is never used again (R331). -/
def FlashX.retire (f : FlashX) (k : Nat) : FlashX :=
  (f.valid k).foldl FlashX.rewrite (f.setBlock k { f.block k with st := .retired, pages := [] })

/-- A rewrite whose program may fail first (R331): the block it went to is retired and the page rewritten after it. -/
def FlashX.rewriteTry (f : FlashX) (fails : List Nat) (lpage : Nat) : FlashX :=
  if fails.contains lpage then
    match (f.turns f.turn).filterMap f.target with
    | (k, g) :: _ => (g.retire k).rewrite lpage
    | [] => f
  else f.rewrite lpage

/-- Retired blocks of a channel. -/
def FlashX.gone (f : FlashX) : Nat := (f.keys.filter fun k => (f.block k).st == .retired).length

/-- A channel's flash after programs and erases (R331, R338): its map region and registers follow, and every block retired in
service is counted. -/
def State.flashNow (s : State) (c : Nat) (f : FlashX) : State :=
  let n := f.gone - (s.fch c).gone
  let e := Reg.flashChErr c
  let s1 := (s.setFlash c f).flashShow c
  if n = 0 then s1 else ((List.range n).foldl (fun u _ => u.bump e Reg.flashChErr_RETIRED) s1).setFld e Reg.flashChErr_RETEV 1

/-- A programmed page no longer awaited by an engine or by the partner's move. -/
def State.pageDone (s : State) (lpage : Nat) : State := (s.pageOver lpage fun _ g => g).partnerPage lpage

/-- The LUN a queued page goes to: its own (R330), or where that can take no page and has nothing to collect the next in turn that
can. Log entry 25 DEDUCED. -/
def FlashX.lunFor (f : FlashX) (lpage : Nat) : Option Nat := (f.turns (SMap.get (fun _ => 0) f.place lpage)).find? f.lunRoom

/-- Whether garbage collection of a LUN comes before its writes (R332): it has two free blocks or fewer and a block to collect. -/
def FlashX.collectFirst (f : FlashX) (lun : Nat) : Bool := decide (f.freeIn lun ≤ 2) && (f.keysOf lun).any f.stale

/-- A channel's interface once the retraining or restart that holds its work is over (R469, R516). -/
def State.passHold (s : State) (c : Nat) : State :=
  (if (s.fch c).holdFrom ≤ s.gc then s.passTo (96 * (s.fch c).holdUntil) else s).setFld (Reg.flashChStatus c) Reg.flashChStatus_TRAIN 0

/-- FLASH_PAGE_PROGRAMMED (R330 to R332, R334): a queued page is programmed on its LUN, or its program fails and retires the
block; with no block free and nothing to collect on any LUN its sheet fails with capacity. A LUN with two free blocks or fewer
and something to collect takes no write. -/
def execFlashPageProgrammed (channel lpage lun : Nat) (ok : Bool) (s : State) : Host.Outcome State Fault Refusal :=
  guarded (decide (channel < 32) && pageCh lpage == channel) s fun s =>
    let s0 := s.passHold channel
    let f := s0.fch channel
    if !f.queue.contains lpage || !s0.chUp channel then s
    else
      match f.lunFor lpage with
      | none => s0.failPage lpage cCapacity
      | some l =>
        if lun ≠ l ∨ f.collectFirst lun then s
        else
          match f.target lun with
          | none => s
          | some (k, g) => if ok then (s0.flashNow channel (g.program k lpage)).pageDone lpage else s0.flashNow channel (g.retire k)

/-- The closed block of a LUN with the fewest valid pages, ties to the lowest block number (R331). Log entry 25 DEDUCED. -/
def FlashX.emptiest (f : FlashX) (lun : Nat) : Option Nat :=
  ((f.keysOf lun).filter fun k => (f.block k).st == .closed).foldl (fun best k =>
    match best with
    | none => some k
    | some j => if (f.valid k).length < (f.valid j).length then some k else best) none

/-- GARBAGE_COLLECT (R331, R332): a LUN below GCLOW rewrites its emptiest closed block and erases it, but not before the channel's
writes, unless it has two free blocks or fewer. A block whose program or erase fails is retired. -/
def execGarbageCollect (channel : Nat) (run : GcRun) (s : State) : Host.Outcome State Fault Refusal :=
  guarded (decide (channel < 32)) s fun s =>
    let f := s.fch channel
    if f.luns ≤ run.lun ∨ s.fld Reg.flashCfg Reg.flashCfg_GCLOW ≤ f.freeIn run.lun ∨ !s.chUp channel
        ∨ (!f.queue.isEmpty && decide (2 < f.freeIn run.lun)) = true then s
    else
      match f.emptiest run.lun with
      | none => s
      | some k =>
        let s0 := s.passHold channel
        let g := (f.valid k).foldl (fun g p => g.rewriteTry run.fails p) f
        if (g.valid k).isEmpty then
          s0.flashNow channel <|
            if run.erased then g.setBlock k { st := .free, erases := (g.block k).erases + 1, pages := [] } else g.retire k
        else s

/-! ## Reads and the patrol (R327, R335) -/

/-- The codewords of a page that failed a read: four of them, `none` where the correction failed (R327). -/
def FlashX.readBits (f : FlashX) (lpage : Nat) (bits : List (Option Nat)) : FlashX :=
  { f with bad := SMap.setRange (fun _ => false) f.bad (4 * lpage) ((bits.take 4).map (·.isNone)) }

/-- FLASH_PAGE_READ_DONE (R327): the codewords of a page are corrected, or fail every stroke they hold. Log entry 91 DEDUCED. -/
def execFlashPageReadDone (channel lpage : Nat) (bits : List (Option Nat)) (s : State) : Host.Outcome State Fault Refusal :=
  guarded (decide (channel < 32) && pageCh lpage == channel && bits.length == 4) s fun s =>
    if s.pageMapped lpage && s.chUp channel then (s.passHold channel).updFch channel fun f => f.readBits lpage bits
    else s

/-- The mapped logical pages of a channel. -/
def FlashX.mapped (f : FlashX) : List Nat := f.map.map (·.1)

/-- A page the patrol has read: the pass ends with the last one (R335). -/
def State.patrolStep (s : State) (c lpage : Nat) : State :=
  let f := s.fch c
  let due := if f.patrolled.isEmpty then f.mapped else f.patrolled
  let left := due.filter (· != lpage)
  let s1 := s.setFch c { f with patrolled := left }
  if left.isEmpty then s1.count (Reg.flashChPatrol c) Reg.flashChPatrol_PASSES 1 else s1

/-- PATROL_READ (R332, R335): a mapped page is read when no write waits and no LUN is to collect; one near its limit is rewritten
elsewhere, one with an uncorrectable codeword is lost. -/
def execPatrolRead (channel lpage : Nat) (bits : List (Option Nat)) (s : State) : Host.Outcome State Fault Refusal :=
  guarded (decide (channel < 32) && pageCh lpage == channel && bits.length == 4) s fun s =>
    let f := s.fch channel
    let gc := fun l => decide (f.freeIn l < s.fld Reg.flashCfg Reg.flashCfg_GCLOW) && (f.keysOf l).any f.stale
    if !s.pageMapped lpage || !s.chUp channel || decide (s.fld Reg.flashPatrol Reg.flashPatrol_ENABLE = 0) || !f.queue.isEmpty
        || (List.range f.luns).any gc then s
    else
      let s1 := ((s.passHold channel).updFch channel fun f => f.readBits lpage bits).patrolStep channel lpage
      if bits.any (·.isNone) then
        if SMap.get (fun _ => false) (s1.fch channel).lost lpage then s1
        else
          let e := Reg.flashChErr channel
          let s2 := s1.updFch channel fun f => { f with lost := SMap.set (fun _ => false) f.lost lpage true }
          (((s2.bump e Reg.flashChErr_LOST).setFld e Reg.flashChErr_LOSTEV 1).setFld
            (Reg.flashChLastlost channel) Reg.flashChLastlost_LPAGE lpage).flashEvent channel
      else if s.fld Reg.flashCfg Reg.flashCfg_RELTH ≤ (bits.map (·.getD 0)).foldl max 0 then
        (s1.flashNow channel ((s1.fch channel).rewrite lpage)).count (Reg.flashChPatrol channel) Reg.flashChPatrol_RELOC 1
      else s1

/-! ## Maps and checkpoints (R329, R334) -/

/-- FLASH_MAPBASE_WRITE (R329): a channel's map region is set and its map rebuild starts. -/
def execFlashMapbaseWrite (channel : Nat) (value : BitVec 64) (s : State) : Host.Outcome State Fault Refusal :=
  guarded (decide (channel < 32)) s fun s =>
    (s.setFld (Reg.flashChMapbase channel) Reg.flashChMapbase_LOC (value.toNat % 2 ^ 48)).startRebuild channel

/-- FLASH_MAP_REBUILD_DONE (R334): the checkpoint, the summary pages and the open blocks of a channel have been read into its
stack, which holds its map now (R329), and it is ready. -/
def execFlashMapRebuildDone (channel : Nat) (s : State) : Host.Outcome State Fault Refusal :=
  guarded (decide (channel < 32)) s fun s =>
    if (s.fch channel).rebuilding && s.stackUp (channel / 2) && s.fld Reg.flashStatus Reg.flashStatus_FORMATTING == 0 then
      (((s.passHold channel).updFch channel fun f => { f with rebuilding := false }).loadMap channel).setChUp channel true
    else s

/-- FLASH_CHECKPOINT (R334): a channel that has opened CKPTBLK blocks writes a checkpoint of its map. -/
def execFlashCheckpoint (channel : Nat) (s : State) : Host.Outcome State Fault Refusal :=
  guarded (decide (channel < 32)) s fun s =>
    if s.fld Reg.flashCfg Reg.flashCfg_CKPTBLK ≤ (s.fch channel).opened then
      s.updFch channel fun f => { f with opened := 0 }
    else s

/-- Every channel's map checkpointed now. -/
def State.checkpointAll (s : State) : State :=
  (List.range 32).foldl (fun u c => u.updFch c fun f => { f with opened := 0 }) s

/-- FLASH_CKPT (R337). -/
def execFlashCkpt (s : State) : Host.Outcome State Fault Refusal := .next s.checkpointAll

/-! ## FORMAT (R328, R331, R337) -/

/-- FLASH_FORMAT (R337): erasing begins; until it has ended no channel serves a page (log entry 25 DEDUCED). -/
def execFlashFormat (s : State) : Host.Outcome State Fault Refusal :=
  .next <|
    if s.fld Reg.flashStatus Reg.flashStatus_FORMATTING = 1 then s
    else
      let s1 := (s.setFld Reg.flashCtrl Reg.flashCtrl_FORMAT 1).setFld Reg.flashStatus Reg.flashStatus_FORMATTING 1
      (List.range 32).foldl (fun u c => u.failChannel c) s1

/-- A channel erased and unmapped: every good block free and erased once more, the blocks marked bad at manufacture and those
whose erase has failed retired (R331). Log entry 25 DEDUCED. -/
def FlashX.formatted (f : FlashX) : FlashX :=
  let bad := (f.geom.map fun g => g.badBlocks ++ g.eraseFails).getD []
  let blocks := f.keys.foldl (fun m k =>
    let b := f.block k
    let st := if b.st == .retired || bad.contains (k / 2 ^ 32, k % 2 ^ 32) then BlockSt.retired else .free
    SMap.set (fun _ => {}) m k { st, erases := b.erases + 1, pages := [] }) []
  { f with blocks, map := [], lost := [], bad := [], queue := [], place := [], turn := 0, opened := 0, patrolled := [] }

/-- Good pages of a channel. -/
def FlashX.goodPages (f : FlashX) : Nat :=
  (f.keys.filter fun k => (f.block k).st != .retired).length * (f.geom.map (·.pages)).getD 0

/-- A block whose erase failed at FORMAT counts as retired in service where it was in use until then (R331, R338). -/
def State.formatFails (s : State) (c : Nat) : State :=
  let f := s.fch c
  let at_ := fun k : Nat => (k / 2 ^ 32, k % 2 ^ 32)
  let bad := (f.geom.map (·.badBlocks)).getD []
  let fails := (f.geom.map (·.eraseFails)).getD []
  let n := (f.keys.filter fun k => fails.contains (at_ k) && !((f.block k).st == .retired || bad.contains (at_ k))).length
  let e := Reg.flashChErr c
  if n = 0 then s else ((List.range n).foldl (fun u _ => u.bump e Reg.flashChErr_RETIRED) s).setFld e Reg.flashChErr_RETEV 1

/-- FLASH_FORMAT_DONE (R328, R331, R337): every block is erased, or retired where its erase failed, and every page unmapped, the
configuration last written is in force and LPAGES is fixed; the channels load their empty maps. -/
def execFlashFormatDone (s : State) : Host.Outcome State Fault Refusal :=
  .next <|
    if s.fld Reg.flashStatus Reg.flashStatus_FORMATTING = 0 then s
    else
      let s1 := (List.range 32).foldl (fun u c => (u.formatFails c).updFch c FlashX.formatted) s
      let cfg := s1.flashAll.next
      let good := ((List.range 32).map fun c => (s1.fch c).goodPages).sum
      let lp := good * (64 - cfg % 64) / 64 / 32 * 32
      let lo := t3Base / 512
      let hi := lo + 2 ^ 46
      let s2 := { s1 with
        flashAll := { s1.flashAll with inForce := some (cfg, lp) }
        mem := SMap.clear s1.mem (512 * lo) (512 * hi), seals := SMap.clear s1.seals lo hi }
      let s3 := (s2.setReg Reg.flashCfg (BitVec.ofNat 64 cfg)).setFld Reg.flashCap Reg.flashCap_LPAGES lp
      let s4 := (s3.setFld Reg.flashCtrl Reg.flashCtrl_FORMAT 0).setFld Reg.flashStatus Reg.flashStatus_FORMATTING 0
      (List.range 32).foldl (fun u c =>
        ((u.setFld (Reg.flashChMaplen c) Reg.flashChMaplen_STROKES (u.mapStrokes c)).flashShow c).startRebuild c) s4

/-! ## Bring-up, failure and retraining (R326, R340, R510, R516) -/

/-- Whether a parameter page reports only what R326 supports. -/
def geomOk (g : FlashGeometry) : Bool :=
  decide (1 ≤ g.targets ∧ g.targets ≤ 4) && decide (g.lunsPer = 1 ∨ g.lunsPer = 2) && decide (g.planes = 2 ∨ g.planes = 4)
    && decide (g.dataBytes = 16384) && decide (2048 ≤ g.spareBytes) && decide (256 ≤ g.pages ∧ g.pages ≤ 4096) && g.lpddr4

/-- FLASH_INTERFACE_TRAINED (R326, R510 step 8, R516): with a licence in force a channel's interface trains and its parameter page is
read; a page outside the supported subset sets GEOMBAD, and a channel without chip enables or timing stays not ready. A ready channel
that retrains ends its retraining and takes its work up again. -/
def execFlashInterfaceTrained (channel : Nat) (geometry : Option FlashGeometry) (s : State) :
    Host.Outcome State Fault Refusal :=
  guarded (decide (channel < 32)) s fun s =>
    let st := Reg.flashChStatus channel
    if s.fld Reg.globalReady Reg.globalReady_LIC = 0 then s
    else if s.chUp channel then
      if s.fld st Reg.flashChStatus_TRAIN = 1 then
        (s.setFld st Reg.flashChStatus_TRAIN 0).updFch channel fun f => { f with holdUntil := min f.holdUntil s.gc }
      else s
    else
      let s0 := s.setFld st Reg.flashChStatus_TRAIN 0
      match geometry with
      | none => (s0.setFld st Reg.flashChStatus_LUNS 0).startRebuild channel
      | some g =>
        if !geomOk g then
          (((s0.setFld st Reg.flashChStatus_GEOMBAD 1).setFld st Reg.flashChStatus_LUNS (g.targets * g.lunsPer)).updFch channel
            fun f => { f with geom := none }).startRebuild channel
        else
          let s1 := (s0.setFld st Reg.flashChStatus_GEOMBAD 0).setFld st Reg.flashChStatus_LUNS (g.targets * g.lunsPer)
          let s2 := s1.updFch channel fun f => { f with geom := some g }
          let s3 : State := match s2.flashAll.inForce with
            | some (cfg, lp) => (s2.setReg Reg.flashCfg (BitVec.ofNat 64 cfg)).setFld Reg.flashCap Reg.flashCap_LPAGES lp
            | none => s2
          ((s3.setFld (Reg.flashChMaplen channel) Reg.flashChMaplen_STROKES (s3.mapStrokes channel)).flashShow
            channel).startRebuild channel

/-- FLASH_CHANNEL_FAILURE (R340): a channel stops serving its pages; its queued work completes with unavailable. -/
def execFlashChannelFailure (channel : Nat) (s : State) : Host.Outcome State Fault Refusal :=
  guarded (decide (channel < 32)) s fun s =>
    ((s.updFch channel fun f => { f with rebuilding := false }).failChannel channel).flashEvent channel

/-- FLASH_CHANNEL_RETRAIN (R338, R516): a ready channel retrains its interface, its queued work held for at most 2,500 gc. -/
def execFlashChannelRetrain (channel : Nat) (s : State) : Host.Outcome State Fault Refusal :=
  guarded (decide (channel < 32)) s fun s =>
    if s.chUp channel then
      (s.updFch channel fun f => { f with holdUntil := s.gc + 2500, holdFrom := s.gc }).setFld (Reg.flashChStatus channel) Reg.flashChStatus_TRAIN 1
    else s

end Sys2Proof.Machine
end

