-- ==== Sys2Proof/Machine/MapCore.lean ====
section
/-! DEFINITION. The installed epoch, the membership table and the forward table as requests meet them (R414 to R419, R426). -/

namespace Sys2Proof.Machine

/-- MAP.EPOCH.EPOCH, the installed epoch. -/
def State.epoch (s : State) : Nat := s.fld Reg.mapEpoch Reg.mapEpoch_EPOCH

/-- The membership entry of a node: STATE and PARTNER (R414). -/
def State.member (s : State) (n : Nat) : Nat × Nat := SMap.get (fun _ => (0, 0xFFF)) s.map.members n

/-- The membership entry of a node set. -/
def State.setMember (s : State) (n : Nat) (v : Nat × Nat) : State :=
  { s with map := { s.map with members := SMap.set (fun _ => (0, 0xFFF)) s.map.members n v } }

/-- A forward-table entry. -/
def State.fwd (s : State) (i : Nat) : FwdX := SMap.get (fun _ => {}) s.map.fwd i

/-- A forward-table entry set. -/
def State.setFwd (s : State) (i : Nat) (v : FwdX) : State :=
  { s with map := { s.map with fwd := SMap.set (fun _ => {}) s.map.fwd i v } }

/-- The active forward entry of an owner and a session, the lowest-numbered one (R416, R417). -/
def State.forward (s : State) (owner session : Nat) : Option FwdX :=
  (s.map.fwd.find? fun e => e.2.valid && e.2.active && e.2.owner == owner && e.2.session == session).map (·.2)

/-- An active forward entry of an owner and a session whose ACT an epoch has reached, the lowest-numbered one (R417). -/
def State.forwardAt (s : State) (owner session r : Nat) : Option FwdX :=
  (s.map.fwd.find? fun e => e.2.valid && e.2.active && e.2.owner == owner && e.2.session == session && !newer e.2.act r).map (·.2)

/-- Whether the grace window of the installed epoch is open (R415). -/
def State.inGrace (s : State) : Bool := s.map.grace.any fun g => g.1 == s.epoch && decide (s.gc < g.2)

/-- DETAIL of a moved completion (R419). -/
def movedDetail (hint newpf : Nat) (stale : Bool) : Nat := hint % 2 ^ 12 + b2n stale * 2 ^ 12 + newpf % 2 ^ 18 * 2 ^ 14

/-- Whether the node has entered recovery because it is isolated or decided out, and answers everything with moved (R426). -/
def State.outcast (s : State) : Bool :=
  s.fld Reg.fabCtrl Reg.fabCtrl_MODE = 3 &&
    (s.fld Reg.fltStatus Reg.fltStatus_ISOLATED = 1 || decide (2 ≤ (s.member s.node).1))

/-- Check 6 of R360 (R417, R426): done, or moved with its DETAIL. `who` is the owner and session the message names, if any. -/
def State.epochCheck (s : State) (r : Nat) (who : Option (Nat × Nat)) : Nat × Nat :=
  let e := s.epoch
  if s.outcast then (cMoved, movedDetail (s.fld Reg.pairStatus Reg.pairStatus_PARTNER) 0x3FFFF false)
  else
    match who.bind fun w => s.forwardAt w.1 w.2 r with
    | some x => (cMoved, movedDetail x.hint x.newpf false)
    | none =>
      if r = e ∨ r = (e + 1) % 2 ^ 32 then (cDone, 0)
      else if (r + 1) % 2 ^ 32 = e ∧ s.inGrace then (cDone, 0)
      else if (r + 1) % 2 ^ 32 = e then
        match who.bind fun w => s.forward w.1 w.2 with
        | some x => (cMoved, movedDetail x.hint x.newpf true)
        | none => (cMoved, movedDetail 0xFFF 0x3FFFF true)
      else (cMoved, movedDetail 0xFFF 0x3FFFF true)

end Sys2Proof.Machine
end

