-- ==== Sys2Proof/Machine/Ports.lean ====
section
/-! DEFINITION. The optical ports: negotiation, the port state machine and what happens when a port leaves UP (R344 to R349, R379,
R490, R566). -/

namespace Sys2Proof.Machine

/-! ## Port state (R349, R377) -/

/-- The bay a port attaches to (R21). -/
def portBay (p : Nat) : Nat := if p < 4 then 4 * p else 4 * (p - 4) + 3

/-- PORT.STATUS.STATE of a port: 0 OFF, 1 DETECT, 2 TRAIN, 3 EXCHANGE, 4 SETTLE, 5 UP. -/
def State.portSt (s : State) (p : Nat) : Nat := s.fld (Reg.portStatus p) Reg.portStatus_STATE

/-- The MAC address of a port (R376). Log entry 133 DESIGN CHOICE. -/
def portMac (p : Nat) : BitVec 48 := Config.portMac Config.devid p

/-- The lanes a port may light: LANEOK without those a settle check dropped. -/
def State.lanesOk (s : State) (p : Nat) : Nat :=
  let ok := s.fld (Reg.portCtrl p) Reg.portCtrl_LANEOK
  ok - (ok &&& (s.port p).dropped)

/-- The lanes whose lasers are lit in a state of a port, and their rate code (R344, R349, R566): none in OFF or without the
ferrule, all LANEOK lanes at 50 Gb/s until a mode is chosen, then the lanes of the mode at its rate. -/
def State.lasers (s : State) (p n : Nat) : Nat × Nat :=
  let y := s.port p
  if n = 0 ∨ y.unseated then (0, 0)
  else
    match (if 4 ≤ n then y.chosen else none) with
    | some (_, r, _, _, used) => (used, r)
    | none => (s.lanesOk p, 0)

/-- A port enters a state (R344, R349). -/
def State.setPortSt (s : State) (p n : Nat) : State :=
  (s.setFld (Reg.portStatus p) Reg.portStatus_STATE n).updPort p fun y =>
    { y with since := s.gc, lit := s.lasers p n, bad := [] }

/-! ## Frames on the fibre (R354, R355, R377) -/

/-- How long `bytes` occupy a port, in millionths of an easel cycle (R354). -/
def State.frameTime (s : State) (p bytes : Nat) : Nat :=
  let neg := Reg.portNeg p
  let k := if s.fld neg Reg.portNeg_MODEFEC = 1 then 514 else 521
  let rate := s.fld neg Reg.portNeg_MODELANES * (53125 * 2 ^ s.fld neg Reg.portNeg_MODERATE) * k
  ceilDiv (bytes * 19200 * 544 * 10 ^ 6) rate

/-- A frame handed to a port: it leaves with its first bit in easel cycle `first`, or comes back over the near-end loop (R377).
Log entry 102 DESIGN CHOICE. -/
def State.putFrame (s : State) (p : Nat) (f : Frame) (first : Nat) : State :=
  if s.fld (Reg.portTest p) Reg.portTest_LOOP = 1 then s.updPort p fun y => { y with looped := y.looped ++ [f] }
  else s.emit (.frame p f first)

/-- A header-only frame leaves 240 ec after the event that calls for it, behind what remains of the data frame then on the fibre
and ahead of every data frame not yet begun (R355). Log entry 132 DEDUCED. -/
def State.hdrOut (s : State) (p : Nat) (f : Frame) : State :=
  let (b, e) := (s.port p).fibre
  let t := (s.ec + 240) * 10 ^ 6
  s.putFrame p f ((if b ≤ t then max t e else t) / 10 ^ 6)

/-- A data frame of `bytes` leaves no earlier than easel cycle `at_` and once the fibre is free (R354, R355); the cycle of its
first bit. -/
def State.dataOut (s : State) (p : Nat) (f : Frame) (bytes at_ : Nat) : Nat × State :=
  let t := max (at_ * 10 ^ 6) (s.port p).fibre.2
  (t / 10 ^ 6, (s.updPort p fun y => { y with fibre := (t, t + s.frameTime p bytes) }).putFrame p f (t / 10 ^ 6))

/-- The guard of a port command: a port of the die, and no effect on one outside the tier (R3). -/
def onPort (p : Nat) (s : State) (f : State → State) : Host.Outcome State Fault Refusal :=
  guarded (decide (p < 8)) s fun s => if p < s.nPorts then f s else s

/-- The next UP native port of a connection's mask in round-robin order (R357). -/
def State.nextPort (s : State) (k : ConnX) : Option Nat :=
  ((List.range 8).map fun i => (k.rr + i + 1) % 8).find? fun p => bitOf k.ports p && s.portNative p

/-- A message assigned to its port (R357): none while no port of the mask is UP (R399). -/
def State.assignMsg (s : State) (c first : Nat) : State :=
  let k := s.conn c
  match s.nextPort k with
  | none => s.setConn c { k with msgs := k.msgs.map fun m => if m.first = first then { m with port := none } else m }
  | some p => s.setConn c { k with rr := p, msgs := k.msgs.map fun m => if m.first = first then { m with port := some p } else m }

/-- A queued message of a connection taken out of the queues of an instance. Log entry 63 DEDUCED. -/
def State.dequeueMsg (s : State) (i c first : Nat) : State := s.dropItems i fun e => e.item == .msg c first

/-- Subscriber queue and service of a message's descriptor (R146, R384). -/
def descSubq (d : List Nat) : Nat := bitsOf (d.getD 5 0) 32 16
@[inherit_doc descSubq] def descSvc (d : List Nat) : Nat := bitsOf (d.getD 5 0) 48 4

/-- The messages of a connection that have no port, or none that is UP and are not begun, take the next UP port; one that stood in
a queue joins the tail of the same queue on the new port's instance (R379, R384, R399). -/
def State.reassign (s : State) (c : Nat) : State :=
  (s.conn c).msgs.foldl (fun u m =>
    if m.next ≠ 0 ∨ m.complete ∨ (m.port.map u.portNative).getD false then u
    else
      let u1 := match m.port with | some p => if m.queued then u.dequeueMsg p c m.first else u | none => u
      let u2 := u1.assignMsg c m.first
      match ((u2.conn c).msgs.find? (·.first == m.first)).bind (·.port) with
      | some p =>
        if m.queued then u2.enqueue p (descSubq m.desc) { item := .msg c m.first, svc := descSvc m.desc, entered := u2.gc } else u2
      | none => u) s

/-- The node-to-node connections that hold something. -/
def State.nodeConns (s : State) : List Nat := (s.fab.conns.map (·.1)).filter (· < 4096)

/-- What PWR.STATUS shows of the node state (R489, R490): N1 while it is requested, every bay is deep and every UP port narrow;
NARROW while narrowing is asked for and no UP port is wide (log entry 37 DEDUCED). -/
def State.showNode (s : State) : State :=
  let st := Reg.pwrStatus
  let narrow := (List.range 8).all fun p => decide (s.portSt p ≠ 5) || (s.port p).narrow
  let asked := s.pwr.n1 || (List.range 8).any fun p => (s.port p).narrow
  let s1 := s.setFld st Reg.pwrStatus_NARROW (b2n (asked && narrow))
  if 2 ≤ s.fld st Reg.pwrStatus_NSTATE then s1
  else s1.setFld st Reg.pwrStatus_NSTATE (b2n (s.pwr.n1 && narrow && decide (s.fld st Reg.pwrStatus_DEEP = 0xFFFF)))

/-- Packets last sent on a port fall due at once (R379), unless they have been sent as often as they may be (R364). -/
def State.dueOn (s : State) (p : Nat) : State :=
  let lim := s.fld Reg.fabTimer Reg.fabTimer_RETRYMAX + 1
  s.nodeConns.foldl (fun u c => u.updConn c fun k =>
    { k with pkts := k.pkts.map fun q =>
        if q.sends ≠ 0 ∧ q.port = p ∧ !q.acked ∧ q.sends < lim then { q with due := true, dueAt := s.ec } else q }) s

/-- A port that is UP leaves it (R349, R377, R379, R513): MODE.LANES reads 0, DOWNS and DOWNEV count it, its packets fall due and
its unbegun messages move. -/
def State.leaveUp (s : State) (p : Nat) : State :=
  if s.portSt p = 5 then
    let e := Reg.portEvt p
    let s1 := ((s.bump e Reg.portEvt_DOWNS).setFld e Reg.portEvt_DOWNEV 1).setFld (Reg.portNeg p) Reg.portNeg_MODELANES 0
    let s2 := (s1.setPortSt p 2).setReady Reg.globalReady_PORT p false
    let s3 := s2.dueOn p
    (s3.nodeConns.foldl (fun u c => u.reassign c) s3).showNode
  else s

/-- A port darkened (R349): OFF, with NFECDROP cleared and the lanes a settle check dropped offered again. Log entry 58 DEDUCED. -/
def State.portOff (s : State) (p : Nat) : State :=
  (((s.leaveUp p).setPortSt p 0).setFld (Reg.portEvt p) Reg.portEvt_NFECDROP 0).updPort p fun y =>
    { y with dropped := 0, locked := 0, chosen := none }

/-- An enabled port that is OFF lights its lanes (R349); not without a licence (R5), nor with its ferrule absent, which leaves it
in DETECT (R566). -/
def State.portLight (s : State) (p : Nat) : State :=
  if s.portSt p = 0 ∧ s.fld (Reg.portCtrl p) Reg.portCtrl_ENABLE = 1 ∧ s.fld Reg.globalReady Reg.globalReady_LIC = 1
      ∧ p < s.nPorts then s.setPortSt p 1
  else s

/-- PORT_ENABLE (R349): ENABLE set lights the lanes, cleared darkens them. -/
def execPortEnable (port : Nat) (enable : Bool) (s : State) : Host.Outcome State Fault Refusal :=
  onPort port s fun s =>
    let s1 := s.setFld (Reg.portCtrl port) Reg.portCtrl_ENABLE (b2n enable)
    if enable then s1.portLight port else s1.portOff port

/-- PORT_RENEG (R349): an UP port trains again. -/
def execPortReneg (port : Nat) (s : State) : Host.Outcome State Fault Refusal :=
  onPort port s fun s => s.leaveUp port

/-- PORT_SIGNAL_DETECT (R349, R566). -/
def execPortSignalDetect (port : Nat) (s : State) : Host.Outcome State Fault Refusal :=
  onPort port s fun s => if s.portSt port = 1 ∧ !(s.port port).unseated then s.setPortSt port 2 else s

/-- The capability page of a port (R347): what PORT.NEG offers, a narrowed port one lane (R490), in N2 lane 0 at 50 Gb/s (R491),
no native FEC once a settle check withdrew it; GOOD without the lanes withdrawn for their age (R500). -/
def State.capPage (s : State) (p : Nat) : Nat :=
  let neg := Reg.portNeg p
  let y := s.port p
  let n2 := decide (s.fld Reg.pwrStatus Reg.pwrStatus_NSTATE = 2)
  let fecs := s.fld neg Reg.portNeg_FECS
  let ok := y.locked - (y.locked &&& s.fld (Reg.pwrLaser p) Reg.pwrLaser_WITHDRAWN)
  (if y.narrow then 1 else s.fld neg Reg.portNeg_LANES)
    + (if n2 then 1 else s.fld neg Reg.portNeg_RATES) * 2 ^ 4
    + (if s.fld (Reg.portEvt p) Reg.portEvt_NFECDROP = 1 then fecs / 2 * 2 else fecs) * 2 ^ 7
    + s.fld neg Reg.portNeg_FRAMINGS * 2 ^ 9 + s.node * 2 ^ 12 + p * 2 ^ 24 + (if n2 then ok &&& 1 else ok) * 2 ^ 28

/-- PORT_TRAIN_DONE (R347, R349): the locked lanes are stable for 250 gc, or the time is up with at least one locked, and the port
sends its page; with none locked for 12,500 gc it looks for signal again. -/
def execPortTrainDone (port locked : Nat) (s : State) : Host.Outcome State Fault Refusal :=
  guarded (decide (port < 8) && decide (locked < 256)) s fun s =>
    if s.portSt port ≠ 2 ∨ s.nPorts ≤ port then s
    else
      let l := locked &&& s.lanesOk port
      let since := (s.port port).since
      if l = 0 then (s.passTo (96 * (since + 12500))).setPortSt port 1
      else
        let s1 := (s.passTo (96 * (since + 250))).updPort port fun y => { y with locked := l }
        let page := s1.capPage port
        ((s1.updPort port fun y => { y with offer := page }).setPortSt port 3).emit (.page port (BitVec.ofNat 64 page))

/-! ## Negotiation (R344, R347, R348) -/

/-- Lanes set in a mask of eight. -/
def laneCount (m : Nat) : Nat := ((List.range 8).filter fun i => bitOf m i).length

/-- The lowest-numbered `n` lanes of a mask. -/
def lowLanes (m n : Nat) : Nat := (((List.range 8).filter fun i => bitOf m i).take n).foldl (fun a i => a + 2 ^ i) 0

/-- The largest product of lanes and rate among what both offer and the good lanes allow, the higher rate first at equal products
(R348): (log2 of the lanes, rate code). Log entry 58 DEDUCED. -/
def bestMode (lanes rates good : Nat) : Option (Nat × Nat) :=
  let opts := [2, 1, 0].flatMap fun r => ((List.range 4).filter fun n =>
    bitOf lanes n && bitOf rates r && decide (2 ^ n ≤ laneCount good)).map fun n => (n, r)
  opts.foldl (fun b o =>
    match b with
    | none => some o
    | some c => if c.1 + c.2 < o.1 + o.2 then some o else b) none

/-- CAPABILITY_PAGE_RECEIVED (R347 to R349): the partner's page and the one the port sends settle framing, lanes, rate and FEC;
with no common framing, or no common lanes and rate, the port stays in EXCHANGE. -/
def execCapabilityPageReceived (port : Nat) (page : BitVec 64) (s : State) : Host.Outcome State Fault Refusal :=
  onPort port s fun s =>
    if s.portSt port ≠ 3 then s
    else
      let v := page.toNat
      let st := Reg.portStatus port
      let own := (s.port port).offer
      let good := bitsOf own 28 8 &&& bitsOf v 28 8
      let s1 := (((s.setFld st Reg.portStatus_PEERSW (bitsOf v 11 1)).setFld st Reg.portStatus_PEER (bitsOf v 12 12)).setFld
        st Reg.portStatus_PEERPORT (bitsOf v 24 3)).setFld st Reg.portStatus_GOOD good
      let framings := bitsOf own 9 2 &&& bitsOf v 9 2
      let lanes := bitsOf own 0 4 &&& bitsOf v 0 4
      let rates := bitsOf own 4 3 &&& bitsOf v 4 3
      let fecs := bitsOf own 7 2 &&& bitsOf v 7 2
      if framings = 0 then s1
      else
        match bestMode lanes rates good with
        | none => s1
        | some (n, r) =>
          let framing := if bitOf framings 0 then 0 else 1
          let native := decide (framing = 0) && bitOf fecs 0
          (s1.updPort port fun y => { y with chosen := some (n, r, if native then 0 else 1, framing, lowLanes good (2 ^ n)) }).setPortSt
            port 4

/-- PORT_EXCHANGE_TIMEOUT (R349): 250 gc without a partner page. -/
def execPortExchangeTimeout (port : Nat) (s : State) : Host.Outcome State Fault Refusal :=
  onPort port s fun s =>
    if s.portSt port = 3 then (s.passTo (96 * ((s.port port).since + 250))).setPortSt port 2 else s

/-- A settle check that fails: the chosen count's lanes that failed leave GOOD, and the port trains again (R349). -/
def State.settleFails (s : State) (port mask used : Nat) : State :=
  let st := Reg.portStatus port
  let bad := mask &&& used
  let good := s.fld st Reg.portStatus_GOOD
  ((s.setFld st Reg.portStatus_GOOD (good - (good &&& bad))).updPort port fun y =>
    { y with dropped := y.dropped ||| bad }).setPortSt port 2

/-- PORT_SETTLE_CHECK (R349, R399): a codeword that needs more than NFECMAX corrections withdraws native FEC; otherwise the check
passes 1,000 gc after the port settled and the port is UP in the mode chosen; an uncorrectable codeword, or 25,000 gc without
lock, gives up the lanes that failed. Log entry 58 DEDUCED. -/
def execPortSettleCheck (port : Nat) (result : SettleResult) (s : State) : Host.Outcome State Fault Refusal :=
  onPort port s fun s =>
    if s.portSt port ≠ 4 then s
    else
      let since := (s.port port).since
      match result, (s.port port).chosen with
      | .checked worst, some (n, r, fec, framing, _) =>
        let neg := Reg.portNeg port
        if fec = 0 ∧ s.fld neg Reg.portNeg_NFECMAX < worst then
          (s.setFld (Reg.portEvt port) Reg.portEvt_NFECDROP 1).setPortSt port 2
        else
        let s := s.passTo (96 * (since + 1000))
        let s1 := (((s.setFld neg Reg.portNeg_MODELANES (2 ^ n)).setFld neg Reg.portNeg_MODERATE r).setFld
          neg Reg.portNeg_MODEFEC fec).setFld neg Reg.portNeg_MODEFRAMING framing
        let s2 := (s1.setPortSt port 5).setReady Reg.globalReady_PORT port true
        (s2.nodeConns.foldl (fun u c => u.reassign c) s2).showNode
      | .uncorrectable mask, some (_, _, _, _, used) => s.settleFails port mask used
      | .noLock mask, some (_, _, _, _, used) => (s.passTo (96 * (since + 25000))).settleFails port mask used
      | _, _ => s

/-- PORT_DOWN (R349, R379): a lane loses lock or too many codewords are beyond correction. -/
def execPortDown (port : Nat) (s : State) : Host.Outcome State Fault Refusal :=
  onPort port s fun s => s.leaveUp port

/-- FERRULE_CHANGE (R566): a ferrule removed darkens the lasers and the port stays in DETECT; seated again it goes on from there. -/
def execFerruleChange (port : Nat) (seated : Bool) (s : State) : Host.Outcome State Fault Refusal :=
  guarded (decide (port < 8)) s fun s =>
    let s1 := s.updPort port fun y => { y with unseated := !seated }
    if !seated && s.portSt port != 0 then (s1.leaveUp port).setPortSt port 1
    else s1.updPort port fun y => { y with lit := s1.lasers port (s.portSt port) }

/-- PORT_NARROWING (R490): a port that changes between its whole offer and a one-lane offer passes through negotiation. -/
def State.narrowPort (s : State) (port : Nat) (narrow : Bool) : State :=
  let s1 := s.updPort port fun y => { y with narrow }
  if s.portSt port = 5 then s1.leaveUp port else s1

end Sys2Proof.Machine
end

