-- ==== Sys2Proof/Machine/Transport.lean ====
section
/-! DEFINITION. The fabric transport: messages out and in, acknowledgement, retransmission and resynchronisation (R146 to R148, R350 to
R365, R371 to R374). -/

namespace Sys2Proof.Machine

/-! ## Frames (R350 to R352) -/

/-- Bits of a header word. -/
def hw (f : Frame) (w lo n : Nat) : Nat := bf (f.hdr.getD w 0) lo n

/-- TYPE of a frame. -/
def frType (f : Frame) : Nat := hw f 0 24 4
/-- Key of a frame's connection in the tables: client connections stand above 4,096. -/
def frConn (f : Frame) : Nat := if hw f 0 52 1 = 1 then 4096 + hw f 0 32 20 else hw f 0 32 20
/-- PSN of a frame. -/
def frPsn (f : Frame) : Nat := hw f 1 32 16
/-- First PSN of the message of a packet (R360). -/
def frFirst (f : Frame) : Nat := (frPsn f + 65536 - hw f 1 48 12) % 65536

/-- Bytes of a frame (R354). -/
def frameBytesOf (plen : Nat) : Nat := 64 + 64 * ceilDiv plen 64

/-- A frame of seven header words and a payload, with its two CRCs (R351). -/
def mkFrame (ws : List Nat) (payload : List Byte) : Frame :=
  let ws := fitTo 7 0 ws
  let h := crc32c (ws.flatMap (natBytes 8))
  let p := if payload.isEmpty then 0 else crc32c payload
  { hdr := (ws ++ [h + p * 2 ^ 32]).map (BitVec.ofNat 64), payload }

/-- Word 0 of a frame. -/
def frameW0 (dnode snode type conn cclass path : Nat) : Nat :=
  dnode % 2 ^ 12 + snode % 2 ^ 12 * 2 ^ 12 + type % 16 * 2 ^ 24 + 2 ^ 28 + conn % 2 ^ 20 * 2 ^ 32 + cclass % 2 * 2 ^ 52 +
    path % 256 * 2 ^ 56

/-- Whether the header's CRC holds (R351). -/
def hcrcOk (f : Frame) : Bool :=
  f.hdr.length == 8 && hw f 7 0 32 == crc32c ((f.hdr.take 7).flatMap fun w => natBytes 8 w.toNat)

/-- Whether the payload's CRC holds (R351). -/
def pcrcOk (f : Frame) : Bool := hw f 7 32 32 == (if f.payload.isEmpty then 0 else crc32c f.payload)

/-- Whether a reserved field of a header is set (R351, R352). -/
def hdrReserved (f : Frame) : Bool :=
  let z := fun w lo n => hw f w lo n != 0
  z 0 53 3 || match frType f with
    | 1 | 2 => z 1 60 4 || z 2 25 7 || z 4 58 6 || z 5 48 16 || z 6 19 45
    | 3 => z 1 0 32 || z 1 48 16 || z 4 0 64 || z 5 0 64 || z 6 0 64
    | 4 => z 1 0 32 || z 1 48 16 || z 2 28 4 || z 3 0 64 || z 4 0 64 || z 5 0 64 || z 6 0 64
    | 5 => z 0 32 20 || z 0 52 1 || z 1 8 24 || z 2 51 13
    | 6 => z 1 0 32 || z 1 49 15 || z 2 0 64 || z 3 0 64 || z 4 0 64 || z 5 0 64 || z 6 0 64
    | _ => false

/-- Packets of a message of `len` bytes (R351). -/
def packetsOf (len : Nat) : Nat := max 1 (ceilDiv len 4096)

/-- Whether a packet agrees with the packet cutting of R351. -/
def cutOk (f : Frame) : Bool :=
  let n := packetsOf (hw f 3 40 24)
  hw f 2 0 12 + 1 == n && decide (hw f 1 48 12 < n)
    && hw f 2 12 13 == min 4096 (hw f 3 40 24 - 4096 * hw f 1 48 12) && f.payload.length == hw f 2 12 13

/-! ## Common -/

/-- Whether the node has an identifier, without which it neither sends nor takes a native frame (R378). -/
def State.hasId (s : State) : Bool := decide (s.node ≤ 0x3FF)

/-- FAB.STATUS: open messages, client records held, transmit buffer slots in use (R378). -/
def State.fabShow (s : State) : State :=
  let ks := s.fab.conns
  let st := Reg.fabStatus
  ((s.setFld st Reg.fabStatus_OPEN (ks.map fun k => k.2.rx.length).sum).setFld st Reg.fabStatus_CACHED
    (ks.filter fun k => decide (4096 ≤ k.1)).length).setFld st Reg.fabStatus_TXBUF
    (ks.map fun k => (k.2.pkts.filter fun q => q.frame.isSome && !q.acked).length).sum

/-- A fabric event (R540): SUB names the connection, UNIT its lowest port. -/
def State.fabEvent (s : State) (c : Nat) : State :=
  let p := (lowestIdx 8 fun p => bitOf (s.conn c).ports p).getD 0
  s.log 0x0C p c (s.reg Reg.fabErr) (s.reg (Reg.portDrop p))

/-- A header-only frame of a connection leaves on the port its trigger came in on, or on the lowest UP port of the mask; with none UP
it is lost (R355, R357). -/
def State.sendHdr (s : State) (c port type w1 w2 w3 : Nat) : State :=
  let k := s.conn c
  match (if s.portNative port then some port else s.lowestUp k.ports) with
  | some p =>
    if s.hasId then
      s.hdrOut p (mkFrame [frameW0 k.peer s.node type k.peerconn (b2n (4096 ≤ c)) 0, w1, w2, w3] [])
    else s
  | none => s

/-- A CONTROL frame to a node leaves on the lowest-numbered UP native port (R424; log entry 33 DEDUCED); with none UP it is lost. -/
def State.sendCtl (s : State) (dest kind w2 : Nat) (chg : List Nat) : State :=
  match s.lowestUp 255 with
  | some p =>
    if s.hasId then
      let v := (chg.zipIdx.map fun (c, i) => c % 65536 * 2 ^ (16 * i)).sum
      let ws := (List.range 4).map fun k => bitsOf v (64 * k) 64
      s.hdrOut p (mkFrame ([frameW0 dest s.node 5 0 0 0, kind + s.epoch * 2 ^ 32, w2] ++ ws) [])
    else s
  | none => s

/-- FETCH for every epoch between the installed one and `e`, to the node that showed it (R426). -/
def State.fetchUpTo (s : State) (node e : Nat) : State :=
  if s.fld Reg.mapEpoch Reg.mapEpoch_SEEDED = 1 ∧ newer e s.epoch then
    (List.range ((e + 2 ^ 32 - s.epoch) % 2 ^ 32)).foldl (fun u i => u.sendCtl node 7 ((s.epoch + 1 + i) % 2 ^ 32) []) s
  else s

/-- An ACK of a connection (R352, R362). -/
def State.sendAck (s : State) (c port : Nat) : State :=
  let k := s.conn c
  let sack := ((List.range 128).filter fun i => k.rxbits.contains ((k.rxcum + 1 + i) % 65536)).foldl (fun a i => a + 2 ^ i) 0
  (s.updConn c fun k => { k with nack := 0 }).sendHdr c port 3 (k.rxcum * 2 ^ 32) (sack % 2 ^ 64) (sack / 2 ^ 64)

/-- A COMPLETE of a message (R352, R361). -/
def State.sendComplete (s : State) (c port first code count detail : Nat) : State :=
  s.sendHdr c port 4 (first * 2 ^ 32) (code % 16 + count % 2 ^ 24 * 2 ^ 4 + detail % 2 ^ 32 * 2 ^ 32) 0

/-- The waiting entry of a message or receive buffer, if its program has not lost it since (R155). -/
def State.waitEntry (s : State) (x : Ea) (entry seq : Nat) : Option OutOp :=
  (s.entry x entry).filter fun o => o.seq == seq

/-- A completion word lands in the entry that waits for it. -/
def State.finishAt (s : State) (x : Ea) (entry seq w : Nat) : State :=
  match s.waitEntry x entry seq with
  | some o => s.finish x o (BitVec.ofNat 64 w)
  | none => s

/-! ## Issue (R146 to R148, R357, R364, R372) -/

/-- An operation refused before it is sent: its completion word lands 4 ec after issue. Log entry 59 DEDUCED. -/
def State.refuseSend (s : State) (x : Ea) (kind : OutKind) (rd node code : Nat) : Res :=
  s.async x kind rd 0 (2 ^ 40 + code) node 0 4

/-- Whether SEND and RECV are accepted (R371, R372). Log entry 59 DEDUCED. -/
def State.sendMode (s : State) : Bool := s.fld Reg.fabCtrl Reg.fabCtrl_MODE != 1

/-- The descriptor of a WRIMM, SEND or RECV: its precise checks, then `go` on its eight words (R146, R147). Log entry 45 DEDUCED. -/
def wrForm (opc : Nat) (x : Ea) (w : Word) (go : State → List Nat → Res) : State → Host.Outcome State Fault Refusal :=
  issue x w (opIs w opc 0) { sh := shR .g .g .z .z } fun s =>
    let a : Int := (s.gr x (raOf w)).toNat
    match opCheck a 64 64 with
    | some r => r
    | none =>
      let d := (List.range 8).map fun i => (s.opWord x (a.toNat + 8 * i)).toNat
      let src := d.getD 3 0
      let len := bitsOf (d.getD 4 0) 0 24
      if bitOf src 63 then go s d else (opCheck (src % 2 ^ 48 : Nat) len 1).getD (go s d)

/-- An operation whose SRC is a location that the rules shut out (R100, R131, R147): it takes its entry and fails, imprecisely. -/
def State.badSource (s : State) (x : Ea) (kind : OutKind) (rd node src : Nat) : Res :=
  match s.takeEntry x kind rd 0 (2 ^ 40) node 0 4 with
  | none => .stall
  | some t =>
    match (t.ex x).outst.getLast? with
    | some o => .ok (t.failOp x o 0x05 (src % 2 ^ 48))
    | none => .ok t

/-- Whether SRC is a location that a transfer of LEN bytes may not use (R131, R147). -/
def State.sourceBad (s : State) (src len : Nat) : Bool := bitOf src 63 && !s.locOk (src % 2 ^ 48) (ceilDiv len 512)

/-- Where an entry keeps SRC: an operand-store offset, or a location with bit 63 set (R146). -/
def srcPlace (src : Nat) : Nat := src % 2 ^ 48 + bitsOf src 63 1 * 2 ^ 63

/-- A message taken by its connection: its PSNs assigned, its entry taken, its port chosen (R357, R358). -/
def State.takeMsg (s : State) (x : Ea) (send : Bool) (rd : Nat) (d : List Nat) : Res :=
  let w0 := d.getD 0 0
  let c := bitsOf w0 12 12
  let k := s.conn c
  let len := bitsOf (d.getD 4 0) 0 24
  let src := d.getD 3 0
  let kind := if send then OutKind.send else .wrimm
  if k.state ≠ 1 then s.refuseSend x kind rd (bitsOf w0 0 12) cUnavailable
  else if s.sourceBad src len then s.badSource x kind rd (bitsOf w0 0 12) src
  else
    let seq := (s.ex x).opSeq
    match freeEntry (s.ex x).outst with
    | none => .stall
    | some entry =>
      match s.takeEntry x kind rd (srcPlace src) (c * 2 ^ 16 + k.txpsn) (bitsOf w0 0 12) len 0 with
      | none => .stall
      | some t =>
        let m : TxMsg :=
          { first := k.txpsn, n := packetsOf len, send, x, entry, seq, desc := d, epoch := s.epoch, port := none
            issued := s.ec, ready := 0, queued := false, next := 0, complete := false }
        let t1 := t.updConn c fun k => { k with txpsn := (k.txpsn + m.n) % 65536, msgs := k.msgs ++ [m] }
        .ok (t1.assignMsg c m.first)

/-- WRIMM (R146, R147). -/
def execWrimm (x : Ea) (w : Word) (s : State) : Host.Outcome State Fault Refusal :=
  wrForm 0x60 x w (fun s d => s.takeMsg x false (rdOf w) d) s

/-- SEND (R148, R372): busy in run mode. Log entry 97 DEDUCED. -/
def execSend (x : Ea) (w : Word) (s : State) : Host.Outcome State Fault Refusal :=
  wrForm 0x61 x w (fun s d =>
    if s.sendMode then s.takeMsg x true (rdOf w) d else s.refuseSend x .send (rdOf w) (bitsOf (d.getD 0 0) 0 12) cBusy) s

/-- RECV (R148, R372): a buffer posted, busy in run mode or while the queue holds sixteen. Log entry 97 DEDUCED. -/
def execRecv (x : Ea) (w : Word) (s : State) : Host.Outcome State Fault Refusal :=
  wrForm 0x62 x w (fun s d =>
    let w0 := d.getD 0 0
    let c := bitsOf w0 12 12
    if !s.sendMode || decide (16 ≤ (s.conn c).bufs.length) then s.refuseSend x .recv (rdOf w) (bitsOf w0 0 12) cBusy
    else
      let src := d.getD 3 0
      let len := bitsOf (d.getD 4 0) 0 24
      let seq := (s.ex x).opSeq
      if s.sourceBad src len then s.badSource x .recv (rdOf w) (bitsOf w0 0 12) src
      else
      match freeEntry (s.ex x).outst with
      | none => .stall
      | some entry =>
        match s.takeEntry x .recv (rdOf w) (srcPlace src) (c * 2 ^ 16) (bitsOf w0 0 12) len 0 with
        | none => .stall
        | some t => .ok (t.updConn c fun k => { k with bufs := k.bufs ++ [{ x, entry, seq, src, len }] })) s

/-- MESSAGE_ENQUEUE (R92, R384, R386): a message whose payload has reached the port bay enters its subscriber queue, or is refused
with busy where the queue or the node's pool is full. Its source is read no earlier than the easel's earlier stores to it have
taken effect. Log entry 59 DEDUCED. -/
def execMessageEnqueue (conn firstPsn : Nat) (s : State) : Host.Outcome State Fault Refusal :=
  guarded (decide (conn < 4096) && decide (firstPsn < 65536)) s fun s =>
    match (s.conn conn).msgs.find? fun m => m.first == firstPsn && !m.queued with
    | none => s
    | some m =>
      match m.port with
      | none => s
      | some p =>
        if (s.waitEntry m.x m.entry m.seq).any (s.mustWait m.x) then s
        else
        let s1 := s.passTo (m.issued + 6 * hops m.x.bay (portBay p))
        let q := descSubq m.desc
        let v := descSvc m.desc
        if s1.fld (Reg.schedSvc1 p v) Reg.schedSvc1_QLIM ≤ ((s1.inst p).sub q).msgs.length ∨ 65536 ≤ s1.queuedAll then
          let e := Reg.schedErr p
          let s2 := (s1.bump e Reg.schedErr_BUSY).setFld e Reg.schedErr_BUSYEV 1
          let s3 := s2.updConn conn fun k => { k with msgs := k.msgs.filter (·.first != firstPsn) }
          s3.finishAt m.x m.entry m.seq (compWord cBusy 0 0).toNat
        else
          (s1.updConn conn fun k =>
            { k with msgs := k.msgs.map fun y =>
                if y.first = firstPsn then { y with queued := true, ready := s1.ec } else y }).enqueue p q
            { item := .msg conn firstPsn, svc := v, entered := s1.gc }

/-! ## Failure and closing (R364, R365, R399) -/

/-- Everything a connection sends is given up: its messages complete with unavailable and its transmit slots are freed. -/
def State.abortTx (s : State) (c : Nat) : State :=
  let ms := (s.conn c).msgs
  let s1 := s.updConn c fun k => { k with msgs := [], pkts := [] }
  (ms.foldl (fun u m =>
    let u1 := match m.port with | some p => if m.queued then u.dequeueMsg p c m.first else u | none => u
    if m.complete then u1 else u1.finishAt m.x m.entry m.seq (compWord cUnavailable 0 0).toNat) s1).fabShow

/-- A connection fails (R364). -/
def State.failConn (s : State) (c : Nat) : State :=
  let s1 := (s.updConn c fun k => { k with state := 2 }).abortTx c
  let e := Reg.fabErr
  (((s1.bump e Reg.fabErr_CONNFAIL).setFld e Reg.fabErr_LASTFAIL c).setFld e Reg.fabErr_FAILEV 1).fabEvent c

/-- An open message cut (R370, R380): its later packets are discarded, its COMPLETE carries the code, its immediate never comes. -/
def State.cutMsg (s : State) (c : Nat) (m : RxMsg) (code : Nat) (tell : Bool) : State :=
  let s1 := (s.updConn c fun k =>
    { k with rx := k.rx.filter (·.first != m.first)
             done := k.done ++ [{ first := m.first, code, count := 0, detail := 0, left := m.n - m.seen.length }] }).undefine m.spans
  let s2 : State := match m.buf with
    | some b => s1.finishAt b.x b.entry b.seq (compWord code 0 0).toNat
    | none => s1
  (if tell then s2.sendComplete c m.port m.first code 0 0 else s2).fabShow

/-- Everything a connection receives is given up. -/
def State.abortRx (s : State) (c : Nat) : State :=
  ((s.conn c).rx.foldl (fun u m => u.cutMsg c m cUnavailable false) s).updConn c fun k =>
    { k with rxbits := [], done := [], nack := 0 }

/-! ## Sending again (R363, R364) -/

/-- Whether a packet may still be due: not acknowledged, or the last of a message whose packets are all acknowledged and whose
COMPLETE is missing. -/
def ConnX.wanted (k : ConnX) (q : TxPkt) : Bool :=
  !q.acked || k.msgs.any fun m =>
    m.first == q.first && !m.complete && q.idx + 1 == m.n && (k.pkts.filter (·.first == m.first)).all (·.acked)

/-- RTO_EXPIRY (R363, R364): a packet RTO gc after its latest send falls due, or fails its connection after RETRYMAX + 1 sends.
Log entry 42 DESIGN CHOICE. -/
def execRtoExpiry (conn psn : Nat) (s : State) : Host.Outcome State Fault Refusal :=
  guarded (decide (conn < 4096) && decide (psn < 65536)) s fun s =>
    let k := s.conn conn
    match k.pkts.find? fun q => q.psn == psn && decide (q.sends ≠ 0) && !q.due && k.wanted q with
    | none => s
    | some q =>
      let s1 := s.passTo (96 * (q.sentGc + s.fld Reg.fabTimer Reg.fabTimer_RTO))
      if s.fld Reg.fabTimer Reg.fabTimer_RETRYMAX + 1 ≤ q.sends then s1.failConn conn
      else s1.updConn conn fun k =>
        { k with pkts := k.pkts.map fun r => if r.psn = psn then { r with due := true, dueAt := s1.ec } else r }

/-- The port a due packet leaves on (R363): its last one, or the lowest UP port of the mask. -/
def State.retxPort (s : State) (k : ConnX) (q : TxPkt) : Option Nat :=
  if s.portNative q.port then some q.port else s.lowestUp k.ports

/-- RETRANSMIT (R355, R363, R364, R385): a due packet leaves with the same header on its last port, or the lowest UP port of the
mask, its first bit 480 ec after it fell due; with none UP the attempt counts as a send. It is charged to the port's bucket only.
-/
def execRetransmit (conn psn : Nat) (s : State) : Host.Outcome State Fault Refusal :=
  guarded (decide (conn < 4096) && decide (psn < 65536)) s fun s =>
    let k := s.conn conn
    match k.pkts.find? fun q => q.psn == psn && q.due with
    | none => s
    | some q =>
      let again := fun (port first : Nat) (u : State) => u.updConn conn fun k =>
        { k with pkts := k.pkts.map fun r =>
            if r.psn = psn then { r with due := false, sends := r.sends + 1, sentGc := first / 96, port } else r }
      if !k.wanted q then s.updConn conn fun k => { k with pkts := k.pkts.map fun r => if r.psn = psn then { r with due := false } else r }
      else
        match s.retxPort k q, q.frame with
        | some p, some f =>
          let bytes := frameBytesOf f.payload.length
          let (first, s1) := s.dataOut p f bytes (max s.ec (q.dueAt + 480))
          let s2 := ((again p first s1).updConn conn fun k => { k with retx := satInc 32 k.retx }).bump (Reg.portRetx p)
            Reg.portRetx_COUNT
          let i := s2.inst p
          s2.setInst p { i with tok := i.tok - 16 * bytes }
        | _, _ => again q.port s.ec s

/-! ## Policing (R387, R391 to R393) -/

/-- The colour a two-rate marker gives a packet of `b` sixteenths of a byte, with what is left of its buckets: 0 green, 1 yellow,
2 red. `pre` is the colour the packet comes with (RFC 2698, RFC 4115). -/
def markColour (mode : Nat) (pre : Nat) (tc tp b : Int) : Nat × Int × Int :=
  if mode = 1 then
    if pre = 2 ∨ tp < b then (2, tc, tp)
    else if pre = 1 ∨ tc < b then (1, tc, tp - b)
    else (0, tc - b, tp - b)
  else if mode = 2 then
    if pre = 0 ∧ b ≤ tc then (0, tc - b, tp)
    else if pre ≤ 1 ∧ b ≤ tp then (1, tc, tp - b)
    else (2, tc, tp)
  else (0, tc, tp)

/-- A node policer. -/
def State.pol (s : State) (i : Nat) : PolX := SMap.get (fun _ => {}) s.fab.pols i

/-- A node policer set. -/
def State.setPol (s : State) (i : Nat) (v : PolX) : State :=
  { s with fab := { s.fab with pols := SMap.set (fun _ => {}) s.fab.pols i v } }

/-- The stage A policer of a connection, if one applies (R391). -/
def State.stageA (s : State) (c : Nat) : Option Nat :=
  if 4096 ≤ c then
    let r := (s.conn c).record
    if (r.getD 10 0).toNat % 2 = 1 then some (leAt r 8 2) else none
  else
    let v := SMap.get (fun _ => 0) s.fab.bound c
    if 65536 ≤ v then some (v - 65536) else none

/-- The buckets of a port policer. -/
def State.inTok (s : State) (i : Nat) : Int × Int := SMap.get (fun _ => (0, 0)) s.fab.inpol i

/-- A node policer as it meters in ground cycle `g` (R393): a write applies from the next. -/
def State.polAt (s : State) (g i : Nat) : PolX :=
  let o := SMap.get (fun _ => (0, {})) s.fab.polOld i
  if g < o.1 then o.2 else s.pol i

/-- A node policer after it metered in ground cycle `g`. -/
def State.setPolAt (s : State) (g i : Nat) (v : PolX) : State :=
  let o := SMap.get (fun _ => (0, {})) s.fab.polOld i
  if g < o.1 then { s with fab := { s.fab with polOld := SMap.set (fun _ => (0, {})) s.fab.polOld i (o.1, v) } } else s.setPol i v

/-- A port policer as it meters in ground cycle `g` (R393): its word 0 and its buckets. -/
def State.inpolAt (s : State) (g port k : Nat) : Nat × Int × Int :=
  let o := SMap.get (fun _ => (0, 0, 0, 0)) s.fab.inpolOld (2 * port + k)
  if g < o.1 then o.2 else ((s.reg (Reg.schedInpol0 port k)).toNat, s.inTok (2 * port + k))

/-- A port policer's buckets after it metered in ground cycle `g`. -/
def State.setInpolAt (s : State) (g i : Nat) (tok : Int × Int) : State :=
  let o := SMap.get (fun _ => (0, 0, 0, 0)) s.fab.inpolOld i
  if g < o.1 then
    { s with fab := { s.fab with inpolOld := SMap.set (fun _ => (0, 0, 0, 0)) s.fab.inpolOld i (o.1, o.2.1, tok) } }
  else { s with fab := { s.fab with inpol := SMap.set (fun _ => (0, 0)) s.fab.inpol i tok } }

/-- A packet of a connection metered in both stages in ground cycle `g` (R391 to R393): whether it is dropped. -/
def State.meter (s : State) (g port c bytes : Nat) : Bool × State :=
  let b : Int := 16 * bytes
  let (ca, dropA, s1) := match s.stageA c with
    | none => (0, false, s)
    | some i =>
      let p := s.polAt g i
      let (col, tc, tp) := markColour p.mode 0 p.tc p.tp b
      let p1 := { p with tc, tp, green := p.green + b2n (col = 0), yellow := p.yellow + b2n (col = 1), red := p.red + b2n (col = 2) }
      (col, decide ((col = 1 ∧ p.acty = 1) ∨ (col = 2 ∧ p.actr = 1)), if p.mode = 0 then s else s.setPolAt g i p1)
  if dropA then (true, s1)
  else
    let k := b2n (4096 ≤ c)
    let (w0, tc, tp) := s1.inpolAt g port k
    let fld := fun (f : Fld) => bitsOf w0 f.lo f.w
    let (col, tok) := markColour (fld Reg.schedInpol0_MODE) (if fld Reg.schedInpol0_AWARE = 1 then ca else 0) tc tp b
    let s2 := s1.setInpolAt g (2 * port + k) tok
    let drop := (col = 1 ∧ fld Reg.schedInpol0_ACTY = 1) ∨ (col = 2 ∧ fld Reg.schedInpol0_ACTR = 1)
    if drop then (true, s2.bump (Reg.schedInpol3 port k) Reg.schedInpol3_DROPS) else (false, s2)

/-! ## Client records (R373, R374) -/

/-- Whether a client record is pinned: it has an open message or an ACK to send. -/
def ConnX.pinned (k : ConnX) : Bool := !k.rx.isEmpty || decide (k.nack ≠ 0)

/-- Where a client's record lies in host memory (R373). -/
def State.spillAddr (s : State) (c : Nat) : Nat := s.fld Reg.fabCli Reg.fabCli_SPILLBASE * 4096 + 256 * (c - 4096)

/-- A client record written back and dropped. -/
def State.dropClient (s : State) (c : Nat) : State :=
  let k := s.conn c
  ((s.enqueueOwn 9 1 (c - 4096) 256 (.hostWrite 0 (s.spillAddr c) (Config.cliPack k.record k.rxcum))).setConn c {}).fabShow

/-- An invalidation that waits is carried out once the record is unpinned (R374). Log entry 28 DESIGN CHOICE. -/
def State.settleInval (s : State) (c : Nat) : State :=
  match (s.conn c).inval with
  | some _ => if (s.conn c).pinned then s else (s.dropClient c).setFld Reg.fabCliop Reg.fabCliop_INVAL 0
  | none => s

/-- The least recently used unpinned client record. -/
def State.lruClient (s : State) : Option Nat :=
  ((s.fab.conns.filter fun k => decide (4096 ≤ k.1) && !k.2.pinned).foldl (fun b k =>
    match b with
    | none => some (k.1, k.2.used)
    | some (_, u) => if k.2.used < u then some (k.1, k.2.used) else b) none).map (·.1)

/-- Whether a client connection's record is on chip. -/
def State.clientHeld (s : State) (c : Nat) : Bool := s.fab.conns.any (·.1 == c)

/-- A client packet without its record: it waits in its port's miss buffer while the record is fetched; a full buffer, or a cache
whose records are all pinned, drops it. -/
def State.clientMiss (s : State) (port : Nat) (f : Frame) (c : Nat) : State :=
  let drop := fun (u : State) => u.bump (Reg.portDrop port) Reg.portDrop_MISSDROP
  let wait := fun (u : State) => u.updPort port fun y => { y with miss := y.miss ++ [(f, u.ec)] }
  if 64 ≤ (s.port port).miss.length then drop s
  else if s.fab.fetching.contains c then wait s
  else
    let held := (s.fab.conns.filter fun k => decide (4096 ≤ k.1)).length + s.fab.fetching.length
    let fetch := fun (u : State) =>
      let rd : HostRead := ⟨1, c - 4096⟩
      let v : State := { u with fab := { u.fab with fetching := u.fab.fetching ++ [c] }
                                host := { u.host with reads := u.host.reads ++ [(rd, u.ec)] } }
      wait (v.enqueueOwn 9 1 (c - 4096) 256 (.hostRead 0 (u.spillAddr c) 256 rd))
    if held < 16384 then fetch s
    else
      match s.lruClient with
      | some l => fetch (s.dropClient l)
      | none => drop (s.setFld Reg.fabErr Reg.fabErr_CLIFULLEV 1)

/-! ## Receiving (R353, R359, R362) -/

/-- A data packet that has passed R353 is to be metered in this ground cycle (R391). -/
def State.policed (s : State) (port : Nat) (f : Frame) (at_ : Nat) : State :=
  { s with fab := { s.fab with metering := s.fab.metering ++ [(port, f, at_, s.gc)] } }

/-- The packets of past ground cycles are metered, those of one cycle in ascending port order, and wait for their admission unless
they are dropped (R391, R393). -/
def State.meterDue (s : State) : State :=
  let (now, later) := s.fab.metering.partition fun e => decide (e.2.2.2 < s.gc)
  let sorted := now.foldl (fun l e => insertBy (fun (e : Nat × Frame × Nat × Nat) => [e.2.2.2, e.1]) e l) []
  sorted.foldl (fun u (port, f, at_, g) =>
    let (drop, v) := u.meter g port (frConn f) (frameBytesOf f.payload.length)
    if drop then v else { v with fab := { v.fab with arrived := v.fab.arrived ++ [(port, f, at_)] } })
    { s with fab := { s.fab with metering := later } }

/-- Whether a frame names a connection that takes it: open and of its peer; a RESYNC, any that is not closed (R353, R365). -/
def State.connTakes (s : State) (f : Frame) : Bool :=
  let k := s.conn (frConn f)
  (if frType f = 6 then decide (k.state ≠ 0) else decide (k.state = 1)) && decide (k.peer = hw f 0 12 12)

/-- The codewords of a frame that a port's FEC corrected and could not correct, counted (R377); more than 64 uncorrectable ones within
25,000 gc take the port out of UP (R349). Log entry 91 DEDUCED. -/
def State.codewords (s : State) (port corrected uncorrectable : Nat) : State :=
  let r := Reg.portFec port
  let sat := fun n => min (2 ^ 32 - 1) n
  let s1 := (s.setFld r Reg.portFec_CORR (sat (s.fld r Reg.portFec_CORR + corrected))).setFld r Reg.portFec_UNCORR
    (sat (s.fld r Reg.portFec_UNCORR + uncorrectable))
  let bad := ((s.port port).bad.filter fun e => decide (s.gc < e.1 + 25000)) ++
    (if uncorrectable = 0 then [] else [(s.gc, uncorrectable)])
  let s2 := s1.updPort port fun y => { y with bad }
  if 64 < (bad.map (·.2)).sum then s2.leaveUp port else s2

/-- Whether a header is an idle unit: every field zero (R350). -/
def idleUnit (f : Frame) : Bool := (f.hdr.take 7).all (· == 0)

/-- Where a frame's header that fails its CRC or a check of R353 is counted, or none: HDRBAD for a wrong VER, a reserved TYPE or
field, or packets not cut by R351; NOTME for another node, or for no open connection of its class and peer. Log entry 132 DEDUCED.
-/
def State.headerFault (s : State) (port : Nat) (f : Frame) : Option (Nat × Fld) :=
  let hdrbad := some (Reg.portDrop port, Reg.portDrop_HDRBAD)
  let notme := some (Reg.portDrop port, Reg.portDrop_NOTME)
  let c := frConn f
  let client := decide (hw f 0 52 1 = 1)
  let data := decide (frType f ≤ 2)
  if !hcrcOk f then some (Reg.portRxerr port, Reg.portRxerr_HCRC)
  else if idleUnit f then none
  else if hw f 0 28 4 ≠ 1 ∨ 6 < frType f ∨ hdrReserved f then hdrbad
  else if frType f = 0 then none
  else if hw f 0 0 12 ≠ s.node then notme
  else if frType f = 5 then if hw f 1 0 8 = 0 ∨ 7 < hw f 1 0 8 then hdrbad else none
  else if !client && decide (4096 ≤ c) then notme
  else if client && decide (s.fld Reg.fabCli Reg.fabCli_ENABLE = 0) then notme
  else if client && !s.clientHeld c then if !data || !cutOk f then hdrbad else none
  else if !s.connTakes f then notme
  else if data && !cutOk f then hdrbad
  else none

/-- Whether a port takes native frames: not before the node has an identifier (R378), nor during a relock (R502). -/
def State.hears (s : State) (port : Nat) : Bool :=
  s.portNative port && s.hasId && decide (s.fld Reg.pwrStatus Reg.pwrStatus_RELOCK ≠ 1)

/-- A native frame that FEC has passed (R353, R373, R391, R426): checked, counted where it is discarded, and taken, or metered; a
newer epoch that a CONTROL frame shows is fetched, where the frame's own command does not carry it. -/
def State.takeFrame (port : Nat) (frame : Frame) (s : State) : State :=
  let c := frConn frame
  if !s.hears port then s
  else
    match s.headerFault port frame with
    | some (r, f) => s.bump r f
    | none =>
      if frType frame = 0 then s
      else if !pcrcOk frame then s.bump (Reg.portRxerr port) Reg.portRxerr_PCRC
      else if frType frame = 5 then
        if [2, 4, 6, 7].contains (hw frame 1 0 8) then s.fetchUpTo (hw frame 0 12 12) (hw frame 1 32 32) else s
      else if 4096 ≤ c ∧ !s.clientHeld c then s.clientMiss port frame c
      else if frType frame ≤ 2 then s.policed port frame s.ec
      else { s with fab := { s.fab with arrived := s.fab.arrived ++ [(port, frame, s.ec)] } }

/-- The units behind a header that failed (R350): they are discarded until one passes HCRC as a header, and that one and its
payload units are a frame again; what follows it is a header too. Log entry 132 DEDUCED. -/
def State.hunt (port : Nat) : Nat → Bool → List Byte → State → State
  | 0, _, _, s => s
  | n + 1, expected, bs, s =>
    if bs.isEmpty then s
    else
      let hdr := (List.range 8).map fun i => BitVec.ofNat 64 (leAt bs (8 * i) 8)
      let rest := bs.drop 64
      let f0 : Frame := ⟨hdr, []⟩
      if !expected && !hcrcOk f0 then State.hunt port n false rest s
      else
        let plen := if frType f0 = 1 ∨ frType f0 = 2 then hw f0 2 12 13 else 0
        let f : Frame := ⟨hdr, rest.take plen⟩
        let s1 := s.takeFrame port f
        if (s.headerFault port f).isSome then State.hunt port n false rest s1
        else State.hunt port n true (rest.drop (64 * ceilDiv plen 64)) s1

/-- FRAME_RECEIVE (R349, R350, R353, R375, R377, R378, R391): a frame that comes in on an UP native port is checked, counted where
it is discarded, and a data packet metered. CONTROL frames go to the commands of the fault protocol. With a test pattern on, what
comes in is the pattern; with a far-end loop the frame goes back; with a near-end loop the port hears its own frames only. Log
entry 102 DESIGN CHOICE. -/
def execFrameReceive (port corrected uncorrectable : Nat) (frame : Frame) (s : State) : Host.Outcome State Fault Refusal :=
  onPort port s fun s =>
    let test := Reg.portTest port
    let loop := s.fld test Reg.portTest_LOOP
    if s.fld test Reg.portTest_PRBS = 1 then
      if (s.port port).lit.1 = 0 then s
      else s.setFld test Reg.portTest_PRBSERR (min (2 ^ 32 - 1) (s.fld test Reg.portTest_PRBSERR + corrected + uncorrectable))
    else if !s.portNative port || (decide (loop = 1) && !(s.port port).looped.contains frame) then s
    else
      let u := (s.updPort port fun y => { y with looped := y.looped.erase frame }).codewords port corrected uncorrectable
      if 0 < uncorrectable then u
      else if loop = 2 then u.putFrame port frame u.ec
      else
        let v := u.takeFrame port frame
        if u.hears port && (u.headerFault port frame).isSome then
          v.hunt port (ceilDiv frame.payload.length 64) false frame.payload
        else v

/-- A received frame that waits, by its port and contents, or by its contents alone. -/
def State.takeArrived (s : State) (p : Nat × Frame × Nat → Bool) : Option ((Nat × Frame × Nat) × State) :=
  match s.fab.arrived.findIdx? p with
  | some i =>
    some (s.fab.arrived.getD i (0, ⟨[], []⟩, 0), { s with fab := { s.fab with arrived := s.fab.arrived.eraseIdx i } })
  | none => none

/-- CLIENT_RECORD_FETCHED (R373): the record is held on chip, and the packets that wait for it go on. Log entry 27 DESIGN CHOICE. -/
def execClientRecordFetched (conn : Nat) (record : List (BitVec 8)) (s : State) : Host.Outcome State Fault Refusal :=
  guarded (decide (conn < 2 ^ 20) && record.length == 256) s fun s =>
    let c := 4096 + conn
    if !s.fab.fetching.contains c then s
    else
      let k : ConnX :=
        { state := b2n (Config.cliOpen record), peer := Config.cliPeer record % 4096
          peerconn := Config.cliPeerConn record % 2 ^ 20, rxcum := Config.cliRxcum record % 65536, record, used := s.fab.uses + 1 }
      let s1 : State := { s with fab := { s.fab with fetching := s.fab.fetching.filter (· != c), uses := s.fab.uses + 1 }
                                 host := { s.host with reads := s.host.reads.filter fun r => r.1 != (⟨1, conn⟩ : HostRead) } }
      let s2 := (s1.setConn c k).fabShow
      (List.range 8).foldl (fun u p =>
        let (go, stay) := (u.port p).miss.partition fun e => frConn e.1 == c
        go.foldl (fun v e =>
          if v.connTakes e.1 then v.policed p e.1 e.2 else v.bump (Reg.portDrop p) Reg.portDrop_NOTME)
          (u.updPort p fun y => { y with miss := stay })) s2

/-- An invalidation REVDRAIN gc after its write (R374): every open message of the record is cut per R370, and the record is
unpinned. -/
def State.cutInval (s : State) (c : Nat) : State :=
  let s1 := (s.conn c).rx.foldl (fun u m =>
    ((u.cutMsg c m cRevoked true).setFld Reg.fabErr Reg.fabErr_CUTEV 1).fabEvent (c - 4096)) s
  (s1.sendAck c (s1.conn c).nackPort).settleInval c

/-- The invalidations whose REVDRAIN gc are over. -/
def State.invalDue (s : State) : State :=
  s.fab.conns.foldl (fun u k =>
    match k.2.inval with
    | some g => if 4096 ≤ k.1 ∧ g + u.fld Reg.fabTimer Reg.fabTimer_REVDRAIN ≤ u.gc then u.cutInval k.1 else u
    | none => u) s

/-- FAB_CLIOP_INVAL (R374): a client record is written back and dropped once it is unpinned; where it is pinned the write waits, and
what is open is cut REVDRAIN gc after it, as time passes or by the same command (log entry 28 DESIGN CHOICE). -/
def execFabCliopInval (conn : Nat) (s : State) : Host.Outcome State Fault Refusal :=
  guarded (decide (conn < 2 ^ 20)) s fun s =>
    let c := 4096 + conn
    let s1 := (s.setFld Reg.fabCliop Reg.fabCliop_CONN conn).setFld Reg.fabCliop Reg.fabCliop_INVAL 1
    if !s1.clientHeld c then s1.setFld Reg.fabCliop Reg.fabCliop_INVAL 0
    else if !(s1.conn c).pinned then (s1.dropClient c).setFld Reg.fabCliop Reg.fabCliop_INVAL 0
    else
      match (s1.conn c).inval with
      | none => s1.updConn c fun k => { k with inval := some s1.gc }
      | some g =>
        if s1.gc < g + s1.fld Reg.fabTimer Reg.fabTimer_REVDRAIN then s1 else s1.cutInval c

/-! ## Admission (R360, R367, R417, R418) -/

/-- A registration. -/
def State.regn (s : State) (i : Nat) : RegnX := SMap.get (fun _ => {}) s.fab.regns i

/-- A registration set. -/
def State.setRegn (s : State) (i : Nat) (v : RegnX) : State :=
  { s with fab := { s.fab with regns := SMap.set (fun _ => {}) s.fab.regns i v } }

/-- Raw bytes of a sheet class (R38). -/
def Pf.classBytes (p : Pf) : Nat := 65536 * 2 ^ p.cls

/-- The sheets a KIND 1 message falls in: (index, first byte in the raw image, position in the message, length) (R367). -/
def kind1Runs (p : Pf) (base off len : Nat) : List (Nat × Nat × Nat × Nat) :=
  let cls := p.classBytes
  let i0 := off / cls
  (List.range (if len = 0 then 0 else (off + len - 1) / cls - i0 + 1)).map fun j =>
    let lo := if j = 0 then off % cls else 0
    let pos := if j = 0 then 0 else (i0 + j) * cls - off
    (bitsOf base 18 32 + i0 + j, lo, pos, min (cls - lo) (len - pos))

/-- The places that `len` bytes from `off` of a registration go to: its range, or the sheets they fall in (R366, R367). -/
def State.regPlaces (s : State) (r : RegnX) (off len : Nat) : List Nat :=
  if r.kind = 1 then
    let p := s.pf (bitsOf r.base 0 18)
    (kind1Runs p r.base off len).map fun t => seLoc (s.listEntry p t.1)
  else [r.base]

/-- Whether a place can take bytes: its bay is up and not deep, and in T1 its stack is ready. -/
def State.placeUp (s : State) (l : Nat) : Bool := s.bayOpen (locBay l) && (locTier l != 1 || s.stackUp (locBay l))

/-- Whether the bays holding a destination range are ready (R360 check 8): for a run of sheets the home bay, where their list
lies, and the bay of every sheet. Log entry 60 DEDUCED. -/
def State.regUp (s : State) (r : RegnX) (off len : Nat) : Bool :=
  let home := (s.pf (bitsOf r.base 0 18)).home
  (r.kind ≠ 1 || (s.bayOpen home && s.stackUp home)) && (s.regPlaces r off len).all s.placeUp

/-- Whether the receive buffer of a SEND can take bytes (R360 check 8): its easel's bay, or the bay of the location it names. -/
def State.bufUp (s : State) (b : RecvBuf) : Bool :=
  if bitOf b.src 63 then s.placeUp (b.src % 2 ^ 48) else s.bayOpen b.x.bay

/-- What refuses a KIND 1 message beside the checks of R360 (R367), or done: a mismatch of the owner or the key slot gives key. -/
def State.kind1Code (s : State) (r : RegnX) (off len : Nat) : Nat :=
  let n := bitsOf r.base 0 18
  let p := s.pf n
  let c := s.pfCode n p
  if c = cUnavailable then c
  else if !p.valid then cNoSession
  else if c ≠ cDone ∨ r.owner ≠ p.owner then cKey
  else
    let runs := kind1Runs p r.base off len
    if runs.any (fun t => decide (p.count ≤ t.1) || decide (p.size < t.2.1 + t.2.2.2)) then cShape
    else
      ((runs.map fun t => s.storeCode p (s.listEntry p t.1) ((List.range (t.2.2.2 / 512)).map (t.2.1 / 512 + ·))).find? (· ≠ cDone)).getD cDone

/-- The checks of R360 on the first packet of a message, in order: code and DETAIL; with PFCHK set a home bay that is not ready shows
PAIR.STATUS.PARTNER there (R30). A node decided out or isolated answers every message with moved (R426). Log entry 60 DEDUCED. -/
def State.admitCode (s : State) (c : Nat) (f : Frame) : Nat × Nat :=
  let r := s.regn (hw f 3 0 16)
  let off := hw f 4 0 48
  let len := hw f 3 40 24
  let send := decide (frType f = 2)
  let pfchk := decide (hw f 6 18 1 = 1)
  let p := s.pf (hw f 6 0 18)
  let owner := hw f 5 0 16
  let session := hw f 5 16 32
  let kp := s.pf (bitsOf r.base 0 18)
  let who := if pfchk then some (owner, session) else if !send && decide (r.kind = 1) then some (kp.owner, kp.session) else none
  let bufs := (s.conn c).bufs
  if s.outcast then s.epochCheck (hw f 1 0 32) who
  else if 16384 ≤ (s.fab.conns.map fun k => k.2.rx.length).sum then (cBusy, 0)
  else if send ∧ (!s.sendMode ∨ bufs.isEmpty ∨ 4096 ≤ c) then (cBusy, 0)
  else if send ∧ (bufs.headD ⟨⟨0, 0⟩, 0, 0, 0, 0⟩).len < len then (cShape, 0)
  else if !send ∧ (r.state ≠ 1 ∨ r.keytag ≠ hw f 3 16 8 ∨ r.gen ≠ hw f 3 24 16) then (cRevoked, 0)
  else if !send ∧ 4096 ≤ c ∧ (r.client = 0 ∨ (r.cconn ≠ 0xFFFFF ∧ r.cconn ≠ c - 4096)) then (cRevoked, 0)
  else if !send ∧ r.len < off + len then (cShape, 0)
  else if !send ∧ r.kind = 1 ∧ (off % 512 ≠ 0 ∨ len % 512 ≠ 0) then (cShape, 0)
  else
    let (ec, det) := s.epochCheck (hw f 1 0 32) who
    if ec ≠ cDone then (ec, det)
    else if pfchk ∧ !(p.valid && p.owner == owner && p.session == session) then
      match s.forward owner session with
      | some x => (cMoved, movedDetail x.hint x.newpf false)
      | none => (cNoSession, 0)
    else if pfchk ∧ !(s.bayOpen p.home && s.stackUp p.home) then
      (cUnavailable, s.fld Reg.pairStatus Reg.pairStatus_PARTNER)
    else if send then
      (if s.bufUp (bufs.headD ⟨⟨0, 0⟩, 0, 0, 0, 0⟩) then cDone else cUnavailable, 0)
    else if !s.regUp r off len then (cUnavailable, 0)
    else if r.kind = 1 then (s.kind1Code r off len, 0)
    else (cDone, 0)

/-- The bays that `len` bytes of a message from byte `at_` go to. -/
def State.msgBays (s : State) (m : RxMsg) (at_ len : Nat) : List Nat :=
  match m.buf with
  | some b => [if bitOf b.src 63 then locBay b.src else b.x.bay]
  | none => (s.regPlaces (s.regn (bitsOf (m.hdr.getD 3 0) 0 16)) (bitsOf (m.hdr.getD 4 0) 0 48 + at_) len).map locBay

/-- Whether the destination range of an open message lies in a bay (R380): for a run of sheets, one of them or their list.
Log entry 60 DEDUCED. -/
def State.msgIn (s : State) (m : RxMsg) (b : Nat) : Bool :=
  let r := s.regn (bitsOf (m.hdr.getD 3 0) 0 16)
  (s.msgBays m 0 (bitsOf (m.hdr.getD 3 0) 40 24)).contains b
    || (m.buf.isNone && decide (r.kind = 1) && decide ((s.pf (bitsOf r.base 0 18)).home = b))

/-- The bay farthest from a port among those a packet goes to: the one its last byte reaches (R355). -/
def State.lastBay (s : State) (port : Nat) (m : RxMsg) (i len : Nat) : Nat :=
  match s.msgBays m (4096 * i) len with
  | [] => portBay port
  | b :: bs => bs.foldl (fun a c => if hops (portBay port) a < hops (portBay port) c then c else a) b

/-- A packet on its way to memory (R355): placed once its last byte has reached its bay. -/
def State.startPlacing (s : State) (c port : Nat) (m : RxMsg) (f : Frame) (at_ : Nat) : State :=
  let i := hw f 1 48 12
  let due := at_ + 720 + 6 * hops (portBay port) (s.lastBay port m i f.payload.length)
  s.updConn c fun k => { k with rx := k.rx.map fun y =>
    if y.first = m.first then { y with port, seen := y.seen ++ [i], placing := y.placing ++ [(i, f.payload, due)] } else y }

/-- The first packet of a message opens it (R30, R360): refused with the code of the first check that fails, and a COMPLETE of
count 0, or admitted. Log entry 60 DEDUCED. -/
def State.openMsg (s : State) (c port : Nat) (f : Frame) (at_ : Nat) : State :=
  let first := frFirst f
  let n := hw f 2 0 12 + 1
  let (code, det) := s.admitCode c f
  if code ≠ cDone then
    let full := !s.outcast && decide (16384 ≤ (s.fab.conns.map fun k => k.2.rx.length).sum)
    let s1 := if full then s.setFld Reg.fabErr Reg.fabErr_BUSYEV 1 else s
    (s1.updConn c fun k => { k with done := k.done ++ [{ first, code, count := 0, detail := det, left := n - 1 }] }).sendComplete
      c port first code 0 det
  else
    let bufs := (s.conn c).bufs
    let send := frType f = 2
    let m : RxMsg :=
      { first, n, hdr := f.hdr.map (·.toNat), port, seen := [], placing := [], placed := 0, spans := [], ids := []
        buf := if send then bufs.head? else none, lastBay := portBay port }
    let s1 := s.updConn c fun k => { k with rx := k.rx ++ [m], bufs := if send then k.bufs.drop 1 else k.bufs }
    (s1.startPlacing c port m f at_).fabShow

/-! ## The window (R359, R362, R363) -/

/-- RXCUM past every PSN whose bit is set. -/
def slideWindow : Nat → Nat → List Nat → Nat × List Nat
  | 0, cum, bits => (cum, bits)
  | n + 1, cum, bits => if bits.contains cum then slideWindow n ((cum + 1) % 65536) (bits.filter (· != cum)) else (cum, bits)

/-- A duplicate: an ACK at once, and the COMPLETE again of a message that is over and lies within 2,048 PSNs below RXCUM. -/
def State.duplicate (s : State) (c port first : Nat) : State :=
  let s1 := s.sendAck c port
  let k := s1.conn c
  let back := (k.rxcum + 65536 - first) % 65536
  match k.done.reverse.find? fun d => d.first == first with
  | some d => if 1 ≤ back ∧ back ≤ 2048 then s1.sendComplete c port first d.code d.count d.detail else s1
  | none => s1

/-- Completions no longer kept: over, and more than 2,048 PSNs below RXCUM. -/
def ConnX.trim (k : ConnX) : ConnX :=
  { k with done := k.done.filter fun d =>
      let back := (k.rxcum + 65536 - d.first) % 65536
      d.left != 0 || decide (back ≤ 2048 ∨ 32768 ≤ back) }

/-- Whether a later packet repeats the first one's words 2 to 6 but for PLEN (R360). -/
def sameMsg (m : RxMsg) (f : Frame) : Bool :=
  let w := fun i => m.hdr.getD i 0
  putBits (w 2) 12 13 0 == putBits (hw f 2 0 64) 12 13 0 && w 3 == hw f 3 0 64 && w 4 == hw f 4 0 64 && w 5 == hw f 5 0 64
    && w 6 == hw f 6 0 64

/-- The packets that wait on a port to be metered or admitted: the last bit, and the ground cycle before which it was metered. -/
def State.waitingPacket (s : State) (port : Nat) (frame : Frame) : Option (Nat × Nat) :=
  if 2 < frType frame then none
  else
    match s.fab.arrived.find? fun e => e.1 == port && e.2.1 == frame with
    | some (_, _, at_) => some (at_, 0)
    | none => (s.fab.metering.find? fun e => e.1 == port && e.2.1 == frame).map fun e => (e.2.2.1, e.2.2.2 + 1)

/-- PACKET_ADMIT (R359, R360, R362, R391): a packet, metered by then, is classified by its PSN 96 ec after its last bit; an
accepted one opens its message, joins it, or is discarded with it. -/
def execPacketAdmit (port : Nat) (frame : Frame) (s : State) : Host.Outcome State Fault Refusal :=
  onPort port s fun s =>
    match s.waitingPacket port frame with
    | none => s
    | some (last, metered) =>
    let sm := (s.passTo (max (last + 96) (96 * metered))).meterDue
    match sm.takeArrived fun e => e.1 == port && e.2.1 == frame with
    | none => sm
    | some ((_, f, at_), s0) =>
      let s1 : State := { s0 with fab := { s0.fab with uses := s0.fab.uses + 1 } }
      let c := frConn f
      let k := s1.conn c
      let first := frFirst f
      let drop := Reg.portDrop port
      if !s1.connTakes f then s1.bump drop Reg.portDrop_NOTME
      else if (k.rx.find? (·.first == first)).any fun m => !sameMsg m f then s1.bump drop Reg.portDrop_HDRBAD
      else
        let d := (frPsn f + 65536 - k.rxcum) % 65536
        if d < 1024 ∧ k.rxbits.contains (frPsn f) then s1.duplicate c port first
        else if 63488 ≤ d then s1.duplicate c port first
        else if 1024 ≤ d then s1.bump drop Reg.portDrop_WINERR
        else
          let (cum, bits) := slideWindow 1025 k.rxcum (k.rxbits ++ [frPsn f])
          let s2 := s1.updConn c fun k => ConnX.trim
            { k with rxcum := cum, rxbits := bits, used := s1.fab.uses, nack := k.nack + 1, nackPort := port
                     nackGc := if k.nack = 0 then s1.gc else k.nackGc }
          let s3 := if d ≠ 0 ∨ max 1 (s2.fld Reg.fabTimer Reg.fabTimer_ACKEVERY) ≤ (s2.conn c).nack then s2.sendAck c port else s2
          let k3 := s3.conn c
          let s4 : State :=
            if k3.done.any fun x => x.first == first && x.left != 0 then
              s3.updConn c fun k => { k with done := k.done.map fun x =>
                if x.first = first ∧ x.left ≠ 0 then { x with left := x.left - 1 } else x }
            else
              match k3.rx.find? (·.first == first) with
              | some m => s3.startPlacing c port m f at_
              | none => s3.openMsg c port f at_
          s4.settleInval c

/-- ACK_DELAY_EXPIRY (R362): ACKDLY gc after the first accepted packet not yet acknowledged. -/
def execAckDelayExpiry (conn cclass : Nat) (s : State) : Host.Outcome State Fault Refusal :=
  guarded (decide (cclass < 2) && decide (conn < if cclass = 1 then 2 ^ 20 else 4096)) s fun s =>
    let c := if cclass = 1 then 4096 + conn else conn
    let k := s.conn c
    if k.nack = 0 then s
    else
      let s1 := s.passTo (96 * (k.nackGc + s.fld Reg.fabTimer Reg.fabTimer_ACKDLY))
      (s1.sendAck c k.nackPort).settleInval c

/-! ## Placing and completing (R355, R361, R367, R372) -/

/-- Bytes placed by location from byte `off` of a place on. -/
def State.placeAt (s : State) (l off : Nat) (bs : List Byte) : State :=
  if bs.isEmpty then s else (s.storeLoc none (l + off / 512) (off % 512) bs []).2

/-- A packet's bytes placed: in the receive buffer of a SEND, by location (KIND 0), or as writes to sheets (KIND 1). -/
def State.placePacket (s : State) (m : RxMsg) (i : Nat) (bs : List Byte) : State × List (Nat × Nat) :=
  let at_ := 4096 * i
  match m.buf with
  | some b =>
    if bitOf b.src 63 then (s.placeAt (b.src % 2 ^ 48) at_ bs, [(locMem b.src + at_, bs.length)])
    else (s.setBytes (opBase b.x + b.src % 2 ^ 48 + at_) bs, [(opBase b.x + b.src % 2 ^ 48 + at_, bs.length)])
  | none =>
    let r := s.regn (bitsOf (m.hdr.getD 3 0) 0 16)
    let off := bitsOf (m.hdr.getD 4 0) 0 48 + at_
    if r.kind = 1 then
      let n := bitsOf r.base 0 18
      let p := s.pf n
      (kind1Runs p r.base off bs.length).foldl (fun (acc : State × List (Nat × Nat)) t =>
        let e := acc.1.listEntry p t.1
        let (_, u) := acc.1.writeSheet none n p t.1 e (written e) [(t.2.1, (bs.drop t.2.2.1).take t.2.2.2)] []
        (u, acc.2 ++ [(512 * sheetStroke e 0 + t.2.1, t.2.2.2)])) (s, [])
    else (s.placeAt r.base off bs, [(locMem r.base + off, bs.length)])

/-- Whether a packet waits for an earlier operation of the easel of its receive buffer, on strokes both touch (R92). -/
def State.recvWaits (s : State) (m : RxMsg) : Bool :=
  m.buf.any fun b => (s.entry b.x b.entry).any fun o => o.seq == b.seq && s.mustWait b.x o

/-- PACKET_PLACED (R92, R302, R355, R360, R367): an admitted packet's bytes are in their bay. KIND 1 bytes are mirrored, and wait
while the window of unacknowledged operations is full (R405); bytes for a range of a near-bank operation wait until that has
ended. -/
def execPacketPlaced (conn cclass firstPsn index : Nat) (payload : List (BitVec 8)) (s : State) :
    Host.Outcome State Fault Refusal :=
  guarded (decide (cclass < 2) && decide (conn < if cclass = 1 then 2 ^ 20 else 4096)) s fun s =>
    let c := if cclass = 1 then 4096 + conn else conn
    match (s.conn c).rx.find? (·.first == firstPsn) with
    | none => s
    | some m =>
      match m.placing.find? fun e => e.1 == index && e.2.1 == payload with
      | none => s
      | some (_, bs, due) =>
        if s.windowFull || s.recvWaits m then s
        else
          let s1 := s.passTo due
          let id0 := s1.pair.nextId
          let (s2, sp) := s1.placePacket m index bs
          let ids := (s2.pair.window.filter fun w => decide (id0 ≤ w.1)).map (·.1)
          if sp.any fun t => s.nbQueued (t.1 / 512) (ceilDiv (t.1 % 512 + t.2) 512) then s
          else s2.updConn c fun k => { k with rx := k.rx.map fun y =>
            if y.first = firstPsn then
              { y with placing := y.placing.filter (·.1 != index), placed := y.placed + 1, spans := y.spans ++ sp
                       ids := y.ids ++ ids, lastBay := s1.lastBay m.port m index bs.length }
            else y }

/-- MESSAGE_COMPLETE (R361, R367, R372): every packet placed and every mirrored write acknowledged, the immediate is posted, a RECV
completes, and COMPLETE is sent. -/
def execMessageComplete (conn cclass firstPsn : Nat) (s : State) : Host.Outcome State Fault Refusal :=
  guarded (decide (cclass < 2) && decide (conn < if cclass = 1 then 2 ^ 20 else 4096)) s fun s =>
    let c := if cclass = 1 then 4096 + conn else conn
    match (s.conn c).rx.find? (·.first == firstPsn) with
    | none => s
    | some m =>
      if m.placed ≠ m.n ∨ m.ids.any (fun i => s.pair.window.any fun w => w.1 == i) then s
      else
        let w := fun i lo n => bitsOf (m.hdr.getD i 0) lo n
        let len := w 3 40 24
        let rbay := w 4 48 4
        let s1 := s.updConn c fun k =>
          { k with rx := k.rx.filter (·.first != firstPsn)
                   done := k.done ++ [{ first := firstPsn, code := cDone, count := len, detail := 0, left := 0 }] }
        let s2 : State := match m.buf with
          | some b => s1.finishAt b.x b.entry b.seq (compWord cDone len (w 0 12 12)).toNat
          | none => s1
        let s3 := (s2.passTo (s2.ec + 6 * hops m.lastBay rbay)).arrive rbay (w 4 52 6) (dbRecord (w 2 32 32) (w 0 12 12) (1 + cclass))
        ((s3.sendComplete c m.port firstPsn cDone len 0).fabShow).settleInval c

/-! ## Acknowledgements and completions of what was sent (R361, R363) -/

/-- Packets and messages that are over leave the connection. -/
def ConnX.sweep (k : ConnX) : ConnX :=
  let live := fun (q : TxPkt) => !q.acked || k.msgs.any fun m => m.first == q.first && !m.complete
  { k with pkts := k.pkts.filter live, msgs := k.msgs.filter fun m => !(m.complete && m.n ≤ m.next) }

/-- ACK_RECEIVE (R352, R363): packets below CUMPSN or marked in SACK are acknowledged and free their slots; packets that one sent
REORDTOL gc later has overtaken fall due. -/
def execAckReceive (frame : Frame) (s : State) : Host.Outcome State Fault Refusal :=
  .next <|
    match s.takeArrived fun e => e.2.1 == frame && decide (frType frame = 3) with
    | none => s
    | some ((_, f, at_), s0) =>
      let s1 := s0.passTo (at_ + 96)
      let c := frConn f
      let cum := frPsn f
      let sack := hw f 2 0 64 + hw f 3 0 64 * 2 ^ 64
      let hit := fun (q : TxPkt) =>
        let below := (cum + 65536 - q.psn) % 65536
        let i := (q.psn + 65536 - cum - 1 + 65536) % 65536
        decide (q.sends ≠ 0) && !q.acked && (decide (1 ≤ below ∧ below ≤ 0x7FFF) || (decide (i < 128) && bitOf sack i))
      let k := s1.conn c
      let newly := k.pkts.filter hit
      if newly.isEmpty then s1
      else
        let gmax := (newly.map (·.sentGc)).foldl max 0
        let tol := s1.fld Reg.fabTimer Reg.fabTimer_REORDTOL
        let lim := s1.fld Reg.fabTimer Reg.fabTimer_RETRYMAX + 1
        let pkts := k.pkts.map fun q =>
          if hit q then { q with acked := true, due := false }
          else if q.sends ≠ 0 ∧ !q.acked ∧ q.sentGc + tol ≤ gmax ∧ q.sends < lim then { q with due := true, dueAt := s1.ec }
          else q
        (s1.setConn c (ConnX.sweep { k with pkts })).fabShow

/-- COMPLETE_RECEIVE (R355, R361): the completion word of a message lands in its easel. -/
def execCompleteReceive (frame : Frame) (s : State) : Host.Outcome State Fault Refusal :=
  .next <|
    match s.takeArrived fun e => e.2.1 == frame && decide (frType frame = 4) with
    | none => s
    | some ((p, f, at_), s0) =>
      let c := frConn f
      match (s0.conn c).msgs.find? fun m => m.first == frPsn f && !m.complete with
      | none => s0
      | some m =>
        let s1 := s0.passTo (at_ + 240 + 6 * hops (portBay p) m.x.bay)
        let s2 := s1.updConn c fun k => ConnX.sweep
          { k with msgs := k.msgs.map fun y => if y.first = m.first then { y with complete := true } else y }
        (s2.finishAt m.x m.entry m.seq (compWord (hw f 2 0 4) (hw f 2 4 24) (hw f 2 32 32)).toNat).fabShow

/-! ## Resynchronisation (R365) -/

/-- RESYNC_SEND (R365): every RTO gc while the connection resynchronises. -/
def execResyncSend (conn : Nat) (s : State) : Host.Outcome State Fault Refusal :=
  guarded (decide (conn < 4096)) s fun s =>
    let k := s.conn conn
    if k.state ≠ 3 then s
    else
      let last := SMap.get (fun _ => 0) s.fab.resyncAt conn
      let s1 := if last = 0 then s else s.passTo (96 * (last + s.fld Reg.fabTimer Reg.fabTimer_RTO))
      let s2 : State := { s1 with fab := { s1.fab with resyncAt := SMap.set (fun _ => 0) s1.fab.resyncAt conn s1.gc } }
      s2.sendHdr conn 8 6 (k.txpsn * 2 ^ 32) 0 0

/-- RESYNC_RECEIVE (R365): every message of the connection ends with unavailable, RXCUM takes the carried PSN, a RESYNC is answered,
and a connection in RESYNC opens; a REPLY to a connection that is not in RESYNC answers nothing and changes nothing. -/
def execResyncReceive (port : Nat) (frame : Frame) (s : State) : Host.Outcome State Fault Refusal :=
  onPort port s fun s =>
    match s.takeArrived fun e => e.1 == port && e.2.1 == frame && decide (frType frame = 6) with
    | none => s
    | some ((_, f, at_), s0) =>
      let c := frConn f
      if hw f 1 48 1 = 1 ∧ (s0.conn c).state ≠ 3 then s0.passTo (at_ + 96) else
      let s1 := ((s0.passTo (at_ + 96)).abortTx c).abortRx c
      let s2 := (s1.updConn c fun k => { k with rxcum := frPsn f, state := if k.state = 3 then 1 else k.state }).pairShow
      let s3 : State := { s2 with fab := { s2.fab with resyncAt := SMap.set (fun _ => 0) s2.fab.resyncAt c 0 } }
      if hw f 1 48 1 = 1 then s3 else s3.sendHdr c port 6 ((s3.conn c).txpsn * 2 ^ 32 + 2 ^ 48) 0 0

/-! ## Tables (R356, R357, R365, R366, R368 to R370, R378) -/

/-- FAB_CONNOP_WRITE (R8, R357, R365, R378): an entry whose PEER is above 0x3FF is refused, nothing written (log entry 122
DEDUCED); one whose mask names a port outside the tier is refused; STATE 0 closes the connection, STATE 3 starts its
resynchronisation, and 1 and 2, which the host does not write, leave its state. -/
def execFabConnopWrite (conn : Nat) (s : State) : Host.Outcome State Fault Refusal :=
  guarded (decide (conn < 4096)) s fun s =>
    let s0 := s.setFld Reg.fabConnop Reg.fabConnop_CONN conn
    let d := Reg.fabConndata0
    let ports := s.fld d Reg.fabConndata0_PORTS
    match lowestIdx 8 fun p => bitOf ports p && decide (s.nPorts ≤ p) with
    | some p => s0.logLic 0xFF 0x02 p
    | none =>
      let st := s.fld d Reg.fabConndata0_STATE
      if 0x3FF < s.fld d Reg.fabConndata0_PEER then s0
      else
      let s1 := s0.updConn conn fun k =>
        { k with peer := s.fld d Reg.fabConndata0_PEER, peerconn := s.fld d Reg.fabConndata0_PEERCONN, ports }
      if st = 0 then ((s1.abortTx conn).abortRx conn).updConn conn fun k => { k with state := 0 }
      else if st = 3 then (s1.abortTx conn).updConn conn fun k => { k with state := 3 }
      else s1

/-- FAB_CONNOP_READ (R378). -/
def execFabConnopRead (conn : Nat) (s : State) : Host.Outcome State Fault Refusal :=
  guarded (decide (conn < 4096)) s fun s =>
    let k := s.conn conn
    ((s.setFld Reg.fabConnop Reg.fabConnop_CONN conn).setReg Reg.fabConndata0
      (BitVec.ofNat 64 (k.state + k.peer * 2 ^ 3 + k.peerconn * 2 ^ 15 + k.ports * 2 ^ 27))).setReg Reg.fabConndata1
      (BitVec.ofNat 64 (k.txpsn + k.rxcum * 2 ^ 16 + k.retx * 2 ^ 32))

/-- FAB_REGOP_WRITE (R368): a free registration is loaded; one in use refuses with REGREF. -/
def execFabRegopWrite (index : Nat) (s : State) : Host.Outcome State Fault Refusal :=
  guarded (decide (index < 65536)) s fun s =>
    let s0 := s.setFld Reg.fabRegop Reg.fabRegop_INDEX index
    let r := s.regn index
    if r.state ≠ 0 then s0.setFld Reg.fabRegop Reg.fabRegop_REGREF 1
    else
      let d0 := Reg.fabRegdata0
      let d2 := Reg.fabRegdata2
      s0.setRegn index
        { r with state := 1, kind := s.fld d0 Reg.fabRegdata0_KIND, client := s.fld d0 Reg.fabRegdata0_CLIENT
                 keytag := s.fld d0 Reg.fabRegdata0_KEYTAG, len := s.fld d0 Reg.fabRegdata0_LEN
                 base := (s.reg Reg.fabRegdata1).toNat, owner := s.fld d2 Reg.fabRegdata2_OWNER
                 cconn := s.fld d2 Reg.fabRegdata2_CCONN }

/-- FAB_REGOP_READ (R378). -/
def execFabRegopRead (index : Nat) (s : State) : Host.Outcome State Fault Refusal :=
  guarded (decide (index < 65536)) s fun s =>
    let r := s.regn index
    (((s.setFld Reg.fabRegop Reg.fabRegop_INDEX index).setReg Reg.fabRegdata0
      (BitVec.ofNat 64 (r.state + r.kind * 4 + r.client * 8 + r.keytag * 2 ^ 8 + r.gen * 2 ^ 16 + r.len * 2 ^ 32))).setReg
      Reg.fabRegdata1 (BitVec.ofNat 64 r.base)).setReg Reg.fabRegdata2 (BitVec.ofNat 64 (r.owner + r.cconn * 2 ^ 16))

/-- FAB_REGOP_REVOKE (R368, R369): a valid registration's generation advances and its revocation starts. -/
def execFabRegopRevoke (index : Nat) (s : State) : Host.Outcome State Fault Refusal :=
  guarded (decide (index < 65536)) s fun s =>
    let s0 := s.setFld Reg.fabRegop Reg.fabRegop_INDEX index
    let r := s.regn index
    if r.state = 1 then s0.setRegn index { r with state := 2, gen := (r.gen + 1) % 65536, start := s.gc } else s0

/-- The open messages of a registration, with their connections. -/
def State.openOf (s : State) (i : Nat) : List (Nat × RxMsg) :=
  s.fab.conns.flatMap fun k =>
    (k.2.rx.filter fun m => m.buf.isNone && bitsOf (m.hdr.getD 3 0) 0 16 == i).map fun m => (k.1, m)

/-- A revoked registration becomes FREE and REVDONE is set. -/
def State.freeRegn (s : State) (i : Nat) : State :=
  (s.setRegn i { s.regn i with state := 0 }).setFld Reg.fabRegop Reg.fabRegop_REVDONE 1

/-- REVOKE_DRAINED (R368, R369): no admitted message of the registration is open any more. Log entry 61 DEDUCED. -/
def execRevokeDrained (index : Nat) (s : State) : Host.Outcome State Fault Refusal :=
  guarded (decide (index < 65536)) s fun s =>
    if (s.regn index).state = 2 ∧ s.openOf index = [] then
      let s1 := s.freeRegn index
      s1.log 0x0C 0xFF index (s1.reg Reg.fabErr) 0
    else s

/-- REVDRAIN_EXPIRY (R368, R370): REVDRAIN gc after the start every open message of the registration is cut. Log entry 61 DEDUCED. -/
def execRevdrainExpiry (index : Nat) (s : State) : Host.Outcome State Fault Refusal :=
  guarded (decide (index < 65536)) s fun s =>
    let r := s.regn index
    if r.state ≠ 2 then s
    else
      let s1 := s.passTo (96 * (r.start + s.fld Reg.fabTimer Reg.fabTimer_REVDRAIN))
      let s2 := (s1.openOf index).foldl (fun u e =>
        ((u.cutMsg e.1 e.2 cRevoked true).setFld Reg.fabErr Reg.fabErr_CUTEV 1).fabEvent e.1) s1
      s2.freeRegn index

/-- FAB_ID_WRITE (R378, R513): a value above 0x3FF is ignored and sets IDBAD. -/
def execFabIdWrite (value : Nat) (s : State) : Host.Outcome State Fault Refusal :=
  .next <|
    if 0x3FF < value then s.setFld Reg.fabErr Reg.fabErr_IDBAD 1
    else (s.setFld Reg.fabId Reg.fabId_NODE value).setReady Reg.globalReady_FABID 0 true

/-- What comes about as time passes with no command waiting: one crystal cycle (R480), and the cut of the invalidations that have
waited long enough (R374). Log entry 28 DESIGN CHOICE. -/
def State.idle (s : State) : State := s.tick.invalDue

end Sys2Proof.Machine
end

