-- ==== Sys2Proof/Machine/Pair.lean ====
section
/-! DEFINITION. The pair: link, mirrored operations, unreachability, resynchronisation and audit (R401 to R413, R573). -/

namespace Sys2Proof.Machine

/-! ## The link (R22, R404, R413) -/

/-- A pair event that names no portfolio, in every bay. Log entry 68 DEDUCED. -/
def State.pairNote (s : State) (kind : Nat) : State := s.pairEvent kind 0 0 0 0 allBays

/-- Whether a queued message is a mirrored operation. -/
def QEnt.isMirror (e : QEnt) : Bool :=
  match e.item with
  | .own (.mirror _ _) _ => true
  | _ => false

/-- Mirrored operations that stand in a queue of an instance taken out of it. -/
def State.dropMirrors (s : State) (i : Nat) : State := s.dropItems i QEnt.isMirror

/-- The unacknowledged mirrored operations, and what else waits for the pair link, take the path that is left (R404).
Log entry 68 DEDUCED. -/
def State.rerouteMirrors (s : State) : State :=
  let rest := (s.inst 8).subs.flatMap fun q => (q.2.msgs.filter fun e => !e.isMirror).map fun e => (q.1, e)
  let s1 := s.dropItems 8 fun _ => true
  let s2 := s1.pair.window.foldl (fun u w =>
    u.pairSend (if w.2.2.1.unit = 3 ∨ w.2.2.1.unit = 4 then 1 else 2) w.2.2.1.pf (w.2.2.1.writes.map (·.data.length)).sum
      (.mirror w.1 w.2.2.1)) s1
  let port := s2.lowestUp (s2.conn (s2.fld Reg.pairCtrl Reg.pairCtrl_FABCONN)).ports
  rest.foldl (fun u (q, e) =>
    match port with
    | some p => u.enqueue p q { e with svc := u.fld Reg.pairCtrl Reg.pairCtrl_FABSVC, entered := u.gc }
    | none => u.enqueue 8 q e) s2

/-- What PAIR.STATUS and GLOBAL.READY show of the running lane groups; none of a parked link (R433, R491, R513). Log entry 68
DEDUCED. -/
def State.showGroups (s : State) : State :=
  let m := if s.pwr.parked then 0 else s.pair.groups
  let st := Reg.pairStatus
  ((s.setFld st Reg.pairStatus_GROUPS m).setFld st Reg.pairStatus_LINK (if m = 0 then 0 else if m = 15 then 2 else 1)).setReady
    Reg.globalReady_PAIR 0 (decide (m ≠ 0))

/-- The lane groups whose partition is in reset. -/
def State.groupsDown (s : State) : Nat :=
  ((List.range 4).filter fun q => s.boot.resets.any fun r => r.scope == 2 && r.unit == q).foldl (fun m q => m + 2 ^ q) 0

/-- The lane groups that run have changed (R22, R404, R413): of those of the mask the ones whose training has succeeded and whose
partition is out of reset; an event for every change of the number of lanes; with the last one gone the traffic takes the fabric
path; a link that comes up makes the partner reachable. -/
def State.setGroups (s : State) (m : Nat) : State :=
  let m := m &&& s.pair.trained &&& (15 - s.groupsDown)
  let n0 := s.groupCount
  let s1 := State.showGroups { s with pair := { s.pair with groups := m } }
  let n := s1.groupCount
  if s.pwr.parked ∨ n = n0 then s1.pairShow
  else
    let s2 := s1.pairNote (if n = 0 then 0x02 else if n = 4 then 0x03 else 0x01)
    let s3 := if n = 0 ∧ s.fld Reg.pairCtrl Reg.pairCtrl_FABPATH = 1 then s2.rerouteMirrors else s2
    s3.pairShow

/-- PAIR_LINK_CHANGE (R22, R413): the lane groups that run are those of the mask that can. Log entry 68 DEDUCED. -/
def execPairLinkChange (groups : Nat) (s : State) : Host.Outcome State Fault Refusal :=
  guarded (decide (groups < 16)) s fun s => s.setGroups groups

/-- PAIR_LINK_TRAINED (R22, R510 step 6, R562): with the root-of-trust image running, the groups of the mask have trained and join
those that run. -/
def execPairLinkTrained (groups : Nat) (s : State) : Host.Outcome State Fault Refusal :=
  guarded (decide (groups < 16)) s fun s => 
    if s.boot.phase = 2 then
      State.setGroups { s with pair := { s.pair with trained := s.pair.trained ||| (groups &&& (15 - s.groupsDown)) } } (s.pair.groups ||| groups)
    else s

/-! ## Mirrored operations (R401, R403 to R407) -/

/-- Bytes of a mirrored operation placed with the seals of their strokes; part of a stroke is merged into its base, as checked
(R286). -/
def State.putWrites (s : State) (ws : List MWrite) : State :=
  ws.foldl (fun u w =>
    let g := w.addr / 512
    let u0 := if w.data.length = 512 then u else (u.check g w.stamp 0).2
    let u2 := ((u0.setBytes w.addr w.data).setStamp g w.stamp).setErrs g 0
    match stackOf g with
    | some b => u2.pbAdd b (g % 2 ^ 55)
    | none => u2) s

/-- What a portfolio record that has just been replaced brings with it (R45, R428, R451): its key slot is loaded, or the entries no
record needs are freed and its leases end. Log entry 89 DEDUCED. -/
def State.recordPlaced (s : State) (n : Nat) (old : Pf) : State :=
  let p := s.pf n
  let s1 := if p.valid then (s.checkSlot p.slot).loadSlot p.home p.slot else s
  let s2 := if old.valid then s1.trimSlots old.home else s1
  if old.valid && !p.valid then (s2.leases.filter (·.pf == n)).foldl (fun u l => u.expireLease n l.line) s2 else s2

/-- The forward-table entry in 24 bytes: MAP.FWDDATA0 to 2 (R434). -/
def fwdBytes (f : FwdX) : List Byte :=
  natBytes 8 (f.owner % 2 ^ 16 + f.session % 2 ^ 32 * 2 ^ 16 + f.hint % 2 ^ 12 * 2 ^ 48 + b2n f.valid * 2 ^ 60) ++
    natBytes 8 (f.pf % 2 ^ 18 + f.newpf % 2 ^ 18 * 2 ^ 18) ++ natBytes 8 (f.act % 2 ^ 32)

/-- The forward-table entry of MAP.FWDDATA0 to 2, active once its epoch is installed (R416). -/
def State.fwdOf (s : State) (w0 w1 w2 : Nat) : FwdX :=
  let act := bitsOf w2 0 32
  { owner := bitsOf w0 0 16, session := bitsOf w0 16 32, hint := bitsOf w0 48 12, valid := bitOf w0 60
    active := bitOf w0 60 && s.fld Reg.mapEpoch Reg.mapEpoch_SEEDED == 1 && !newer act s.epoch
    pf := bitsOf w1 0 18, newpf := bitsOf w1 18 18, act }

/-- A mirrored operation applied (R318, R320, R403): its bytes written, and for a sheet-list entry the live catalogue entry after
it; a T3 place that a move has left is discarded. Log entry 126 DEDUCED. -/
def State.applyMirror (s : State) (op : MirrorIn) : State :=
  let old := s.pf op.pf
  if op.unit = 4 then
    let bs := (op.writes.headD ⟨0, .none, []⟩).data
    s.setFwd op.idx (s.fwdOf (wordAt bs 0) (wordAt bs 1) (wordAt bs 2))
  else
    let s1 := s.putWrites op.writes
    if op.unit = 3 then s1.recordPlaced op.pf old
    else if op.unit = 2 then
      let e := s.listEntry old op.idx
      let e' := s1.listEntry old op.idx
      let s2 := (s1.catFollow old e').2
      if seLoc e ≠ seLoc e' then s2.releaseSource old e else s2
    else s1.noteWrite op.bay op.pf op.idx

/-- The lease commands whose mirrored writes are all acknowledged complete (R406, R428). -/
def State.settleLeases (s : State) : State :=
  let past := fun (w : LeaseWait) => s.pairSettled && w.ids.all fun i => s.pair.window.all fun e => e.1 != i
  (s.leaseWaits.filter past).foldl (fun u w => u.hostPost w.queue w.tag cDone 0 0 0 0)
    { s with leaseWaits := s.leaseWaits.filter fun w => !past w }

/-- MIRROR_ACK_RECEIVE (R233, R404, R405): the acknowledgement of a mirrored operation; one that was not applied is logged. A
first sketch stroke that waited for it is written. Log entry 90 DEDUCED. -/
def execMirrorAckReceive (op : Nat) (applied : Bool) (s : State) : Host.Outcome State Fault Refusal :=
  guarded true s fun s =>
    match s.pair.window.find? fun w => w.1 == op with
    | none => s
    | some w =>
      let s1 := s.passTo w.2.2.2
      let s2 : State := { s1 with pair := { s1.pair with window := s1.pair.window.filter fun e => e.1 != op } }
      let s3 := s2.setFld Reg.pairStatus Reg.pairStatus_WINDOW s2.pair.window.length
      allBays.foldl (fun u b => u.settleFirst b) (if applied then s3 else s3.logOp w.2.2.1).settleLeases

/-! ## Unreachable, alone (R406, R407) -/

/-- Every unacknowledged mirrored operation logged, and none held any more. -/
def State.logWindow (s : State) : State :=
  let s1 := s.pair.window.foldl (fun u w => u.logOp w.2.2.1) (s.dropMirrors 8)
  State.setFld { s1 with pair := { s1.pair with window := [] } } Reg.pairStatus Reg.pairStatus_WINDOW 0

/-- The partner counts as unreachable from now on (R407): what was unacknowledged is logged, and a resynchronisation is cut short
(R439). -/
def State.unreach (s : State) : State :=
  let s1 := (s.setFld Reg.pairStatus Reg.pairStatus_UNREACH 1).logWindow
  let s2 := { s1 with pair := { s1.pair with owed := true, unreachAt := s1.gc, partnerLog := [] } }
  ((s2.setFld Reg.pairStatus Reg.pairStatus_RESYNC 0).setFld Reg.pairStatus Reg.pairStatus_FABACT 0).pairNote 0x04

/-- PARTNER_UNREACHABLE (R407): the pair link is down, and FABCONN FAILED or FABPATH clear. -/
def execPartnerUnreachable (s : State) : Host.Outcome State Fault Refusal :=
  guarded true s fun s =>
    let conn := s.conn (s.fld Reg.pairCtrl Reg.pairCtrl_FABCONN)
    if s.fld Reg.pairStatus Reg.pairStatus_LINK = 0 ∧ !s.pwr.parked ∧ s.fld Reg.pairStatus Reg.pairStatus_UNREACH = 0
        ∧ (conn.state = 2 ∨ s.fld Reg.pairCtrl Reg.pairCtrl_FABPATH = 0) then s.unreach
    else s

/-- SOLO entered (R406, R439): the outstanding operations are logged and a resynchronisation ends. -/
def State.enterSolo (s : State) : State :=
  if s.fld Reg.pairStatus Reg.pairStatus_SOLO = 1 then s
  else
    let s1 := s.logWindow.setFld Reg.pairStatus Reg.pairStatus_SOLO 1
    let s2 := { s1 with pair := { s1.pair with partnerLog := [] } }
    ((s2.setFld Reg.pairStatus Reg.pairStatus_RESYNC 0).pairNote 0x05).settleLeases

/-- SOLO left: an epoch has made the partner LIVE again, and a resynchronisation is owed (R409, R432). -/
def State.leaveSolo (s : State) : State :=
  if s.fld Reg.pairStatus Reg.pairStatus_SOLO = 0 then s
  else
    let s1 := s.setFld Reg.pairStatus Reg.pairStatus_SOLO 0
    { s1 with pair := { s1.pair with owed := true } }

/-! ## Resynchronisation (R409 to R412) -/

/-- The entries of this node's log, in order (R407). -/
def State.ownLog (s : State) : List LogEntry :=
  allBays.flatMap fun b => (List.range (s.logLen b)).map fun n =>
    let v := bytesNat (s.bytes (logAddr b n) 16)
    ⟨bitsOf v 0 18, bitsOf v 18 32, bitsOf v 50 4, bitsOf v 64 32⟩

/-- The highest SEQ of a unit in a log, none where it is not logged (R410). -/
def logSeq (l : List LogEntry) (pf idx unit : Nat) : Option Nat :=
  l.foldl (fun a e =>
    if e.pf = pf ∧ e.idx = idx ∧ e.unit = unit then
      match a with
      | some b => if newer e.seq b then some e.seq else a
      | none => some e.seq
    else a) none

/-- The mirror sequence of this node's copy: that of its log, of the record itself for a record, and of the record too where the home
bay's log part has overflowed (R407, R410). -/
def State.ownSeq (s : State) (log : List LogEntry) (u : PartnerUnit) : Option Nat :=
  let p := s.pf u.pf
  if u.unit = 3 then some p.seq
  else if bitOf (s.fld Reg.pairLog Reg.pairLog_OVFMASK) p.home then some p.seq
  else logSeq log u.pf u.idx u.unit

/-- The mirror sequence of the partner's copy. -/
def State.partnerSeq (s : State) (u : PartnerUnit) : Option Nat :=
  if u.unit = 3 then (u.strokes.head?).map fun w => (decodePf w.data).seq else logSeq s.pair.partnerLog u.pf u.idx u.unit

/-- Whether sequence `a` is higher than `b` (R410). -/
def seqHigher : Option Nat → Option Nat → Bool
  | some a, some b => newer a b
  | some _, none => true
  | none, _ => false

/-- The primary of a portfolio is this node (R402). -/
def State.isPrimary (s : State) (p : Pf) : Bool :=
  let partner := s.fld Reg.pairStatus Reg.pairStatus_PARTNER
  if p.hanging.contains s.node then true
  else if p.hanging.contains partner then false
  else decide (s.node < partner)

/-- The strokes of this node's copy of a unit: memory address over 512 and the seal it must have. -/
def State.unitStrokes (s : State) (u : PartnerUnit) : List (Nat × Seal) :=
  let p := s.pf u.pf
  let e := s.listEntry p u.idx
  let part := fun (lo n : Nat) => (List.range n).map fun i => (sheetStroke e (lo + i), s.sheetSeal p e (lo + i))
  match u.unit with
  | 0 => part 0 (seSlen e)
  | 1 => part (seSlen e) p.ns
  | 2 => let a := p.entryAddr u.idx / 512; [(a, s.locWant p.home (a % 2 ^ 55))]
  | _ => let a := pfAddr u.pf / 512; [(a, s.locWant (u.pf % 16) (a % 2 ^ 55))]

/-- Whether two copies of a unit are identical: entry words, lengths and every stroke with its seal (R409). -/
def State.sameUnit (s : State) (u : PartnerUnit) : Bool :=
  let own := s.unitStrokes u
  let entry := u.unit == 3 || s.listEntry (s.pf u.pf) u.idx == u.entry
  entry && (u.unit == 2 || (own.length == u.strokes.length && (own.zip u.strokes).all fun (o, w) =>
    s.stamp o.1 == w.stamp && s.bytes (512 * o.1) 512 == w.data))

/-- Whether this node's copy passes every check that decides it. Log entry 31 DEDUCED. -/
def State.unitIntact (s : State) (u : PartnerUnit) : Bool × State :=
  (s.unitStrokes u).foldl (fun (ok, v) o =>
    let (c, v1) := v.check o.1 o.2 0
    (ok && c, v1)) (true, s)

/-- The partner's copy of a unit written over this node's, in the order of R50. -/
def State.takePartner (s : State) (u : PartnerUnit) : State :=
  let p := s.pf u.pf
  if u.unit = 3 then (s.putWrites u.strokes).recordPlaced u.pf p
  else ((if u.unit = 2 then s else s.putWrites u.strokes).putEntry p u.idx u.entry).2

/-- An entry's mark set on this node, as the partner sets it on its own. -/
def State.markEntry (s : State) (u : PartnerUnit) (bit : Nat) : State :=
  let p := s.pf u.pf
  let e := s.listEntry p u.idx
  if u.unit = 3 ∨ bitOf e bit then s else (s.putEntry p u.idx (e + 2 ^ bit)).2

/-- A divergence (R412). -/
def State.diverged (s : State) (u : PartnerUnit) : State :=
  let p := s.pf u.pf
  let s1 := (s.bump Reg.pairDiv Reg.pairDiv_COUNT).setFld Reg.pairDiv Reg.pairDiv_DIVEV 1
  s1.pairEvent 0x06 u.pf u.idx p.owner p.session [p.home]

/-- A compared unit resolved on this node (R411, log entry 31 DEDUCED); the partner resolves its own side alike. A sheet whose key
is destroyed is not compared. -/
def State.resolve (s : State) (own partner : Option Nat) (u : PartnerUnit) : State :=
  if s.sameUnit u ∨ (u.unit ≤ 1 ∧ (s.key (s.pf u.pf).slot).state ≠ 1) then s
  else
    let (ok, s1) := s.unitIntact u
    match ok, u.intact with
    | true, false => s1
    | false, true => s1.takePartner u
    | false, false => s1.markEntry u 101
    | true, true =>
      if seqHigher own partner then s1
      else if seqHigher partner own then s1.takePartner u
      else
        let s2 := if s1.isPrimary (s1.pf u.pf) then s1 else s1.takePartner u
        (s2.markEntry u 100).diverged u

/-- Whether either member of the pair is FAILED or FENCED in the installed epoch. -/
def State.pairBroken (s : State) : Bool :=
  decide (2 ≤ (s.member s.node).1) || decide (2 ≤ (s.member (s.fld Reg.pairStatus Reg.pairStatus_PARTNER)).1)

/-- PAIR_RESYNC_START (R409, R439, R458): the partner can be reached, neither member is out and no destroy waits for the partner; the
logs are exchanged. -/
def execPairResyncStart (partnerLog : List LogEntry) (s : State) : Host.Outcome State Fault Refusal :=
  guarded true s fun s =>
    let s1 := s.pairShow
    if s1.fld Reg.pairStatus Reg.pairStatus_UNREACH = 1 ∨ s1.fld Reg.pairStatus Reg.pairStatus_SOLO = 1
        ∨ s1.fld Reg.pairStatus Reg.pairStatus_RESYNC = 1 ∨ s1.pairBroken ∨ s1.mirrorOff ∨ s1.keys.any (·.2.pending) then s1
    else
      let words := fun (e : LogEntry) => e.pf + e.idx * 2 ^ 18 + e.unit * 2 ^ 50 + e.seq * 2 ^ 64
      let s2 := { s1 with pair := { s1.pair with partnerLog } }
      (s2.setFld Reg.pairStatus Reg.pairStatus_RESYNC 1).emit (.pairMsg 0x11 (s2.ownLog.map words))

/-- PAIR_RESYNC_DONE (R409 to R412): every unit named in either log is resolved, records first; the logs are emptied.
Log entry 31 DEDUCED. -/
def execPairResyncDone (copies : List PartnerUnit) (s : State) : Host.Outcome State Fault Refusal :=
  guarded (copies.all fun u => decide (u.pf < 2 ^ 18) && decide (u.unit < 4)) s fun s =>
    if s.fld Reg.pairStatus Reg.pairStatus_RESYNC = 0 then s
    else
      let log := s.ownLog
      let named := fun (u : PartnerUnit) =>
        let is := fun (e : LogEntry) => e.pf == u.pf && e.unit == u.unit && (u.unit == 3 || e.idx == u.idx)
        log.any is || s.pair.partnerLog.any is || bitOf (s.fld Reg.pairLog Reg.pairLog_OVFMASK) (s.pf u.pf).home
      let todo := copies.filter named
      let run := fun (v : State) (us : List PartnerUnit) =>
        us.foldl (fun v u => v.resolve (v.ownSeq log u) (v.partnerSeq u) u) v
      let s1 := run (run s (todo.filter (·.unit == 3))) (todo.filter (·.unit != 3))
      let s2 := { s1 with pair := { s1.pair with logLen := [], owed := false, partnerLog := [] } }
      let s3 := (s2.setFld Reg.pairLog Reg.pairLog_FILL 0).setFld Reg.pairLog Reg.pairLog_OVFMASK 0
      ((s3.setFld Reg.pairStatus Reg.pairStatus_RESYNC 0).pairNote 0x07).settleLeases

/-- Numbers in ascending order. -/
def sortNat (l : List Nat) : List Nat := l.foldl (fun a n => insertNat n a) []

/-- AUDIT_STEP (R410 to R412): RATE portfolios are compared every 25,000 gc, both sequences taken as equal; a pass ends with the last
active portfolio. -/
def execAuditStep (copies : List PartnerUnit) (s : State) : Host.Outcome State Fault Refusal :=
  guarded (copies.all fun u => decide (u.pf < 2 ^ 18) && decide (u.unit < 4)) s fun s =>
    let rate := s.fld Reg.pairAudit Reg.pairAudit_RATE
    if s.fld Reg.pairCtrl Reg.pairCtrl_AUDIT = 0 ∨ rate = 0 ∨ s.partnerAway ∨ s.mirrorOff
        ∨ s.fld Reg.pairStatus Reg.pairStatus_RESYNC = 1 then s
    else
      let s1 := s.passTo (96 * (s.pair.auditAt + 25000))
      let ahead := (sortNat s1.activePfs).filter fun n => decide (s1.pair.auditPf ≤ n)
      let now := ahead.take rate
      let s2 := (copies.filter fun u => now.contains u.pf).foldl (fun v u => v.resolve none none u) s1
      let past := decide (ahead.length ≤ rate)
      let s3 := { s2 with pair := { s2.pair with auditAt := s2.gc, auditPf := if past then 0 else now.getLast?.getD 0 + 1 } }
      if past then s3.count Reg.pairAudit Reg.pairAudit_PASSES 1 else s3

end Sys2Proof.Machine
end

