-- ==== Sys2Proof/Machine/HostQ.lean ====
section
/-! DEFINITION. Host command queues: their entries, the room of their completion rings, and what stops them (R532, R541 to R545, R549,
R550). -/

namespace Sys2Proof.Machine

/-! ## Queues that run -/

/-- Whether queue entry handling goes on: the queue is enabled and not stopped, and its function masters the bus (R531, R532,
R542). -/
def State.hqRuns (s : State) (q : Nat) : Bool :=
  s.fld (Reg.hqCfg q) Reg.hqCfg_ENABLE = 1 && s.fld (Reg.hqStatus q) Reg.hqStatus_STOPPED = 0 && s.linkUp (s.queueFunc q)

/-- Entries of a queue's submission ring. -/
def State.sqSize (s : State) (q : Nat) : Nat := 2 ^ s.fld (Reg.hqCfg q) Reg.hqCfg_SQLOG

/-- A queue stopped on an error (R541, R550): the entries not yet handed on are dropped. Log entry 78 DEDUCED, 87 DEDUCED. -/
def State.hqStop (s : State) (q err : Nat) : State :=
  let st := Reg.hqStatus q
  let s1 := (s.setFld st Reg.hqStatus_STOPPED 1).setFld st Reg.hqStatus_ERR err
  let s2 := (s1.setHq q { s1.hq q with buf := [] }).setFld Reg.hostErr Reg.hostErr_QERREV 1
  s2.log 0x12 0xFF q (s2.reg Reg.hostErr) (s2.reg st)

/-! ## Room for completions (R543) -/

/-- Completions a launch still owes to its queue: one in mode 0b00, one for each set bit of MASK in mode 0b01. -/
def Launch.owes (l : Launch) : Nat := if l.mode = 1 then ((List.range 12).filter fun e => bitOf l.mask e).length else 1

/-- Whether a launch comes from a queue that will post its completion. -/
def State.launchOf (s : State) (q : Nat) (l : Launch) : Bool :=
  match l.src with
  | .host k => decide (k % 64 = q) && s.ticketLive k
  | _ => false

/-- Completions that entries handed on still owe to a queue. Log entry 35 DEDUCED. -/
def State.hqOwed (s : State) (q : Nat) : Nat :=
  let waiting := (List.range 16).map fun b =>
    (((s.bay b).queue ++ (s.bay b).incoming).filter (s.launchOf q)).map Launch.owes
  let running := allEasels.filter fun x =>
    ((s.ex x).src.map (s.launchOf q)).getD false || ((s.ex x).copy.map fun c => s.launchOf q c.launch).getD false
  let mine := fun k => decide (k % 64 = q) && s.ticketLive k
  waiting.flatten.sum + running.length + (s.leaseWaits.filter fun w => mine w.queue).length
    + (s.host.waits.filter fun w => mine w.2.1).length + (s.hq q).rx.length

/-- Free slots of a completion ring, one always left empty, less those owed (log entry 35 DEDUCED). -/
def State.hqRoom (s : State) (q : Nat) : Nat :=
  let n := 2 ^ s.fld (Reg.hqCfg q) Reg.hqCfg_CQLOG
  n - 1 - ((s.fld (Reg.hqStatus q) Reg.hqStatus_CQTAIL + n - (s.hq q).head % n) % n + s.hqOwed q)

/-! ## Entries handed on (R543, R544) -/

/-- The entry a queue hands on next, with its ticket: the oldest of its fetch buffer, once its read is complete. -/
def State.hqFront (s : State) (q : Nat) : Option (Nat × List Word) :=
  match (s.hq q).buf with
  | e :: es =>
    if e.isEmpty || !s.hqRuns q then none
    else
      let n := s.sqSize q
      some (s.ticket q ((s.fld (Reg.hqStatus q) Reg.hqStatus_SQHEAD + n - es.length % n) % n), e)
  | [] => none

/-- The front entry leaves the fetch buffer. -/
def State.hqPop (s : State) (q : Nat) : State := s.setHq q { s.hq q with buf := (s.hq q).buf.drop 1 }

/-- A 64-bit word of an entry. -/
def entWord (e : List Word) (i : Nat) : Nat := (e.getD i 0).toNat

/-- The launch entries a queue's room allows are handed to their bays, in fetch order. -/
def State.hqHand (s : State) (q : Nat) : State :=
  if s.fld (Reg.hqCfg q) Reg.hqCfg_TYPE ≠ 0 then s
  else
    (List.range 16).foldl (fun u _ =>
      match u.hqFront q with
      | none => u
      | some (k, e) =>
        let (b, l) := Sys2Proof.Machine.launchOf (.host k) (e.flatMap fun w => natBytes 8 w.toNat)
        if u.hqRoom q < l.owes then u
        else (u.hqPop q).updBay b fun y => { y with incoming := y.incoming ++ [l] }) s

/-- An entry of a lease or management queue taken up: its ticket and words, where its queue is of the type and a completion fits. -/
def State.hqTake (s : State) (q ty : Nat) : Option (Nat × List Word) :=
  if s.fld (Reg.hqCfg q) Reg.hqCfg_TYPE = ty ∧ 1 ≤ s.hqRoom q then s.hqFront q else none

/-- A bus-master read of `len` bytes from a host address on, issued for an entry, which waits for it (R533). -/
def State.hqRead (s : State) (kind addr len k : Nat) (e : List Word) : State :=
  let rd : HostRead := ⟨kind, s.host.serial⟩
  State.emit
    { s with host := { s.host with serial := s.host.serial + 1
                                   waits := s.host.waits ++ [(s.host.serial, k, e)]
                                   reads := s.host.reads ++ [(rd, s.ec)] } }
    (.hostRead (s.queueFunc (k % 64)) addr len rd)

/-- The entry that waits for a read, which is over. -/
def State.hqReadOver (s : State) (rd : HostRead) : Option (Nat × List Word) × State :=
  ((s.host.waits.find? fun w => w.1 == rd.arg).map (·.2),
    { s with host := { s.host with reads := s.host.reads.filter fun r => r.1 != rd
                                   waits := s.host.waits.filter fun w => w.1 != rd.arg } })

end Sys2Proof.Machine
end

