-- ==== Sys2Proof/Machine/Sched.lean ====
section
/-! DEFINITION. The schedulers, the policers and sampling (R354, R358, R383 to R400). -/

namespace Sys2Proof.Machine

/-! ## Selection (R388 to R390) -/

/-- Whether an instance exists in the tier (R383). -/
def State.instUp (s : State) (i : Nat) : Bool := decide (i < s.nPorts ∨ 8 ≤ i)

/-- Whether the link of an instance can begin a frame (R378, R399). -/
def State.instLink (s : State) (i : Nat) : Bool :=
  if i < 8 then s.portNative i && s.hasId
  else if i = 8 then decide (s.fld Reg.pairStatus Reg.pairStatus_LINK ≠ 0)
  else s.linkUp 0 || s.linkUp 1

/-- A message of a connection. -/
def State.txMsg (s : State) (c first : Nat) : Option TxMsg := (s.conn c).msgs.find? (·.first == first)

/-- Payload bytes of packet `i` of a message (R351). -/
def TxMsg.plen (m : TxMsg) (i : Nat) : Nat := min 4096 (bitsOf (m.desc.getD 4 0) 0 24 - 4096 * i)

/-- Frame bytes of the next packet of a queued message. -/
def State.headBytes (s : State) (e : QEnt) : Nat :=
  match e.item with
  | .own _ b => b
  | .msg c first => ((s.txMsg c first).map fun m => frameBytesOf (m.plen m.next)).getD 64
  | .mgmt _ _ data _ _ _ => Config.frameBytes 9 data.length

/-- How far a PSN stands below the next one of its connection: the oldest one is the farthest. -/
def ConnX.behind (k : ConnX) (psn : Nat) : Nat := (k.txpsn + 65536 - psn) % 65536

/-- The oldest unacknowledged PSN of a connection, sent or not (R358). -/
def ConnX.oldest (k : ConnX) : Nat :=
  let ps := (k.pkts.filter (!·.acked)).map (·.psn) ++
    (k.msgs.filter fun m => decide (m.next < m.n)).map fun m => (m.first + m.next) % 65536
  ps.foldl (fun b p => if k.behind b < k.behind p then p else b) ((k.txpsn + 65535) % 65536)

/-- Whether the window and the transmit buffer let the next packet of a queued message go (R358). -/
def State.mayGo (s : State) (e : QEnt) : Bool :=
  match e.item with
  | .own _ _ => true
  | .mgmt _ _ _ _ _ _ => true
  | .msg c first =>
    match s.txMsg c first with
    | none => false
    | some m =>
      let k := s.conn c
      decide (((m.first + m.next) + 65536 - k.oldest) % 65536 < 1024) &&
        decide (s.fld Reg.fabStatus Reg.fabStatus_TXBUF < 4032)

/-- ⌈256 × F / W⌉, with a WEIGHT of 0 taken as 1. Log entry 63 DEDUCED. -/
def tagStep (bytes weight : Nat) : Nat := ceilDiv (256 * bytes) (max 1 weight)

/-- The tag of a queue's head packet (R390), under the WEIGHT in force when it became the head. Log entry 63 DEDUCED. -/
def State.queueTag (s : State) (q : SubqX) (e : QEnt) : Nat := (q.base + tagStep (s.headBytes e) q.headW) % 2 ^ 48

/-- The eligible queues of an instance: (queue, its head) (R388). -/
def State.eligible (s : State) (i : Nat) : List (Nat × QEnt) :=
  (s.inst i).subs.filterMap fun (n, q) =>
    match q.msgs with
    | [] => none
    | e :: _ =>
      let sv := Reg.schedSvc0 i e.svc
      let subOk := decide (q.rate = 0 ∨ 0 ≤ q.tok)
      let svcOk := decide (s.fld sv Reg.schedSvc0_RATE = 0 ∨ 0 ≤ ((s.inst i).svc e.svc).tok)
      if subOk && svcOk && s.mayGo e then some (n, e) else none

/-- The candidate with the smallest tag, the earlier of equals; tags compare modulo 2^48. -/
def smallestTag {α : Type} (tag : α → Nat) (l : List α) : Option α :=
  l.foldl (fun b x =>
    match b with
    | none => some x
    | some y => if tag x ≠ tag y ∧ laterTag (tag x) (tag y) = tag y then some x else b) none

/-- The queue the scheduler of an instance grants: (queue, head, service tag) (R389). -/
def State.choose (s : State) (i : Nat) : Option (Nat × QEnt × Nat) :=
  let el := s.eligible i
  let prio := fun v => s.fld (Reg.schedSvc0 i v) Reg.schedSvc0_PRIO
  let top := (el.map fun e => prio e.2.svc).foldl max 0
  let tagOf := fun (e : Nat × QEnt) => s.queueTag ((s.inst i).sub e.1) e.2
  let perSvc := (List.range 16).filterMap fun v =>
    if prio v = top then
      (smallestTag tagOf (el.filter (·.2.svc == v))).map fun e =>
        (e.1, e.2, (((s.inst i).svc v).base + tagStep (s.headBytes e.2) ((s.inst i).svc v).headW) % 2 ^ 48)
    else none
  smallestTag (fun e => e.2.2) perSvc

/-- The bytes of a packet, read as it enters the transmit buffer (R358); a location that fails its check there has no bytes the spec
names: free ones are sent (log entry 13 DESIGN CHOICE). -/
def State.packetBytes (s : State) (m : TxMsg) (i : Nat) : List Byte × State :=
  let src := m.desc.getD 3 0
  let n := m.plen i
  if bitOf src 63 then
    let (bs, s1) := s.readLoc (src % 2 ^ 48 + 8 * i) (segs 0 n)
    if bs.all (·.isSome) then (bs.flatMap (·.getD []), s1) else s1.drawBytes n
  else (s.bytes (opBase m.x + src % 2 ^ 48 + 4096 * i) n, s)

/-- The frame of packet `i` of a message (R351); the spec gives PATH no value: a free one (log entry 13 DESIGN CHOICE). -/
def State.packetFrame (s : State) (c : Nat) (m : TxMsg) (i : Nat) : Frame × State :=
  let (bs, s1) := s.packetBytes m i
  let (path, s2) := s1.draw
  let d := fun k => m.desc.getD k 0
  let len := bitsOf (d 4) 0 24
  (mkFrame
    [ frameW0 (bitsOf (d 0) 0 12) s.node (if m.send then 2 else 1) (s.conn c).peerconn 0 path,
      m.epoch + (m.first + i) % 65536 * 2 ^ 32 + i * 2 ^ 48,
      (m.n - 1) + bs.length * 2 ^ 12 + bitsOf (d 5) 0 32 * 2 ^ 32,
      bitsOf (d 1) 0 40 + len * 2 ^ 40,
      bitsOf (d 2) 0 48 + bitsOf (d 0) 24 4 * 2 ^ 48 + bitsOf (d 0) 28 6 * 2 ^ 52,
      bitsOf (d 6) 0 48,
      bitsOf (d 7) 0 18 + bitsOf (d 7) 63 1 * 2 ^ 18 ] bs, s2)

/-- The next packet of a message enters the transmit buffer and leaves, its first bit no earlier than 480 ec after the payload was
present at the port bay (R355): the state, and whether the message has left whole. -/
def State.sendPacket (s : State) (c : Nat) (m : TxMsg) (port : Nat) : State × Bool :=
  let i := m.next
  let (f, s0) := s.packetFrame c m i
  let (first, s1) := s0.dataOut port f (frameBytesOf f.payload.length) (max s.ec (m.ready + 480))
  let q : TxPkt :=
    { psn := (m.first + i) % 65536, idx := i, first := m.first, frame := some f, sends := 1, sentGc := first / 96, port
      acked := false, due := false, dueAt := 0 }
  let s2 := s1.updConn c fun k => ConnX.sweep
    { k with pkts := k.pkts ++ [q]
             msgs := k.msgs.map fun y => if y.first = m.first then { y with next := i + 1 } else y }
  (s2.fabShow, decide (m.n ≤ i + 1))

/-- What a granted head puts on its link: the state, and whether the message has left whole. A management frame's completion is
written once the frame is in its buffer (R544). -/
def State.grant (s : State) (inst : Nat) (e : QEnt) : State × Bool :=
  match e.item with
  | .own o _ => (s.emit o, true)
  | .mgmt f addr data ticket tag port =>
    ((s.emit (.hostWrite f addr data)).hostPost ticket tag cDone 0 0 data.length port, true)
  | .msg c first =>
    match s.txMsg c first with
    | some m => s.sendPacket c m inst
    | none => (s, true)

/-- An instance after it granted `f` bytes of queue `q`'s head under the tags of the queue and of the service: the three buckets are
charged, tags and virtual times advance, and where the message has left whole the next one becomes the head (R387, R390, R394). -/
def State.afterGrant (s : State) (inst q : Nat) (e : QEnt) (f tag stag : Nat) (past : Bool) : InstX :=
  let k := s.inst inst
  let b := k.sub q
  let b1 := { b with tok := b.tok - 16 * f, prev := tag, base := tag, headW := b.weight }
  let b2 := if past then { b1 with msgs := b1.msgs.drop 1, maxHold := max b1.maxHold (s.gc - e.entered) } else b1
  let v := k.svc e.svc
  let k1 := (k.setSub q b2).setSvc e.svc
    { tok := v.tok - 16 * f, prev := stag, base := stag, headW := s.fld (Reg.schedSvc1 inst e.svc) Reg.schedSvc1_WEIGHT, v := tag }
  let prio := s.fld (Reg.schedSvc0 inst e.svc) Reg.schedSvc0_PRIO
  let k2 := { k1 with tok := k1.tok - 16 * f, vp := SMap.set (fun _ => 0) k1.vp prio stag, granted := s.ec + 1 }
  match b2.msgs with
  | e' :: _ => if e'.svc = e.svc ∨ k.active e'.svc then k2 else s.wakeSvc inst k2 e'.svc
  | [] => k2

/-- Whether a retransmission waits for the link of an instance (R363, R385). -/
def State.retxWaits (s : State) (inst : Nat) : Bool :=
  decide (inst < 8) && s.nodeConns.any fun c =>
    let k := s.conn c
    k.pkts.any fun q => q.due && k.wanted q && s.retxPort k q == some inst

/-- Whether the scheduler of an instance may select in this cycle (R383, R385, R389, R399): its link can begin a frame, one a
cycle, no retransmission waits, and its port bucket is not below zero. -/
def State.selects (s : State) (inst : Nat) : Bool :=
  s.instUp inst && s.instLink inst && !s.retxWaits inst && decide ((s.inst inst).granted ≠ s.ec + 1)
    && decide (s.atStart.fld (Reg.schedPort inst) Reg.schedPort_RATE = 0 ∨ 0 ≤ (s.atStart.inst inst).tok)

/-- SCHED_SELECT (R355, R389, R390, R399): once the frame on the link is out, one packet is granted and charged to its three
buckets; tags and virtual times advance. What landed in the cycle of the selection takes part from the next. Log entry 1 DESIGN
CHOICE. -/
def execSchedSelect (inst : Nat) (s : State) : Host.Outcome State Fault Refusal :=
  guarded (decide (inst < 10)) s fun s =>
    let s0 := if inst < 8 then s.passTo ((s.port inst).fibre.2 / 10 ^ 6) else s
    let v := s0.atStart
    match (if s0.selects inst then v.choose inst else none) with
    | none => s
    | some (q, e, stag) =>
      if ((s0.inst inst).sub q).msgs.head? ≠ some e then s
      else
        let (s1, past) := s0.grant inst e
        s1.setInst inst (s1.afterGrant inst q e (v.headBytes e) (v.queueTag ((v.inst inst).sub q) e) stag past)

/-! ## Buckets (R387, R392) -/

/-- A bucket after one ground cycle, in 1/16 byte. Log entry 63 DEDUCED. -/
def refill (tok : Int) (rate burst : Nat) : Int := min (tok + rate) (16 * burst)

/-- The buckets of an instance after one ground cycle. -/
def State.refillInst (s : State) (i : Nat) : State :=
  let k := s.inst i
  let pr := Reg.schedPort i
  let k1 := { k with tok := refill k.tok (s.fld pr Reg.schedPort_RATE) (s.fld pr Reg.schedPort_BURST) }
  let k2 := (List.range 16).foldl (fun k v =>
    let r := Reg.schedSvc0 i v
    k.setSvc v { k.svc v with tok := refill (k.svc v).tok (s.fld r Reg.schedSvc0_RATE) (s.fld r Reg.schedSvc0_BURST) }) k1
  s.setInst i (k.subs.foldl (fun k q => k.setSub q.1 { k.sub q.1 with tok := refill q.2.tok q.2.rate q.2.burst }) k2)

/-- BUCKET_REFILL (R387, R392): every bucket gains one ground cycle's tokens, after the packets of the past cycles have been
metered. -/
def execBucketRefill (s : State) : Host.Outcome State Fault Refusal :=
  .next <|
    let s1 := (s.passTo (96 * (s.fab.refillAt + 1))).meterDue
    let s2 : State := { s1 with fab := { s1.fab with refillAt := s1.gc } }
    let s3 := (List.range 10).foldl (fun u i => u.refillInst i) s2
    let s4 := s3.fab.pols.foldl (fun u e =>
      let p := u.pol e.1
      u.setPol e.1 { p with tc := refill p.tc p.cir p.cbs, tp := refill p.tp p.pir p.pbs }) s3
    (List.range 16).foldl (fun u i =>
      let w1 := Reg.schedInpol1 (i / 2) (i % 2)
      let w2 := Reg.schedInpol2 (i / 2) (i % 2)
      let (tc, tp) := u.inTok i
      let v := (refill tc (u.fld w1 Reg.schedInpol1_CIR) (u.fld w1 Reg.schedInpol1_CBS),
        refill tp (u.fld w2 Reg.schedInpol2_PIR) (u.fld w2 Reg.schedInpol2_PBS))
      { u with fab := { u.fab with inpol := SMap.set (fun _ => (0, 0)) u.fab.inpol i v } }) s4

/-! ## Tables (R396, R397) -/

/-- SCHED_SUBOP_WRITE (R387, R396): the entry takes effect at once and its bucket starts at the new BURST. Log entry 62 DEDUCED. -/
def execSchedSubopWrite (inst queue : Nat) (s : State) : Host.Outcome State Fault Refusal :=
  guarded (decide (inst < 10) && decide (queue < 65536)) s fun s =>
    if !s.instUp inst then s
    else
      let d := Reg.schedSubdata0 inst
      let k := s.inst inst
      let burst := s.fld d Reg.schedSubdata0_BURST
      (s.setFld (Reg.schedSubop inst) Reg.schedSubop_QUEUE queue).setInst inst (k.setSub queue
        { k.sub queue with rate := s.fld d Reg.schedSubdata0_RATE, burst, tok := 16 * burst
                           weight := max 1 (s.fld d Reg.schedSubdata0_WEIGHT) })

/-- HOLD of a queue: ground cycles since its head message entered it (R394). -/
def State.hold (s : State) (q : SubqX) : Nat := (q.msgs.head?.map fun e => s.gc - e.entered).getD 0

/-- SCHED_SUBOP_READ (R396). -/
def execSchedSubopRead (inst queue : Nat) (s : State) : Host.Outcome State Fault Refusal :=
  guarded (decide (inst < 10) && decide (queue < 65536)) s fun s =>
    if !s.instUp inst then s
    else
      let q := (s.inst inst).sub queue
      ((s.setFld (Reg.schedSubop inst) Reg.schedSubop_QUEUE queue).setReg (Reg.schedSubdata0 inst)
        (BitVec.ofNat 64 (q.rate + q.burst * 2 ^ 32 + q.weight * 2 ^ 56))).setReg (Reg.schedSubdata1 inst)
        (BitVec.ofNat 64 (min 65535 q.msgs.length + s.hold q % 2 ^ 32 * 2 ^ 16))

/-- What a policer write replaces, kept to meter the packets of this ground cycle (R393); the first write of a cycle counts. -/
def State.keepPol (s : State) (i : Nat) : State :=
  if (SMap.get (fun _ => (0, {})) s.fab.polOld i).1 = s.gc + 1 then s
  else { s with fab := { s.fab with polOld := SMap.set (fun _ => (0, {})) s.fab.polOld i (s.gc + 1, s.pol i) } }

/-- POL_OP_WRITE (R393, R397): a policer is committed, its buckets filled and its counters zeroed; it meters from the next ground
cycle. Log entry 62 DEDUCED. -/
def execPolOpWrite (index : Nat) (s : State) : Host.Outcome State Fault Refusal :=
  guarded (decide (index < 65536)) s fun s =>
    let s := s.meterDue.keepPol index
    let cbs := s.fld Reg.polData1 Reg.polData1_CBS
    let pbs := s.fld Reg.polData2 Reg.polData2_PBS
    (s.setFld Reg.polOp Reg.polOp_INDEX index).setPol index
      { mode := s.fld Reg.polData0 Reg.polData0_MODE, acty := s.fld Reg.polData0 Reg.polData0_ACTY
        actr := s.fld Reg.polData0 Reg.polData0_ACTR, cir := s.fld Reg.polData1 Reg.polData1_CIR, cbs
        pir := s.fld Reg.polData2 Reg.polData2_PIR, pbs, tc := 16 * cbs, tp := 16 * pbs }

/-- POL_OP_READ (R397). -/
def execPolOpRead (index : Nat) (s : State) : Host.Outcome State Fault Refusal :=
  guarded (decide (index < 65536)) s fun s =>
    let s := s.meterDue
    let p := s.pol index
    let put := fun off v (u : State) => u.setReg off (BitVec.ofNat 64 v)
    put Reg.polCntr p.red <| put Reg.polCnty p.yellow <| put Reg.polCntg p.green <|
      put Reg.polData2 (p.pir + p.pbs * 2 ^ 32) <| put Reg.polData1 (p.cir + p.cbs * 2 ^ 32) <|
        put Reg.polData0 (p.mode + p.acty * 8 + p.actr * 16) <| s.setFld Reg.polOp Reg.polOp_INDEX index

/-- POL_NCOP_WRITE (R391, R397). -/
def execPolNcopWrite (conn : Nat) (s : State) : Host.Outcome State Fault Refusal :=
  guarded (decide (conn < 4096)) s fun s =>
    let s1 := s.meterDue.setFld Reg.polNcop Reg.polNcop_CONN conn
    let v := s.fld Reg.polNcdata Reg.polNcdata_POLICER + 65536 * s.fld Reg.polNcdata Reg.polNcdata_ENABLE
    { s1 with fab := { s1.fab with bound := SMap.set (fun _ => 0) s1.fab.bound conn v } }

/-- POL_NCOP_READ (R397). -/
def execPolNcopRead (conn : Nat) (s : State) : Host.Outcome State Fault Refusal :=
  guarded (decide (conn < 4096)) s fun s =>
    (s.setFld Reg.polNcop Reg.polNcop_CONN conn).setReg Reg.polNcdata
      (BitVec.ofNat 64 (SMap.get (fun _ => 0) s.fab.bound conn))

/-! ## Sampling (R394, R395, R400) -/

/-- A record of a sample: written to the ring and counted in PROD, or lost where the ring is full or its bay is not ready. With no
slots nothing is recorded (R398). Log entry 64 DEDUCED. -/
def State.sampleRecord (s : State) (w0 w1 : Nat) : State :=
  let slots := s.fld Reg.sampleRinglen Reg.sampleRinglen_SLOTS
  let prod := s.fld Reg.sampleProd Reg.sampleProd_INDEX
  let used := (prod + 2 ^ 32 - s.fld Reg.sampleCons Reg.sampleCons_INDEX) % 2 ^ 32
  let l := s.fld Reg.sampleRing Reg.sampleRing_LOC
  let at_ := 16 * (prod % max 1 slots)
  if slots = 0 then s
  else if slots ≤ used ∨ locTier l ≠ 0 ∨ !s.bayUp (locBay l) ∨ 512 * sramStrokes < 512 * locAddr l + at_ + 16 then
    s.bump Reg.sampleErr Reg.sampleErr_LOSTREC
  else
    let a := locMem l + at_
    ((s.setBytes a (natBytes 8 w0 ++ natBytes 8 w1)).setStamp (a / 512) .none).count Reg.sampleProd Reg.sampleProd_INDEX 1

/-- Unsent bytes of a queue (R394). -/
def State.depth (s : State) (q : SubqX) : Nat :=
  (q.msgs.map fun e => match e.item with
    | .own _ b => b
    | .mgmt _ _ data _ _ _ => Config.frameBytes 9 data.length
    | .msg c first => ((s.txMsg c first).map fun m => bitsOf (m.desc.getD 4 0) 0 24 - 4096 * m.next).getD 0).sum

/-- A walk over the instances of the mask: the marker record, then one for each queue that holds a message when the walk reaches
it, in ascending order, one record in 2 ec. Log entry 64 DEDUCED. -/
def State.sampleWalk (s : State) : State :=
  let s1 := s.sampleRecord (2 ^ 63) (s.gc % 2 ^ 32)
  let mask := s.fld Reg.sampleCtrl Reg.sampleCtrl_INSTMASK
  (List.range 10).foldl (fun u i =>
    if !(bitOf mask i && u.instUp i) then u
    else
      (u.inst i).subs.foldl (fun u (n, q) =>
        match q.msgs with
        | [] => u
        | e :: _ =>
          let u := u.passTo (u.ec + 2)
          let h := u.hold q
          let u1 := u.sampleRecord (n + e.svc * 2 ^ 16 + i * 2 ^ 20 + min (2 ^ 31 - 1) (u.depth q) * 2 ^ 32)
            (h % 2 ^ 32 + max h q.maxHold % 2 ^ 32 * 2 ^ 32)
          u1.setInst i ((u1.inst i).setSub n { q with maxHold := 0 })) u) s1

/-- SAMPLE_START (R394, R395): a sample begins at its interval, and time passes as it walks; an interval that fell due while the
last sample still walked is skipped. Log entry 64 DEDUCED. -/
def execSampleStart (s : State) : Host.Outcome State Fault Refusal :=
  .next <|
    if s.fld Reg.sampleCtrl Reg.sampleCtrl_ENABLE = 0 then s
    else
      let due := s.fab.sampleAt + max 128 (s.fld Reg.sampleCtrl Reg.sampleCtrl_INTERVAL)
      if 96 * due < s.fab.walkEnd then
        State.bump { s with fab := { s.fab with sampleAt := due } } Reg.sampleErr Reg.sampleErr_SKIP
      else
        let s1 := s.passTo (96 * due)
        let s2 := State.sampleWalk { s1 with fab := { s1.fab with sampleAt := s1.gc } }
        { s2 with fab := { s2.fab with walkEnd := s2.ec + 2 } }

end Sys2Proof.Machine
end

