-- ==== Sys2Proof/Machine/Resets.lean ====
section
/-! DEFINITION. Resets and bring-up: what a reset drains, cuts and keeps, and how bays and stacks become ready again (R508 to R528,
R553, R557). -/

namespace Sys2Proof.Machine

/-! ## Registers (R10, R11, R519) -/

/-- The registers of `[lo, hi)` reset: sticky fields keep their value, every other takes its After reset value, and the offsets of
`keep` are left as they are. -/
def State.resetRegs (s : State) (lo hi : Nat) (keep : List Nat) : State :=
  { s with regs := s.regs.filterMap fun e =>
      if e.1 < lo ∨ hi ≤ e.1 ∨ keep.contains e.1 then some e
      else
        let m := regSticky e.1
        let v := (e.2 &&& m) ||| (regReset e.1 &&& ~~~m)
        if v = regReset e.1 then none else some (e.1, v) }

/-! ## Spare easels and the repair record (R430, R436, R524) -/

/-- The physical easels of a bay that the factory map leaves good, in order. -/
def State.goodPhys (s : State) (b : Nat) : List Nat := (List.range 13).filter fun i => !bitOf (s.bay b).factory i

/-- What the factory map and the repair record make of a bay (R524): the physical easel behind each logical one, the failed physical
easels and the logical easels out of service, as masks. -/
def State.layout (s : State) (b : Nat) : List Nat × Nat × Nat :=
  (s.repair.filter fun r => r.unit == b && decide (r.kind < 2)).foldl (fun (acc : List Nat × Nat × Nat) r =>
    let failed := acc.2.1 ||| 2 ^ acc.1.getD r.a 13
    if r.kind = 0 then (putAt acc.1 r.a r.b, failed, acc.2.2) else (acc.1, failed, acc.2.2 ||| 2 ^ r.a))
    ((s.goodPhys b).take s.easelsPerBay, 0, 0)

/-- The spares of a bay not yet used, lowest-numbered first. -/
def State.spares (s : State) (b : Nat) : List Nat :=
  let (phys, _, _) := s.layout b
  let failed := (s.bay b).failedPhys
  let backing := (List.range s.easelsPerBay).map fun e => s.fld (Reg.easelStatus b e) Reg.easelStatus_PHYS
  (s.goodPhys b).filter fun i => !phys.contains i && !backing.contains i && !bitOf failed i

/-- BAY.SPARE.PHYS and LEFT (R436). Log entry 3 DESIGN CHOICE. -/
def State.showSpares (s : State) (b : Nat) : State :=
  let l := s.spares b
  (s.setFld (Reg.baySpare b) Reg.baySpare_PHYS (l.headD 0xF)).setFld (Reg.baySpare b) Reg.baySpare_LEFT l.length

/-- The repair record applied to a bay (R512, R519, R524). -/
def State.applyRepair (s : State) (b : Nat) : State :=
  let (phys, failed, out) := s.layout b
  let s1 := s.updBay b fun y => { y with failedPhys := failed }
  let s2 := (phys.zipIdx).foldl (fun u (p, e) =>
    (u.setFld (Reg.easelStatus b e) Reg.easelStatus_PHYS p).updEx ⟨b, e⟩ fun y => { y with failed := bitOf out e }) s1
  let s3 := (List.range 12).foldl (fun u e => if bitOf out e then u.setEst ⟨b, e⟩ stOff else u) s2
  let used := s.repair.any fun r => r.unit == b && r.kind == 0
  ((s3.setFld (Reg.baySpare b) Reg.baySpare_USED (b2n used)).setFld (Reg.baySpare b) Reg.baySpare_FAILED out).showSpares b

/-! ## Set points (R553, R556) -/

/-- An AVSBus request for a set point, in microvolts (R501, R555): bay `b` is rail 2 + b, at address b mod 4 of the bus of its
partition, and VDD_NODE is rail 18, at address 4 of bus 0. -/
def State.avsRequest (s : State) (rail v : Nat) : State :=
  State.emit { s with pwr := { s.pwr with avs := s.pwr.avs.filter (·.1 != rail) ++ [(rail, v, s.gc)] } }
    (if rail = 18 then .avs 0 4 v else .avs ((rail - 2) / 4) ((rail - 2) % 4) v)

/-- The set point of VDD_BAYb: its base voltage plus its guardband (R553). Log entry 30 DESIGN CHOICE. -/
def State.baySetPoint (s : State) (b : Nat) : Nat := Config.baseVolt b + 1000 * s.fld (Reg.pwrBay1 b) Reg.pwrBay1_GB

/-! ## A bay and its stack taken down (R306, R517 to R520) -/

/-- The destination of a running near-bank operation is undefined (R306): free bytes, each stroke passing its check or not by a free
value (log entry 13 DESIGN CHOICE). Log entry 72 DEDUCED. -/
def State.undefineNb (s : State) (b : Nat) : State :=
  match (s.stk b).nbRun with
  | none => s
  | some op =>
    let g := locMem op.dst / 512
    let n := 256 * op.units
    let (bs, s1) := s.drawBytes (512 * n)
    let (d, s2) := s1.draw
    (List.range n).foldl (fun u i => if bitOf d i then u.setStamp (g + i) .none else u) (s2.setBytes (512 * g) bs)

/-- The open messages for a bay cut with unavailable (R380). -/
def State.cutBay (s : State) (b : Nat) : State :=
  s.fab.conns.foldl (fun u k =>
    (k.2.rx.filter fun m => s.msgIn m b).foldl (fun v m => v.cutMsg k.1 m cUnavailable true) u) s

/-- A bay enters bay or partition reset at the frame start `f` (R518 to R520): its stores are drained, its work is absorbed or
cut, its registers and tables are reset; the contents of its stack and of its catalogue slice stay. Log entry 80 DEDUCED. -/
def State.bayDown (s : State) (b f : Nat) : State :=
  let s1 := (List.range 12).foldl (fun u e => u.resetEasel ⟨b, e⟩ (96 * (f + 2048))) (s.wsDown b)
  let s2 := ((s1.bay b).queue ++ (s1.bay b).incoming).foldl (fun u l => u.launchAnswer b l cUnavailable) s1
  let s3 := ((((s2.nbCancel b).pbDrain b).cutBay b).undefineNb b).catAbort
  let s4 := ((s3.setReady Reg.globalReady_BAY b false).setStackReady b false).setReady Reg.globalReady_CAT 0 false
  let s5 := s4.setFld Reg.catStatus ⟨Reg.catStatus_SLICEUP.lo + b, 1⟩ 0
  let base := 0x100000 + b * 0x100000
  let s6 := s5.resetRegs base (base + 0x100000) ((List.range 16).map (Reg.bayRegion b))
  let m := s6.raised b (regReset (Reg.baySlotmap b)).toNat
  let busy := ((s4.stk b).nbRun.map fun op => ceilDiv op.due 96).getD 0
  let s7 := ((s6.setReg (Reg.baySlotmap b) (BitVec.ofNat 64 m)).newRefresh b (s6.stk b).map m).updStk b fun y =>
    { y with map := m, pendMap := none, step := 0, pendStep := none, windows := [], banks := [], shut := 0, nbQ := [], nbRun := none
             remapping := [], tripping := false, badTiming := false, readyAt := some (max (f + 12800) busy)
             trainFails := min 1 y.trainFails }
  let s8 := s7.setBay b { factory := (s7.bay b).factory, failedPhys := (s7.bay b).failedPhys, deepSince := f }
  let st := Reg.pwrStatus
  let s9 := ((s8.setFld st ⟨Reg.pwrStatus_DEEP.lo + b, 1⟩ 0).setFld st ⟨Reg.pwrStatus_WAKING.lo + b, 1⟩ 0).setFld
    (Reg.pwrBay1 b) Reg.pwrBay1_STATE 0
  { s9.setHeat b {} with
    repairDue := s9.repairDue.filter (·.unit != b)
    boot := { s9.boot with pll := SMap.set (fun _ => 0) s9.boot.pll b 0 } }

/-- The contents of a stack lost (R43, R520): every stroke fails its check, and its part of the pair's log is empty.
Log entry 69 DEDUCED. -/
def State.loseStack (s : State) (b : Nat) : State :=
  let lo := stackBase b / 512
  let y := s.stk b
  { s.setStk b { y with lost := true } with
    mem := SMap.clear s.mem (stackBase b) (stackBase (b + 1))
    seals := SMap.clear s.seals lo (lo + 2 ^ 55)
    eccErr := SMap.clear s.eccErr lo (lo + 2 ^ 55)
    pair := { s.pair with logLen := SMap.set (fun _ => 0) s.pair.logLen b 0 } }

/-! ## Requests and their scope (R509, R517, R525) -/

/-- Whether a reset in progress covers a bay. -/
def ResetX.covers (r : ResetX) (b : Nat) : Bool :=
  r.scope == 3 || (r.scope == 1 && r.unit == b) || (r.scope == 2 && r.unit == b / 4)

/-- The bit of GLOBAL.RESET of a bay or partition reset. -/
def ResetX.bit (r : ResetX) : Fld := ⟨if r.scope = 1 then r.unit else 16 + r.unit, 1⟩

/-- A bay reset requested (R509, R517): merged into a reset that covers the bay or into a node reset. -/
def State.bayReset (s : State) (b : Nat) : State :=
  if s.boot.phase ≠ 2 ∨ s.boot.resets.any (·.covers b) then s
  else
    let f := frameAfter (ceilDiv s.ec 96)
    let r : ResetX := { scope := 1, unit := b, f, drained := false, lost := [] }
    let s1 := ((s.setFld Reg.globalReset r.bit 1).passTo (96 * f)).bayDown b f
    { s1 with boot := { s1.boot with resets := s1.boot.resets ++ [r] } }

/-- The queued programs of a channel come to nothing (R340, R518): the strokes of their pages pass no check. -/
def State.dropQueue (s : State) (c : Nat) : State :=
  let q := (s.fch c).queue
  let s1 := s.failChannel c
  let s2 := s1.updFch c fun f => { f with queue := [], rebuilding := false }
  { s2 with seals := q.foldl (fun m p => SMap.clear m (t3Base / 512 + 32 * p) (t3Base / 512 + 32 * p + 32)) s2.seals }

/-- A flash channel in partition reset (R340, R518, R519): its block is reset but for MAPBASE. Log entry 69 DEDUCED. -/
def State.channelDown (s : State) (c : Nat) : State :=
  (s.dropQueue c).resetRegs (Reg.flashChStatus c) (Reg.flashChStatus c + 0x1000) [Reg.flashChMapbase c]

/-- A port in partition reset (R380, R519): OFF, its block reset but for CTRL, NEG and TEST. -/
def State.portDown (s : State) (p : Nat) : State :=
  (s.portOff p).resetRegs (Reg.portStatus p) (Reg.portTest p) []

/-- A partition reset requested (R509, R517): it takes over the bay resets inside it. -/
def State.partReset (s : State) (p : Nat) : State :=
  if s.boot.phase ≠ 2 ∨ s.boot.resets.any (fun r => r.scope == 2 && r.unit == p) then s
  else
    let f := frameAfter (ceilDiv s.ec 96)
    let r : ResetX := { scope := 2, unit := p, f, drained := false, lost := [] }
    let inside := fun (q : ResetX) => q.scope == 1 && q.unit / 4 == p
    let s0 := (s.boot.resets.filter inside).foldl (fun u q => u.setFld Reg.globalReset q.bit 0) s
    let s1 := (s0.setFld Reg.globalReset r.bit 1).passTo (96 * f)
    let s2 := (List.range 4).foldl (fun u i => u.bayDown (4 * p + i) f) s1
    let s3 := [p, p + 4].foldl (fun u q => u.portDown q) s2
    let s4 := (List.range 8).foldl (fun u i => u.channelDown (8 * p + i)) s3
    let s5 := State.setGroups { s4 with pair := { s4.pair with trained := s4.pair.trained &&& (15 - 2 ^ p) } } s4.pair.groups
    { s5 with boot := { s5.boot with resets := s5.boot.resets.filter (fun q => !inside q) ++ [r] } }

/-- The bay and partition resets that have ended: every bay and stack in them is ready, or has failed (R525, R526). -/
def State.endResets (s : State) : State :=
  let up := fun (b : Nat) => (s.bayUp b || decide (2 ≤ SMap.get (fun _ => 0) s.boot.pll b))
    && (s.stackUp b || decide (2 ≤ (s.stk b).trainFails))
  let past := fun (r : ResetX) => r.drained && (allBays.filter r.covers).all up
  let s1 := (s.boot.resets.filter past).foldl (fun u r => u.setFld Reg.globalReset r.bit 0) s
  { s1 with boot := { s1.boot with resets := s1.boot.resets.filter fun r => !past r } }

/-! ## Node resets (R447, R508, R518 to R520, R560) -/

/-- The margin plan as registers hold it (R503): guardbands, floors, ceilings, withdrawn lanes and FLOOR. -/
def State.planRegs (s : State) : SMap Word :=
  let offs := [Reg.pwrFreq] ++ (List.range 16).map Reg.pwrBay1 ++ (List.range 16).map Reg.pwrStk ++ (List.range 8).map Reg.pwrLaser
  offs.map fun o => (o, s.reg o &&& regSticky o)

/-- The margin plan restored (R503, R510 step 3). -/
def State.restorePlan (s : State) : State :=
  let s1 := s.rot.plan.foldl (fun u e => u.setReg e.1 ((u.reg e.1 &&& ~~~regSticky e.1) ||| e.2)) s
  { s1 with rot := { s1.rot with plan := [] } }

/-- Whether a node reset leaves the bytes of a memory space: stacks through a warm one, host memory, flash and the image banks always
(R520). -/
def keptSpace (cold : Bool) (sp : Nat) : Bool :=
  (!cold && decide (0x300 ≤ sp ∧ sp < 0x310)) || sp == 0x400 || sp == 0x500 || decide (0x610 ≤ sp ∧ sp < 0x620)

/-- What a stack keeps through a warm node reset (R290, R292, R498, R519): its contents if it had them, with its ageing mark, the
scrub position and the corrections counted since cold reset. -/
def StackX.warm (y : StackX) : StackX :=
  { lost := y.lost, scrub := y.scrub, scrubFix := y.scrubFix, corr := y.corr, weak := y.weak
    passCorr := if y.lost then 0 else y.passCorr }

/-- The node in node reset (R11, R518 to R520, R560): everything at State.reset but what survives; registers and stores that are
lost hold free values (log entry 13 DESIGN CHOICE), tables that are lost their first values. Log entry 71 DEDUCED, 135 DESIGN
CHOICE. -/
def State.nodeReset (s : State) (cold : Bool) (cause : Nat) : State :=
  let z := State.reset
  let f := s.free
  let live := fun (b : Nat) => !cold && !(s.stk b).lost
  let on := !s.pwr.thermtrip
  let s1 : State :=
    { z with
      ec := s.ec
      xtal := s.xtal
      frames := s.frames
      regs := if cold then [] else (s.resetRegs 0 (2 ^ 64) []).regs
      g := loseRange f 0 12288 []
      v := loseRange (f + 12288) 0 6144 []
      t := loseRange (f + 18432) 0 3072 []
      p := loseRange (f + 21504) 0 1536 []
      free := f + 23040
      mem := s.mem.filter fun e => keptSpace cold (e.1 / 2 ^ 64)
      seals := s.seals.filter fun e => keptSpace cold (e.1 / 2 ^ 55)
      eccErr := s.eccErr.filter fun e => keptSpace cold (e.1 / 2 ^ 55)
      stackXs := if cold then [] else s.stackXs.map fun e => (e.1, e.2.warm)
      catc := { scrubIdx := if cold then 0 else s.catc.scrubIdx }
      flash := s.flash.map fun e => (e.1, { e.2 with geom := none, queue := [], patrolled := [], rebuilding := false, holdUntil := 0, holdFrom := 0 })
      flashAll := { next := (s.flashAll.inForce.map (·.1)).getD z.flashAll.next, inForce := s.flashAll.inForce }
      host := { seq := if cold then 0 else s.host.seq, evBuf := if cold then [] else s.host.evBuf, perst := s.host.perst
                bar4 := if cold then z.host.bar4 else s.host.bar4 }
      keys := s.keys
      kidNext := s.kidNext
      rot := { svn := s.rot.svn, bank := s.rot.bank, act := s.rot.act, lic := s.rot.lic, wrapGen := s.rot.wrapGen + b2n cold
               wdog := if s.rot.stopped then s.rot.wdog else 0, recover := s.rot.recover
               plan := if s.rot.plan.isEmpty then s.planRegs else s.rot.plan, debug := s.rot.debug }
      pwr := { thermtrip := s.pwr.thermtrip, enCore := on, enStk := on, flEn := on, sampled := s.pwr.sampled
               setPoints := if s.pwr.enCore then s.pwr.setPoints else [] }
      boot := { noCrystal := s.boot.noCrystal, coldFrame := if cold then s.frames else s.boot.coldFrame }
      repair := s.repair
      pair := { logLen := s.pair.logLen.filter (fun e => live e.1), owed := s.pair.owed, nextId := s.pair.nextId }
      fab := { z.fab with ports := s.fab.ports.filterMap fun e => if e.2.unseated then some (e.1, { unseated := true }) else none }
      out := s.out
      pending := s.pending }
  let s2 := (s1.setFld Reg.globalReset Reg.globalReset_LASTCAUSE cause).setFld Reg.hostLink Reg.hostLink_BIF (b2n s.bif)
  let s3 := (s2.setFld Reg.rotStatus Reg.rotStatus_CONF (b2n s.conf)).setFld Reg.rotStatus Reg.rotStatus_ACTBANK s.rot.bank
  let s4 := s3.setFld Reg.globalEverr Reg.globalEverr_DEPTH s3.host.evBuf.length
  let s5 := s4.setFld Reg.pairLog Reg.pairLog_FILL ((s4.pair.logLen.map (·.2)).foldl max 0)
  let s6 := if s.pwr.alarm then s5.emit (.pin "ALARM_N" true) else s5
  let s7 := if on ∧ !s.pwr.enCore then (s6.emit (.pin "PWR_EN_CORE" true)).emit (.pin "PWR_EN_STK" true) else s6
  if on ∧ !s.pwr.flEn then s7.emit (.pin "FL_PWR_EN" true) else s7

/-- Every function drops out of GLOBAL.READY: one record names the bits, and DROPEV is set (R513, R514). -/
def State.allDown (s : State) : State :=
  let old := s.reg Reg.globalReady
  if bf old 0 47 = 0 then s
  else
    let new := BitVec.ofNat 64 (2 ^ 63)
    (s.setReg Reg.globalReady new).log 0x01 0xFF 0 old new

/-- A warm node reset requested for a cause (R508, R509, R517 to R520): async stores are placed, leases expire, running near-bank
operations run on, and the stacks of `lost` lose their contents. One that meets a node reset in progress is merged.
Log entry 71 DEDUCED. -/
def State.warmReset (s : State) (cause : Nat) (lost : List Nat) : State :=
  if s.boot.phase ≠ 2 then lost.foldl (fun u b => u.loseStack b) s
  else
    let s1 := allEasels.foldl (fun u x => u.drainStores x) s
    let s2 := s1.leases.foldl (fun u l => u.expireLease l.pf l.line) s1
    let s3 := (List.range 32).foldl (fun u c => u.dropQueue c) s2
    let s4 := allBays.foldl (fun u b => u.undefineNb b) s3
    let s5 := lost.foldl (fun u b => u.loseStack b) (allBays.foldl (fun u b => u.wsDown b) s4)
    let s6 := s5.allDown.nodeReset false cause
    { s6 with boot := { s6.boot with resets := [{ scope := 3, unit := 0, f := s6.gc, drained := false, lost }] } }

/-- A cold node reset for a cause (R508, R568); one that ends a thermal trip releases THERMTRIP_N and records it.
Log entry 70 DEDUCED. -/
def State.coldReset (s : State) (cause : Nat) : State :=
  let c := s.fld Reg.globalReset Reg.globalReset_LASTCAUSE
  if s.boot.phase = 4 ∨ (s.boot.phase < 2 ∧ s.boot.resets = [] ∧ !s.boot.warmHeld ∧ c < 4 ∧ !s.pwr.thermtrip) then s
  else
    let t := s.pwr.thermtrip
    let s1 := { s with pwr := { s.pwr with thermtrip := false } }
    (if t then s1.emit (.pin "THERMTRIP_N" true) else s1).nodeReset true (if t then 10 else cause)

/-! ## The reset rows (R508, R509, R517) -/

/-- GLOBAL_RESET_BAY (R509, R517). -/
def execGlobalResetBay (bay : Nat) (s : State) : Host.Outcome State Fault Refusal :=
  guarded (decide (bay < 16)) s fun s => s.bayReset bay

/-- GLOBAL_RESET_PART (R509, R517). -/
def execGlobalResetPart (part : Nat) (s : State) : Host.Outcome State Fault Refusal :=
  guarded (decide (part < 4)) s fun s => s.partReset part

/-- GLOBAL_RESET_WARM (R508, R525): cause 5. -/
def execGlobalResetWarm (s : State) : Host.Outcome State Fault Refusal := .next (s.warmReset 5 [])

/-- GLOBAL_RESET_COLD (R508, R525): cause 2. -/
def execGlobalResetCold (s : State) : Host.Outcome State Fault Refusal := .next (s.coldReset 2)

/-- WARM_RST_PIN (R508, R525): cause 4. -/
def execWarmRstPin (s : State) : Host.Outcome State Fault Refusal := .next (s.warmReset 4 [])

/-- COLD_RST_PIN (R508, R525, R568): cause 1, or 10 where it ends a thermal trip. -/
def execColdRstPin (s : State) : Host.Outcome State Fault Refusal := .next (s.coldReset 1)

/-- The stores of a bay cleared (R520). -/
def State.clearBayStores (s : State) (b : Nat) : State :=
  let sp := fun (lo n : Nat) (m : List Host.Cell) => SMap.clear m (lo * 2 ^ 64) ((lo + n) * 2 ^ 64)
  { s with mem := sp (0x200 + 12 * b) 12 (sp (0x100 + 12 * b) 12 (sp b 1 s.mem))
           seals := SMap.clear s.seals (b * 2 ^ 55) ((b + 1) * 2 ^ 55) }

/-- RESET_DRAIN_END (R517, R518): the drain of the earliest reset ends: at F + 512 gc for a bay or partition, whose stores are then
cleared and whose stacks train; a warm node reset goes on with its ROM unless it is held (R507, R568). Log entry 71 DEDUCED. -/
def execResetDrainEnd (s : State) : Host.Outcome State Fault Refusal :=
  .next <|
    match s.boot.resets.find? (!·.drained) with
    | none => s
    | some r =>
      if r.scope = 3 then
        if s.boot.noCrystal || s.pwr.thermtrip then { s with boot := { s.boot with resets := [], warmHeld := true } }
        else { s with boot := { s.boot with resets := [], phase := 1 } }
      else
        let s1 := (allBays.filter r.covers).foldl (fun u b => (u.clearBayStores b).startTraining b) (s.passTo (96 * (r.f + 512)))
        { s1 with boot := { s1.boot with resets := s1.boot.resets.map fun q => if q = r then { q with drained := true } else q } }

/-- RESET_RELEASE (R510, R557): COLD_RST_N and RAILS_OK are high, PCIE_BIF is sampled and the power-on sequence starts. -/
def execResetRelease (strap : Bool) (s : State) : Host.Outcome State Fault Refusal :=
  .next <|
    if s.boot.phase = 0 ∧ s.boot.resets = [] ∧ !s.boot.warmHeld ∧ !s.boot.noCrystal ∧ !s.pwr.thermtrip then
      State.setFld { s with boot := { s.boot with phase := 1 } } Reg.hostLink Reg.hostLink_BIF (b2n strap)
    else s

/-- CRYSTAL_LOSS (R507): the clock stands still and a warm node reset is held; cause 8. Log entry 71 DEDUCED. -/
def execCrystalLoss (s : State) : Host.Outcome State Fault Refusal :=
  .next <|
    if s.boot.noCrystal then s
    else
      let s1 := s.warmReset 8 []
      { s1 with boot := { s1.boot with noCrystal := true } }

/-- CRYSTAL_RETURN (R507): the warm node reset held since the loss goes on. -/
def execCrystalReturn (s : State) : Host.Outcome State Fault Refusal :=
  .next <|
    if s.boot.noCrystal then
      let go := s.boot.warmHeld && !s.pwr.thermtrip
      { s with boot := { s.boot with noCrystal := false, warmHeld := s.boot.warmHeld && !go, phase := if go then 1 else s.boot.phase } }
    else s

/-- RAILS_OK_LOW (R558): outside N3 and a thermal trip, a warm node reset that loses every stack; cause 6. -/
def execRailsOkLow (s : State) : Host.Outcome State Fault Refusal :=
  .next (if s.pwr.enCore then s.warmReset 6 allBays else s)

/-- The ground supply is lost (R441, R520, R554): key memory but for the sealed slot 0x0000, and the counts. Log entry 70 DEDUCED. -/
def State.loseGround (s : State) : State :=
  { s with keys := s.keys.filter (·.1 == 0), ec := 0, xtal := 0, frames := 0
           pwr := { s.pwr with sampled := none, resetLow := [], gndLow := false } }

/-- GROUND_SUPPLY_RETURN (R508, R554): a cold node reset with key memory lost; cause 0. -/
def execGroundSupplyReturn (s : State) : Host.Outcome State Fault Refusal :=
  .next <|
    let s1 := { s with pwr := { s.pwr with thermtrip := false, enCore := false } }
    (s1.nodeReset true 0).loseGround

/-! ## Bays and stacks become ready (R505, R510, R517, R524, R526) -/

/-- Whether bring-up of the bays and stacks has come so far: the root-of-trust image runs and a licence is in force. -/
def State.licensed (s : State) : Bool := decide (s.boot.phase = 2) && decide (s.fld Reg.globalReady Reg.globalReady_LIC = 1)

/-- The key store of a bay reloaded for its active portfolios and its weight stream (R451, R520). -/
def State.reloadSlots (s : State) (b : Nat) : State :=
  let want := s.fld (Reg.bayWsCtrl b) Reg.bayWsCtrl_KEYSLOT :: (s.activePfs.filter fun n => (s.pf n).home == b).map fun n => (s.pf n).slot
  (want.eraseDups.filter (· != 0)).foldl (fun u k => (u.checkSlot k).loadSlot b k) (s.updBay b fun y => { y with keystore := [] })

/-- BAY_READY (R505, R510 step 4, R512, R517): its PLL has locked, its repair is applied and its stores are cleared; a PLL that fails
twice leaves the bay not ready. A partition's ports light again with the bay they attach to. -/
def execBayReady (bay : Nat) (locked : Bool) (s : State) : Host.Outcome State Fault Refusal :=
  guarded (decide (bay < 16)) s fun s =>
    let fails := SMap.get (fun _ => 0) s.boot.pll bay
    let r := s.boot.resets.find? (·.covers bay)
    if !s.licensed || s.bayUp bay || decide (2 ≤ fails) || (r.map (!·.drained)).getD false then s
    else
      let s1 := s.passTo ((r.map fun r => 96 * (r.f + 2048 + 250 * fails)).getD 0)
      if !locked then
        let s2 : State := { s1 with boot := { s1.boot with pll := SMap.set (fun _ => 0) s1.boot.pll bay (fails + 1) } }
        s2.endResets
      else
        let s2 := (s1.applyRepair bay).reloadSlots bay
        let s3 := (s2.setFld Reg.catStatus ⟨Reg.catStatus_SLICEUP.lo + bay, 1⟩ 1).setReady Reg.globalReady_BAY bay true
        let s4 := s3.setReady Reg.globalReady_CAT 0 (decide (s3.fld Reg.catStatus Reg.catStatus_SLICEUP = 0xFFFF))
        let relit := (r.map fun r => r.scope == 2).getD false
        let s5 := ((List.range 8).filter fun p => relit && portBay p == bay).foldl (fun u p => u.portLight p) s4
        (s5.updBay bay fun y => { y with deepSince := s5.gc }).endResets

/-- The row-remap table of a stack rebuilt from the repair record (R292 to R294, R524): rows listed since are put on spares now;
one whose bank has none left sets FULLEV and raises a stack event. -/
def State.restoreRows (s : State) (b : Nat) : State :=
  let mine := s.repair.filter (·.unit == b)
  let remap := (mine.filter (·.kind == 2)).foldl (fun m r => SMap.set (fun _ => 0) m r.a r.b) []
  let spent := (mine.filter (·.kind == 2)).foldl (fun m r =>
    SMap.set (fun _ => 0) m (rowBank r.a) (max (SMap.get (fun _ => 0) m (rowBank r.a)) r.b)) []
  let s1 := s.updStk b fun y => { y with remap, spent, detRows := [], lost := false, readyAt := none, trainFails := 0 }
  let r := Reg.bayStkRemap b
  let s2 := ((s1.setFld r Reg.bayStkRemap_PENDING 0).setFld r Reg.bayStkRemap_USED remap.length).setFld r
    Reg.bayStkRemap_MINSPARE ((spent.map fun e => 64 - e.2).foldl min 64)
  let s3 := { s2 with repair := s2.repair.filter fun e => !(e.kind == 3 && e.unit == b) }
  (mine.filter (·.kind == 3)).foldl (fun u e =>
    if (u.stk b).usedIn e.a < 64 then u.remapRow b e.a else (u.setFld r Reg.bayStkRemap_FULLEV 1).stackEvent b) s3

/-- A flash channel of a stack that is ready again after a partition reset (R338, R517): its interface trains, its map loaded
2,500 gc later. -/
def State.channelBack (s : State) (c : Nat) : State :=
  match (s.fch c).geom with
  | some g =>
    if s.fld (Reg.flashChStatus c) Reg.flashChStatus_LUNS = 0 then
      let st := Reg.flashChStatus c
      let s1 := ((s.setFld st Reg.flashChStatus_LUNS (g.targets * g.lunsPer)).setFld st Reg.flashChStatus_TRAIN 1).updFch c fun f =>
        { f with holdUntil := s.gc + 2500, holdFrom := s.gc }
      ((s1.setFld (Reg.flashChMaplen c) Reg.flashChMaplen_STROKES (s1.mapStrokes c)).flashShow c).startRebuild c
    else s
  | none => s

/-- STACK_READY (R510 step 5, R517, R526): a stack ends its training at a frame start with its remap table restored and its floors
applied; one that fails it twice stays not ready. Log entry 88 DEDUCED. -/
def execStackReady (stack : Nat) (trained : Bool) (s : State) : Host.Outcome State Fault Refusal :=
  guarded (decide (stack < 16)) s fun s =>
    let y := s.stk stack
    let st := Reg.bayStkStatus stack
    let r := s.boot.resets.find? (·.covers stack)
    if !s.licensed || s.stackUp stack || decide (2 ≤ y.trainFails) || (r.map (!·.drained)).getD false
        || (decide (s.fld st Reg.bayStkStatus_TRAIN = 1) && decide (s.fld st Reg.bayStkStatus_SELFREF = 1))
        || decide (s.fld st Reg.bayStkStatus_TRIP = 1) then s
    else
      let s1 := s.passTo (96 * frameAfter (max (ceilDiv s.ec 96) (y.readyAt.getD 0)))
      if !trained then
        let s2 := s1.updStk stack fun y => { y with trainFails := y.trainFails + 1 }
        if 1 ≤ y.trainFails then ((s2.setFld st Reg.bayStkStatus_TRAIN 0).stackEvent stack).endResets else s2
      else
        let s0 := s1.setFld st Reg.bayStkStatus_TRAIN 0
        let s2 := (((s0.restoreRows stack).floorMap stack).setStackReady stack true).quieten stack
        ([2 * stack, 2 * stack + 1].foldl (fun u c => u.channelBack c) s2).endResets

/-- REPAIR_RECORD_APPEND (R524): the oldest in-field repair is written to the repair record. -/
def execRepairRecordAppend (s : State) : Host.Outcome State Fault Refusal :=
  .next <|
    match s.repairDue with
    | [] => s
    | r :: rs => { s with repair := s.repair ++ [r], repairDue := rs }

end Sys2Proof.Machine
end

