-- ==== Sys2Proof/Machine/Leases.lean ====
section
/-! DEFINITION. Host leases and spare easels (R428 to R431, R435, R436, R549). -/

namespace Sys2Proof.Machine

/-! ## Lease entries (R549) -/

/-- OP of a lease entry. -/
def leOp (e : List Word) : Nat := bitsOf (entWord e 0) 0 8
/-- LINE. -/
def leLine (e : List Word) : Nat := bitsOf (entWord e 0) 8 1
/-- TAG. -/
def leTag (e : List Word) : Nat := bitsOf (entWord e 0) 32 32
/-- PF. -/
def lePf (e : List Word) : Nat := bitsOf (entWord e 1) 0 18
/-- The host address. -/
def leHost (e : List Word) : Nat := 64 * bitsOf (entWord e 2) 6 58

/-- Whether an entry has a reserved OP or a non-zero reserved field; the words the format does not name are reserved (log entry 36
DEDUCED). -/
def leBad (e : List Word) : Bool :=
  decide (leOp e = 0) || decide (5 < leOp e) || decide (bitsOf (entWord e 0) 9 23 ≠ 0) || decide (bitsOf (entWord e 1) 18 46 ≠ 0)
    || decide (bitsOf (entWord e 2) 0 6 ≠ 0) || (List.range 4).any fun i => decide (entWord e (4 + i) ≠ 0)

/-- Every lease of a function renewed (R429). -/
def State.renew (s : State) (f : Nat) : State :=
  { s with leases := s.leases.map fun l => if l.holder = f then { l with last := s.gc } else l }

/-- The code an entry is refused with before its own rules: its shape, the stack that holds the record, the session, the home
stack; RENEW names no portfolio (log entry 36 DEDUCED). -/
def State.leCode (s : State) (e : List Word) : Nat :=
  let n := lePf e
  if leBad e then cShape
  else if leOp e = 5 then cDone
  else if !s.stackUp (n % 16) then cUnavailable
  else if !(s.pf n).valid then cNoSession
  else if !s.stackUp (s.pf n).home then cUnavailable
  else cDone

/-- A lease entry of one operation carried out: taken from its queue, its function's leases renewed, and refused or given to the
operation, which sees the ticket. Entries of a queue take effect in order: one waits while the line of a WRITE before it is being
read; one of another operation is left for its own command, one with a reserved OP is refused by any. Log entry 78 DEDUCED. -/
def State.leEntry (s : State) (q op : Nat) (f : Nat → List Word → State → State) : State :=
  if s.host.waits.any (fun w => w.2.1 % 64 == q && s.ticketLive w.2.1) then s
  else
    match s.hqTake q 1 with
    | none => s
    | some (k, e) =>
      if leOp e ≠ op ∧ leOp e ≠ 0 ∧ leOp e ≤ 5 then s
      else if leOp e ≠ 5 ∧ s.asleep (lePf e % 16) = true then s
      else
        let s1 := (s.hqPop q).renew (s.queueFunc q)
        let c := s1.leCode e
        if c = cDone then f k e s1 else s1.hostPost k (leTag e) c 0 0 0 0

/-- The lease of an entry's function on its line. -/
def State.leMine (s : State) (k : Nat) (e : List Word) : Option LeaseX :=
  (s.leaseOn (lePf e) (leLine e)).filter fun l => l.holder == s.queueFunc (k % 64)

/-- The fenced value of a line. -/
def State.lineOf (s : State) (n line : Nat) : List Byte := s.bytes (pfAddr n + 0x180 + 64 * line) 64

/-- LEASE_TAKE (R428, R549). Log entry 78 DEDUCED. -/
def execLeaseTake (queue : Nat) (s : State) : Host.Outcome State Fault Refusal :=
  guarded (decide (queue < 64)) s fun s =>
    s.leEntry queue 1 fun k e s =>
      let n := lePf e
      let f := s.queueFunc queue
      let done := fun (u : State) bs => (u.emit (.hostWrite f (leHost e) bs)).hostPost k (leTag e) cDone 0 0 0 0
      match s.leaseOn n (leLine e) with
      | some l => if l.holder = f then done s l.staging else s.hostPost k (leTag e) cBusy 0 0 0 0
      | none =>
        if 4096 ≤ s.leases.length then s.hostPost k (leTag e) cCapacity 0 0 0 0
        else
          let bs := s.lineOf n (leLine e)
          done (State.showLeases { s with leases := s.leases ++ [⟨n, leLine e, f, bs, s.gc⟩] }) bs

/-- LEASE_WRITE (R428, R533, R549): the 64 bytes are read from the host; HOST_READ_COMPLETION puts them into the staging copy. -/
def execLeaseWrite (queue : Nat) (s : State) : Host.Outcome State Fault Refusal :=
  guarded (decide (queue < 64)) s fun s =>
    s.leEntry queue 2 fun k e s =>
      match s.leMine k e with
      | none => s.hostPost k (leTag e) cSequence 0 0 0 0
      | some _ => s.hqRead 3 (leHost e) 64 k e

/-- Bytes of a line by a mask. -/
def maskLine (m : Nat) (old new : List Byte) : List Byte :=
  (List.range 64).map fun i => if bitOf m i then new.getD i 0 else old.getD i 0

/-- A lease's staging copy set. -/
def State.setStaging (s : State) (pf line : Nat) (bs : List Byte) : State :=
  { s with leases := s.leases.map fun l => if l.pf = pf ∧ l.line = line then { l with staging := bs } else l }

/-- The line of a WRITE has come (R549): its masked bytes go into the staging copy, if the function still holds the lease. -/
def State.leWriteDone (s : State) (k : Nat) (e : List Word) (data : List Byte) : State :=
  match s.leMine k e with
  | none => s.hostPost k (leTag e) cSequence 0 0 0 0
  | some l => (s.setStaging l.pf l.line (maskLine (entWord e 3) l.staging data)).hostPost k (leTag e) cDone 0 0 0 0

/-- LEASE_FENCE (R46, R428): the line of the record becomes the staging copy by one mirrored portfolio write, and the entry completes
once the partner has acknowledged it. -/
def execLeaseFence (queue : Nat) (s : State) : Host.Outcome State Fault Refusal :=
  guarded (decide (queue < 64)) s fun s =>
    s.leEntry queue 3 fun k e s =>
      match s.leMine k e with
      | none => s.hostPost k (leTag e) cSequence 0 0 0 0
      | some l =>
        let n := lePf e
        let (c, s1) := s.writeRecord none n none (patch (s.bytes (pfAddr n) 512) (0x180 + 64 * l.line) l.staging)
        if c ≠ cDone then s1.hostPost k (leTag e) c 0 0 0 0
        else
          let ids := (List.range (s1.pair.nextId - s.pair.nextId)).map (s.pair.nextId + ·)
          State.settleLeases { s1 with leaseWaits := s1.leaseWaits ++ [⟨ids, k, leTag e⟩] }

/-- LEASE_DROP (R428). -/
def execLeaseDrop (queue : Nat) (s : State) : Host.Outcome State Fault Refusal :=
  guarded (decide (queue < 64)) s fun s =>
    s.leEntry queue 4 fun k e s =>
      match s.leMine k e with
      | none => s.hostPost k (leTag e) cSequence 0 0 0 0
      | some l => (s.freeLease l.pf l.line).hostPost k (leTag e) cDone 0 0 0 0

/-- LEASE_RENEW (R429, R549). Log entry 36 DEDUCED. -/
def execLeaseRenew (queue : Nat) (s : State) : Host.Outcome State Fault Refusal :=
  guarded (decide (queue < 64)) s fun s =>
    s.leEntry queue 5 fun k e s => s.hostPost k (leTag e) cDone 0 0 0 0

/-- LEASE_EXPIRY (R428): PERIOD gc after the holder's last command. -/
def execLeaseExpiry (pf line : Nat) (s : State) : Host.Outcome State Fault Refusal :=
  guarded (decide (pf < 2 ^ 18) && decide (line < 2)) s fun s =>
    match s.leaseOn pf line with
    | none => s
    | some l => (s.passTo (96 * (l.last + s.fld Reg.leaseCtrl Reg.leaseCtrl_PERIOD))).expireLease pf line

/-! ## Spare easels (R430, R431) -/

/-- A bay event of a spare (R430, R431, R540). -/
def State.spareLog (s : State) (x : Ea) : State := s.log 0x0E x.bay x.easel (s.reg (Reg.baySpare x.bay)) 0

/-- The physical easel that backs a logical one, or is being switched in for it. -/
def State.physOf (s : State) (x : Ea) : Nat :=
  ((s.ex x).switching.map (·.2)).getD (s.fld (Reg.easelStatus x.bay x.easel) Reg.easelStatus_PHYS)

/-- The spares of a bay that are not being switched in, lowest-numbered first. -/
def State.idleSpares (s : State) (b : Nat) : List Nat :=
  (s.spares b).filter fun i => (List.range 12).all fun e => (s.ex ⟨b, e⟩).switching.map (·.2) != some i

/-- A physical easel fails (R430, R431): it is isolated, and the lowest-numbered spare is powered up to take its logical number 500
gc later, until when nothing shows it; with none left the logical easel is out of service. -/
def State.easelFails (s : State) (x : Ea) : State :=
  let b := x.bay
  let sp := Reg.baySpare b
  let phys := s.physOf x
  let s0 := s.updBay b fun y => { y with failedPhys := y.failedPhys ||| 2 ^ phys }
  let s1 := s0.resetEasel x (s.ec + 500 * 96)
  match s0.idleSpares b with
  | i :: _ => (s1.setEst x stOff).updEx x fun y => { y with switching := some (phys, i) }
  | [] =>
    let s2 := (s1.setEst x stOff).updEx x fun y => { y with failed := true, resetDue := none }
    let s3 := (s2.setFld sp Reg.baySpare_FAILED (s2.fld sp Reg.baySpare_FAILED ||| 2 ^ x.easel)).setFld sp Reg.baySpare_EXHEV 1
    ((s3.showSpares b).repairNote ⟨1, b, x.easel, phys⟩).spareLog x

/-- EASEL_FAILURE (R430, R431). Log entry 79 DEDUCED. -/
def execEaselFailure (x : Ea) (s : State) : Host.Outcome State Fault Refusal :=
  guarded x.ok s fun s => if x.easel < s.easelsPerBay ∧ !(s.ex x).failed ∧ s.bayUp x.bay then s.easelFails x else s

/-- SPARE_SWITCH_IN_DONE (R101, R430, R436, R524): the logical easel is idle on its spare, EASEL.STATUS.PHYS and BAY.SPARE show it, EXC
shows code 0x0D, and the bindings of the exception event fire with it. -/
def execSpareSwitchInDone (x : Ea) (s : State) : Host.Outcome State Fault Refusal :=
  guarded x.ok s fun s =>
    match (s.ex x).switching, (s.ex x).resetDue with
    | some (phys, i), some due =>
      let sp := Reg.baySpare x.bay
      let s0 := (s.passTo due).setFld (Reg.easelStatus x.bay x.easel) Reg.easelStatus_PHYS i
      let s1 := (s0.updEx x fun y => { y with resetDue := none, switching := none }).toIdle x
      let s2 := (((s1.setFld sp Reg.baySpare_USED 1).setFld sp Reg.baySpare_SWEV 1).showSpares x.bay).setExc x 0x0D 0 0 0 phys 0
      let s3 := s2.log 0x03 x.bay x.easel (s2.reg (Reg.easelExc x.bay x.easel)) 0
      ((s3.repairNote ⟨0, x.bay, x.easel, i⟩).spareLog x).fire x.bay 0x41 (BitVec.ofNat 64 (x.easel + 0x0D * 16)) 0
    | _, _ => s

end Sys2Proof.Machine
end

