-- ==== Sys2Proof/Machine/Rot.lean ====
section
/-! DEFINITION. The root of trust: mailbox, keys, confidential mode, firmware, licences and its start (R441 to R478, R510, R511, R521 to
R523, R527). -/

namespace Sys2Proof.Machine

/-! ## The mailbox (R443 to R445) -/

/-- A request of a channel completes (R443, R444): RESP and the response in the buffer, DONEEV, and vector 1 for channel 0 (R545). -/
def State.mbxDone (s : State) (c code detail : Nat) (resp : List Byte) : State :=
  let r := Reg.rotMbxResp c
  let s1 := s.setReg r (BitVec.ofNat 64 (code % 16 + resp.length % 2 ^ 13 * 2 ^ 4 + detail % 2 ^ 32 * 2 ^ 32))
  let s2 := ((s1.setBytes (mbxBase c) resp).setFld (Reg.rotMbxState c) Reg.rotMbxState_STATE 3).setFld
    (Reg.rotMbxState c) Reg.rotMbxState_DONEEV 1
  if c = 0 then s2.msix (s2.fld Reg.globalEvctrl Reg.globalEvctrl_FUNC) 1 else s2

/-- The running request completes. -/
def State.reqDone (s : State) (code detail : Nat) (resp : List Byte) : State :=
  match s.rot.running with
  | some (c, _, _) => State.mbxDone { s with rot := { s.rot with running := none } } c code detail resp
  | none => s

/-- Every request queued or running completes with a code (R469, R474). -/
def State.mbxCut (s : State) (code : Nat) : State :=
  let cs := (s.rot.running.map (·.1)).toList ++ s.rot.queue
  cs.foldl (fun u c => (u.setFld (Reg.rotMbxCmd c) Reg.rotMbxCmd_GO 0).mbxDone c code 0 [])
    { s with rot := { s.rot with running := none, queue := [] } }

/-- A record of the root of trust in the event log (R540). -/
def State.rotEvent (s : State) : State := s.log 0x11 0xFF 0 (s.reg Reg.rotErr) 0

/-- MAILBOX_GO (R443): the request joins the queue, or is refused with busy while the channel has one queued or running. -/
def execMailboxGo (channel : Nat) (s : State) : Host.Outcome State Fault Refusal :=
  guarded (decide (channel < 2)) s fun s =>
    let st := Reg.rotMbxState channel
    if s.fld st Reg.rotMbxState_STATE = 1 ∨ s.fld st Reg.rotMbxState_STATE = 2 then
      s.setFld (Reg.rotMbxResp channel) Reg.rotMbxResp_STATUS cBusy
    else
      let s1 := (s.setFld st Reg.rotMbxState_STATE 1).setFld (Reg.rotMbxCmd channel) Reg.rotMbxCmd_GO 1
      { s1 with rot := { s1.rot with queue := s1.rot.queue ++ [channel] } }

/-- The commands of R445: code, shortest and longest request, and whether channels 0 and 1 may send them (log entry 32 DEDUCED). -/
def mbxTable : List (Nat × Nat × Nat × Bool × Bool) :=
  [(0x01, 4, 4, true, true), (0x02, 32, 32, true, true), (0x10, 2, 2, true, false), (0x11, 386, 386, true, false),
    (0x12, 4, 4, true, false), (0x13, 2, 2, true, false), (0x14, 2, 2, true, true), (0x20, 32, 32, true, false),
    (0x21, 32, 32, true, false), (0x30, 0, 0, true, false), (0x31, 0, 0, true, false), (0x40, 4, 4036, true, true),
    (0x41, 0, 0, true, true), (0x42, 4, 4, true, true), (0x43, 0, 0, true, true), (0x50, 1344, 1344, true, true),
    (0x60, 0, 0, false, true), (0x70, 0, 0, false, true)]

/-- Whether the ROM takes a command in recovery (R473). -/
def recoveryTakes (code : Nat) : Bool := [0x01, 0x02, 0x40, 0x41, 0x42].contains code

/-- Whether the node runs the ROM recovery mode (R472). -/
def State.recovery (s : State) : Bool := s.fld Reg.rotStatus Reg.rotStatus_RECOVERY = 1

/-- The code a request is turned away with when it is taken (R445, R473, R474), or done; FW.ARM needs no epoch in recovery.
Log entry 76 DEDUCED. -/
def State.takeCode (s : State) (c code len : Nat) : Nat :=
  match mbxTable.find? fun e => e.1 == code && (if c = 0 then e.2.2.2.1 else e.2.2.2.2) with
  | none => cShape
  | some e =>
    if (len < e.2.1 ∨ e.2.2.1 < len) ∧ !(s.recovery && code == 0x42 && len == 0) then cShape
    else if s.rot.stopped || (s.recovery && !recoveryTakes code) then cUnavailable
    else cDone

/-- MAILBOX_TAKE (R443): the oldest queued request is taken; GO is cleared. A request of a reserved code, or of a length that does not
fit, completes with shape. A root of trust that takes a request has completed its start (R472). Log entry 32 DEDUCED, 76 DEDUCED. -/
def execMailboxTake (s : State) : Host.Outcome State Fault Refusal :=
  .next <|
    match s.rot.queue with
    | [] => s
    | c :: q =>
      if s.boot.phase ≠ 2 ∨ s.rot.running.isSome then s
      else
        let cmd := Reg.rotMbxCmd c
        let code := s.fld cmd Reg.rotMbxCmd_CODE
        let len := s.fld cmd Reg.rotMbxCmd_LEN
        let s1 : State := { s with rot := { s.rot with queue := q, wdog := if s.rot.stopped then s.rot.wdog else 0 } }
        let s2 := (s1.setFld cmd Reg.rotMbxCmd_GO 0).setFld (Reg.rotMbxState c) Reg.rotMbxState_STATE 2
        let r := s2.takeCode c code len
        if r = cDone then { s2 with rot := { s2.rot with running := some (c, code, len) } } else s2.mbxDone c r 0 []

/-- A command that runs: `f` gets the request's bytes; any other state of the mailbox stays as it is. -/
def State.onReq (s : State) (code : Nat) (f : List Byte → State) : State :=
  match s.rot.running with
  | some (c, k, len) => if k = code then f (s.bytes (mbxBase c) len) else s
  | none => s

/-! ## Identity and attestation (R446, R447) -/

/-- The 32 bytes of a digest. -/
def digestBytes (d : Nat) : List Byte := (natBytes 32 d).reverse

/-- The digest 32 bytes spell. Log entry 24 DESIGN CHOICE. -/
def digestOf (bs : List Byte) : Nat := bytesNat bs.reverse

/-- ID_GET (R445, R446): DEVID and up to 4,032 bytes of the certificate chain from the offset on. -/
def execIdGet (s : State) : Host.Outcome State Fault Refusal :=
  .next <| s.onReq 0x01 fun rq =>
    s.reqDone cDone 0 (natBytes 8 Config.devid.toNat ++ (Config.certChain.drop (leAt rq 0 4)).take 4032)

/-- Size of an image bank (R464). -/
abbrev bankSize : Nat := 0x3000000

/-- Entry `i` of a bank's manifest (R465): TYPE, SVN, OFFSET, LENGTH and SHA-256. -/
def State.component (s : State) (bank i : Nat) : Nat × Nat × Nat × Nat × Nat :=
  let e := s.bytes (bankBase bank + 24 + 64 * i) 64
  (leAt e 0 4, leAt e 4 4, leAt e 16 4, leAt e 20 4, digestOf ((e.drop 24).take 32))

/-- The entry of a component type in a bank's manifest. -/
def State.componentOf (s : State) (bank ty : Nat) : Option (Nat × Nat × Nat × Nat × Nat) :=
  ((List.range 5).map (s.component bank)).find? (·.1 == ty)

/-- The runtime digests of a bank's component 1 (R465). -/
def State.bankDigests (s : State) (bank : Nat) : List Nat :=
  match s.componentOf bank 1 with
  | some (_, _, off, len, _) => Config.runtimeDigests (s.bytes (bankBase bank + off) len)
  | none => []

/-- Digests in ascending order (R447). -/
def sortDigests (l : List Nat) : List Nat := sortNat l

/-- The attestation report for a nonce (R447). The spec gives no digest of a licence record that is not there: a free value.
Log entry 75 DEDUCED. -/
def State.attestReport (s : State) (nonce : List Byte) : List Byte × State :=
  let (d, s1) := s.draw
  let lic := match s.rot.lic with | some r => Config.sha256 r | none => d % 2 ^ 256
  let modulus := fitTo 384 0 (Config.wrapModulus s.rot.wrapGen)
  let st := Reg.rotStatus
  let flags := s.fld st Reg.rotStatus_CONF + 2 * s.fld st Reg.rotStatus_RECOVERY + 4 * s.fld st Reg.rotStatus_ARMED
    + 8 * s.fld Reg.pairStatus Reg.pairStatus_SOLO + 16 * s.fld Reg.globalLic Reg.globalLic_TIER
  let comps := (List.range 5).flatMap fun t => digestBytes (((s.componentOf s.rot.bank t).map (·.2.2.2.2)).getD 0)
  let partner := s.fld Reg.pairStatus Reg.pairStatus_PARTNER
  let head := natBytes 8 Config.devid.toNat ++ natBytes 8 flags ++ fitTo 32 0 nonce ++ digestBytes (Config.sha256 modulus) ++ comps
    ++ (List.range 6).flatMap (fun k => natBytes 4 (s.rot.svn.getD k 0)) ++ natBytes 4 (s.fld Reg.mapEpoch Reg.mapEpoch_EPOCH)
    ++ digestBytes lic ++ digestBytes (Config.sha256 ((sortDigests s.rot.digests).flatMap digestBytes))
    ++ natBytes 4 (if partner = 0xFFF then 0xFFFFFFFF else partner)
  (head ++ fitTo 384 0 (Config.rsaSign (head ++ modulus)) ++ modulus, s1)

/-- ATTEST (R445, R447). -/
def execAttest (s : State) : Host.Outcome State Fault Refusal :=
  .next <| s.onReq 0x02 fun rq =>
    let (r, s1) := s.attestReport rq
    s1.reqDone cDone 0 r

/-! ## Owner key slots (R448 to R452, R457 to R459, R477) -/

/-- Whether key operations reach the partner: it is reachable and the pair channel stands (R452, R458). -/
def State.pairTalk (s : State) : Bool :=
  decide (s.fld Reg.pairStatus Reg.pairStatus_UNREACH = 0) && decide (s.fld Reg.rotStatus Reg.rotStatus_PAIRKEY = 1)

/-- KEY_NONCE (R445, R449): a fresh nonce, a free value (log entry 13 DESIGN CHOICE), replaces the slot's. -/
def execKeyNonce (s : State) : Host.Outcome State Fault Refusal :=
  .next <| s.onReq 0x10 fun rq =>
    let slot := leAt rq 0 2
    let (d, s1) := s.draw
    let n := d % 2 ^ 128
    (s1.setKey slot { s1.key slot with nonce := some n }).reqDone cDone 0 (natBytes 16 n)

/-- The code KEY.INSTALL is refused with, in the order of R449, or done; `bundle` is what the wrapped bundle unwraps to.
Log entry 15 DESIGN CHOICE. -/
def State.installCode (s : State) (slot : Nat) (bundle : Option (List Byte)) : Nat :=
  let b := bundle.getD []
  let k := s.key slot
  if slot = 0 ∨ (bundle.isSome ∧ (leAt b 96 2 = 0 ∨ b.take 32 = (b.drop 32).take 32)) then cShape
  else if k.state ≠ 0 then cSequence
  else if bundle.isNone ∨ b.length ≠ 124 ∨ k.nonce ≠ some (leAt b 100 16) ∨ leAt b 98 2 ≠ slot
      ∨ leAt b 116 8 ≠ Config.devid.toNat then cAttest
  else if !s.pairTalk then cUnavailable
  else cDone

/-- The destroys held for the partner delivered, before anything else on the pair channel (R458). -/
def State.deliverDestroys (s : State) : State :=
  (s.keys.filter (·.2.pending)).foldl (fun u e =>
    (u.emit (.pairMsg 0x113 [e.1])).setKey e.1 { u.key e.1 with pending := false }) s

/-- An operation forwarded to the partner on the pair channel (R452, R458). -/
def State.forwardRot (s : State) (code : Nat) (words : List Nat) : State := s.deliverDestroys.emit (.pairMsg (0x100 + code) words)

/-- KEY_INSTALL (R449, R452, R478): the bundle is checked, the slot's nonce is consumed and the key stands on both members;
`partner` is the code the partner answers with. A key's identity is odd and made of its 96 bytes. -/
def execKeyInstall (partner : Nat) (s : State) : Host.Outcome State Fault Refusal :=
  .next <| s.onReq 0x11 fun rq =>
    let slot := leAt rq 0 2
    let bundle := Config.rsaUnwrap s.rot.wrapGen (rq.drop 2)
    let code := s.installCode slot bundle
    let s1 := (if code = cDone then s.deliverDestroys else s).setKey slot
      { s.key slot with nonce := none, pending := code ≠ cDone ∧ (s.key slot).pending }
    if code ≠ cDone then s1.reqDone code 0 []
    else if partner % 16 ≠ 0 then s1.reqDone (partner % 16) 0 []
    else
      let b := bundle.getD []
      let s2 := s1.setKey slot { s1.key slot with state := 1, owner := leAt b 96 2, kid := 2 * bytesNat (b.take 96) + 1, bad := false }
      (s2.forwardRot 0x11 [slot]).reqDone cDone 0 []

/-- A fresh key made by the random bit generator: an even identity no other key has. Log entry 15 DESIGN CHOICE. -/
def State.freshKid (s : State) : Nat × State := (2 * s.kidNext, { s with kidNext := s.kidNext + 1 })

/-- KEY_GEN (R449, R452): an EMPTY slot is filled on both members. Log entry 134 DEDUCED. -/
def execKeyGen (partner : Nat) (s : State) : Host.Outcome State Fault Refusal :=
  .next <| s.onReq 0x12 fun rq =>
    let slot := leAt rq 0 2
    let owner := leAt rq 2 2
    let code := if slot = 0 ∨ owner = 0 then cShape else if (s.key slot).state ≠ 0 then cSequence
      else if !s.pairTalk then cUnavailable else partner % 16
    if code ≠ cDone then s.reqDone code 0 []
    else
      let (kid, s1) := s.deliverDestroys.freshKid
      let s2 := s1.setKey slot { s1.key slot with state := 1, owner, kid, bad := false }
      (s2.forwardRot 0x12 [slot, owner]).reqDone cDone 0 []

/-- KEY_DESTROY (R457, R458): the destroy is taken, and forwarded or held as partner pending. Slot 0x0000 is not an owner slot:
shape. Log entry 134 DEDUCED. -/
def execKeyDestroy (s : State) : Host.Outcome State Fault Refusal :=
  .next <| s.onReq 0x13 fun rq =>
    let slot := leAt rq 0 2
    if slot = 0 then s.reqDone cShape 0 []
    else
      let talk := s.pairTalk
      let s1 := s.setKey slot { s.key slot with dying := some s.gc, pending := !talk }
      (if talk then s1.forwardRot 0x13 [slot] else s1).reqDone cDone (b2n !talk) []

/-- A slot emptied in key memory and in every bay key store (R457, R459), its outstanding nonce kept (R449); the lanes under it stop
(R266). -/
def State.emptySlot (s : State) (slot : Nat) : State :=
  let k := s.key slot
  let s1 := s.setKey slot { pending := k.pending, nonce := k.nonce }
  (allBays.foldl (fun u b => u.updBay b fun y => { y with keystore := y.keystore.filter (· != slot) }) s1).wsKeyLost slot

/-- KEY_DESTROY_EFFECT (R457): at the first frame start after it was taken a destroyed slot is gone in all sixteen bays. -/
def execKeyDestroyEffect (slot : Nat) (s : State) : Host.Outcome State Fault Refusal :=
  guarded (decide (slot < 65536)) s fun s =>
    match (s.key slot).dying with
    | some t => (s.passTo (96 * frameAfter (t + 1))).emptySlot slot
    | none => s

/-- PENDING_DESTROY_DELIVER (R458): the destroys held for the partner are delivered when it can be reached. -/
def execPendingDestroyDeliver (s : State) : Host.Outcome State Fault Refusal :=
  .next <|
    if s.pairTalk then s.deliverDestroys else s

/-- KEY_QUERY (R445, R458): the answer tells the slot's state, its owner and partner pending, in a layout the spec does not give.
Log entry 101 DESIGN CHOICE. -/
def execKeyQuery (s : State) : Host.Outcome State Fault Refusal :=
  .next <| s.onReq 0x14 fun rq =>
    let k := s.key (leAt rq 0 2)
    let r := Config.queryAnswer k.state k.owner k.pending
    s.reqDone cDone r.1 (r.2.take 4096)

/-- DIGEST_REG (R77, R445). -/
def execDigestReg (s : State) : Host.Outcome State Fault Refusal :=
  .next <| s.onReq 0x20 fun rq =>
    let d := digestOf rq
    let ds := s.rot.digests
    State.reqDone { s with rot := { s.rot with digests := if ds.contains d then ds else ds ++ [d] } } cDone 0 []

/-- DIGEST_DEREG (R445). -/
def execDigestDereg (s : State) : Host.Outcome State Fault Refusal :=
  .next <| s.onReq 0x21 fun rq =>
    State.reqDone { s with rot := { s.rot with digests := s.rot.digests.filter (· != digestOf rq) } } cDone 0 []

/-- DECOMMISSION (R477): every slot and the node key are destroyed and PAIRKEY is cleared; the partner is as unreachable.
Log entry 75 DEDUCED. -/
def execDecommission (s : State) : Host.Outcome State Fault Refusal :=
  .next <| s.onReq 0x70 fun _ =>
    let (kid, s1) := s.freshKid
    let held := (s1.keys.map (·.1)).foldl (fun u k => u.wsKeyLost k) s1
    let s2 := allBays.foldl (fun u b => u.updBay b fun y => { y with keystore := [] }) { held with keys := [(0, { kid })] }
    let s3 := (s2.setFld Reg.rotStatus Reg.rotStatus_PAIRKEY 0).setFld Reg.rotErr Reg.rotErr_PAIRKEYBAD 0
    (if s3.fld Reg.pairStatus Reg.pairStatus_UNREACH = 1 then s3 else s3.unreach).reqDone cDone 0 []

/-! ## Confidential mode (R461, R463) -/

/-- Whether this node may enter confidential mode (R461). Log entry 75 DEDUCED. -/
def State.confOk (s : State) : Bool :=
  !s.rot.debug && allBays.all fun b =>
    (List.range 16).all (fun n => decide (s.fld (Reg.bayRegion b n) Reg.bayRegion_CLEAR = 0)) &&
    (List.range 64).all fun n =>
      let e := s.prog b n
      !pgValid e || s.rot.digests.contains (Config.sha256 (s.imageBytes e).1)

/-- CONF_ENTER (R461): both members enter, or neither does; `partnerReady` is the partner's answer. Log entry 75 DEDUCED. -/
def execConfEnter (partnerReady : Bool) (s : State) : Host.Outcome State Fault Refusal :=
  .next <| s.onReq 0x30 fun _ =>
    if !s.pairTalk then s.reqDone cUnavailable 0 []
    else if !partnerReady || !s.confOk then s.reqDone cAttest 0 []
    else ((s.setFld Reg.rotStatus Reg.rotStatus_CONF 1).forwardRot 0x30 []).reqDone cDone 0 []

/-- The owner slots destroyed and the node key renewed, and the warm node reset with which confidential mode ends (R463). -/
def State.confLeave (s : State) (kid : Nat) : State :=
  (State.warmReset { s with keys := [(0, { state := 1, kid })] } 9 []).setFld Reg.rotStatus Reg.rotStatus_CONF 0

/-- CONF_EXIT (R463): the owner slots are destroyed, the node key is renewed and a warm node reset, with which the mode ends,
follows. -/
def execConfExit (s : State) : Host.Outcome State Fault Refusal :=
  .next <| s.onReq 0x31 fun _ =>
    if !s.pairTalk then s.reqDone cUnavailable 0 []
    else
      let (kid, s1) := (s.forwardRot 0x31 []).freshKid
      (s1.reqDone cDone 0 []).confLeave kid

/-! ## Image banks and activation (R464 to R471) -/

/-- The inactive bank. -/
def State.spareBank (s : State) : Nat := 1 - s.rot.bank

/-- FW_WRITE (R466): bytes into the inactive bank; STAGED is cleared. Log entry 134 DEDUCED. -/
def execFwWrite (s : State) : Host.Outcome State Fault Refusal :=
  .next <| s.onReq 0x40 fun rq =>
    let off := leAt rq 0 4
    let s1 := s.setFld Reg.rotStatus Reg.rotStatus_STAGED 0
    if bankSize < off + (rq.length - 4) then s1.reqDone cShape 0 []
    else (s1.setBytes (bankBase s.spareBank + off) (rq.drop 4)).reqDone cDone 0 []

/-- The largest length of a component type (R465). -/
def typeLimit (ty : Nat) : Nat := [0x400000, 0x2800000, 0x100000, 0x100000, 0x100000].getD ty 0

/-- The first of the checks 1 to 4 of R466 that a bank fails, with the TYPE of the component that fails it; done where all hold. -/
def State.verifyBank (s : State) (bank : Nat) : Nat × Option Nat :=
  let m := s.bytes (bankBase bank) 1120
  let cs := (List.range 5).map (s.component bank)
  let modulus := (m.drop 736).take 384
  let signer := Config.sha256 modulus
  let fit := fun (c : Nat × Nat × Nat × Nat × Nat) => decide (c.2.2.2.1 ≤ typeLimit c.1 ∧ c.2.2.1 + c.2.2.2.1 ≤ bankSize)
  let same := fun (c : Nat × Nat × Nat × Nat × Nat) => Config.sha256 (s.bytes (bankBase bank + c.2.2.1) c.2.2.2.1) == c.2.2.2.2
  let fresh := fun (c : Nat × Nat × Nat × Nat × Nat) =>
    decide (max (s.rot.svn.getD c.1 0) (s.rot.partnerSvn.getD c.1 0) ≤ c.2.1)
  if m.take 8 ≠ [0x4C, 0x56, 0x4D, 0x41, 0x4E, 0x49, 0x30, 0x31] ∨ leAt m 8 4 ≠ 1 ∨ leAt m 12 4 ≠ 5
      ∨ !((List.range 5).all fun t => cs.any (·.1 == t)) then (cShape, none)
  else
    match cs.find? fun c => !fit c with
    | some c => (cShape, some c.1)
    | none =>
      if (signer ≠ Config.fwSigners.1 ∧ signer ≠ Config.fwSigners.2)
          ∨ !Config.rsaVerify modulus (m.take 352) ((m.drop 352).take 384) then (cAttest, none)
      else
        match cs.find? fun c => !same c with
        | some c => (cDamaged, some c.1)
        | none =>
          match cs.find? fun c => !fresh c with
          | some c => (cSequence, some c.1)
          | none => (cDone, none)

/-- The staging memory in stack 15 takes the components (R466): free bytes, since the spec gives no layout; no stroke of it passes a
check. -/
def State.stage (s : State) : State :=
  let g := stackBase 15 / 512 + 256 * 654776
  let (bs, s1) := s.drawBytes (512 * 256 * 512)
  let s2 := s1.setBytes (512 * g) bs
  { s2 with seals := SMap.clear s2.seals g (g + 256 * 512) }

/-- FW_VERIFY (R466): the inactive bank is checked and staged. DETAIL names the failing component by its TYPE; where a check fails
that concerns none, a free value. Log entry 75 DEDUCED. Log entry 76 DEDUCED. -/
def execFwVerify (s : State) : Host.Outcome State Fault Refusal :=
  .next <| s.onReq 0x41 fun _ =>
    let (code, ty) := s.verifyBank s.spareBank
    let (d, s1) := s.draw
    if code = cDone then (s1.stage.setFld Reg.rotStatus Reg.rotStatus_STAGED 1).reqDone cDone 0 []
    else s1.reqDone code (ty.getD (d % 2 ^ 32)) []

/-- FW_ARM (R468, R473): an epoch newer than the installed one is armed; in recovery the verified bank becomes the active one and
a cold node reset follows. -/
def execFwArm (s : State) : Host.Outcome State Fault Refusal :=
  .next <| s.onReq 0x42 fun rq =>
    let e := leAt rq 0 4
    if s.fld Reg.rotStatus Reg.rotStatus_STAGED = 0 then s.reqDone cSequence 0 []
    else if s.recovery then
      let s1 := s.reqDone cDone 0 []
      State.coldReset { s1 with rot := { s1.rot with bank := s1.spareBank } } 3
    else if !newer e s.epoch then s.reqDone cSequence 0 []
    else ((s.setFld Reg.rotArmepoch Reg.rotArmepoch_EPOCH e).setFld Reg.rotStatus Reg.rotStatus_ARMED 1).reqDone cDone 0 []

/-- FW_DISARM (R468). -/
def execFwDisarm (s : State) : Host.Outcome State Fault Refusal :=
  .next <| s.onReq 0x43 fun _ =>
    ((s.setFld Reg.rotArmepoch Reg.rotArmepoch_EPOCH 0).setFld Reg.rotStatus Reg.rotStatus_ARMED 0).reqDone cDone 0 []

/-- The SVN of each component of a bank, by TYPE. -/
def State.bankSvn (s : State) (bank : Nat) : List Nat := (List.range 5).map fun t => ((s.componentOf bank t).map (·.2.1)).getD 0

/-- ROT.SVN as the counters stand. -/
def State.showSvn (s : State) : State := (List.range 6).foldl (fun u k => u.setFld (Reg.rotSvn k) Reg.rotSvn_SVN (u.rot.svn.getD k 0)) s

/-- Counters raised: none ever decreases (R467, R469). -/
def State.raiseSvn (s : State) (l : List Nat) : State :=
  State.showSvn { s with rot := { s.rot with svn := (List.range 6).map fun k => max (s.rot.svn.getD k 0) (l.getD k 0) } }

/-- Flash channels restart in turn from a ground cycle on, each for 1,250 gc with its queued work held (R469). -/
def State.holdChannels (s : State) (order : Nat → Nat) (at_ : Nat) : State :=
  (List.range 32).foldl (fun u c => u.updFch c fun f =>
    { f with holdFrom := at_ + 1250 * order c, holdUntil := max f.holdUntil (at_ + 1250 * (order c + 1)) }) s

/-- A bay switches its stack microcode in the frame that begins: no access is let in during it. -/
def State.shutFrame (s : State) (b : Nat) : State := s.updStk b fun y => { y with shut := s.ec + 12288 }

/-- Whether the port whose turn came last has renegotiated: it is UP again or cannot be, or its 15,000 gc are over. -/
def State.turned (s : State) (p at_ : Nat) : Bool := s.portSt p == 5 || s.portSt p == 0 || decide (at_ + 15000 ≤ s.gc)

/-- Whether every bay and port has switched. -/
def State.switched (s : State) (w : SwitchX) : Bool := decide (w.bays = 16) && decide (w.ports = 8) && s.turned 7 w.portAt

/-- The next unit switched to the new firmware (R469 steps 2 and 3): a bay a frame, 12,500 gc after the start at the earliest,
with the flash channels from the end of the last one's frame on; then the ports, each when the one before it has renegotiated. Log
entry 77 DESIGN CHOICE. -/
def State.switchOn (s : State) (since : Nat) (w : SwitchX) : SwitchX × State :=
  if w.bays < 16 then
    if s.gc < since + 12500 then (w, s)
    else
      let s1 := s.shutFrame w.bays
      ({ w with bays := w.bays + 1 }, if w.bays = 15 then s1.holdChannels id (s.gc + 128) else s1)
  else if w.ports < 8 ∧ (w.ports = 0 ∨ s.turned (w.ports - 1) w.portAt) then
    ({ w with ports := w.ports + 1, portAt := s.gc }, s.leaveUp w.ports)
  else (w, s)

/-- The next unit switched back to the running firmware, in reverse order (R470). Log entry 77 DESIGN CHOICE. -/
def State.switchBack (s : State) (w : SwitchX) : SwitchX × State :=
  let free := decide (w.portAt = 0) || s.turned w.ports w.portAt
  if !free then (w, s)
  else if 0 < w.ports then ({ w with ports := w.ports - 1, portAt := s.gc }, s.leaveUp (w.ports - 1))
  else ({ w with bays := w.bays - 1 }, if w.bays = 0 then s else s.shutFrame (w.bays - 1))

/-- What a frame start does for an activation in progress, or for one that is taken back. Log entry 77 DESIGN CHOICE. -/
def State.frameFirmware (s : State) : State :=
  match s.rot.back, s.rot.act with
  | some w, _ =>
    let (w', s1) := s.switchBack w
    { s1 with rot := { s1.rot with back := if w'.ports = 0 ∧ w'.bays = 0 then none else some w' } }
  | none, some a =>
    if a.complete then s
    else
      let (w', s1) := s.switchOn a.since a.sw
      { s1 with rot := { s1.rot with act := some { a with sw := w' } } }
  | none, none => s

/-- The armed epoch is installed (R468, R469): the activation of the staged set starts. Log entry 77 DESIGN CHOICE. -/
def State.fwStart (s : State) (epoch : Nat) : State :=
  let st := Reg.rotStatus
  if s.fld st Reg.rotStatus_ARMED = 0 ∨ s.fld Reg.rotArmepoch Reg.rotArmepoch_EPOCH ≠ epoch ∨ s.fld st Reg.rotStatus_STAGED = 0
      ∨ s.fld st Reg.rotStatus_ACTIVATING = 1 ∨ s.rot.back.isSome then s
  else
    let new := s.bankDigests s.spareBank
    let old := (s.bankDigests s.rot.bank).filter fun d => !new.contains d
    let a : ActX := { epoch, since := s.gc, complete := false, newDigests := new, oldDigests := old, svn := s.bankSvn s.spareBank }
    let s1 := (s.setFld st Reg.rotStatus_ARMED 0).setFld st Reg.rotStatus_ACTIVATING 1
    { s1 with rot := { s1.rot with act := some a } }

/-- An activation is over (R469): the digests of the old runtime are deregistered and the counters rise.
Log entry 74 DEDUCED, 77 DESIGN CHOICE. -/
def State.fwFinish (s : State) (a : ActX) : State :=
  State.raiseSvn { s with rot := { s.rot with act := none, digests := s.rot.digests.filter fun d => !a.oldDigests.contains d } } a.svn

/-- Whether the grace window of an epoch is open. -/
def State.graceOpen (s : State) (epoch : Nat) : Bool := s.map.grace.any fun g => g.1 == epoch && decide (s.gc < g.2)

/-- FW_ACTIVATION_DONE (R469): once the bays and the ports have switched, every component runs from the new bank; mailbox requests
complete with busy; the counters rise at the later of this and the close of the grace window. Log entry 77 DESIGN CHOICE. -/
def execFwActivationDone (s : State) : Host.Outcome State Fault Refusal :=
  .next <|
    match s.rot.act with
    | none => s
    | some a =>
      if a.complete || !s.switched a.sw then s
      else
        let st := Reg.rotStatus
        let a1 := { a with complete := true }
        let ds := s.rot.digests ++ a.newDigests.filter fun d => !s.rot.digests.contains d
        let s1 : State := { s with rot := { s.rot with bank := s.spareBank, digests := ds, act := some a1 } }
        let s2 := ((s1.setFld st Reg.rotStatus_ACTBANK s1.rot.bank).setFld st Reg.rotStatus_ACTIVATING 0).setFld st Reg.rotStatus_STAGED 0
        let s3 := s2.mbxCut cBusy
        if s3.graceOpen a.epoch then s3 else s3.fwFinish a1

/-- FW_ACTIVATION_ROLLBACK (R470): a component fails its load, and every component switched already is to be switched back, the flash
channels and the ports first. Log entry 77 DESIGN CHOICE. -/
def execFwActivationRollback (s : State) : Host.Outcome State Fault Refusal :=
  .next <|
    match s.rot.act with
    | none => s
    | some a =>
      if a.complete then s
      else
        let old := s.bankDigests s.rot.bank
        let new := a.newDigests.filter fun d => !old.contains d
        let s0 := if a.sw.bays = 16 then s.holdChannels (fun c => 31 - c) s.gc else s
        let s1 : State := { s0 with rot := { s0.rot with act := none, back := some { a.sw with portAt := 0 }
                                                         digests := s.rot.digests.filter fun d => !new.contains d } }
        ((s1.setFld Reg.rotStatus Reg.rotStatus_ACTIVATING 0).setFld Reg.rotErr Reg.rotErr_ACTFAIL 1).rotEvent

/-! ## Licence records (R511, R521 to R524) -/

/-- The code a licence record meets, in the order of R522. -/
def State.licCode (s : State) (r : List Byte) : Nat :=
  let tier := leAt r 20 4
  let zero := (r.drop 28).take 4
  let top := (List.range 16).any fun b => decide (8191 < leAt r (32 + 2 * b) 2)
  let good := fun (b : Nat) => ((List.range 13).filter fun i => !bitOf (leAt r (32 + 2 * b) 2) i).length
  let need := [12, 9, 6].getD tier 0 + 1
  let modulus := (r.drop 960).take 384
  if r.length ≠ 1344 ∨ r.take 8 ≠ [0x4C, 0x56, 0x4C, 0x49, 0x43, 0x4E, 0x30, 0x31] ∨ leAt r 16 4 ≠ 1 ∨ 2 < tier
      ∨ zero.any (· != 0) ∨ top then cShape
  else if (List.range 16).any fun b => decide (good b < need) then cShape
  else if leAt r 8 8 ≠ Config.devid.toNat ∨ Config.sha256 modulus ≠ Config.licSigner
      ∨ !Config.rsaVerify modulus (r.take 576) ((r.drop 576).take 384) then cAttest
  else if leAt r 24 4 < s.rot.svn.getD 5 0 then cSequence
  else cDone

/-- A licence record takes effect (R4, R510, R511, R524, R553): the tier is in force, the factory map is applied, the set points are
requested, and the stacks and the flash interfaces train. -/
def State.licence (s : State) (r : List Byte) : State :=
  let l := Reg.globalLic
  let tier := leAt r 20 4
  let s1 := (((s.setFld l Reg.globalLic_TIER tier).setFld l Reg.globalLic_VALID 1).setFld l Reg.globalLic_SVN (leAt r 24 4)).setFld
    l Reg.globalLic_LICPEND 0
  let s2 := (s1.setFld l Reg.globalLic_PENDTIER 0).setReady Reg.globalReady_LIC 0 true
  let s3 := (s2.setFld Reg.catSize Reg.catSize_ENTRIES s2.catEntries).setFld Reg.catSize Reg.catSize_CAREMASK (if tier = 2 then 0 else 1)
  let s4 := allBays.foldl (fun u b =>
    ((u.updBay b fun y => { y with factory := leAt r (32 + 2 * b) 2 }).applyRepair b).avsRequest (2 + b) (u.baySetPoint b)) s3
  let s5 := allBays.foldl (fun u b => u.startTraining b) s4
  (List.range 32).foldl (fun u c => u.setFld (Reg.flashChStatus c) Reg.flashChStatus_TRAIN 1) s5

/-- LIC_INSTALL (R511, R522, R523): a record that passes its checks is stored and raises the licence counter; its tier waits for
the next node reset, or takes effect at once on a node without a licence. -/
def execLicInstall (s : State) : Host.Outcome State Fault Refusal :=
  .next <| s.onReq 0x50 fun rq =>
    let code := s.licCode rq
    if code ≠ cDone then s.reqDone code 0 []
    else
      let s1 := State.raiseSvn { s with rot := { s.rot with lic := some rq } } [0, 0, 0, 0, 0, leAt rq 24 4]
      let l := Reg.globalLic
      let s2 := if s1.fld Reg.globalReady Reg.globalReady_LIC = 1 then
          (s1.setFld l Reg.globalLic_LICPEND 1).setFld l Reg.globalLic_PENDTIER (leAt rq 20 4)
        else s1.licence rq
      s2.reqDone cDone 0 []

/-! ## Start, recovery and watchdog (R441, R467, R471 to R475, R510, R527) -/

/-- RECOVER (R472): the next node reset enters recovery. -/
def execRecover (s : State) : Host.Outcome State Fault Refusal :=
  .next <| s.onReq 0x60 fun _ => State.reqDone { s with rot := { s.rot with recover := true } } cDone 0 []

/-- ROT_WATCHDOG_EXPIRY (R474): the image restarts, requests in flight complete with busy, and after the third firing in a row the
image stays stopped. Log entry 76 DEDUCED. -/
def execRotWatchdogExpiry (s : State) : Host.Outcome State Fault Refusal :=
  .next <|
    if s.boot.phase = 0 ∨ s.rot.stopped ∨ s.recovery then s
    else
      let n := s.rot.wdog + 1
      let s1 := ((s.mbxCut cBusy).setFld Reg.rotErr Reg.rotErr_WDOG 1).rotEvent
      let s2 : State := { s1 with rot := { s1.rot with wdog := n, stopped := decide (3 ≤ n) } }
      if 3 ≤ n then s2.setReady Reg.globalReady_ROT 0 false else s2

/-- Whether a bank's components stand at or above the counters (R466 check 4, R475). -/
def State.svnOk (s : State) (bank : Nat) : Bool :=
  (List.range 5).all fun t => decide (s.rot.svn.getD t 0 ≤ (s.bankSvn bank).getD t 0)

/-- The bank the ROM starts from (R441, R472, R475): the active one, or the other where the active one fails its checks; none where
recovery is entered. Log entry 74 DEDUCED. -/
def State.startBank (s : State) (image : RotStart) : Option Nat :=
  let ok := fun (b : Nat) => if b = 0 then image.bankA else image.bankB
  let b := s.rot.bank
  if !image.authentic || s.rot.stopped || s.rot.recover then none
  else if ok b then (if s.svnOk b then some b else none)
  else if ok (1 - b) && s.svnOk (1 - b) then some (1 - b)
  else none

/-- What the boot record says of an activation a reset has cut (R471). -/
def State.bootRecord (s : State) : State :=
  match s.rot.act with
  | none => s
  | some a =>
    if a.complete then s.fwFinish a
    else State.setFld { s with rot := { s.rot with act := none } } Reg.rotErr Reg.rotErr_ACTFAIL 1

/-- ROT_IMAGE_VERIFIED (R441, R471, R472, R503, R510 steps 2 and 3, R522, R527): the ROM runs the image of a bank, which restores
the node key, the counters, the margin plan and the repair record and checks the stored licence; or the node enters recovery. Log
entry 76 DEDUCED. -/
def execRotImageVerified (image : RotStart) (s : State) : Host.Outcome State Fault Refusal :=
  .next <|
    if s.boot.phase ≠ 1 then s
    else
      let st := Reg.rotStatus
      match s.startBank image with
      | none =>
        State.setFld
          { s with boot := { s.boot with phase := 2 }, rot := { s.rot with stopped := false, recover := false, wdog := 0 } }
          st Reg.rotStatus_RECOVERY 1
      | some b =>
        let s1 := ({ s with rot := { s.rot with bank := b, wdog := 0, digests := s.bankDigests b } } : State).bootRecord
        let s2 := (State.setFld { s1 with boot := { s1.boot with phase := 2 } } st Reg.rotStatus_ACTBANK b).showSvn.restorePlan
        let s3 := if image.repairOk then s2 else State.setFld { s2 with repair := [] } Reg.globalLic Reg.globalLic_REPAIRBAD 1
        let s4 := (s3.avsRequest 18 (Config.baseVolt 16)).setReady Reg.globalReady_ROT 0 true
        match s4.rot.lic with
        | some r => if s4.licCode r = cDone then s4.licence r else s4
        | none => s4

/-- PAIR_KEY_ESTABLISH (R452, R467, R523): the pair's roots of trust have met. Members of different tiers stay strangers; counters
rise to the partner's; sealed node keys that differ stop mirroring; else PAIRKEY is set, a member without a node key taking the
pair's. Log entry 67 DEDUCED. -/
def execPairKeyEstablish (partner : PairHello) (s : State) : Host.Outcome State Fault Refusal :=
  .next <|
    if s.boot.phase ≠ 2 ∨ s.recovery ∨ s.rot.stopped ∨ !partner.attested ∨ !s.pathUp then s
    else
      let st := Reg.rotStatus
      if partner.tier ≠ s.fld Reg.globalLic Reg.globalLic_TIER then
        let s1 := (s.setFld Reg.globalLic Reg.globalLic_PAIRTIER 1).setFld st Reg.rotStatus_PAIRKEY 0
        if s1.fld Reg.pairStatus Reg.pairStatus_UNREACH = 1 then s1 else s1.unreach
      else
        let s0 := s.setFld Reg.globalLic Reg.globalLic_PAIRTIER 0
        let up := (List.range 6).any fun k => decide (s.rot.svn.getD k 0 < partner.svn.getD k 0)
        let s1 := ({ s0 with rot := { s0.rot with partnerSvn := partner.svn } } : State).raiseSvn partner.svn
        let s2 := if up then s1.setFld Reg.rotErr Reg.rotErr_SVNPAIR 1 else s1
        let own := decide ((s2.key 0).state = 1)
        if own && partner.sealed && !partner.sameKey then (s2.setFld Reg.rotErr Reg.rotErr_PAIRKEYBAD 1).setFld st Reg.rotStatus_PAIRKEY 0
        else
          let s3 := if own then s2 else
            let (kid, u) := s2.freshKid
            u.setKey 0 { state := 1, kid }
          ((s3.setFld Reg.rotErr Reg.rotErr_PAIRKEYBAD 0).setFld st Reg.rotStatus_PAIRKEY 1).pairShow

/-! ## The partner's operations (R320, R401, R452, R461, R463) -/

/-- An operation of the partner's root of trust applied on this node (R452, R457, R461, R463), and whether it was: an install or a
generate needs an EMPTY slot, and confidential mode what R461 asks of either member. Log entry 126 DEDUCED. -/
def State.partnerRot (s : State) (op : MirrorIn) : Bool × State :=
  let bs := (op.writes.headD ⟨0, .none, []⟩).data
  let slot := leAt bs 0 2
  let k := s.key slot
  let kid := 2 * bytesNat ((bs.drop 4).take 96) + 1
  if s.boot.phase ≠ 2 ∨ s.fld Reg.rotStatus Reg.rotStatus_PAIRKEY = 0 then (false, s)
  else if op.idx = 0x11 ∨ op.idx = 0x12 then
    if slot = 0 ∨ k.state ≠ 0 then (false, s)
    else (true, s.setKey slot { k with state := 1, owner := leAt bs 2 2, kid, bad := false })
  else if op.idx = 0x13 then (decide (slot ≠ 0), if slot = 0 then s else s.setKey slot { k with dying := some s.gc })
  else if op.idx = 0x30 then (s.confOk, if s.confOk then s.setFld Reg.rotStatus Reg.rotStatus_CONF 1 else s)
  else if op.idx = 0x31 then (true, s.confLeave kid)
  else (false, s)

/-- MIRROR_APPLY (R320, R401, R403, R405, R452, R488): the partner's operation is applied and acknowledged, answered not applied
where its bay is not ready, and waits for a bay that is not active. A unit of 5 is its request for a move, a unit of 6 one of its
root of trust. Log entry 126 DEDUCED. -/
def execMirrorApply (op : MirrorIn) (s : State) : Host.Outcome State Fault Refusal :=
  guarded (decide (op.bay < 16) && decide (op.unit < 7) && decide (op.pf < 2 ^ 18)) s fun s =>
    if op.unit = 6 then
      let (ok, s1) := s.partnerRot op
      s1.emit (.mirrorAck ok)
    else if s.bayUp op.bay && s.asleep op.bay then s
    else if s.bayUp op.bay && s.stackUp op.bay then
      if op.unit = 5 then s.partnerMove op else (s.applyMirror op).emit (.mirrorAck true)
    else s.emit (.mirrorAck false)

end Sys2Proof.Machine
end

