-- ==== Sys2Proof/Machine/Power.lean ====
section
/-! DEFINITION. Power, clocks and ageing: frames and temperatures, gated easels and deep bays, node states, supply dips, re-planning and
frequency bins (R279, R295, R480 to R507, R553 to R558, R568). -/

namespace Sys2Proof.Machine

/-! ## What the rows share -/

/-- A power event of the event log (R493, R494, R496, R500, R568). -/
def State.powerLog (s : State) (unit lever : Nat) : State :=
  s.log 0x10 unit lever (s.reg Reg.pwrStatus) (s.reg Reg.pwrAgeEvt)

/-- A power request refused (R493). -/
def State.powerRefuse (s : State) : State := (s.setFld Reg.pwrStatus Reg.pwrStatus_REFUSED 1).powerLog 0xFF 0

/-- PWR.BAY[b].STATE: 0 active, 1 deep, 2 waking, 3 relock. -/
def State.bayPwr (s : State) (b : Nat) : Nat := s.fld (Reg.pwrBay1 b) Reg.pwrBay1_STATE

/-- PWR.BAY[b].STATE set, with the bits of PWR.STATUS that show it. -/
def State.setBayPwr (s : State) (b n : Nat) : State :=
  let st := Reg.pwrStatus
  ((s.setFld (Reg.pwrBay1 b) Reg.pwrBay1_STATE n).setFld st ⟨Reg.pwrStatus_DEEP.lo + b, 1⟩ (b2n (n == 1))).setFld
    st ⟨Reg.pwrStatus_WAKING.lo + b, 1⟩ (b2n (n == 2))

/-- BAY.STK.STATUS.SELFREF of a stack. -/
def State.setSelfRef (s : State) (b : Nat) (v : Bool) : State :=
  s.setFld (Reg.bayStkStatus b) Reg.bayStkStatus_SELFREF (b2n v)

/-- The level of a power-enable pin changed, and what follows it (R558). -/
def State.setEnables (s : State) (core stk fl : Bool) : State :=
  let s1 := if core = s.pwr.enCore then s else s.emit (.pin "PWR_EN_CORE" core)
  let s2 := if stk = s.pwr.enStk then s1 else s1.emit (.pin "PWR_EN_STK" stk)
  let s3 := if fl = s.pwr.flEn then s2 else s2.emit (.pin "FL_PWR_EN" fl)
  { s3 with pwr := { s3.pwr with enCore := core, enStk := stk, flEn := fl } }

/-! ## Frequency bins (R480, R502, R505) -/

/-- Whether a bin request is refused (R502): faster than FLOOR, in N2 or N3, or with a refresh floor beyond RN = 4. -/
def State.binRefused (s : State) (bin : Nat) : Bool :=
  decide (bin < s.fld Reg.pwrFreq Reg.pwrFreq_FLOOR) || decide (2 ≤ s.fld Reg.pwrStatus Reg.pwrStatus_NSTATE)
    || (decide (bin ≠ 0) && (List.range 16).any fun b => decide (2 ≤ s.fld (Reg.pwrStk b) Reg.pwrStk_RNMIN))

/-- A bin requested (R502): refused, held for the end of a brake or of a relock in progress, or due at the next frame start; a
request for the bin in force changes nothing (log entry 38 DEDUCED). -/
def State.requestBin (s : State) (bin : Nat) : State :=
  if s.binRefused bin then s.powerRefuse
  else if s.fld Reg.pwrStatus Reg.pwrStatus_BRAKE = 1 ∨ s.pwr.relock.isSome then { s with pwr := { s.pwr with binWait := some bin } }
  else if bin = s.fld Reg.pwrFreq Reg.pwrFreq_BIN then s
  else { s with pwr := { s.pwr with relock := some (frameAfter (s.gc + 1), bin) } }

/-- FREQ_BIN_WRITE (R502). Log entry 38 DEDUCED. -/
def execFreqBinWrite (bin : Nat) (s : State) : Host.Outcome State Fault Refusal :=
  guarded (decide (bin < 4)) s fun s => s.requestBin bin

/-- A relock begins (R306, R502): controllers stop admitting, easel clocks stand, the refresh floors of the new bin are applied,
queued near-bank operations complete with unavailable and stacks go to self-refresh, one with such an operation running when that
has ended. Log entry 80 DEDUCED. -/
def State.relockStart (s : State) (bin : Nat) : State :=
  let s1 := (s.setFld Reg.pwrStatus Reg.pwrStatus_RELOCK 1).setFld Reg.pwrFreq Reg.pwrFreq_BIN bin
  allBays.foldl (fun u b =>
    let u1 := u.floorMap b
    if u1.bayPwr b = 0 then
      let u2 := (u1.setBayPwr b 3).nbCancel b
      if u2.stackUp b && (u2.stk b).nbRun.isNone then u2.setSelfRef b true else u2
    else u1) s1

/-- A bay runs again at the end of its relock. -/
def State.relockBay (s : State) (b : Nat) : State :=
  let s1 := s.setBayPwr b 0
  let s2 := if s1.stackUp b then s1.setSelfRef b false else s1
  { s2 with boot := { s2.boot with pll := SMap.set (fun _ => 0) s2.boot.pll b 0 } }

/-- RELOCK_DONE (R502, R505): 896 gc after F the easels run and accesses are admitted; a bay whose PLL was tried once more follows
exactly 250 gc later, by the same row. A bin asked for meanwhile starts its own relock. Log entry 80 DEDUCED. -/
def execRelockDone (s : State) : Host.Outcome State Fault Refusal :=
  .next <|
    match s.pwr.relock with
    | none => s
    | some (f, _) =>
      let mine := allBays.filter fun b => s.bayPwr b == 3
      let late := mine.filter fun b => SMap.get (fun _ => 0) s.boot.pll b != 0
      let first := decide (s.fld Reg.pwrStatus Reg.pwrStatus_RELOCK = 1)
      if !first && mine.isEmpty then s
      else
        let now := if first then mine.filter fun b => !late.contains b else mine
        let s1 := (s.passTo (96 * (f + (if first then 896 else 1146)))).setFld Reg.pwrStatus Reg.pwrStatus_RELOCK 0
        let s2 := now.foldl (fun u b => u.relockBay b) s1
        if first && !late.isEmpty then s2
        else
          let s3 : State := { s2 with pwr := { s2.pwr with relock := none, binWait := none } }
          match s.pwr.binWait with
          | some bin => s3.requestBin bin
          | none => s3

/-- PLL_LOCK_RETRY (R505): after 250 gc of a relock or a deep exit a PLL has locked, or is tried once more; a second failure
leaves its bay not ready, and a node PLL that fails causes a warm node reset. Unit 16 is the node. Log entry 80 DEDUCED. -/
def execPllLockRetry (unit : Nat) (locked : Bool) (s : State) : Host.Outcome State Fault Refusal :=
  guarded (decide (unit < 17)) s fun s =>
    let fails := SMap.get (fun _ => 0) s.boot.pll unit
    let relock := decide (s.fld Reg.pwrStatus Reg.pwrStatus_RELOCK = 1)
    let busy := if unit = 16 then relock else (relock && s.bayPwr unit == 3) || s.bayPwr unit == 2
    if locked || !busy then s
    else if fails = 0 then { s with boot := { s.boot with pll := SMap.set (fun _ => 0) s.boot.pll unit 1 } }
    else if unit = 16 then s.warmReset 7 []
    else
      let s1 := ((s.setBayPwr unit 0).setReady Reg.globalReady_BAY unit false).setFld Reg.catStatus
        ⟨Reg.catStatus_SLICEUP.lo + unit, 1⟩ 0
      let s2 : State := { s1 with boot := { s1.boot with pll := SMap.set (fun _ => 0) s1.boot.pll unit 2 } }
      (s2.setReady Reg.globalReady_CAT 0 false).cutBay unit

/-! ## Frames and temperatures (R279, R281, R295, R296, R501, R568) -/

/-- The throttle step a temperature asks for (R295). -/
def throttleStep (thresh temp k : Nat) : Nat :=
  let up := if temp < thresh then 0 else min 8 (1 + (temp - thresh) / 2)
  if k ≤ up ∨ temp + 1 < thresh + 2 * (k - 1) then up else k

/-- The slot map and throttle step of the new frame, and the floors raised since (R281, R501). -/
def State.frameStack (s : State) (b : Nat) : State :=
  let y := s.stk b
  let s1 := (s.newRefresh b y.map (y.pendMap.getD y.map)).setStk b { y with
    map := y.pendMap.getD y.map, pendMap := none, step := y.pendStep.getD y.step, pendStep := none, pendFloor := false
    windows := y.windows.filter fun w => decide (s.ec < w.2 + 96) }
  let s2 := (s1.setFld (Reg.bayStkStatus b) Reg.bayStkStatus_TSTEP (y.pendStep.getD y.step)).setFld
    (Reg.bayStkStatus b) Reg.bayStkStatus_FRAME (s.frames - s.boot.coldFrame)
  if y.pendFloor then s2.floorMap b else s2

/-- The temperature sample of a stack (R295, R296): its throttle step, its trip and the return from one. Log entry 91 DEDUCED. -/
def State.sampleStack (s : State) (b temp : Nat) : State :=
  let th := Reg.bayStkTherm b
  let y := s.stk b
  let thresh := s.fld th Reg.bayStkTherm_THRESH
  let s1 := (s.setFld th Reg.bayStkTherm_TEMP temp).setFld th Reg.bayStkTherm_MAXTEMP (max temp (s.fld th Reg.bayStkTherm_MAXTEMP))
  let k := throttleStep thresh temp y.step
  let s2 := if k = y.step then s1 else s1.updStk b fun y => { y with pendStep := some k }
  let s3 := if k ≠ y.step ∧ 0 < k then s2.setFld th Reg.bayStkTherm_THROTEV 1 else s2
  let tripped := decide (s.fld (Reg.bayStkStatus b) Reg.bayStkStatus_TRIP = 1)
  if tripped then
    if temp < thresh then
      (((s3.setFld (Reg.bayStkStatus b) Reg.bayStkStatus_TRIP 0).setSelfRef b (s.bayPwr b == 1)).setStackReady b true).quieten b
    else s3
  else if y.tripping then s3
  else if thresh + 20 ≤ temp ∧ s.stackUp b then s3.updStk b fun y => { y with tripping := true, tripAt := s.ec }
  else s3

/-- A thermal trip (R568): THERMTRIP_N, a warm node reset that is held, the enables dropped and every stack lost. -/
def State.thermTrip (s : State) : State :=
  let s1 : State := { s with pwr := { s.pwr with thermtrip := true } }
  let s2 := s1.emit (.pin "THERMTRIP_N" false)
  let s3 :=
    if s.boot.phase = 2 then s2.warmReset 10 allBays
    else
      let u := (allBays.foldl (fun u b => u.loseStack b) s2).nodeReset false 10
      { u with boot := { u.boot with warmHeld := true } }
  let s4 : State := { s3 with pwr := { s3.pwr with enCore := s.pwr.enCore, enStk := s.pwr.enStk, flEn := s.pwr.flEn } }
  s4.setEnables false false false

/-- The die sample (R566, R568). Log entry 91 DEDUCED. -/
def State.sampleDie (s : State) (die : Nat) : State :=
  if s.pwr.thermtrip then s
  else
    let warm := decide (105 ≤ die)
    let hot := if 115 ≤ die then s.pwr.dieHot + 1 else 0
    let s1 : State := { s with pwr := { s.pwr with dieWarm := warm, dieHot := hot } }
    let s2 := (if warm && !s.pwr.dieWarm then s1.powerLog 0xFF 0 else s1).showAlarm
    if 2 ≤ hot then s2.thermTrip else s2

/-- FRAME_START (R279, R281, R295, R296, R469, R501, R502, R568): the next stack frame begins at its multiple of 128 gc; changes
of map and throttle step take effect, a relock due begins, and the stacks and the die are sampled. Log entry 42 DESIGN CHOICE. -/
def execFrameStart (temps : List Nat) (die : Nat) (s : State) : Host.Outcome State Fault Refusal :=
  guarded (temps.length == 16 && temps.all (decide <| · < 256) && decide (die < 256)) s fun s =>
    if s.boot.noCrystal then s
    else
      let idx := max s.frames (ceilDiv s.ec 12288)
      let s0 := s.passTo (12288 * idx)
      let s1 : State := { s0 with frames := idx + 1 }
      if 3 ≤ s.boot.phase then s1
      else
        let s2 := (allBays.foldl (fun u b => u.frameStack b) s1).frameFirmware
        let s3 := match s.pwr.relock with
          | some (f, bin) => if f ≤ 128 * idx ∧ s.fld Reg.pwrStatus Reg.pwrStatus_RELOCK = 0 ∧ (allBays.all fun b => s.bayPwr b != 3)
              then s2.relockStart bin else s2
          | none => s2
        let s4 := temps.zipIdx.foldl (fun u t => u.sampleStack t.2 t.1) s3
        s4.sampleDie die

/-! ## Gated easels (R485, R486) -/

/-- IDLE_GATE (R485): 1 gc after it became idle an easel whose IDLEGATE bit was set then enters sleep or off. Log entry 79 DEDUCED. -/
def execIdleGate (x : Ea) (s : State) : Host.Outcome State Fault Refusal :=
  guarded x.ok s fun s =>
    let y := s.ex x
    if y.gate && decide (s.est x = stIdle) && s.idleFor x && s.quiet x && decide (x.easel < s.easelsPerBay) then
      let s1 := (s.passTo (96 * (y.idleSince + 1))).updEx x fun y => { y with gate := false }
      s1.setEst x (s1.gateState x)
    else s

/-! ## Deep bays (R487, R488) -/

/-- Whether all that keeps a bay from going deep is at rest (R487), and no wake event waits (R488). -/
def State.bayQuiet (s : State) (b : Nat) : Bool :=
  let y := s.bay b
  let k := s.stk b
  (List.range s.easelsPerBay).all (fun e =>
      (s.est ⟨b, e⟩ == stSleep || s.est ⟨b, e⟩ == stOff) && (s.ex ⟨b, e⟩).wake.isNone && (s.ex ⟨b, e⟩).copy.isNone
        && ((s.ex ⟨b, e⟩).wait.map fun w => w.got.isNone).getD true)
    && y.engine.isNone && y.engineQ.isEmpty && y.lanes.all (fun l => !l.2.run) && y.incoming.isEmpty && y.queue.isEmpty
    && k.pb.isEmpty && k.nbRun.isNone && k.nbQ.isEmpty && k.remapping.isEmpty && k.readyAt.isNone && !k.badTiming

/-- BAY_DEEP_ENTRY (R487, R490): at the first frame start after DEEPDLY gc of rest a bay goes deep and its stack into self-refresh. -/
def execBayDeepEntry (bay : Nat) (s : State) : Host.Outcome State Fault Refusal :=
  guarded (decide (bay < 16)) s fun s =>
    let w0 := Reg.pwrBay0 bay
    let asked := decide (s.fld w0 Reg.pwrBay0_DEEPEN = 1) || s.pwr.n1
    if asked && s.bayUp bay && s.bayPwr bay == 0 && s.bayQuiet bay && s.fld Reg.pwrStatus Reg.pwrStatus_RELOCK == 0 then
      let f := frameAfter (max (ceilDiv s.ec 96) ((s.bay bay).deepSince + s.fld w0 Reg.pwrBay0_DEEPDLY))
      let s1 := ((s.passTo (96 * f)).setBayPwr bay 1).setSelfRef bay true
      let all := decide (s1.fld Reg.pwrStatus Reg.pwrStatus_DEEP = 0xFFFF)
      State.showNode { s1 with pwr := { s1.pwr with widen := s1.pwr.widen && !all } }
    else s

/-- N2 is left (R491): the waking member asserts PAIR_WAKE_N 1 gc after its event. -/
def State.leaveN2 (s : State) : State :=
  if s.fld Reg.pwrStatus Reg.pwrStatus_NSTATE = 2 ∧ s.pwr.wokenAt = none then
    { s with pwr := { s.pwr with wokenAt := some (s.gc + 1) } }
  else s

/-- A gated easel that a wake of its bay names starts waking (R486, R488). -/
def State.wakeEasel (s : State) (x : Ea) : State :=
  let y := s.ex x
  if (s.est x = stSleep ∨ s.est x = stOff) ∧ y.wait.isNone ∧ y.wake.isNone ∧ !y.failed ∧ y.switching.isNone then
    s.updEx x fun y => { y with wake := some { due := s.ec + s.wakeCount x } }
  else s

/-- BAY_WAKE (R488, R491): a wake event of a deep bay, naming the easels of a mask; one before the entry cancels it; N2 is left. A
fabric message is none while MSGWAKE is clear. Log entry 92 DESIGN CHOICE. -/
def execBayWake (bay easels : Nat) (msg : Bool) (s : State) : Host.Outcome State Fault Refusal :=
  guarded (decide (bay < 16) && decide (easels < 4096)) s fun s =>
    if msg && decide (s.fld (Reg.pwrBay0 bay) Reg.pwrBay0_MSGWAKE = 0) then s
    else
    let named := fun (u : State) => ((List.range 12).filter fun e => bitOf easels e).foldl (fun v e => v.wakeEasel ⟨bay, e⟩) u
    match s.bayPwr bay with
    | 1 => (named ((s.setBayPwr bay 2).updBay bay fun y => { y with wakeAt := some s.gc, wakeEasels := easels })).leaveN2.showNode
    | 2 => named (s.updBay bay fun y => { y with wakeEasels := y.wakeEasels ||| easels })
    | _ => s.quieten bay

/-- BAY_ACTIVE (R488, R490, R505): at the first frame start at or after t + 625 gc, 250 gc more for a PLL tried again, the bay admits
accesses, and narrowed ports widen unless KEEPNARROW is set. Log entry 92 DESIGN CHOICE. -/
def execBayActive (bay : Nat) (s : State) : Host.Outcome State Fault Refusal :=
  guarded (decide (bay < 16)) s fun s =>
    match s.bayPwr bay, (s.bay bay).wakeAt with
    | 2, some t =>
      if 2 ≤ s.fld Reg.pwrStatus Reg.pwrStatus_NSTATE then s
      else
        let extra := 250 * SMap.get (fun _ => 0) s.boot.pll bay
        let f := frameAfter (max (ceilDiv s.ec 96) (t + 625 + extra))
        let s1 := ((s.passTo (96 * f)).relockBay bay).updBay bay fun y => { y with wakeAt := none, wakeEasels := 0, deepSince := f }
        let keep := decide (s.fld Reg.pwrCtrl Reg.pwrCtrl_KEEPNARROW = 1)
        State.showNode { s1 with pwr := { s1.pwr with widen := s1.pwr.widen || !keep } }
    | _, _ => s

/-! ## Node states (R489 to R493) -/

/-- PWR_N1 (R490). -/
def execPwrN1 (s : State) : Host.Outcome State Fault Refusal :=
  .next (State.showNode { s with pwr := { s.pwr with n1 := true, widen := false } })

/-- Whether flash work is queued (R491). -/
def State.flashBusy (s : State) : Bool :=
  (List.range 32).any (fun c => !(s.fch c).queue.isEmpty) || s.fld Reg.flashStatus Reg.flashStatus_FORMATTING == 1

/-- The flash channels lose their power, their maps kept (R491). -/
def State.parkFlash (s : State) : State :=
  (List.range 32).foldl (fun u c => if u.chUp c then (u.updFch c fun f => { f with parked := true }).setChUp c false else u)
    s.checkpointAll

/-- The flash channels that were parked are ready again (R491). -/
def State.unparkFlash (s : State) : State :=
  (List.range 32).foldl (fun u c =>
    if (u.fch c).parked then (u.updFch c fun f => { f with parked := false }).setChUp c true else u) s

/-- PWR_N2 (R491): both members enter N2 or neither does. Flash is checkpointed and unpowered, sleeping easels go off, ports 2 to
7 are dark, ports 0 and 1 negotiate again for lane 0 at 50 Gb/s, and the pair link is parked. Log entry 81 DEDUCED. -/
def execPwrN2 (partnerN1 : Bool) (s : State) : Host.Outcome State Fault Refusal :=
  .next <|
    let ns := s.fld Reg.pwrStatus Reg.pwrStatus_NSTATE
    if ns ≠ 1 ∨ !partnerN1 ∨ s.fld Reg.pairStatus Reg.pairStatus_UNREACH = 1 ∨ s.flashBusy then s.powerRefuse
    else
      let s1 := (s.parkFlash.setFld Reg.pwrStatus Reg.pwrStatus_NSTATE 2).setEnables s.pwr.enCore s.pwr.enStk false
      let s2 := allEasels.foldl (fun u x => if u.est x = stSleep then u.setEst x stOff else u) s1
      let s3 := (List.range 8).foldl (fun u p => if p < 2 then u.leaveUp p else u.portOff p) s2
      let s4 : State := { s3 with pwr := { s3.pwr with parked := true, wokenAt := none, pairWake := false } }
      s4.showGroups.pairShow

/-- PWR_N3 (R492): in start-up or recovery mode all but the ground domain is powered down; the flash is checkpointed, the stacks
and stores are lost and the PCI Express link goes down. Log entry 81 DEDUCED. -/
def execPwrN3 (s : State) : Host.Outcome State Fault Refusal :=
  .next <|
    let mode := s.fld Reg.fabCtrl Reg.fabCtrl_MODE
    if s.boot.phase ≠ 2 ∨ (mode ≠ 0 ∧ mode ≠ 3) then s.powerRefuse
    else
      let cause := s.fld Reg.globalReset Reg.globalReset_LASTCAUSE
      let up := s.linkUp 0 || s.linkUp 1
      let s0 := (allBays.foldl (fun u b => u.loseStack b) s.checkpointAll.allDown).nodeReset false cause
      let s1 := s0.undefine (allEasels.flatMap fun x => [(isBase x, 65536), (opBase x, opSize)])
      let s2 := if up then s1.setFld Reg.hostErr Reg.hostErr_DOWNEV 1 else s1
      let s3 := ({ s2 with boot := { s2.boot with phase := 3 } } : State).setFld Reg.pwrStatus Reg.pwrStatus_NSTATE 3
      s3.setEnables false false false

/-- PWR_WAKE (R489 to R492): power requests end; N2 is left by PAIR_WAKE_N; N3 by the power-on sequence from the point after the
ground domain starts. Log entry 81 DEDUCED. -/
def execPwrWake (s : State) : Host.Outcome State Fault Refusal :=
  .next <|
    let s1 : State := { s with pwr := { s.pwr with n1 := false, widen := false } }
    if s.boot.phase = 3 then
      let s2 := ({ s1 with boot := { s1.boot with phase := 1 } } : State).setFld Reg.pwrStatus Reg.pwrStatus_NSTATE 0
      s2.setEnables true true true
    else s1.leaveN2.showNode

/-- PORT_NARROWING (R490): the next port whose width is to change passes through negotiation, one port at a time. -/
def execPortNarrowing (port : Nat) (s : State) : Host.Outcome State Fault Refusal :=
  onPort port s fun s =>
    let want := s.pwr.n1 && !s.pwr.widen
    let keep := decide (s.fld Reg.pwrCtrl Reg.pwrCtrl_KEEPNARROW = 1)
    let due := fun p => decide (s.portSt p = 5) && (s.port p).narrow != want && (want || !keep)
    let turning := (List.range 8).any fun p => (s.port p).narrow == want && decide (2 ≤ s.portSt p ∧ s.portSt p ≤ 4)
    if due port && !turning && (List.range port).all (fun p => !due p) && decide (s.fld Reg.pwrStatus Reg.pwrStatus_NSTATE < 2) then
      (s.narrowPort port want).showNode
    else s

/-- PAIR_WAKE (R491): PAIR_WAKE_N is asserted, by this member 1 gc after its event or by the partner, and both members leave N2.
Log entry 81 DEDUCED. -/
def execPairWake (s : State) : Host.Outcome State Fault Refusal :=
  .next <|
    if s.fld Reg.pwrStatus Reg.pwrStatus_NSTATE ≠ 2 ∨ s.pwr.pairWake then s
    else
      let s1 := match s.pwr.wokenAt with
        | some t => (s.passTo (96 * t)).emit (.pin "PAIR_WAKE_N" false)
        | none => s
      let s2 : State := { s1 with pwr := { s1.pwr with pairWake := true, wokenAt := some (s.pwr.wokenAt.getD s.gc) } }
      s2.setEnables s.pwr.enCore s.pwr.enStk true

/-- N2_EXIT_DONE (R491): exactly 2,500 gc after the assertion the pair link is up, every flash channel is ready and the node is in N1.
Log entry 81 DEDUCED. -/
def execN2ExitDone (s : State) : Host.Outcome State Fault Refusal :=
  .next <|
    match s.pwr.wokenAt with
    | some t =>
      if s.pwr.pairWake ∧ s.fld Reg.pwrStatus Reg.pwrStatus_NSTATE = 2 then
        let s1 := s.passTo (96 * (t + 2500))
        let s2 : State := { s1 with pwr := { s1.pwr with parked := false, wokenAt := none, pairWake := false } }
        let s3 := (s2.emit (.pin "PAIR_WAKE_N" true)).unparkFlash.setFld Reg.pwrStatus Reg.pwrStatus_NSTATE 1
        let s4 := (List.range 8).foldl (fun u p => if p < 2 then u.leaveUp p else u.portLight p) s3
        s4.showGroups.pairShow.showNode
      else s
    | none => s

/-! ## Supply samples and dips (R494 to R497, R552 to R554) -/

/-- Crystal cycles pass. -/
def State.ticks (s : State) (n : Nat) : State :=
  if s.boot.noCrystal then s
  else
    let m := [96, 88, 80, 72].getD (s.fld Reg.pwrFreq Reg.pwrFreq_BIN) 96
    let s1 := s.passTo (s.ec + n * m)
    { s1 with xtal := s1.xtal + n }

/-- The set point of a monitored rail, in microvolts (R552, R553, R556), rails numbered as the sample numbers them.
Log entry 30 DESIGN CHOICE. -/
def State.railSet (s : State) (i : Nat) : Nat :=
  let fixed := if i = 1 then 600000 else if i = 27 then 900000 else if i = 28 then 3300000 else if i = 29 then 800000
    else if i = 30 then Config.baseVolt 17 else if i = 31 ∨ 23 ≤ i then 1800000 else if 19 ≤ i then 1050000 else 800000
  SMap.get (fun _ => fixed) s.pwr.setPoints i

/-- Whether a rail is powered and monitored now (R552, R558). -/
def State.railOn (s : State) (i : Nat) : Bool :=
  if i = 0 then false
  else if i = 31 then true
  else if i = 30 then s.pwr.flEn
  else if 19 ≤ i ∧ i ≤ 26 then s.pwr.enStk
  else s.pwr.enCore

/-- The rails of a sample below a fraction, in twentieths, of their set points. -/
def State.railsBelow (s : State) (levels : List Nat) (n : Nat) : List Nat :=
  (List.range 32).filter fun i => s.railOn i && decide (20 * levels.getD i 0 < n * s.railSet i)

/-- The unacknowledged mirrored operations move to the head of the pair link's queues (R494). -/
def State.mirrorsFirst (s : State) : State :=
  let k := s.inst 8
  let mine := fun (e : QEnt) => match e.item with
    | .own (.mirror _ _) _ => true
    | _ => false
  s.setInst 8 { k with subs := k.subs.map fun q =>
    (q.1, { q.2 with msgs := q.2.msgs.filter mine ++ q.2.msgs.filter fun e => !mine e }) }

/-- The brake applied (R494). -/
def State.brake (s : State) : State :=
  let s1 := s.setFld Reg.pwrStatus Reg.pwrStatus_BRAKE 1
  State.mirrorsFirst
    ({ s1 with pwr := { s1.pwr with braked := s1.xtal, good := 0, longDone := false } } : State).checkpointAll

/-- The brake released in the cycle after the last good sample (R494, R502). Log entry 80 DEDUCED. -/
def State.release (s : State) : State :=
  let s1 := s.tick
  let u := Reg.pwrSupply
  let s2 := (((s1.setFld Reg.pwrStatus Reg.pwrStatus_BRAKE 0).setFld u Reg.pwrSupply_WARN 0).bump u Reg.pwrSupply_DIPS).setFld
    u Reg.pwrSupply_DIPEV 1
  let s3 := (s2.setFld u Reg.pwrSupply_LASTLEN (s1.xtal - s.pwr.braked)).powerLog 0xFF 0
  let s4 := State.showAlarm { s3 with pwr := { s3.pwr with good := 0, passNow := true, binWait := none } }
  match s.pwr.binWait with
  | some bin => if s.pwr.relock.isSome then { s4 with pwr := { s4.pwr with binWait := some bin } } else s4.requestBin bin
  | none => s4

/-- Whether the brake is to be released: RECOVER samples in a row were good. -/
def State.recovered (s : State) : Bool :=
  s.fld Reg.pwrStatus Reg.pwrStatus_BRAKE == 1 && decide (max 1 (s.fld Reg.pwrDipcfg Reg.pwrDipcfg_RECOVER) ≤ s.pwr.good)

/-- The ground supply lost (R441, R554): every domain is held in reset until it returns. -/
def State.groundLost (s : State) : State :=
  let s1 := (s.nodeReset true 0).loseGround
  { s1 with boot := { s1.boot with phase := 4 } }

/-- One sample of the rails (R494, R496, R553, R554): the second in a row at a reset level resets the node; the second below a warning
level declares the warning; the brake follows in the next cycle. -/
def State.sampleRails (s : State) (levels : List Nat) : State :=
  let warn := s.railsBelow levels 19
  let reset := s.railsBelow levels 18
  let gnd := decide (levels.getD 0 0 < 700000)
  let s1 : State := { s with pwr := { s.pwr with sampled := some s.xtal, lowRails := warn, resetLow := reset, gndLow := gnd } }
  let hit := reset.filter fun i => s.pwr.resetLow.contains i
  let lost := allBays.filter fun b => hit.contains (19 + b / 4) || hit.contains (23 + b / 4)
  if gnd && s.pwr.gndLow then s1.groundLost
  else if !hit.isEmpty then s1.warmReset 6 lost
  else if s.fld Reg.pwrSupply Reg.pwrSupply_WARN = 1 then
    let s2 := if s.fld Reg.pwrStatus Reg.pwrStatus_BRAKE = 0 then s1.brake else s1
    { s2 with pwr := { s2.pwr with good := if warn.isEmpty then s2.pwr.good + 1 else 0 } }
  else if warn.any fun i => s.pwr.lowRails.contains i then (s1.setFld Reg.pwrSupply Reg.pwrSupply_WARN 1).showAlarm
  else s1

/-- SUPPLY_SAMPLE (R494 to R497, R553, R554): the sample of one crystal cycle. Log entry 91 DEDUCED. -/
def execSupplySample (rails : Rails) (s : State) : Host.Outcome State Fault Refusal :=
  guarded (rails.levels.length == 32) s fun s =>
    if s.boot.noCrystal ∨ s.boot.phase = 4 then s
    else
      let s0 := if s.recovered then s.release else s
      (if s0.pwr.sampled = some s0.xtal then s0.tick else s0).sampleRails rails.levels

/-- BRAKE_RELEASE (R494). -/
def execBrakeRelease (s : State) : Host.Outcome State Fault Refusal := .next (if s.recovered then s.release else s)

/-- LONG_BRAKE_EXPIRY (R496): LONG crystal cycles after the brake was applied. -/
def execLongBrakeExpiry (s : State) : Host.Outcome State Fault Refusal :=
  .next <|
    if s.fld Reg.pwrStatus Reg.pwrStatus_BRAKE = 1 ∧ !s.pwr.longDone then
      let s1 := s.ticks (s.pwr.braked + s.fld Reg.pwrDipcfg Reg.pwrDipcfg_LONG - s.xtal)
      let s2 : State := { s1 with pwr := { s1.pwr with longDone := true } }
      (s2.setFld Reg.pwrSupply Reg.pwrSupply_LONGEV 1).powerLog 0xFF 0
    else s

/-! ## Ageing and re-planning (R498 to R503, R506) -/

/-- A step of the margin plan taken (R500). -/
def State.planStep (s : State) (lever unit : Nat) : State :=
  let e := Reg.pwrAgeEvt
  ((((s.setFld e Reg.pwrAgeEvt_REPLANEV 1).setFld e Reg.pwrAgeEvt_LEVER lever).setFld e Reg.pwrAgeEvt_UNIT unit).bump
    e Reg.pwrAgeEvt_REPLANS).powerLog unit lever

/-- The bin lever (R500, R502): one bin slower, unless a relock is already to come or bin 3 is in force. -/
def State.binLever (s : State) (unit : Nat) : State :=
  let bin := s.fld Reg.pwrFreq Reg.pwrFreq_BIN
  if bin = 3 ∨ s.pwr.relock.isSome ∨ s.pwr.binWait.isSome then s
  else if s.binRefused (bin + 1) then s.powerRefuse
  else ((s.setFld Reg.pwrFreq Reg.pwrFreq_FLOOR (max (bin + 1) (s.fld Reg.pwrFreq Reg.pwrFreq_FLOOR))).requestBin (bin + 1)).planStep 5 unit

/-- The slack of a bay re-planned (R500, R501, R506). Log entry 82 DEDUCED. -/
def State.planSlack (s : State) (b : Nat) (slow : List Ea) : State :=
  let gb := s.fld (Reg.pwrBay1 b) Reg.pwrBay1_GB
  let stale := s.pwr.avs.any fun a => a.1 == 2 + b && decide (a.2.2 + 250 < s.gc)
  let full := decide (s.fld Reg.pwrAgeLimits Reg.pwrAgeLimits_GBMAX < gb + 5)
  if !stale && !full then
    let s1 := s.setFld (Reg.pwrBay1 b) Reg.pwrBay1_GB (gb + 5)
    (s1.avsRequest (2 + b) (s1.baySetPoint b)).planStep 1 b
  else
    let s1 := if stale then s.setFld Reg.pwrAgeEvt Reg.pwrAgeEvt_REPLANFAIL 1 else s
    if s.fld Reg.pwrCtrl Reg.pwrCtrl_FREQLOCK = 1 then if full then slow.foldl (fun u x => u.easelFails x) s1 else s1
    else s1.binLever b

/-- The scrub floor of a stack doubled (R500, R501). -/
def State.planScrub (s : State) (b : Nat) : State :=
  let sn := max (s.fld (Reg.pwrStk b) Reg.pwrStk_SNMIN) (bitsOf (s.stk b).map 24 3)
  if 4 ≤ sn then s
  else ((s.setFld (Reg.pwrStk b) Reg.pwrStk_SNMIN (sn + 1)).updStk b fun y => { y with pendFloor := true }).planStep 3 b

/-- The retention of a stack re-planned (R499 to R501): RN doubled, which restarts the test; at its limit SN doubled. -/
def State.planRetention (s : State) (b : Nat) : State :=
  let step := if s.fld Reg.pwrFreq Reg.pwrFreq_BIN = 0 then 0 else 1
  let rn := max (s.fld (Reg.pwrStk b) Reg.pwrStk_RNMIN) (bitsOf (s.stk b).map 8 2 - step)
  if rn + step < 2 then
    let s1 := (s.setFld (Reg.pwrStk b) Reg.pwrStk_RNMIN (rn + 1)).setFld (Reg.pwrStk b) Reg.pwrStk_RMARGIN 0
    (s1.updStk b fun y => { y with pendFloor := true }).planStep 2 b
  else s.planScrub b

/-- The readings of one bay's easels (R498, R500): what PWR.BAY[b] shows, easels below FAILSLACK failed at once, and the plan. -/
def State.passBay (s : State) (readings : List AgeReading) (b : Nat) : State :=
  let w1 := Reg.pwrBay1 b
  let slacks := readings.filterMap fun r => match r with
    | .slack x ps => if x.bay = b ∧ x.easel < s.easelsPerBay ∧ !(s.ex x).failed then some (x, ps) else none
    | _ => none
  let rings := readings.filterMap fun r => match r with
    | .ring x n => if x.bay = b then some n else none
    | _ => none
  let s1 := match rings with
    | [] => s
    | n :: ns => s.setFld w1 Reg.pwrBay1_RO (min (ns.foldl min n) (2 ^ 32 - 1))
  match slacks with
  | [] => s1
  | r :: rs =>
    let worst := rs.foldl (fun a q => if q.2 < a.2 then q else a) r
    let s2 := (s1.setFld w1 Reg.pwrBay1_MINSLACK (min worst.2 255)).setFld w1 Reg.pwrBay1_SLOWEASEL worst.1.easel
    let lim := Reg.pwrAgeLimits
    let fail := s.fld lim Reg.pwrAgeLimits_FAILSLACK
    let plan := s.fld lim Reg.pwrAgeLimits_PLANSLACK
    let s3 := (slacks.filter fun q => decide (q.2 < fail)).foldl (fun u q => u.easelFails q.1) s2
    if worst.2 < plan then
      s3.planSlack b ((slacks.filter fun q => decide (fail ≤ q.2 ∧ q.2 < plan)).map (·.1))
    else s3

/-- The readings of one stack (R498 to R500). -/
def State.passStack (s : State) (readings : List AgeReading) (b : Nat) : State :=
  let margins := readings.filterMap fun r => match r with
    | .retention k m => if k = b then some m else none
    | _ => none
  let corr := s.fld (Reg.bayStkEcc b) Reg.bayStkEcc_CORR
  let old := (s.stk b).passCorr
  let s1 := s.updStk b fun y => { y with passCorr := corr }
  let s2 := match margins with
    | [] => s1
    | m :: _ => s1.setFld (Reg.pwrStk b) Reg.pwrStk_RMARGIN (min m 15)
  let s3 := if s2.fld (Reg.pwrStk b) Reg.pwrStk_RMARGIN = 1 then s2.planRetention b else s2
  if old + 64 < corr then s3.planScrub b else s3

/-- The readings of one port's lit lanes (R498, R500): the bias shown, the ceiling raised, and a lane withdrawn that falls short at
100 %. -/
def State.passPort (s : State) (readings : List AgeReading) (p : Nat) : State :=
  let r0 := Reg.pwrLaser p
  let lanes := readings.filterMap fun r => match r with
    | .laser q l v ok => if q = p ∧ bitOf (s.port p).lit.1 l then some (l, v, ok) else none
    | _ => none
  match lanes with
  | [] => s
  | l :: ls =>
    let top := ls.foldl (fun a q => if a.2.1 < q.2.1 then q else a) l
    let s1 := (s.setFld r0 Reg.pwrLaser_BIAS (min top.2.1 255)).setFld r0 Reg.pwrLaser_LANE top.1
    let ceil := s.fld r0 Reg.pwrLaser_CEIL
    let s2 :=
      if ceil = 100 then
        (lanes.filter fun q => !q.2.2).foldl (fun u q =>
          u.setFld r0 Reg.pwrLaser_WITHDRAWN (u.fld r0 Reg.pwrLaser_WITHDRAWN ||| 2 ^ q.1)) s1
      else s1
    if ceil ≤ top.2.1 ∧ ceil < 100 then (s2.setFld r0 Reg.pwrLaser_CEIL (min 100 (ceil + 5))).planStep 4 p else s2

/-- Whether a reading names a unit of the node. -/
def AgeReading.ok : AgeReading → Bool
  | .slack x _ => x.ok
  | .ring x _ => x.ok
  | .laser p l _ _ => decide (p < 8) && decide (l < 8)
  | .retention b _ => decide (b < 16)

/-- AGEING_PASS (R498 to R503, R506): every PERIOD, or at once after a dip, the monitors are read, and each measurement of each
unit takes at most one step. Log entry 82 DEDUCED. -/
def execAgeingPass (readings : List AgeReading) (s : State) : Host.Outcome State Fault Refusal :=
  guarded (readings.all AgeReading.ok) s fun s =>
    if s.fld Reg.pwrAgeCtrl Reg.pwrAgeCtrl_ENABLE = 0 then s
    else
      let s0 := if s.pwr.passNow then s else s.passTo (96 * (s.pwr.passAt + s.fld Reg.pwrAgeCtrl Reg.pwrAgeCtrl_PERIOD))
      let s1 : State := { s0 with pwr := { s0.pwr with passNow := false, passAt := s0.gc } }
      let s2 := allBays.foldl (fun u b => u.passBay readings b) s1
      let s3 := allBays.foldl (fun u b => u.passStack readings b) s2
      (List.range 8).foldl (fun u p => u.passPort readings p) s3

/-- AVSBUS_ACKNOWLEDGE (R501, R553, R556): the set point asked for has settled, and the levels of its rail move with it. -/
def execAvsbusAcknowledge (rail : Nat) (s : State) : Host.Outcome State Fault Refusal :=
  guarded (decide (2 ≤ rail) && decide (rail < 19)) s fun s =>
    match s.pwr.avs.find? fun a => a.1 == rail with
    | none => s
    | some a =>
      { s with pwr := { s.pwr with avs := s.pwr.avs.filter fun q => q.1 != rail
                                   setPoints := SMap.set (fun _ => 800000) s.pwr.setPoints rail a.2.1 } }

end Sys2Proof.Machine
end

