-- ==== Sys2Proof/Machine/HostOps.lean ====
section
/-! DEFINITION. The host interface: links, register writes, command queues, management frames, the event log and BAR4 (R529 to R551). -/

namespace Sys2Proof.Machine

/-! ## Refused accesses (R535, R547) -/

/-- A host access refused: counted in BADACC, with a record in the event log (R535, R540, R547). -/
def State.badLogged (s : State) : State :=
  let s1 := (s.bump Reg.hostErr Reg.hostErr_BADACC).setFld Reg.hostErr Reg.hostErr_BADACCEV 1
  s1.log 0x12 0xFF 0xFF (s1.reg Reg.hostErr) 0

/-! ## Links (R530 to R532, R534) -/

/-- HOST.LINK.RATE of a function. -/
def linkRate (f : Nat) : Fld := if f = 0 then Reg.hostLink_RATE0 else Reg.hostLink_RATE1
/-- HOST.LINK.WIDTH of a function. -/
def linkWidth (f : Nat) : Fld := if f = 0 then Reg.hostLink_WIDTH0 else Reg.hostLink_WIDTH1

/-- Whether the node has a function now (R530). -/
def State.hasFunc (s : State) (f : Nat) : Bool := decide (f = 0) || (decide (f = 1) && s.bif)

/-- The queues of a function (R541). -/
def State.funcQueues (s : State) (f : Nat) : List Nat := (List.range 64).filter fun q => s.queueFunc q == f

/-- Entries on their way of a queue lose it: completions of entries handed on are dropped from here (R532, R542).
Log entry 87 DEDUCED. -/
def State.hqCut (s : State) (q : Nat) : State := s.setHq q { s.hq q with gen := (s.hq q).gen + 1 }

/-- Reads of queue entries that are no longer wanted. -/
def State.dropReads (s : State) (q : Nat) : State :=
  { s with host := { s.host with reads := s.host.reads.filter fun r => !(r.1.kind == 2 && r.1.arg % 64 == q) } }

/-- A failed fetch of a client record (R373): the packets that wait for it are discarded and a fabric event is raised. -/
def State.recordLost (s : State) (conn : Nat) : State :=
  let c := 4096 + conn
  let s1 : State := { s with fab := { s.fab with fetching := s.fab.fetching.filter (· != c) } }
  ((List.range 8).foldl (fun u p => u.updPort p fun y => { y with miss := y.miss.filter fun e => frConn e.1 != c }) s1).fabEvent conn

/-- The fetches of client records in progress, function 0's, end without the record (R532, R373). Log entry 57 DESIGN CHOICE. -/
def State.endFetches (s : State) : State :=
  (s.host.reads.filter fun r => r.1.kind == 1).foldl (fun u r =>
    State.recordLost { u with host := { u.host with reads := u.host.reads.filter fun q => q.1 != r.1 } } r.1.arg) s

/-- A function's link set to a rate and width (R531, R532): LOWRATE, and DOWNEV for one that goes down, whose queues drop what is
still to complete, and with function 0's the fetches of client records end. -/
def State.setLink (s : State) (f rate width : Nat) : State :=
  let l := Reg.hostLink
  let was := s.fld l (linkRate f)
  let s1 := (s.setFld l (linkRate f) rate).setFld l (linkWidth f) (if rate = 0 then 0 else width)
  let low := fun g => decide (1 ≤ s1.fld l (linkRate g) ∧ s1.fld l (linkRate g) ≤ 4)
  let s2 := s1.setFld l Reg.hostLink_LOWRATE (b2n (low 0 || low 1))
  if rate = 0 ∧ was ≠ 0 then
    let s3 := (s.funcQueues f).foldl (fun u q => u.hqCut q) (s2.setFld Reg.hostErr Reg.hostErr_DOWNEV 1)
    if f = 0 then s3.endFetches else s3
  else s2

/-- PERST_CHANGE (R532, R534): asserted, the function's link is down; deasserted, its queue registers and the apertures are as after
reset, and BAR4SIZE takes effect for it. -/
def execPerstChange (function : Nat) (asserted : Bool) (s : State) : Host.Outcome State Fault Refusal :=
  guarded (decide (function < 2)) s fun s =>
    let s1 : State := { s with host := { s.host with perst := putAt s.host.perst function asserted } }
    if !s.hasFunc function then s1
    else if asserted then s1.setLink function 0 0
    else if !(s.host.perst.getD function true) then s
    else
      let s2 := (s1.funcQueues function).foldl (fun u q =>
        let u1 := (u.dropReads q).setHq q { gen := (u.hq q).gen + 1 }
        [Reg.hqSqbase q, Reg.hqCqbase q, Reg.hqCfg q, Reg.hqStatus q].foldl (fun v o => v.setReg o (regReset o)) u1) s1
      let s3 := (List.range 64).foldl (fun u n => (u.setReg (Reg.hostAp0 n) 0).setReg (Reg.hostAp1 n) 0) s2
      let size := s.fld Reg.hostCfg Reg.hostCfg_BAR4SIZE
      let s4 : State := { s3 with host := { s3.host with bar4 := putAt s3.host.bar4 function size } }
      let wait := (List.range 2).any fun f => s4.hasFunc f && s4.host.bar4.getD f 0 != size
      s4.setFld Reg.hostCfg Reg.hostCfg_BAR4PEND (b2n wait)

/-- HOST_LINK_CHANGE (R530, R531): a link trains to a rate and width, or goes down (rate 0). -/
def execHostLinkChange (function rate width : Nat) (s : State) : Host.Outcome State Fault Refusal :=
  guarded (decide (function < 2) && decide (rate < 8) && [0, 4, 8, 16].contains width) s fun s =>
    if !s.hasFunc function || s.host.perst.getD function true || (s.bif && decide (8 < width)) || (decide (rate ≠ 0) && decide (width = 0))
        || decide (3 ≤ s.boot.phase) then s
    else s.setLink function rate width

/-! ## Register writes (R9, R12, R535 to R537) -/

/-- The bits of a register whose write is a row of its own. Log entry 86 DESIGN CHOICE. -/
def ownBits (r : RegSpec) : Nat :=
  if r.base = Reg.bayWsCtrl 0 then 0xFFFF01
  else if r.base = Reg.portCtrl 0 ∨ r.base = Reg.hqCfg 0 then 1
  else if r.base = Reg.pwrFreq then 3
  else if r.base = Reg.bayProg0 0 0 ∨ r.base = Reg.bayProg1 0 0 ∨ r.base = Reg.baySlotmap 0 ∨ r.base = Reg.bayRegion 0 0
      ∨ r.base = Reg.flashChMapbase 0 ∨ r.base = Reg.fabId then 2 ^ 64 - 1
  else 0

/-- What a register holds after a write of `v` to the bytes of `half`, by the kinds of its fields (R9); bits outside `half`,
fields that read, and fields with a row of their own stay, and so does a clear-on-one bit that is not set in `was`, the register
as the present cycle found it: it has been set in this cycle. Log entry 84 DEDUCED, 116 DEDUCED. -/
def regWrite (r : RegSpec) (was old v half : BitVec 64) : BitVec 64 :=
  let mine := half &&& ~~~BitVec.ofNat 64 (ownBits r)
  let rw := BitVec.ofNat 64 r.rw &&& mine
  ((old &&& ~~~rw) ||| (v &&& rw)) &&& ~~~(v &&& BitVec.ofNat 64 r.w1c &&& mine &&& was)

/-- Whether a register's unit (an easel, an optical port, the scheduler of one) lies outside the tier, so that it reads as zero
and a write is ignored (R3, R383, R537). -/
def State.outOfTier (s : State) (off : Nat) : Bool :=
  let r := (off - 0x100000) % 0x100000
  (decide (0x100000 ≤ off ∧ off < 0x1100000) && decide (r < 0xC0000) && decide (s.easelsPerBay ≤ r / 0x10000))
    || (decide (0x2000000 ≤ off ∧ off < 0x2200000) && decide (off % 0x40000 < 0x30000) && decide (s.nPorts ≤ (off - 0x2000000) / 0x40000))
    || (decide (0x3000000 ≤ off ∧ off < 0x3400000) && decide (s.nPorts ≤ (off - 0x3000000) / 0x80000))

/-- A field kept no lower than a limit (R187, R336, R398). -/
def State.atLeast (s : State) (off : Nat) (f : Fld) (n : Nat) : State := if s.fld off f < n then s.setFld off f n else s

/-- A bucket starts at BURST when its entry is written (R387): those of a scheduler's link, of its services and of its port's
policers, which meter the packets of this ground cycle as they were (R393). Log entry 62 DEDUCED. -/
def State.fillBuckets (s : State) (r : RegSpec) (off : Nat) (old : Word) : State :=
  let i := (off - 0x3000000) / 0x80000
  let rel := (off - 0x3000000) % 0x80000
  let k := s.inst i
  if r.base = Reg.schedPort 0 then s.setInst i { k with tok := 16 * s.fld off Reg.schedPort_BURST }
  else if r.base = Reg.schedSvc0 0 0 then
    let v := (rel - 0x100) / 16
    s.setInst i (k.setSvc v { k.svc v with tok := 16 * s.fld off Reg.schedSvc0_BURST })
  else if r.base = Reg.schedInpol0 0 0 ∨ r.base = Reg.schedInpol1 0 0 ∨ r.base = Reg.schedInpol2 0 0 then
    let j := (rel - 0x300) / 0x20
    let full : Int × Int :=
      (16 * s.fld (Reg.schedInpol1 i j) Reg.schedInpol1_CBS, 16 * s.fld (Reg.schedInpol2 i j) Reg.schedInpol2_PBS)
    let at_ := 2 * i + j
    let w0 := if r.base = Reg.schedInpol0 0 0 then old.toNat else (s.reg (Reg.schedInpol0 i j)).toNat
    let kept := SMap.get (fun _ => (0, 0, 0, 0)) s.fab.inpolOld at_
    let keep := if kept.1 = s.gc + 1 then kept else (s.gc + 1, w0, s.inTok at_)
    { s with fab := { s.fab with inpol := SMap.set (fun _ => (0, 0)) s.fab.inpol at_ full
                                 inpolOld := SMap.set (fun _ => (0, 0, 0, 0)) s.fab.inpolOld at_ keep } }
  else s

/-- What else a write of a register does where its Effect column says so: the value a limit allows, a timer that starts, a
reserved binding source, a message re-armed, a size that waits, the actions of one write of CAT.CTRL. Log entry 83 DEDUCED, 84
DEDUCED, 85 DEDUCED. -/
def State.regEffect (s : State) (old v : Word) (off : Nat) : State :=
  match regAt off with
  | none => s
  | some r =>
    let b := (off - 0x100000) / 0x100000
    let rel := (off - 0x100000) % 0x100000
    if off = Reg.hostCfg then
      let c := s.fld off Reg.hostCfg_CPLTO
      let s1 := s.setFld off Reg.hostCfg_CPLTO (min 25000000 (max 2500 c))
      let wait := (List.range 2).any fun f => s1.hasFunc f && s1.host.bar4.getD f 0 != s1.fld off Reg.hostCfg_BAR4SIZE
      s1.setFld off Reg.hostCfg_BAR4PEND (b2n wait)
    else if off = Reg.catCtrl then s.catCommand v
    else if off = Reg.globalEvcons then { s with host := { s.host with evOut := false } }
    else if off = Reg.flashCfg then
      ({ s with flashAll := { s.flashAll with next := (s.reg off).toNat } } : State).setReg off old
    else if r.base = Reg.bayTimer 0 0 then
      let k := (rel - (Reg.bayTimer 0 0 - 0x100000)) / 8
      if s.fld off Reg.bayTimer_ENABLE = 1 ∧ bf old Reg.bayTimer_ENABLE.lo 1 = 0 then
        s.updBay b fun y => { y with timerStart := SMap.set (fun _ => 0) y.timerStart k s.gc }
      else s
    else if r.base = Reg.bayBind0 0 0 then
      let src := s.fld off Reg.bayBind0_SOURCE
      if src ≤ 0x44 ∨ (0x48 ≤ src ∧ src ≤ 0x50) then s else s.setFld off Reg.bayBind0_ENABLE 0
    else if r.base = Reg.bayDispErr 0 then
      if s.fld off Reg.bayDispErr_DOUBLE = 0 then s.updBay b fun y => { y with blocked := [] } else s
    else if r.base = Reg.bayHeatCtrl 0 then s.atLeast off Reg.bayHeatCtrl_HALFLIFE 2048
    else if r.base = Reg.schedSvc1 0 0 then (s.atLeast off Reg.schedSvc1_WEIGHT 1).atLeast off Reg.schedSvc1_QLIM 1
    else if off = Reg.sampleCtrl then s.atLeast off Reg.sampleCtrl_INTERVAL 128
    else if r.base = Reg.tier2Ext0 0 then if s.fld off Reg.tier2Ext0_VALID = 1 then s.setFld off Reg.tier2Ext0_GONE 0 else s
    else if off = Reg.pairCtrl then s.pairShow
    else if r.base = Reg.hostAp0 0 ∨ r.base = Reg.hostAp1 0 then
      let n := (off - Reg.hostAp0 0) / 16
      if s.fld (Reg.hostAp0 n) Reg.hostAp0_KIND = 1 ∧ 2 ≤ locTier (s.fld (Reg.hostAp1 n) Reg.hostAp1_BASE % 2 ^ 48) then
        s.setFld Reg.hostErr Reg.hostErr_BADACCEV 1
      else s
    else s.fillBuckets r off old

/-- A write to a register, which for FLASH.CFG changes its half of the value last written (R337, R535): GLOBAL.EVBASE and
EVCTRL.LOG keep their values while ENABLE is set (R551). Log entry 14 DESIGN CHOICE. -/
def State.writeReg (s : State) (off : Nat) (v half : Word) : State :=
  match regAt off with
  | none => s
  | some r =>
    let old := s.reg off
    let on := decide (s.fld Reg.globalEvctrl Reg.globalEvctrl_ENABLE = 1)
    let base := if off = Reg.flashCfg then BitVec.ofNat 64 s.flashAll.next else old
    let new := regWrite r (SMap.get regReset s.was off) base v half
    let new := if on && off == Reg.globalEvctrl then (new &&& ~~~(0x1F0 : Word)) ||| (old &&& 0x1F0) else new
    if (on && off == Reg.globalEvbase) || s.outOfTier off then s
    else (s.setReg off new).regEffect old (v &&& half) off

/-- The bytes of a write, merged into the memory of the host interface from address `a` on. -/
def State.writeBytes (s : State) (a size : Nat) (v : Word) : State := s.setBytes a (natBytes size v.toNat)

/-- A write to the MSI-X table of a function (R545): unmasking a vector sends its pending message. The mask bit is kept inverted (log
entry 5). Log entry 5 PRESUMED. -/
def State.writeMsix (s : State) (f rel size : Nat) (v : Word) : State :=
  let w := if rel % 16 + size ≤ 12 then v else v ^^^ (if rel % 16 = 8 then 0x100000000 else 1)
  let s1 := s.writeBytes (msixBase f + rel) size w
  let n := rel / 16
  if s1.host.pba.contains (f, n) && !s1.msixMasked f n then
    State.emit { s1 with host := { s1.host with pba := s1.host.pba.filter (· != (f, n)) } } (.msix f n)
  else s1

/-- The offset a function's BAR2 queue register has in the map: function 1 of a bifurcated link sees queues 32 to 63 as 0 to 31
(R541); none for a queue that is not the function's. Log entry 14 DESIGN CHOICE. -/
def State.bar2Offset (s : State) (path : RegPath) (off : Nat) : Option Nat :=
  if off < 0x4000000 ∨ !s.bif then some off
  else
    match path with
    | .bar0 f =>
      let rel := off - 0x4000000
      let step := if rel < 0x1000 then 0x40 else 0x10
      let q := (rel % 0x1000) / step
      if 32 ≤ q then none else some (if f = 1 then off + 32 * step else off)
    | _ => some off

/-- Whether a write by its path can arrive: the function's link is up; the node is not in N3. -/
def State.pathOk (s : State) (path : RegPath) : Bool :=
  match path with
  | .bar0 f => s.hasFunc f && !(s.host.perst.getD f true) && s.fld Reg.hostLink (linkRate f) != 0
  | _ => decide (s.boot.phase < 3)

/-- The function whose MSI-X table a path reaches. -/
def pathFunc : RegPath → Option Nat
  | .bar0 f => some f
  | _ => none

/-- The mailbox channel that belongs to a path (R443). -/
def pathChannel : RegPath → Option Nat
  | .bar0 _ => some 0
  | .i3c => some 1
  | .easel => none

/-- REGISTER_WRITE (R9, R12, R443, R535 to R537, R551): fields without a row of their own are stored or cleared by their kind; a
BAR0 write of another size or alignment is discarded and counted. Log entry 86 DESIGN CHOICE. -/
def execRegisterWrite (path : RegPath) (offset size : Nat) (value : BitVec 64) (s : State) :
    Host.Outcome State Fault Refusal :=
  guarded (decide (offset < 0x4010000) && (match path with | .bar0 f => decide (f < 2) | _ => true)) s fun s =>
    if !s.pathOk path then s
    else if (size ≠ 4 ∧ size ≠ 8) ∨ offset % size ≠ 0 then (match path with | .bar0 _ => s.badLogged | _ => s)
    else if 0x8000 ≤ offset ∧ offset < 0x8800 then
      match (pathFunc path) with
      | some f => s.writeMsix f (offset - 0x8000) size value
      | none => s
    else if 0x3800000 ≤ offset ∧ offset < 0x3804000 then
      let c := (offset - 0x3800000) / 0x2000
      let rel := (offset - 0x3800000) % 0x2000
      if (pathChannel path) ≠ some c then s
      else if 0x1000 ≤ rel then s.writeBytes (mbxBase c + (rel - 0x1000)) size value
      else
        let low := if size = 8 then value else BitVec.ofNat 64 (value.toNat % 2 ^ 32 * 2 ^ (8 * (offset % 8)))
        s.writeReg (offset - offset % 8) low (if size = 8 then BitVec.allOnes 64 else BitVec.ofNat 64 ((2 ^ 32 - 1) * 2 ^ (8 * (offset % 8))))
    else
      match s.bar2Offset path offset with
      | none => s
      | some off =>
        let v := if size = 8 then value else BitVec.ofNat 64 (value.toNat % 2 ^ 32 * 2 ^ (8 * (off % 8)))
        s.writeReg (off - off % 8) v (if size = 8 then BitVec.allOnes 64 else BitVec.ofNat 64 ((2 ^ 32 - 1) * 2 ^ (8 * (off % 8))))

/-! ## Register reads (R3, R12, R187, R248, R443, R462, R535, R537) -/

/-- Whether a register is a profiling counter that reads zero in confidential mode (R187, R248, R462). -/
def profiling (r : RegSpec) : Bool :=
  [Reg.bayCmpRawin 0, Reg.bayCmpStoredout 0, Reg.baySpsRead 0, Reg.baySpsSkip 0, Reg.baySpsForced 0, Reg.baySpsSkdmg 0].contains r.base

/-- What a read of a register shows: zero where no block has it, outside the tier, and for a profiling counter in confidential
mode. -/
def State.regView (s : State) (off : Nat) : Word :=
  match regAt off with
  | none => 0
  | some r =>
    if s.outOfTier off then 0
    else if s.conf && profiling r then
      if r.base = Reg.baySpsSkdmg 0 then s.reg off &&& 0x100000000 else 0
    else s.reg off

/-- The pending-bit array of a function as one number (R545). -/
def State.pbaBits (s : State) (f : Nat) : Nat := (s.host.pba.filter (·.1 == f)).foldl (fun n e => n ||| 2 ^ e.2) 0

/-- The bytes of the MSI-X table of a function from `rel` on, the mask bits as the host reads them (log entry 5 PRESUMED). -/
def State.msixView (s : State) (f rel size : Nat) : List Byte :=
  (List.range size).map fun i =>
    let b := s.byte (msixBase f + rel + i)
    if (rel + i) % 16 = 12 then b ^^^ 1 else b

/-- What a read of the register map by a path answers: none is a Completer Abort (R535), another requester's mailbox channel reads
as zero (R443). The table of commands has no row for such a read, and none changes a register (R9); this says what each shows. Log
entry 86 DESIGN CHOICE. -/
def State.regRead (s : State) (path : RegPath) (off size : Nat) : Option (BitVec 64) :=
  let half := fun (o : Nat) (w : Word) => if size = 8 then w else (w >>> (8 * (o % 8))) &&& 0xFFFFFFFF
  if (size ≠ 4 ∧ size ≠ 8) ∨ off % size ≠ 0 then none
  else if 0x8000 ≤ off ∧ off < 0x8800 then
    some ((pathFunc path).elim 0 fun f => BitVec.ofNat 64 (bytesNat (s.msixView f (off - 0x8000) size)))
  else if 0x9000 ≤ off ∧ off < 0x9800 then
    some ((pathFunc path).elim 0 fun f => BitVec.ofNat 64 (s.pbaBits f / 2 ^ (8 * (off - 0x9000)) % 2 ^ (8 * size)))
  else if 0x3800000 ≤ off ∧ off < 0x3804000 then
    let c := (off - 0x3800000) / 0x2000
    let rel := (off - 0x3800000) % 0x2000
    if (pathChannel path) ≠ some c then some 0
    else if 0x1000 ≤ rel then some (BitVec.ofNat 64 (bytesNat (s.bytes (mbxBase c + (rel - 0x1000)) size)))
    else some (half off (s.regView (off - off % 8)))
  else
    match s.bar2Offset path off with
    | none => some 0
    | some o => some (half o (s.regView (o - o % 8)))

/-! ## Command queues (R541 to R545, R550) -/

/-- HQ_CFG_ENABLE (R542). -/
def execHqCfgEnable (queue : Nat) (enable : Bool) (s : State) : Host.Outcome State Fault Refusal :=
  guarded (decide (queue < 64)) s fun s =>
    let cfg := Reg.hqCfg queue
    let st := Reg.hqStatus queue
    let on := decide (s.fld cfg Reg.hqCfg_ENABLE = 1)
    let f := s.queueFunc queue
    if on = enable then s
    else if !enable then
      ((s.setFld cfg Reg.hqCfg_ENABLE 0).dropReads queue).setHq queue { gen := (s.hq queue).gen + 1 }
    else
      let log := fun n => decide (n < 4) || decide (15 < n)
      let rate := s.fld Reg.hostLink (linkRate f)
      let bad := log (s.fld cfg Reg.hqCfg_SQLOG) || log (s.fld cfg Reg.hqCfg_CQLOG) || decide (s.fld cfg Reg.hqCfg_VECTOR < 2)
        || decide (1 ≤ rate ∧ rate ≤ 4)
      let s1 := s.setFld cfg Reg.hqCfg_ENABLE 1
      if bad then s1.hqStop queue 3
      else
        (s1.setReg st (BitVec.ofNat 64 (2 ^ Reg.hqStatus_PHASE.lo))).setHq queue { gen := (s.hq queue).gen }

/-- Whether doorbell writes of a queue are taken (R531, R542). -/
def State.hqTaken (s : State) (q : Nat) : Bool := s.hqRuns q

/-- HQ_SQTAIL (R543): entries below TAIL are ready; a value past the ring, or one that passes SQHEAD, stops the queue with ERR 1. -/
def execHqSqtail (queue tail : Nat) (s : State) : Host.Outcome State Fault Refusal :=
  guarded (decide (queue < 64) && decide (tail < 65536)) s fun s =>
    if !s.hqTaken queue then s
    else
      let n := s.sqSize queue
      let head := s.fld (Reg.hqStatus queue) Reg.hqStatus_SQHEAD
      let old := (s.hq queue).tail
      let ready := (old + n - head % n) % n
      let more := (tail + n - old % n) % n
      if n ≤ tail ∨ n - 1 < ready + more then (s.dropReads queue).hqStop queue 1
      else s.setHq queue { s.hq queue with tail }

/-- HQ_CQHEAD (R543, R545): completions below HEAD are consumed; the queue's next completion sends a message again. -/
def execHqCqhead (queue head : Nat) (s : State) : Host.Outcome State Fault Refusal :=
  guarded (decide (queue < 64) && decide (head < 65536)) s fun s =>
    if !s.hqTaken queue then s
    else (s.setHq queue { s.hq queue with head, msgOut := false }).hqHand queue

/-- Whether the next entry of a queue can be fetched (R543). -/
def State.canFetch (s : State) (q : Nat) : Bool :=
  s.hqRuns q && decide (s.fld (Reg.hqStatus q) Reg.hqStatus_SQHEAD ≠ (s.hq q).tail) && decide ((s.hq q).buf.length < 16)
    && decide (1 ≤ s.hqRoom q)

/-- The queue a function fetches from next, in turn by queue number. -/
def State.nextFetch (s : State) (f : Nat) : Option Nat :=
  ((List.range 64).map fun i => (s.host.turn.getD f 63 + 1 + i) % 64).find? fun q => s.queueFunc q == f && s.canFetch q

/-- QUEUE_FETCH (R543): in its turn, a queue's next entry is read from its submission ring into its fetch buffer. -/
def execQueueFetch (queue : Nat) (s : State) : Host.Outcome State Fault Refusal :=
  guarded (decide (queue < 64)) s fun s =>
    let f := s.queueFunc queue
    if s.nextFetch f = some queue then
      let st := Reg.hqStatus queue
      let idx := s.fld st Reg.hqStatus_SQHEAD
      let rd : HostRead := ⟨2, queue + 64 * idx⟩
      let s1 := (s.setFld st Reg.hqStatus_SQHEAD ((idx + 1) % s.sqSize queue)).setHq queue
        { s.hq queue with buf := (s.hq queue).buf ++ [[]] }
      State.emit { s1 with host := { s1.host with reads := s1.host.reads ++ [(rd, s.ec)], turn := putAt s1.host.turn f queue } }
        (.hostRead f (s.fld (Reg.hqSqbase queue) Reg.hqSqbase_HBASE * 4096 + 64 * idx) 64 rd)
    else s

/-- An entry that has been read takes its place in the fetch buffer. -/
def State.entryRead (s : State) (rd : HostRead) (data : List Byte) : State :=
  let q := rd.arg % 64
  let n := s.sqSize q
  let y := s.hq q
  let back := (s.fld (Reg.hqStatus q) Reg.hqStatus_SQHEAD + n - rd.arg / 64 % n) % n
  let p := y.buf.length - (if back = 0 then n else back)
  let e := (List.range 8).map fun i => BitVec.ofNat 64 (leAt data (8 * i) 8)
  let s1 : State := { s with host := { s.host with reads := s.host.reads.filter fun r => r.1 != rd } }
  (s1.setHq q { y with buf := putAt y.buf p e }).hqHand q

/-! ## Management frames (R376, R544) -/

/-- Whether a port is UP in Ethernet framing. -/
def State.portEther (s : State) (p : Nat) : Bool :=
  decide (s.portSt p = 5) && decide (s.fld (Reg.portNeg p) Reg.portNeg_MODEFRAMING = 1)

/-- PORT of a management entry. -/
def mgPort (e : List Word) : Nat := bitsOf (entWord e 0) 0 3
/-- LEN. -/
def mgLen (e : List Word) : Nat := bitsOf (entWord e 0) 3 14
/-- TAG. -/
def mgTag (e : List Word) : Nat := bitsOf (entWord e 0) 32 32

/-- MGMT_TRANSMIT (R4, R384, R544): the frame is read from the host; HOST_READ_COMPLETION sends it. A port outside the tier is
unavailable, with a licence event. -/
def execMgmtTransmit (queue : Nat) (s : State) : Host.Outcome State Fault Refusal :=
  guarded (decide (queue < 64)) s fun s =>
    match s.hqTake queue 2 with
    | none => s
    | some (k, e) =>
      let s1 := s.hqPop queue
      if mgLen e < 60 ∨ 9212 < mgLen e then s1.hostPost k (mgTag e) cShape 0 0 0 (mgPort e)
      else if s1.nPorts ≤ mgPort e then (s1.logLic 0xFF 0x02 (mgPort e)).hostPost k (mgTag e) cUnavailable 0 0 0 (mgPort e)
      else if !s1.portEther (mgPort e) then s1.hostPost k (mgTag e) cUnavailable 0 0 0 (mgPort e)
      else s1.hqRead 4 (entWord e 1) (mgLen e) k e

/-- A frame in Ethernet framing handed to a port: it leaves, or comes back over the near-end loop (R377). Log entry 102 DESIGN
CHOICE. -/
def State.putEther (s : State) (p : Nat) (data : List Byte) : State :=
  if s.fld (Reg.portTest p) Reg.portTest_LOOP = 1 then s.updPort p fun y => { y with looped := y.looped ++ [⟨[], data⟩] }
  else s.emit (.ether p data)

/-- The frame of a transmit entry has come: it leaves with its FCS appended. -/
def State.sendMgmt (s : State) (k : Nat) (e : List Word) (data : List Byte) : State :=
  if s.portEther (mgPort e) then (s.putEther (mgPort e) data).hostPost k (mgTag e) cDone 0 0 0 (mgPort e)
  else s.hostPost k (mgTag e) cUnavailable 0 0 0 (mgPort e)

/-- MGMT_RECEIVE_POST (R544). -/
def execMgmtReceivePost (queue : Nat) (s : State) : Host.Outcome State Fault Refusal :=
  guarded (decide (queue < 64)) s fun s =>
    match s.hqTake queue 3 with
    | none => s
    | some (k, e) =>
      let s1 := s.hqPop queue
      s1.setHq queue { s1.hq queue with rx := (s1.hq queue).rx ++ [(k, entWord e 1, mgLen e, mgTag e)] }

/-- MGMT_FRAME_RECEIVE (R345, R384, R544): a good frame of 64 to 9,216 bytes, its FCS removed, is to fill the oldest buffer of the
lowest-numbered enabled receive queue that holds one, and waits for the grant of PCI Express egress; one of any other length is no
frame of the MAC. Log entry 87 DEDUCED. Log entry 102 DESIGN CHOICE. -/
def execMgmtFrameReceive (port : Nat) (frame : List (BitVec 8)) (s : State) : Host.Outcome State Fault Refusal :=
  onPort port s fun s =>
    let loop := s.fld (Reg.portTest port) Reg.portTest_LOOP
    if !s.portEther port || (decide (loop = 1) && !(s.port port).looped.contains ⟨[], frame⟩) then s
    else if loop = 2 then s.emit (.ether port frame)
    else if frame.length < 60 ∨ 9212 < frame.length then s
    else
      let s := s.updPort port fun y => { y with looped := y.looped.erase ⟨[], frame⟩ }
      let q := lowestIdx 64 fun q => s.hqRuns q && decide (s.fld (Reg.hqCfg q) Reg.hqCfg_TYPE = 3) && !(s.hq q).rx.isEmpty
      match q with
      | none => s.bump Reg.hostErr Reg.hostErr_RXDROP
      | some q =>
        match (s.hq q).rx with
        | (k, addr, len, tag) :: rest =>
          if len < frame.length then s.bump Reg.hostErr Reg.hostErr_RXDROP
          else
            (s.setHq q { s.hq q with rx := rest }).enqueue 9 port
              { item := .mgmt (s.queueFunc q) addr frame k tag port, svc := 3, entered := s.gc }
        | [] => s

/-! ## Reads that end (R341, R373, R533) -/

/-- A bus-master read that has failed, and what R533 says becomes of it. Log entry 57 DESIGN CHOICE. -/
def State.readFailed (s : State) (read : HostRead) : State :=
  let s1 := (s.bump Reg.hostErr Reg.hostErr_CPLTO).setFld Reg.hostErr Reg.hostErr_CPLTOEV 1
  let s2 : State := { s1 with host := { s1.host with reads := s1.host.reads.filter fun r => r.1 != read } }
  match read.kind with
  | 0 => { s2 with host := { s2.host with t2Failed := s2.host.t2Failed ++ [read.arg] } }
  | 1 => s2.recordLost read.arg
  | 2 => (s2.dropReads (read.arg % 64)).hqStop (read.arg % 64) 2
  | _ =>
    match s2.hqReadOver read with
    | (some (k, e), s3) => s3.hostPost k (leTag e) cUnavailable 0 0 0 (if read.kind = 4 then mgPort e else 0)
    | (none, s3) => s3

/-- HOST_READ_COMPLETION (R533): a completion without data is one with Unsupported Request or Completer Abort status, and the read
has failed. Else the bytes of a queue entry, a lease line or a management frame arrive; or those of a T2 stroke, which fails its
check unless they are the 520 the node wrote there (R323). A client record has its own row. Log entry 57 DESIGN CHOICE. -/
def execHostReadCompletion (read : HostRead) (data : List (BitVec 8)) (s : State) : Host.Outcome State Fault Refusal :=
  .next <|
    if data.isEmpty then if s.host.reads.any fun r => r.1 == read then s.readFailed read else s
    else if read.kind = 0 then
      let g := t2Base / 512 + read.arg
      if !s.host.reads.any (fun r => r.1 == read) || data.length != 520 then s
      else
        let s1 : State := { s with host := { s.host with reads := s.host.reads.filter fun r => r.1 != read } }
        if s.wire g = data then s1 else (s1.setBytes (512 * g) (data.take 512)).setStamp g .none
    else if !s.host.reads.any (fun r => r.1 == read) then s
    else
      match read.kind with
      | 2 => if data.length = 64 then s.entryRead read data else s
      | 3 =>
        if data.length = 64 then
          match s.hqReadOver read with
          | (some (k, e), s1) => s1.leWriteDone k e data
          | (none, s1) => s1
        else s
      | 4 =>
        match s.hqReadOver read with
        | (some (k, e), s1) => if data.length = mgLen e then s1.sendMgmt k e data else s
        | (none, s1) => s1
      | _ => s

/-- CPLTO_EXPIRY (R341, R373, R533, R541): CPLTO gc after its issue a bus-master read has failed. Log entry 57 DESIGN CHOICE. -/
def execCpltoExpiry (read : HostRead) (s : State) : Host.Outcome State Fault Refusal :=
  .next <|
    match s.host.reads.find? fun r => r.1 == read with
    | none => s
    | some (_, at_) => (s.passTo (at_ + 96 * s.fld Reg.hostCfg Reg.hostCfg_CPLTO)).readFailed read

/-! ## The event log (R540, R545) -/

/-- EVENT_RECORD_PLACE (R540, R545): the oldest record of the on-die buffer is placed in the host ring while the log is enabled, its
function's link is up and the ring has room. Log entry 84 DEDUCED. -/
def execEventRecordPlace (s : State) : Host.Outcome State Fault Refusal :=
  .next <|
    let c := Reg.globalEvctrl
    let f := s.fld c Reg.globalEvctrl_FUNC
    let prod := s.fld Reg.globalEvprod Reg.globalEvprod_INDEX
    let cons := s.fld Reg.globalEvcons Reg.globalEvcons_INDEX
    let n := 2 ^ s.fld c Reg.globalEvctrl_LOG
    match s.host.evBuf with
    | [] => s
    | r :: rs =>
      if s.fld c Reg.globalEvctrl_ENABLE = 1 ∧ s.hasFunc f ∧ s.linkUp f ∧ (prod + 2 ^ 32 - cons) % 2 ^ 32 < n then
        let addr := s.fld Reg.globalEvbase Reg.globalEvbase_HBASE * 4096 + 32 * (prod % n)
        let s1 := State.emit { s with host := { s.host with evBuf := rs, evOut := true } }
          (.hostWrite f addr (r.flatMap fun w => natBytes 8 w.toNat))
        let s2 := (s1.setFld Reg.globalEvprod Reg.globalEvprod_INDEX (prod + 1)).setFld Reg.globalEverr Reg.globalEverr_DEPTH rs.length
        if s.host.evOut then s2 else s2.msix f 0
      else s

/-! ## BAR4 (R462, R546 to R548) -/

/-- Bytes of one aperture of a function's BAR4 in force: 1, 4 or 16 GiB (R546). -/
def State.apSize (s : State) (f : Nat) : Nat := 2 ^ (28 + 2 * s.host.bar4.getD f 0)

/-- The record and byte a location names in the portfolio table. -/
def recordAt (l i : Nat) : Nat := (locAddr l + i - pfTop) * 16 + locBay l

/-- Bytes of a portfolio record as a function reads them: the lines it holds a lease on show their staging copy (R548). -/
def State.stagedView (s : State) (f n : Nat) (lo : Nat) (bs : List Byte) : List Byte :=
  bs.mapIdx fun j b =>
    let a := lo + j
    match s.leases.find? fun l => l.pf == n && l.holder == f && decide (0x180 + 64 * l.line ≤ a ∧ a < 0x1C0 + 64 * l.line) with
    | some l => l.staging.getD (a - 0x180 - 64 * l.line) 0
    | none => b

/-- Whether an access to `n` strokes by location waits: its bay admits none until it is awake (R488), or a near-bank operation
that has still to start is to use a stroke written (R302). -/
def State.locWaits (s : State) (l n : Nat) (write : Bool) : Bool :=
  s.locUp l && (!s.admits (locBay l) || (write && s.nbQueued (locMem l / 512) n))

/-- A read through a location aperture: the bytes, or none where it is refused. -/
def State.apRead (s : State) (f l bo len : Nat) : Option (List Byte) × State :=
  let sg := segs bo len
  if !s.locOk l sg.length || !s.locReads l s.ec then (none, s)
  else
    let (bs, s1) := s.readLoc l sg
    match bs.mapM id with
    | none => (none, s1)
    | some parts =>
      let seen := (sg.zip parts).map fun (e, b) =>
        if locTier l = 1 ∧ pfTop ≤ locAddr l + e.1 then s1.stagedView f (recordAt l e.1) e.2.1 b else b
      (some seen.flatten, s1)

/-- The pieces of an access by handle from byte `x` of a run of sheets on: (sheet of the run, stroke, first byte in it, bytes). -/
def handlePieces (cls x len : Nat) : List (Nat × Nat × Nat × Nat) :=
  (List.range (ceilDiv (x % 512 + len) 512)).map fun i =>
    let a := if i = 0 then x else 512 * (x / 512 + i)
    let n := min (512 - a % 512) (x + len - a)
    (a / cls, a % cls / 512, a % 512, n)

/-- Whether an access by handle waits, as one by location does. -/
def State.handleWaits (s : State) (n idx cls x len : Nat) (write : Bool) : Bool :=
  let p := s.pf n
  s.pfCode n p == cDone && ((s.bayUp p.home && !s.admits p.home) || (handlePieces cls x len).any fun q =>
    let e := s.listEntry p (idx + q.1)
    decide (idx + q.1 < p.count) && !seUnwritten e
      && (s.locWaits (seLoc e) 0 write || (write && s.nbQueued (sheetStroke e q.2.1) 1)))

/-- One stroke of a read by handle (R61, R130, R291, R547). -/
def State.apStroke (s : State) (n idx : Nat) (part : PartnerCopies) (q : Nat × Nat × Nat × Nat) : Option (List Byte) × State :=
  let p := s.pf n
  let i := idx + q.1
  let e := s.listEntry p i
  let cut := fun (bs : List Byte) => (bs.drop q.2.2.1).take q.2.2.2
  if p.count ≤ i then (none, s)
  else if seUnwritten e ∨ seSlen e + p.ns ≤ q.2.1 then (some (List.replicate q.2.2.2 0), s)
  else if 2 ≤ locTier (seLoc e) ∨ !s.locReads (seLoc e) s.ec ∨ s.inRegion e q.2.1 then (none, s)
  else
    match s.readSheet p e q.2.1 (partOf part q.1) with
    | (some bs, s1) => (some (cut bs), s1)
    | (none, s1) =>
      (none, if q.2.1 < seSlen e then s1.markDamaged n p i e 0 else if s1.partnerAway then s1.logDamage n p i 1 else s1)

/-- Whether a portfolio's data stay hidden from the host (R462). Log entry 83 DEDUCED. -/
def State.hidden (s : State) (n : Nat) : Bool := s.conf && decide ((s.pf n).owner ≠ 0)

/-- A read through a handle aperture. -/
def State.apReadH (s : State) (n idx x len : Nat) (part : PartnerCopies) : Option (List Byte) × State :=
  let p := s.pf n
  if s.pfCode n p ≠ cDone ∨ !s.stackReads p.home s.ec then (none, s)
  else if s.hidden n then (some (List.replicate len 0xFF), s)
  else
    (handlePieces p.classBytes x len).foldl (fun (acc : Option (List Byte) × State) q =>
      match acc with
      | (none, u) => (none, u)
      | (some bs, u) =>
        let (b, v) := u.apStroke n idx part q
        (b.map (bs ++ ·), v)) (some [], s)

/-- The location byte `x` of an aperture reaches, with the byte in its stroke. -/
def apLoc (base x : Nat) : Nat × Nat :=
  let l := base % 2 ^ 48
  (l + x / 512, x % 512)

/-- BAR4_READ (R531, R546 to R548): the data, all ones, zeros or Completer Abort. A read of a deep bay waits: the same row after
the bay is active answers it (R488). Log entry 83 DEDUCED. -/
def execBar4Read (function offset len : Nat) (partner : PartnerCopies) (s : State) : Host.Outcome State Fault Refusal :=
  guarded (decide (function < 2) && decide (1 ≤ len) && decide (len ≤ 4096)) s fun s =>
    let f := function
    if !s.pathOk (.bar0 f) || decide (s.host.bar4.getD f 0 = 0) || decide (64 * s.apSize f < offset + len) then s
    else if !s.linkUp f then s.emit (.bar4Data f none)
    else
      let n := offset / s.apSize f
      let x := offset % s.apSize f
      let base := s.fld (Reg.hostAp1 n) Reg.hostAp1_BASE
      let pf := bitsOf base 0 18
      let idx := bitsOf base 18 32
      let kind := s.fld (Reg.hostAp0 n) Reg.hostAp0_KIND
      let (l, bo) := apLoc base x
      let loc := decide (kind = 1) && decide (locTier base < 2) && decide (locTier l = locTier base ∧ locBay l = locBay base)
      if loc && s.locWaits l (segs bo len).length false then s
      else if kind = 2 ∧ s.handleWaits pf idx (s.pf pf).classBytes x len false then s
      else
        let (r, s1) := if loc then s.apRead f l bo len else if kind = 2 then s.apReadH pf idx x len partner else (none, s)
        (if r.isSome then s1 else s1.badLogged).emit (.bar4Data f r)

/-- The lines of a record that bytes from `lo` on lie in, where a function holds leases on all of them (R548). -/
def State.heldLines (s : State) (f n lo len : Nat) : Option (List LeaseX) :=
  if 0x180 ≤ lo ∧ lo + len ≤ 0x200 ∧ 1 ≤ len then
    ((List.range 2).filter fun k => decide (lo < 0x1C0 + 64 * k ∧ 0x180 + 64 * k < lo + len)).mapM fun k =>
      (s.leaseOn n k).filter fun l => l.holder == f
  else none

/-- Bytes written into the staging copies of a record's lines. -/
def State.stageBytes (s : State) (ls : List LeaseX) (lo : Nat) (bs : List Byte) : State :=
  ls.foldl (fun u l =>
    u.setStaging l.pf l.line (l.staging.mapIdx fun j b =>
      let a := 0x180 + 64 * l.line + j
      if lo ≤ a ∧ a < lo + bs.length then bs.getD (a - lo) 0 else b)) s

/-- A write through a location aperture (R287, R547, R548): true where it was accepted. -/
def State.apWrite (s : State) (f l bo : Nat) (bs : List Byte) (part : PartnerCopies) : Bool × State :=
  let n := (segs bo bs.length).length
  if !s.locOk l n then (false, s)
  else if locTier l = 1 ∧ pfTop < locAddr l + n then
    if n = 1 ∧ pfTop ≤ locAddr l then
      match s.heldLines f (recordAt l 0) bo bs.length with
      | some ls => (true, s.stageBytes ls bo bs)
      | none => (false, s)
    else (false, s)
  else if locTier l == 1 && (List.range n).any (fun i => s.inFlashMap (locBay l) (locAddr l + i)) then (false, s)
  else
    let (c, s1) := s.storeLoc none l bo bs part
    (decide (c = cDone), s1)

/-- A write through a handle aperture (R130, R287, R547): every stroke as ST.H, a part stroke read, merged and written. -/
def State.apWriteH (s : State) (n idx x : Nat) (bs : List Byte) (part : PartnerCopies) : Bool × State :=
  let p := s.pf n
  if s.pfCode n p ≠ cDone ∨ !s.stackUp p.home ∨ s.hidden n then (false, s)
  else
    let (ok, _, s1) := (handlePieces p.classBytes x bs.length).foldl (fun (acc : Bool × List Byte × State) q =>
      let (ok, rest, u) := acc
      let i := idx + q.1
      let e := u.listEntry p i
      if !ok ∨ p.count ≤ i ∨ u.storeCode p e [q.2.1] ≠ cDone then (false, rest, u)
      else
        let (good, v) := u.writeSheet none n p i e (written e) [(512 * q.2.1 + q.2.2.1, rest.take q.2.2.2)] (partOf part q.1)
        (good, rest.drop q.2.2.2, v)) (true, bs, s)
    (ok, s1)

/-- BAR4_WRITE (R462, R531, R546 to R548): stored, merged and mirrored, put into a staging copy, or discarded; one to a deep bay,
or while the window of mirrored operations is full, waits (R405, R488). Log entry 83 DEDUCED. -/
def execBar4Write (function offset : Nat) (data : List (BitVec 8)) (partner : PartnerCopies) (s : State) :
    Host.Outcome State Fault Refusal :=
  guarded (decide (function < 2) && decide (1 ≤ data.length) && decide (data.length ≤ 4096)) s fun s =>
    let f := function
    if !s.pathOk (.bar0 f) || decide (s.host.bar4.getD f 0 = 0) || decide (64 * s.apSize f < offset + data.length) || !s.linkUp f then s
    else
      let n := offset / s.apSize f
      let x := offset % s.apSize f
      let base := s.fld (Reg.hostAp1 n) Reg.hostAp1_BASE
      let pf := bitsOf base 0 18
      let idx := bitsOf base 18 32
      let kind := s.fld (Reg.hostAp0 n) Reg.hostAp0_KIND
      let (l, bo) := apLoc base x
      let loc := decide (kind = 1) && decide (locTier base < 2) && decide (locTier l = locTier base ∧ locBay l = locBay base)
      if s.fld (Reg.hostAp0 n) Reg.hostAp0_WREN = 0 then s.badLogged
      else if (loc && s.locWaits l (segs bo data.length).length true) || s.windowFull then s
      else if kind = 2 ∧ s.handleWaits pf idx (s.pf pf).classBytes x data.length true then s
      else
        let (ok, s1) := if loc then s.apWrite f l bo data partner else if kind = 2 then s.apWriteH pf idx x data partner else (false, s)
        if ok then s1 else s1.badLogged

end Sys2Proof.Machine
end

