-- ==== Sys2Proof/Machine/MapOps.lean ====
section
/-! DEFINITION. The hanging map and the fault decision: epochs, plans, membership, forwarding, heartbeats, suspicion, proposals and
isolation (R408, R414 to R427, R432 to R440). -/

namespace Sys2Proof.Machine

/-! ## Membership and watching (R414, R422, R423) -/

/-- The nodes LIVE in the installed epoch, in ascending order. -/
def State.liveNodes (s : State) : List Nat := (s.map.members.filter fun e => e.2.1 == 1).map (·.1)

/-- Whether this node is LIVE in an installed epoch. -/
def State.isLive (s : State) : Bool := s.fld Reg.mapEpoch Reg.mapEpoch_SEEDED = 1 && (s.member s.node).1 == 1

/-- The ring peers of a node (R422): its two nearest LIVE predecessors and successors, its partner excluded. -/
def State.ringPeers (s : State) (x : Nat) : List Nat :=
  let l := s.liveNodes.filter fun n => n != x && n != (s.member x).2
  let lo := l.filter (· < x)
  let hi := l.filter (x < ·)
  (((lo.reverse ++ hi.reverse).take 2) ++ ((hi ++ lo).take 2)).eraseDups

/-- The watch set of a node (R422). -/
def State.watchSet (s : State) (x : Nat) : List Nat :=
  let p := (s.member x).2
  (if p ≤ 0x3FF then [p] else []) ++ s.ringPeers x

/-- Whether this node is a watcher of another (R422). -/
def State.watches (s : State) (x : Nat) : Bool := x != s.node && (s.watchSet x).contains s.node

/-- Whether this node suspects another. -/
def State.suspected (s : State) (x : Nat) : Bool := SMap.get (fun _ => 0) s.map.suspects x != 0

/-- The members of a node's watch set that this node does not suspect, in ascending order: the first is the coordinator (R423). -/
def State.coordinators (s : State) (x : Nat) : List Nat := sortNat ((s.watchSet x).filter fun n => !s.suspected n)

/-- Watching starts, or starts again, now (R422): the nodes newly watched count as heard. -/
def State.rewatch (s : State) (was : List Nat) : State :=
  let now := (s.liveNodes.filter s.watches) ++ s.ringPeers s.node
  let new := now.filter fun n => !was.contains n
  { s with map := { s.map with heard := new.foldl (fun m n => SMap.set (fun _ => 0) m n s.gc) s.map.heard } }

/-- The nodes this node watches or hears as ring peers. -/
def State.watching (s : State) : List Nat := (s.liveNodes.filter s.watches) ++ s.ringPeers s.node

/-! ## CONTROL frames (R424) -/

/-- Words 2 to 6 of a frame that carries a record. -/
def State.sendRecord (s : State) (dest kind : Nat) (r : Commit) : State :=
  s.sendCtl dest kind (r.target.toNat + r.changes.length % 32 * 2 ^ 44 + b2n r.planned * 2 ^ 49) r.changes

/-! ## Installing an epoch (R406, R415, R416, R424, R426, R432, R468) -/

/-- A change of a record: its node and its STATE. -/
def chgNode (c : Nat) : Nat := bitsOf c 0 12
@[inherit_doc chgNode] def chgState (c : Nat) : Nat := bitsOf c 12 2

/-- A change applied to the membership table; an ABSENT node has no partner, and a number above 0x3FF is no node's and has no
entry (R8, R414). Log entry 122 DEDUCED. -/
def State.applyChange (s : State) (c : Nat) : State :=
  if 0x3FF < chgNode c then s
  else s.setMember (chgNode c) (chgState c, if chgState c = 0 then 0xFFF else (s.member (chgNode c)).2)

/-- Nodes that a record makes LIVE and that have no partner become each other's, two by two in the record's order (R432 step 5; log
entry 34). Log entry 34 DEDUCED. -/
def State.pairUp (s : State) : List Nat → State
  | a :: b :: r => ((s.setMember a ((s.member a).1, b)).setMember b ((s.member b).1, a)).pairUp r
  | _ => s

/-- PAIR.STATUS.PARTNER shows this node's partner. -/
def State.showPartner (s : State) : State := s.setFld Reg.pairStatus Reg.pairStatus_PARTNER (s.member s.node).2

/-- The forward entries whose ACT has been reached become active (R416). Log entry 34 DEDUCED. -/
def State.activateForwards (s : State) : State :=
  let go := fun (e : Nat × FwdX) => if e.2.valid && !newer e.2.act s.epoch then (e.1, { e.2 with active := true }) else e
  { s with map := { s.map with fwd := s.map.fwd.map go } }

/-- What this node's and its partner's new STATE bring with them (R406, R409, R426). -/
def State.newStates (s : State) : State :=
  let me := (s.member s.node).1
  let partner := (s.member (s.member s.node).2).1
  let s1 := if 2 ≤ me then s.setFld Reg.fabCtrl Reg.fabCtrl_MODE 3 else s
  if 2 ≤ partner then s1.enterSolo else if partner = 1 then s1.leaveSolo else s1

/-- A proposal of this node that an install of its target settles (R420, R425). -/
def State.settleProposal (s : State) (r : Commit) : State :=
  match s.map.proposal with
  | none => s
  | some p =>
    if p.record.target ≠ r.target then s
    else
      let s1 : State := { s with map := { s.map with proposal := none, plan := false } }
      let own := decide (p.record = r)
      let s2 := if own then s1 else s1.setFld Reg.fltStatus Reg.fltStatus_COLLEV 1
      if p.record.planned then s2.setFld Reg.mapCtrl (if own then Reg.mapCtrl_PLANDONE else Reg.mapCtrl_PLANFAIL) 1 else s2

/-- A record installed (R415): the table, the epoch, event 0x42 in every bay, the grace window, the forward entries, the pair, an
armed activation and the proposals it settles. A record whose base is not the installed epoch is not installed. -/
def State.install (s : State) (r : Commit) : State :=
  let e := r.target.toNat
  if s.fld Reg.mapEpoch Reg.mapEpoch_SEEDED = 0 ∨ e ≠ (s.epoch + 1) % 2 ^ 32 then s
  else
    let was := s.watching
    let s1 := r.changes.foldl (fun u c => u.applyChange c) s
    let s2 := s1.pairUp ((r.changes.filter fun c => chgState c == 1 && decide (0x3FF < (s1.member (chgNode c)).2)).map chgNode)
    let s3 := (s2.setFld Reg.mapEpoch Reg.mapEpoch_EPOCH e).showPartner
    let s4 := allBays.foldl (fun u b => u.event b 0x42 (BitVec.ofNat 64 e)) s3
    let gone := fun (n : Nat) => (s4.member n).1 != 1
    let s5 := { s4 with map := { s4.map with
      grace := s4.map.grace ++ [(e, s4.gc + s4.fld Reg.mapCtrl Reg.mapCtrl_GRACE)]
      commits := (s4.map.commits ++ [(e, r)]).drop (s4.map.commits.length - 63)
      accepted := s4.map.accepted.filter fun a => newer a.1 e
      suspects := s4.map.suspects.filter fun x => !gone x.1
      held := s4.map.held.filter fun h => !gone h.1
      decided := s4.map.decided.filter fun c => !gone (chgNode c) } }
    let s6 := (((s5.activateForwards.settleProposal r).newStates).fwStart e).rewatch was
    if s6.map.decided.isEmpty || s6.map.proposal.isSome then s6
    else { s6 with map := { s6.map with backoff := some (s6.map.backoff.getD (s6.gc + 1000 * (s6.node % 16))) } }

/-- EPOCH_INSTALL (R415). -/
def execEpochInstall (record : Commit) (s : State) : Host.Outcome State Fault Refusal :=
  guarded (decide (record.changes.length ≤ 16)) s fun s => s.install record

/-- A portfolio handed away (R416): VALID is cleared where its owner and session match. -/
def State.handAway (s : State) (f : FwdX) : State :=
  let p := s.pf f.pf
  if p.valid && p.owner == f.owner && p.session == f.session && s.stackUp (f.pf % 16) then
    let bs := s.bytes (pfAddr f.pf) 512
    (s.writeRecord none f.pf none (putAt bs 15 (bs.getD 15 0 &&& 0x7F))).2
  else s

/-- GRACE_CLOSE (R416, R469): the window of an epoch closes; the portfolios of its forward entries are handed away, and a completed
activation at it is over. Log entry 66 DEDUCED. -/
def execGraceClose (epoch : BitVec 32) (s : State) : Host.Outcome State Fault Refusal :=
  .next <|
    let e := epoch.toNat
    match s.map.grace.find? (·.1 == e) with
    | none => s
    | some g =>
      let s0 := s.passTo (96 * g.2)
      let s1 := { s0 with map := { s0.map with grace := s0.map.grace.filter (·.1 != e) } }
      let s2 := (s1.map.fwd.filter fun f => f.2.valid && f.2.active && f.2.act == e).foldl (fun u f => u.handAway f.2) s1
      match s2.rot.act with
      | some a => if a.complete && a.epoch == e then s2.fwFinish a else s2
      | none => s2

/-! ## Proposals (R420, R425) -/

/-- Whether a count is more than half of the LIVE nodes of the installed epoch. -/
def State.quorum (s : State) (n : Nat) : Bool := decide (s.liveNodes.length < 2 * n)

/-- The proposer commits (R425): COMMIT to every node LIVE before or after, and the record is installed. -/
def State.commit (s : State) (r : Commit) : State :=
  let s1 := s.install r
  let dest := (s.liveNodes ++ s1.liveNodes).eraseDups.filter (· != s.node)
  dest.foldl (fun u n => u.sendRecord n 5 r) s1

/-- The proposal in progress commits once it has its majority. -/
def State.commitIfQuorum (s : State) : State :=
  match s.map.proposal with
  | some p => if s.quorum p.accepts.length then s.commit p.record else s
  | none => s

/-- A proposal of the next epoch (R425): PROPOSE to every LIVE node; this node accepts it unless it has accepted another. -/
def State.propose (s : State) (planned : Bool) (changes : List Nat) : State :=
  let e := (s.epoch + 1) % 2 ^ 32
  let r : Commit := { target := BitVec.ofNat 32 e, planned, changes := changes.take 16 }
  let mine := !(s.map.accepted.any (·.1 == e))
  let s1 := { s with map := { s.map with
    proposal := some { record := r, accepts := if mine then [s.node] else [], at_ := s.gc }
    accepted := if mine then s.map.accepted ++ [(e, s.node)] else s.map.accepted
    plan := planned, backoff := none } }
  ((s1.liveNodes.filter (· != s.node)).foldl (fun u n => u.sendRecord n 3 r) s1).commitIfQuorum

/-- This node proposes what it has decided, unless a proposal or a back-off is running. -/
def State.proposeDecided (s : State) : State :=
  if s.map.proposal.isSome || s.map.backoff.isSome || s.map.decided.isEmpty || !s.isLive then s else s.propose false s.map.decided

/-- MAP_PLAN (R8, R420, R434): the host's changes are proposed with what this node has decided; a plan that cannot be proposed, or
that names a number above 0x3FF as a node, fails. Log entry 66 DEDUCED. Log entry 122 DEDUCED. -/
def execMapPlan (s : State) : Host.Outcome State Fault Refusal :=
  .next <|
    let n := s.fld Reg.mapCtrl Reg.mapCtrl_NCHG
    let chg := (List.range n).map fun i => bf (s.reg (Reg.mapPlan (i / 4))) (16 * (i % 4)) 14
    if 16 < n ∨ s.map.proposal.isSome ∨ !s.isLive ∨ chg.any (fun c => decide (0x3FF < chgNode c)) then
      s.setFld Reg.mapCtrl Reg.mapCtrl_PLANFAIL 1
    else s.propose true (chg ++ s.map.decided)

/-- PROPOSE_RECEIVE (R8, R425): the first proposer for the next epoch is accepted, a later one hears whom this node accepted; a
record that names a number above 0x3FF as a node is not. Log entry 122 DEDUCED. -/
def execProposeReceive (proposer : Nat) (record : Commit) (s : State) : Host.Outcome State Fault Refusal :=
  guarded (decide (proposer < 1024) && decide (record.changes.length ≤ 16)) s fun s =>
    let e := record.target.toNat
    if !s.isLive || record.changes.any (fun c => decide (0x3FF < chgNode c)) then s
    else if e ≠ (s.epoch + 1) % 2 ^ 32 then s.fetchUpTo proposer ((e + 2 ^ 32 - 1) % 2 ^ 32)
    else
      match s.map.accepted.find? (·.1 == e) with
      | none => State.sendCtl { s with map := { s.map with accepted := s.map.accepted ++ [(e, proposer)] } } proposer 4 e []
      | some a => if a.2 = proposer then s.sendCtl proposer 4 e [] else s.sendCtl proposer 6 (e + a.2 % 2 ^ 12 * 2 ^ 32) []

/-- ACCEPT_RECEIVE (R425). -/
def execAcceptReceive (node : Nat) (target : BitVec 32) (s : State) : Host.Outcome State Fault Refusal :=
  guarded (decide (node < 1024)) s fun s =>
    match s.map.proposal with
    | none => s
    | some p =>
      if p.record.target ≠ target ∨ p.accepts.contains node ∨ !s.liveNodes.contains node then s
      else State.commitIfQuorum { s with map := { s.map with proposal := some { p with accepts := p.accepts ++ [node] } } }

/-- COMMIT_RECEIVE (R421, R424, R426): the next epoch is installed, missing ones are fetched; a seeded node in start-up whose
epoch is not the base sets BEHIND. -/
def execCommitReceive (node : Nat) (record : Commit) (s : State) : Host.Outcome State Fault Refusal :=
  guarded (decide (node < 1024) && decide (record.changes.length ≤ 16)) s fun s =>
    let e := record.target.toNat
    if s.fld Reg.mapEpoch Reg.mapEpoch_SEEDED = 0 then s
    else if e = (s.epoch + 1) % 2 ^ 32 then s.install record
    else if s.fld Reg.fabCtrl Reg.fabCtrl_MODE = 0 then s.setFld Reg.mapEpoch Reg.mapEpoch_BEHIND 1
    else s.fetchUpTo node e

/-- ABORT_RECEIVE (R425): the abort of a proposer frees this node's acceptance; an answer to this node's own proposal tells of
another. Log entry 66 DEDUCED. -/
def execAbortReceive (node : Nat) (target : BitVec 32) (accepted : Nat) (s : State) : Host.Outcome State Fault Refusal :=
  guarded (decide (node < 1024) && decide (accepted < 4096)) s fun s =>
    let e := target.toNat
    match s.map.proposal with
    | some p =>
      if p.record.target = target then s.setFld Reg.fltStatus Reg.fltStatus_COLLEV 1
      else { s with map := { s.map with accepted := s.map.accepted.filter fun a => a != (e, node) } }
    | none => { s with map := { s.map with accepted := s.map.accepted.filter fun a => a != (e, node) } }

/-- ACCWAIT_EXPIRY (R425): a proposer without its majority sends ABORT and backs off; a plan fails. -/
def execAccwaitExpiry (s : State) : Host.Outcome State Fault Refusal :=
  .next <|
    match s.map.proposal with
    | none => s
    | some p =>
      let s1 := s.passTo (96 * (p.at_ + s.fld Reg.fltTimer1 Reg.fltTimer1_ACCWAIT))
      let e := p.record.target.toNat
      let s2 := { s1 with map := { s1.map with
        proposal := none, plan := false, backoff := some (s1.gc + 1000 * (s1.node % 16))
        accepted := s1.map.accepted.filter fun a => a != (e, s1.node) } }
      let s3 := (s2.liveNodes.filter (· != s2.node)).foldl (fun u n => u.sendCtl n 6 (e + s2.node % 2 ^ 12 * 2 ^ 32) []) s2
      let s4 := s3.setFld Reg.fltStatus Reg.fltStatus_COLLEV 1
      if p.record.planned then s4.setFld Reg.mapCtrl Reg.mapCtrl_PLANFAIL 1 else s4

/-- REPROPOSE_TIMER_EXPIRY (R425): the back-off ends, and what is still undecided is proposed again. -/
def execReproposeTimerExpiry (s : State) : Host.Outcome State Fault Refusal :=
  .next <|
    match s.map.backoff with
    | none => s
    | some t =>
      let s1 := s.passTo (96 * t)
      State.proposeDecided { s1 with map := { s1.map with backoff := none } }

/-- FETCH_RECEIVE (R426): a kept record is sent again. -/
def execFetchReceive (node : Nat) (target : BitVec 32) (s : State) : Host.Outcome State Fault Refusal :=
  guarded (decide (node < 1024)) s fun s =>
    match s.map.commits.find? (·.1 == target.toNat) with
    | some c => s.sendRecord node 5 c.2
    | none => s

/-! ## Start-up, membership and forwarding registers (R416, R421, R434) -/

/-- Start-up mode (R371). -/
def State.startUp (s : State) : Bool := s.fld Reg.fabCtrl Reg.fabCtrl_MODE = 0

/-- MAP_SEED (R421): in start-up mode the epoch of MAP.SEEDEPOCH counts as installed, without a grace window. -/
def execMapSeed (s : State) : Host.Outcome State Fault Refusal :=
  .next <|
    if !s.startUp then s
    else
      let me := Reg.mapEpoch
      let s1 := (s.setFld me Reg.mapEpoch_EPOCH (s.fld Reg.mapSeedepoch Reg.mapSeedepoch_EPOCH)).setFld me Reg.mapEpoch_SEEDED 1
      let s2 := ((s1.setFld me Reg.mapEpoch_BEHIND 0).showPartner).setReady Reg.globalReady_EPOCH 0 true
      s2.activateForwards.rewatch []

/-- MAP_MEMBEROP_WRITE (R8, R421): in start-up mode only; a PARTNER from 0x400 to 0xFFE is refused, 0xFFF standing for none.
Log entry 122 DEDUCED. -/
def execMapMemberopWrite (node : Nat) (s : State) : Host.Outcome State Fault Refusal :=
  guarded (decide (node < 1024)) s fun s =>
    let s1 := s.setFld Reg.mapMemberop Reg.mapMemberop_NODE node
    let pn := s.fld Reg.mapMemberdata Reg.mapMemberdata_PARTNER
    if s.startUp && (decide (pn ≤ 0x3FF) || pn == 0xFFF) then
      let d := Reg.mapMemberdata
      let s2 := s1.setMember node (s1.fld d Reg.mapMemberdata_STATE, s1.fld d Reg.mapMemberdata_PARTNER)
      if node = s2.node then s2.showPartner else s2
    else s1

/-- MAP_MEMBEROP_READ (R434). -/
def execMapMemberopRead (node : Nat) (s : State) : Host.Outcome State Fault Refusal :=
  guarded (decide (node < 1024)) s fun s =>
    let m := s.member node
    let d := Reg.mapMemberdata
    ((s.setFld Reg.mapMemberop Reg.mapMemberop_NODE node).setFld d Reg.mapMemberdata_STATE m.1).setFld d Reg.mapMemberdata_PARTNER m.2

/-- MAP_FWDOP_WRITE (R416): the entry of FWDDATA is committed, mirrored to the partner. Log entry 21 DEDUCED. -/
def execMapFwdopWrite (index : Nat) (s : State) : Host.Outcome State Fault Refusal :=
  guarded (decide (index < 16384)) s fun s =>
    let f := s.fwdOf (s.reg Reg.mapFwddata0).toNat (s.reg Reg.mapFwddata1).toNat (s.reg Reg.mapFwddata2).toNat
    let s1 := (s.setFld Reg.mapFwdop Reg.mapFwdop_INDEX index).setFwd index f
    let p := s1.pf f.pf
    s1.mirrorOp none { pf := f.pf, idx := index, unit := 4, seq := p.seq, bay := p.home, writes := [⟨0, .none, fwdBytes f⟩] }

/-- MAP_FWDOP_READ (R434). -/
def execMapFwdopRead (index : Nat) (s : State) : Host.Outcome State Fault Refusal :=
  guarded (decide (index < 16384)) s fun s =>
    let f := s.fwd index
    let bs := fwdBytes f
    let s1 := (s.setFld Reg.mapFwdop Reg.mapFwdop_INDEX index).setReg Reg.mapFwddata0
      (BitVec.ofNat 64 (wordAt bs 0 + b2n f.active * 2 ^ 61))
    (s1.setReg Reg.mapFwddata1 (BitVec.ofNat 64 (wordAt bs 1))).setReg Reg.mapFwddata2 (BitVec.ofNat 64 (wordAt bs 2))

/-! ## Heartbeats and suspicion (R408, R422, R423, R427) -/

/-- HEARTBEAT_SEND (R422): every HBPERIOD a LIVE node sends to its watch set on its two lowest UP native ports, and to its partner
over the pair link. -/
def execHeartbeatSend (s : State) : Host.Outcome State Fault Refusal :=
  .next <|
    if !s.isLive then s
    else
      let s1 := s.passTo (96 * (s.map.beatAt + s.fld Reg.fltTimer0 Reg.fltTimer0_HBPERIOD))
      let n := (s1.map.beats + 1) % 2 ^ 32
      let own := decide ((s.member s.node).2 ≤ 0x3FF) && decide (s.fld Reg.pairStatus Reg.pairStatus_LINK ≠ 0)
      let s2 := { s1 with map := { s1.map with beats := n, beatAt := s1.gc } }
      let ports := ((List.range 8).filter s2.portNative).take 2
      let s3 := (s2.watchSet s2.node).foldl (fun u dest => ports.foldl (fun v p =>
        v.hdrOut p (mkFrame [frameW0 dest v.node 5 0 0 0, 1 + v.epoch * 2 ^ 32, n] [])) u) s2
      if own then s3.emit (.pairMsg 1 [n, s3.epoch]) else s3

/-- HEARTBEAT_RECEIVE (R422, R426): the node is heard and no longer suspected here; a newer epoch is fetched. -/
def execHeartbeatReceive (node : Nat) (epoch : BitVec 32) (s : State) : Host.Outcome State Fault Refusal :=
  guarded (decide (node < 1024)) s fun s =>
    let m := s.map
    let mine := fun (h : Nat × Nat × Bool) => h.1 == node && h.2.1 == s.node && !h.2.2
    let m1 : MapX := { m with heard := SMap.set (fun _ => 0) m.heard node s.gc, suspects := SMap.set (fun _ => 0) m.suspects node 0
                              held := m.held.filter fun h => !mine h }
    State.fetchUpTo { s with map := m1 } node epoch.toNat

/-- This node decides another out (R423, R435): FLT.STATUS shows it, and it is proposed. -/
def State.decideOut (s : State) (x st : Nat) : State :=
  if (s.member x).1 ≠ 1 ∨ s.map.decided.any (fun c => chgNode c == x) then s
  else
    let f := Reg.fltStatus
    let s1 := ((s.setFld f Reg.fltStatus_LASTDEC x).setFld f Reg.fltStatus_DECEV 1).bump f Reg.fltStatus_DECISIONS
    State.proposeDecided { s1 with map := { s1.map with decided := s1.map.decided ++ [x + st * 4096] } }

/-- A coordinator holds a suspicion (R408, R423): a split is decided at once, else a majority of the watch set decides. -/
def State.hold_ (s : State) (x w : Nat) (split : Bool) : State :=
  let ws := s.watchSet x
  let had := s.map.held.any fun h => h.1 == x && h.2.1 == w
  let s1 := if had then s else { s with map := { s.map with held := s.map.held ++ [(x, w, split)] } }
  let n := (ws.filter fun v => s1.map.held.any fun h => h.1 == x && h.2.1 == v).length
  if split then s1.decideOut x 3 else if ws.length < 2 * n then s1.decideOut x 2 else s1

/-- A suspicion sent to a coordinator, which may be this node. -/
def State.tell (s : State) (dest x : Nat) (split : Bool) : State :=
  if dest = s.node then s.hold_ x s.node split else s.sendCtl dest 2 (x % 2 ^ 12 * 2 ^ 32 + b2n split * 2 ^ 50) []

/-- SUSPECT_EXPIRY (R423): SUSPECT gc without a heartbeat of a watched node. -/
def execSuspectExpiry (node : Nat) (s : State) : Host.Outcome State Fault Refusal :=
  guarded (decide (node < 1024)) s fun s =>
    if !s.isLive || !s.watches node || (s.member node).1 != 1 || s.suspected node then s
    else
      let s1 := s.passTo (96 * (SMap.get (fun _ => 0) s.map.heard node + s.fld Reg.fltTimer0 Reg.fltTimer0_SUSPECT))
      match s1.coordinators node with
      | [] => s1
      | c :: _ =>
        State.tell { s1 with map := { s1.map with suspects := SMap.set (fun _ => 0) s1.map.suspects node (1 + c + 4096 * s1.gc) } }
          c node false

/-- SUSPECT_RECEIVE (R408, R423). -/
def execSuspectReceive (watcher subject : Nat) (split : Bool) (s : State) : Host.Outcome State Fault Refusal :=
  guarded (decide (watcher < 1024) && decide (subject < 1024)) s fun s =>
    if !s.isLive || (s.member subject).1 != 1 then s else s.hold_ subject watcher split

/-- CONFIRM_EXPIRY (R423): a coordinator drops its own suspicion, CONFIRM gc old and without a majority; its watch starts again.
Log entry 66 DEDUCED. -/
def execConfirmExpiry (node : Nat) (s : State) : Host.Outcome State Fault Refusal :=
  guarded (decide (node < 1024)) s fun s =>
    let v := SMap.get (fun _ => 0) s.map.suspects node
    if v = 0 ∨ (v - 1) % 4096 ≠ s.node ∨ s.map.decided.any (fun c => chgNode c == node) then s
    else
      let s1 := s.passTo (96 * ((v - 1) / 4096 + s.fld Reg.fltTimer1 Reg.fltTimer1_CONFIRM))
      { s1 with map := { s1.map with
        suspects := SMap.set (fun _ => 0) s1.map.suspects node 0
        heard := SMap.set (fun _ => 0) s1.map.heard node s1.gc
        held := s1.map.held.filter fun h => !(h.1 == node && h.2.1 == s1.node) } }

/-- SUSPECT_RESEND (R427): 50,000 gc after its first suspicion a watcher tells the next coordinator. -/
def execSuspectResend (node : Nat) (s : State) : Host.Outcome State Fault Refusal :=
  guarded (decide (node < 1024)) s fun s =>
    let v := SMap.get (fun _ => 0) s.map.suspects node
    if v = 0 then s
    else
      let s1 := s.passTo (96 * ((v - 1) / 4096 + 50000))
      match (s1.coordinators node).filter (· != (v - 1) % 4096) with
      | [] => s1
      | c :: _ =>
        State.tell { s1 with map := { s1.map with
          suspects := SMap.set (fun _ => 0) s1.map.suspects node (1 + c + (v - 1) / 4096 * 4096) } } c node false

/-- PAIRHOLD_EXPIRY (R408): unreachable for PAIRHOLD gc and not suspected, the pair is split; its lower member reports it. -/
def execPairholdExpiry (s : State) : Host.Outcome State Fault Refusal :=
  .next <|
    let p := s.fld Reg.pairStatus Reg.pairStatus_PARTNER
    if s.fld Reg.pairStatus Reg.pairStatus_UNREACH = 0 ∨ !s.isLive ∨ s.suspected p ∨ 0x3FF < p ∨ p ≤ s.node then s
    else
      let s1 := s.passTo (96 * (s.pair.unreachAt + s.fld Reg.pairCtrl Reg.pairCtrl_PAIRHOLD))
      match s1.coordinators p with
      | [] => s1
      | c :: _ => s1.tell c p true

/-- ISOLATE_EXPIRY (R426): ISOLATE gc without a heartbeat of any ring peer: the node enters recovery mode. Log entry 66 DEDUCED. -/
def execIsolateExpiry (s : State) : Host.Outcome State Fault Refusal :=
  .next <|
    let peers := s.ringPeers s.node
    if !s.isLive || peers.isEmpty || decide (s.fld Reg.fltStatus Reg.fltStatus_ISOLATED = 1) then s
    else
      let last := (peers.map fun n => SMap.get (fun _ => 0) s.map.heard n).foldl max 0
      let s1 := s.passTo (96 * (last + s.fld Reg.fltTimer2 Reg.fltTimer2_ISOLATE))
      (s1.setFld Reg.fabCtrl Reg.fabCtrl_MODE 3).setFld Reg.fltStatus Reg.fltStatus_ISOLATED 1

end Sys2Proof.Machine
end

