-- ==== Sys2Proof/Machine/Dispatch.lean ====
section
/-! DEFINITION. One arm per command: each is one direct call of its meaning. -/

namespace Sys2Proof.Machine

/-- The effect of a command on everything but the queue. -/
def exec (i : Instr) (s : State) : Host.Outcome State Fault Refusal :=
  match i with
  | .nop x w => Sys2Proof.Machine.execNop x w s
  | .add x w => Sys2Proof.Machine.execAdd x w s
  | .sub x w => Sys2Proof.Machine.execSub x w s
  | .andG x w => Sys2Proof.Machine.execAnd x w s
  | .orG x w => Sys2Proof.Machine.execOr x w s
  | .xor x w => Sys2Proof.Machine.execXor x w s
  | .shl x w => Sys2Proof.Machine.execShl x w s
  | .shr x w => Sys2Proof.Machine.execShr x w s
  | .sar x w => Sys2Proof.Machine.execSar x w s
  | .mul x w => Sys2Proof.Machine.execMul x w s
  | .min x w => Sys2Proof.Machine.execMin x w s
  | .max x w => Sys2Proof.Machine.execMax x w s
  | .minu x w => Sys2Proof.Machine.execMinu x w s
  | .maxu x w => Sys2Proof.Machine.execMaxu x w s
  | .addi x w => Sys2Proof.Machine.execAddi x w s
  | .subi x w => Sys2Proof.Machine.execSubi x w s
  | .andi x w => Sys2Proof.Machine.execAndi x w s
  | .ori x w => Sys2Proof.Machine.execOri x w s
  | .xori x w => Sys2Proof.Machine.execXori x w s
  | .shli x w => Sys2Proof.Machine.execShli x w s
  | .shri x w => Sys2Proof.Machine.execShri x w s
  | .sari x w => Sys2Proof.Machine.execSari x w s
  | .muli x w => Sys2Proof.Machine.execMuli x w s
  | .mini x w => Sys2Proof.Machine.execMini x w s
  | .maxi x w => Sys2Proof.Machine.execMaxi x w s
  | .minui x w => Sys2Proof.Machine.execMinui x w s
  | .maxui x w => Sys2Proof.Machine.execMaxui x w s
  | .aluL x w limm => Sys2Proof.Machine.execAluL x w limm s
  | .cmpEq x w => Sys2Proof.Machine.execCmpEq x w s
  | .cmpNe x w => Sys2Proof.Machine.execCmpNe x w s
  | .cmpLt x w => Sys2Proof.Machine.execCmpLt x w s
  | .cmpLe x w => Sys2Proof.Machine.execCmpLe x w s
  | .cmpLtu x w => Sys2Proof.Machine.execCmpLtu x w s
  | .cmpLeu x w => Sys2Proof.Machine.execCmpLeu x w s
  | .movi x w => Sys2Proof.Machine.execMovi x w s
  | .moviL x w limm => Sys2Proof.Machine.execMoviL x w limm s
  | .br x w => Sys2Proof.Machine.execBr x w s
  | .bz x w => Sys2Proof.Machine.execBz x w s
  | .bnz x w => Sys2Proof.Machine.execBnz x w s
  | .bp x w => Sys2Proof.Machine.execBp x w s
  | .jr x w => Sys2Proof.Machine.execJr x w s
  | .endProg x w => Sys2Proof.Machine.execEndProg x w s
  | .vadd x w => Sys2Proof.Machine.execVadd x w s
  | .vsub x w => Sys2Proof.Machine.execVsub x w s
  | .vmul x w => Sys2Proof.Machine.execVmul x w s
  | .vmax x w => Sys2Proof.Machine.execVmax x w s
  | .vmin x w => Sys2Proof.Machine.execVmin x w s
  | .vfma x w => Sys2Proof.Machine.execVfma x w s
  | .vexp2 x w => Sys2Proof.Machine.execVexp2 x w s
  | .vlog2 x w => Sys2Proof.Machine.execVlog2 x w s
  | .vrcp x w => Sys2Proof.Machine.execVrcp x w s
  | .vredsum x w => Sys2Proof.Machine.execVredsum x w s
  | .vredmax x w => Sys2Proof.Machine.execVredmax x w s
  | .vredmin x w => Sys2Proof.Machine.execVredmin x w s
  | .vcmpEq x w => Sys2Proof.Machine.execVcmpEq x w s
  | .vcmpLt x w => Sys2Proof.Machine.execVcmpLt x w s
  | .vcmpLe x w => Sys2Proof.Machine.execVcmpLe x w s
  | .vbcast x w => Sys2Proof.Machine.execVbcast x w s
  | .vext x w => Sys2Proof.Machine.execVext x w s
  | .vsel x w => Sys2Proof.Machine.execVsel x w s
  | .vcvt x w => Sys2Proof.Machine.execVcvt x w s
  | .vld x w => Sys2Proof.Machine.execVld x w s
  | .vst x w => Sys2Proof.Machine.execVst x w s
  | .tld x w => Sys2Proof.Machine.execTld x w s
  | .tst x w => Sys2Proof.Machine.execTst x w s
  | .ldg x w => Sys2Proof.Machine.execLdg x w s
  | .stg x w => Sys2Proof.Machine.execStg x w s
  | .mma x w => Sys2Proof.Machine.execMma x w s
  | .mmaStart x => Sys2Proof.Machine.execMmaStart x s
  | .expand x w => Sys2Proof.Machine.execExpand x w s
  | .expandStart x => Sys2Proof.Machine.execExpandStart x s
  | .tzero x w => Sys2Proof.Machine.execTzero x w s
  | .ldLoc x w => Sys2Proof.Machine.execLdLoc x w s
  | .stLoc x w => Sys2Proof.Machine.execStLoc x w s
  | .ldH x w => Sys2Proof.Machine.execLdH x w s
  | .stH x w => Sys2Proof.Machine.execStH x w s
  | .stHTok x w => Sys2Proof.Machine.execStHTok x w s
  | .memoryOpComplete x entry partner => Sys2Proof.Machine.execMemoryOpComplete x entry partner s
  | .flushRange x w => Sys2Proof.Machine.execFlushRange x w s
  | .nbFill x w => Sys2Proof.Machine.execNbFill x w s
  | .nbCopy x w => Sys2Proof.Machine.execNbCopy x w s
  | .nbCompareEqual x w => Sys2Proof.Machine.execNbCompareEqual x w s
  | .nbSum x w => Sys2Proof.Machine.execNbSum x w s
  | .nbMax x w => Sys2Proof.Machine.execNbMax x w s
  | .nbMin x w => Sys2Proof.Machine.execNbMin x w s
  | .nbOrderedCompare x w => Sys2Proof.Machine.execNbOrderedCompare x w s
  | .nbWindowStart stack refusing => Sys2Proof.Machine.execNbWindowStart stack refusing s
  | .nbComplete stack => Sys2Proof.Machine.execNbComplete stack s
  | .dmaPost x w => Sys2Proof.Machine.execDmaPost x w s
  | .engineDescriptorStart bay => Sys2Proof.Machine.execEngineDescriptorStart bay s
  | .compressGroup bay partner => Sys2Proof.Machine.execCompressGroup bay partner s
  | .expandSheets bay partner => Sys2Proof.Machine.execExpandSheets bay partner s
  | .buildSketches bay partner => Sys2Proof.Machine.execBuildSketches bay partner s
  | .moveSheets bay partner => Sys2Proof.Machine.execMoveSheets bay partner s
  | .discardT3Range bay => Sys2Proof.Machine.execDiscardT3Range bay s
  | .copyT3 bay => Sys2Proof.Machine.execCopyT3 bay s
  | .heatReport bay => Sys2Proof.Machine.execHeatReport bay s
  | .movePartnerAck bay applied => Sys2Proof.Machine.execMovePartnerAck bay applied s
  | .engineOpComplete bay => Sys2Proof.Machine.execEngineOpComplete bay s
  | .attnStep x w => Sys2Proof.Machine.execAttnStep x w s
  | .partnerFetchDone x data => Sys2Proof.Machine.execPartnerFetchDone x data s
  | .sketchRank x w => Sys2Proof.Machine.execSketchRank x w s
  | .glaze x w => Sys2Proof.Machine.execGlaze x w s
  | .glazeEmpty x w => Sys2Proof.Machine.execGlazeEmpty x w s
  | .catSearch x w => Sys2Proof.Machine.execCatSearch x w s
  | .searchAdmission bay => Sys2Proof.Machine.execSearchAdmission bay s
  | .searchResult x => Sys2Proof.Machine.execSearchResult x s
  | .catWr x w => Sys2Proof.Machine.execCatWr x w s
  | .catRd x w => Sys2Proof.Machine.execCatRd x w s
  | .catAccessCommit index => Sys2Proof.Machine.execCatAccessCommit index s
  | .wrimm x w => Sys2Proof.Machine.execWrimm x w s
  | .send x w => Sys2Proof.Machine.execSend x w s
  | .recv x w => Sys2Proof.Machine.execRecv x w s
  | .launch x w => Sys2Proof.Machine.execLaunch x w s
  | .resume x w => Sys2Proof.Machine.execResume x w s
  | .dbRing x w => Sys2Proof.Machine.execDbRing x w s
  | .wait x w => Sys2Proof.Machine.execWait x w s
  | .sleep x w => Sys2Proof.Machine.execSleep x w s
  | .dbpop x w => Sys2Proof.Machine.execDbpop x w s
  | .waitResume x => Sys2Proof.Machine.execWaitResume x s
  | .fenceEasel x w => Sys2Proof.Machine.execFenceEasel x w s
  | .fenceBay x w => Sys2Proof.Machine.execFenceBay x w s
  | .fenceBayBarrier x w => Sys2Proof.Machine.execFenceBayBarrier x w s
  | .fenceNode x w => Sys2Proof.Machine.execFenceNode x w s
  | .fencePair x w => Sys2Proof.Machine.execFencePair x w s
  | .fencePeer x w => Sys2Proof.Machine.execFencePeer x w s
  | .fenceComplete x => Sys2Proof.Machine.execFenceComplete x s
  | .barrierTimeout x => Sys2Proof.Machine.execBarrierTimeout x s
  | .rdgc x w => Sys2Proof.Machine.execRdgc x w s
  | .perfRd x w => Sys2Proof.Machine.execPerfRd x w s
  | .trace x w => Sys2Proof.Machine.execTrace x w s
  | .runLimitExpiry x => Sys2Proof.Machine.execRunLimitExpiry x s
  | .launchAccept bay => Sys2Proof.Machine.execLaunchAccept bay s
  | .launchPlace bay => Sys2Proof.Machine.execLaunchPlace bay s
  | .launchFirstInstruction x => Sys2Proof.Machine.execLaunchFirstInstruction x s
  | .doorbellArrival bay db record => Sys2Proof.Machine.execDoorbellArrival bay db record s
  | .bayTimerExpiry bay timer => Sys2Proof.Machine.execBayTimerExpiry bay timer s
  | .easelCtrlStop x => Sys2Proof.Machine.execEaselCtrlStop x s
  | .easelCtrlResume x => Sys2Proof.Machine.execEaselCtrlResume x s
  | .easelCtrlReset x => Sys2Proof.Machine.execEaselCtrlReset x s
  | .bayProgUpperWrite bay entry value => Sys2Proof.Machine.execBayProgUpperWrite bay entry value s
  | .bayProgCommit bay entry value => Sys2Proof.Machine.execBayProgCommit bay entry value s
  | .catCtrlStart clone => Sys2Proof.Machine.execCatCtrlStart clone s
  | .catCtrlFlip => Sys2Proof.Machine.execCatCtrlFlip s
  | .catCtrlAbort => Sys2Proof.Machine.execCatCtrlAbort s
  | .catCtrlKeep => Sys2Proof.Machine.execCatCtrlKeep s
  | .rebuildFillDone => Sys2Proof.Machine.execRebuildFillDone s
  | .flipRound => Sys2Proof.Machine.execFlipRound s
  | .catJrnlpop => Sys2Proof.Machine.execCatJrnlpop s
  | .catScrubStep => Sys2Proof.Machine.execCatScrubStep s
  | .bayCmpStatclr bay => Sys2Proof.Machine.execBayCmpStatclr bay s
  | .baySpsClr bay => Sys2Proof.Machine.execBaySpsClr bay s
  | .wsLaneStart bay lane => Sys2Proof.Machine.execWsLaneStart bay lane s
  | .wsLaneStop bay lane => Sys2Proof.Machine.execWsLaneStop bay lane s
  | .wsEnableWrite bay enable => Sys2Proof.Machine.execWsEnableWrite bay enable s
  | .keyslotWrite bay slot => Sys2Proof.Machine.execKeyslotWrite bay slot s
  | .wsStrokeIssue bay => Sys2Proof.Machine.execWsStrokeIssue bay s
  | .wsStrokeLand bay lane => Sys2Proof.Machine.execWsStrokeLand bay lane s
  | .wsReleasedSample bay lane => Sys2Proof.Machine.execWsReleasedSample bay lane s
  | .wsStrokeRetry bay lane => Sys2Proof.Machine.execWsStrokeRetry bay lane s
  | .accessAdmission stack accesses => Sys2Proof.Machine.execAccessAdmission stack accesses s
  | .strokeReadComplete stack addr slot tweak errs => Sys2Proof.Machine.execStrokeReadComplete stack addr slot tweak errs s
  | .pageBufferWrite stack addr slot tweak offset data => Sys2Proof.Machine.execPageBufferWrite stack addr slot tweak offset data s
  | .writeBackAdmit stack => Sys2Proof.Machine.execWriteBackAdmit stack s
  | .meshTransferEnter transfers => Sys2Proof.Machine.execMeshTransferEnter transfers s
  | .frameStart temps die => Sys2Proof.Machine.execFrameStart temps die s
  | .stackTripSelfref stack => Sys2Proof.Machine.execStackTripSelfref stack s
  | .refreshWindow stack channel centred => Sys2Proof.Machine.execRefreshWindow stack channel centred s
  | .scrubWindow stack channel errs => Sys2Proof.Machine.execScrubWindow stack channel errs s
  | .rowRemapCommit stack => Sys2Proof.Machine.execRowRemapCommit stack s
  | .baySlotmapWrite bay value => Sys2Proof.Machine.execBaySlotmapWrite bay value s
  | .bayRegionWrite bay region value => Sys2Proof.Machine.execBayRegionWrite bay region value s
  | .stackRetrain stack => Sys2Proof.Machine.execStackRetrain stack s
  | .stackRetrainDone stack => Sys2Proof.Machine.execStackRetrainDone stack s
  | .heatTick bay => Sys2Proof.Machine.execHeatTick bay s
  | .heatSweepStep bay => Sys2Proof.Machine.execHeatSweepStep bay s
  | .bayHeatClear bay => Sys2Proof.Machine.execBayHeatClear bay s
  | .extentWithdraw extent => Sys2Proof.Machine.execExtentWithdraw extent s
  | .extentGone extent => Sys2Proof.Machine.execExtentGone extent s
  | .flashFormat => Sys2Proof.Machine.execFlashFormat s
  | .flashCkpt => Sys2Proof.Machine.execFlashCkpt s
  | .flashMapbaseWrite channel value => Sys2Proof.Machine.execFlashMapbaseWrite channel value s
  | .flashMapRebuildDone channel => Sys2Proof.Machine.execFlashMapRebuildDone channel s
  | .flashPageReadDone channel lpage bits => Sys2Proof.Machine.execFlashPageReadDone channel lpage bits s
  | .flashPageProgrammed channel lpage lun ok => Sys2Proof.Machine.execFlashPageProgrammed channel lpage lun ok s
  | .flashCheckpoint channel => Sys2Proof.Machine.execFlashCheckpoint channel s
  | .garbageCollect channel run => Sys2Proof.Machine.execGarbageCollect channel run s
  | .patrolRead channel lpage bits => Sys2Proof.Machine.execPatrolRead channel lpage bits s
  | .portEnable port enable => Sys2Proof.Machine.execPortEnable port enable s
  | .portReneg port => Sys2Proof.Machine.execPortReneg port s
  | .portSignalDetect port => Sys2Proof.Machine.execPortSignalDetect port s
  | .portTrainDone port locked => Sys2Proof.Machine.execPortTrainDone port locked s
  | .capabilityPageReceived port page => Sys2Proof.Machine.execCapabilityPageReceived port page s
  | .portExchangeTimeout port => Sys2Proof.Machine.execPortExchangeTimeout port s
  | .portSettleCheck port result => Sys2Proof.Machine.execPortSettleCheck port result s
  | .portDown port => Sys2Proof.Machine.execPortDown port s
  | .ferruleChange port seated => Sys2Proof.Machine.execFerruleChange port seated s
  | .frameReceive port corrected uncorrectable frame => Sys2Proof.Machine.execFrameReceive port corrected uncorrectable frame s
  | .packetAdmit port frame => Sys2Proof.Machine.execPacketAdmit port frame s
  | .packetPlaced conn cclass firstPsn index payload => Sys2Proof.Machine.execPacketPlaced conn cclass firstPsn index payload s
  | .messageComplete conn cclass firstPsn => Sys2Proof.Machine.execMessageComplete conn cclass firstPsn s
  | .ackDelayExpiry conn cclass => Sys2Proof.Machine.execAckDelayExpiry conn cclass s
  | .ackReceive frame => Sys2Proof.Machine.execAckReceive frame s
  | .completeReceive frame => Sys2Proof.Machine.execCompleteReceive frame s
  | .rtoExpiry conn psn => Sys2Proof.Machine.execRtoExpiry conn psn s
  | .retransmit conn psn => Sys2Proof.Machine.execRetransmit conn psn s
  | .resyncSend conn => Sys2Proof.Machine.execResyncSend conn s
  | .resyncReceive port frame => Sys2Proof.Machine.execResyncReceive port frame s
  | .fabConnopWrite conn => Sys2Proof.Machine.execFabConnopWrite conn s
  | .fabConnopRead conn => Sys2Proof.Machine.execFabConnopRead conn s
  | .fabRegopWrite index => Sys2Proof.Machine.execFabRegopWrite index s
  | .fabRegopRead index => Sys2Proof.Machine.execFabRegopRead index s
  | .fabRegopRevoke index => Sys2Proof.Machine.execFabRegopRevoke index s
  | .revokeDrained index => Sys2Proof.Machine.execRevokeDrained index s
  | .revdrainExpiry index => Sys2Proof.Machine.execRevdrainExpiry index s
  | .fabCliopInval conn => Sys2Proof.Machine.execFabCliopInval conn s
  | .clientRecordFetched conn record => Sys2Proof.Machine.execClientRecordFetched conn record s
  | .fabIdWrite value => Sys2Proof.Machine.execFabIdWrite value s
  | .messageEnqueue conn firstPsn => Sys2Proof.Machine.execMessageEnqueue conn firstPsn s
  | .schedSelect inst => Sys2Proof.Machine.execSchedSelect inst s
  | .bucketRefill => Sys2Proof.Machine.execBucketRefill s
  | .schedSubopWrite inst queue => Sys2Proof.Machine.execSchedSubopWrite inst queue s
  | .schedSubopRead inst queue => Sys2Proof.Machine.execSchedSubopRead inst queue s
  | .polOpWrite index => Sys2Proof.Machine.execPolOpWrite index s
  | .polOpRead index => Sys2Proof.Machine.execPolOpRead index s
  | .polNcopWrite conn => Sys2Proof.Machine.execPolNcopWrite conn s
  | .polNcopRead conn => Sys2Proof.Machine.execPolNcopRead conn s
  | .sampleStart => Sys2Proof.Machine.execSampleStart s
  | .mirrorApply op => Sys2Proof.Machine.execMirrorApply op s
  | .mirrorAckReceive op applied => Sys2Proof.Machine.execMirrorAckReceive op applied s
  | .pairLinkChange groups => Sys2Proof.Machine.execPairLinkChange groups s
  | .partnerUnreachable => Sys2Proof.Machine.execPartnerUnreachable s
  | .pairholdExpiry => Sys2Proof.Machine.execPairholdExpiry s
  | .pairResyncStart partnerLog => Sys2Proof.Machine.execPairResyncStart partnerLog s
  | .pairResyncDone copies => Sys2Proof.Machine.execPairResyncDone copies s
  | .auditStep copies => Sys2Proof.Machine.execAuditStep copies s
  | .epochInstall record => Sys2Proof.Machine.execEpochInstall record s
  | .graceClose epoch => Sys2Proof.Machine.execGraceClose epoch s
  | .mapPlan => Sys2Proof.Machine.execMapPlan s
  | .mapSeed => Sys2Proof.Machine.execMapSeed s
  | .mapMemberopWrite node => Sys2Proof.Machine.execMapMemberopWrite node s
  | .mapMemberopRead node => Sys2Proof.Machine.execMapMemberopRead node s
  | .mapFwdopWrite index => Sys2Proof.Machine.execMapFwdopWrite index s
  | .mapFwdopRead index => Sys2Proof.Machine.execMapFwdopRead index s
  | .heartbeatSend => Sys2Proof.Machine.execHeartbeatSend s
  | .heartbeatReceive node epoch => Sys2Proof.Machine.execHeartbeatReceive node epoch s
  | .suspectExpiry node => Sys2Proof.Machine.execSuspectExpiry node s
  | .suspectReceive watcher subject split => Sys2Proof.Machine.execSuspectReceive watcher subject split s
  | .confirmExpiry node => Sys2Proof.Machine.execConfirmExpiry node s
  | .proposeReceive proposer record => Sys2Proof.Machine.execProposeReceive proposer record s
  | .acceptReceive node target => Sys2Proof.Machine.execAcceptReceive node target s
  | .commitReceive node record => Sys2Proof.Machine.execCommitReceive node record s
  | .abortReceive node target accepted => Sys2Proof.Machine.execAbortReceive node target accepted s
  | .accwaitExpiry => Sys2Proof.Machine.execAccwaitExpiry s
  | .reproposeTimerExpiry => Sys2Proof.Machine.execReproposeTimerExpiry s
  | .fetchReceive node target => Sys2Proof.Machine.execFetchReceive node target s
  | .isolateExpiry => Sys2Proof.Machine.execIsolateExpiry s
  | .leaseTake queue => Sys2Proof.Machine.execLeaseTake queue s
  | .leaseWrite queue => Sys2Proof.Machine.execLeaseWrite queue s
  | .leaseFence queue => Sys2Proof.Machine.execLeaseFence queue s
  | .leaseDrop queue => Sys2Proof.Machine.execLeaseDrop queue s
  | .leaseRenew queue => Sys2Proof.Machine.execLeaseRenew queue s
  | .leaseExpiry pf line => Sys2Proof.Machine.execLeaseExpiry pf line s
  | .easelFailure x => Sys2Proof.Machine.execEaselFailure x s
  | .spareSwitchInDone x => Sys2Proof.Machine.execSpareSwitchInDone x s
  | .mailboxGo channel => Sys2Proof.Machine.execMailboxGo channel s
  | .mailboxTake => Sys2Proof.Machine.execMailboxTake s
  | .idGet => Sys2Proof.Machine.execIdGet s
  | .attest => Sys2Proof.Machine.execAttest s
  | .keyNonce => Sys2Proof.Machine.execKeyNonce s
  | .keyInstall partner => Sys2Proof.Machine.execKeyInstall partner s
  | .keyGen partner => Sys2Proof.Machine.execKeyGen partner s
  | .keyDestroy => Sys2Proof.Machine.execKeyDestroy s
  | .keyDestroyEffect slot => Sys2Proof.Machine.execKeyDestroyEffect slot s
  | .pendingDestroyDeliver => Sys2Proof.Machine.execPendingDestroyDeliver s
  | .keyQuery => Sys2Proof.Machine.execKeyQuery s
  | .digestReg => Sys2Proof.Machine.execDigestReg s
  | .digestDereg => Sys2Proof.Machine.execDigestDereg s
  | .confEnter partnerReady => Sys2Proof.Machine.execConfEnter partnerReady s
  | .confExit => Sys2Proof.Machine.execConfExit s
  | .fwWrite => Sys2Proof.Machine.execFwWrite s
  | .fwVerify => Sys2Proof.Machine.execFwVerify s
  | .fwArm => Sys2Proof.Machine.execFwArm s
  | .fwDisarm => Sys2Proof.Machine.execFwDisarm s
  | .fwActivationDone => Sys2Proof.Machine.execFwActivationDone s
  | .fwActivationRollback => Sys2Proof.Machine.execFwActivationRollback s
  | .licInstall => Sys2Proof.Machine.execLicInstall s
  | .recover => Sys2Proof.Machine.execRecover s
  | .decommission => Sys2Proof.Machine.execDecommission s
  | .rotWatchdogExpiry => Sys2Proof.Machine.execRotWatchdogExpiry s
  | .pairKeyEstablish partner => Sys2Proof.Machine.execPairKeyEstablish partner s
  | .idleGate x => Sys2Proof.Machine.execIdleGate x s
  | .easelWakeDone x => Sys2Proof.Machine.execEaselWakeDone x s
  | .bayDeepEntry bay => Sys2Proof.Machine.execBayDeepEntry bay s
  | .bayWake bay easels msg => Sys2Proof.Machine.execBayWake bay easels msg s
  | .bayActive bay => Sys2Proof.Machine.execBayActive bay s
  | .pwrN1 => Sys2Proof.Machine.execPwrN1 s
  | .pwrN2 partnerN1 => Sys2Proof.Machine.execPwrN2 partnerN1 s
  | .pwrN3 => Sys2Proof.Machine.execPwrN3 s
  | .pwrWake => Sys2Proof.Machine.execPwrWake s
  | .portNarrowing port => Sys2Proof.Machine.execPortNarrowing port s
  | .pairWake => Sys2Proof.Machine.execPairWake s
  | .n2ExitDone => Sys2Proof.Machine.execN2ExitDone s
  | .supplySample rails => Sys2Proof.Machine.execSupplySample rails s
  | .brakeRelease => Sys2Proof.Machine.execBrakeRelease s
  | .longBrakeExpiry => Sys2Proof.Machine.execLongBrakeExpiry s
  | .ageingPass readings => Sys2Proof.Machine.execAgeingPass readings s
  | .freqBinWrite bin => Sys2Proof.Machine.execFreqBinWrite bin s
  | .relockDone => Sys2Proof.Machine.execRelockDone s
  | .pllLockRetry unit locked => Sys2Proof.Machine.execPllLockRetry unit locked s
  | .crystalLoss => Sys2Proof.Machine.execCrystalLoss s
  | .globalResetBay bay => Sys2Proof.Machine.execGlobalResetBay bay s
  | .globalResetPart part => Sys2Proof.Machine.execGlobalResetPart part s
  | .globalResetWarm => Sys2Proof.Machine.execGlobalResetWarm s
  | .globalResetCold => Sys2Proof.Machine.execGlobalResetCold s
  | .warmRstPin => Sys2Proof.Machine.execWarmRstPin s
  | .coldRstPin => Sys2Proof.Machine.execColdRstPin s
  | .resetDrainEnd => Sys2Proof.Machine.execResetDrainEnd s
  | .resetRelease strap => Sys2Proof.Machine.execResetRelease strap s
  | .rotImageVerified image => Sys2Proof.Machine.execRotImageVerified image s
  | .bayReady bay locked => Sys2Proof.Machine.execBayReady bay locked s
  | .stackReady stack trained => Sys2Proof.Machine.execStackReady stack trained s
  | .pairLinkTrained groups => Sys2Proof.Machine.execPairLinkTrained groups s
  | .flashInterfaceTrained channel geometry => Sys2Proof.Machine.execFlashInterfaceTrained channel geometry s
  | .repairRecordAppend => Sys2Proof.Machine.execRepairRecordAppend s
  | .perstChange function asserted => Sys2Proof.Machine.execPerstChange function asserted s
  | .hostLinkChange function rate width => Sys2Proof.Machine.execHostLinkChange function rate width s
  | .registerWrite path offset size value => Sys2Proof.Machine.execRegisterWrite path offset size value s
  | .hqCfgEnable queue enable => Sys2Proof.Machine.execHqCfgEnable queue enable s
  | .hqSqtail queue tail => Sys2Proof.Machine.execHqSqtail queue tail s
  | .hqCqhead queue head => Sys2Proof.Machine.execHqCqhead queue head s
  | .queueFetch queue => Sys2Proof.Machine.execQueueFetch queue s
  | .mgmtTransmit queue => Sys2Proof.Machine.execMgmtTransmit queue s
  | .mgmtReceivePost queue => Sys2Proof.Machine.execMgmtReceivePost queue s
  | .mgmtFrameReceive port frame => Sys2Proof.Machine.execMgmtFrameReceive port frame s
  | .cpltoExpiry read => Sys2Proof.Machine.execCpltoExpiry read s
  | .eventRecordPlace => Sys2Proof.Machine.execEventRecordPlace s
  | .bar4Read function offset len partner => Sys2Proof.Machine.execBar4Read function offset len partner s
  | .bar4Write function offset data partner => Sys2Proof.Machine.execBar4Write function offset data partner s
  | .railsOkLow => Sys2Proof.Machine.execRailsOkLow s
  | .crystalReturn => Sys2Proof.Machine.execCrystalReturn s
  | .groundSupplyReturn => Sys2Proof.Machine.execGroundSupplyReturn s
  | .flashChannelFailure channel => Sys2Proof.Machine.execFlashChannelFailure channel s
  | .flashChannelRetrain channel => Sys2Proof.Machine.execFlashChannelRetrain channel s
  | .suspectResend node => Sys2Proof.Machine.execSuspectResend node s
  | .hostReadCompletion read data => Sys2Proof.Machine.execHostReadCompletion read data s
  | .avsbusAcknowledge rail => Sys2Proof.Machine.execAvsbusAcknowledge rail s
  | .flashFormatDone => Sys2Proof.Machine.execFlashFormatDone s

end Sys2Proof.Machine
end

