-- ==== Sys2Proof/WellFormed.lean ====
section
/-! DEFINITION. Well-formed commands: the ones that can arise at the node. An instruction names a logical easel of the die (R15) and
its word is of the row's opcode and function (R110, R119 to R155); another command names units the node has, and carries operands
of the widths the spec gives them. Every meaning refuses the others by name. -/

namespace Sys2Proof

open Sys2Proof.Machine

/-- Whether a command is well formed. Log entry 40 DESIGN CHOICE. -/
def Instr.wf (i : Instr) : Bool :=
  match i with
  | .nop x w => x.ok && (opIs w 0x00 0 || reservedOp w)
  | .add x w => x.ok && opIs w 0x01 0x0
  | .sub x w => x.ok && opIs w 0x01 0x1
  | .andG x w => x.ok && opIs w 0x01 0x2
  | .orG x w => x.ok && opIs w 0x01 0x3
  | .xor x w => x.ok && opIs w 0x01 0x4
  | .shl x w => x.ok && opIs w 0x01 0x5
  | .shr x w => x.ok && opIs w 0x01 0x6
  | .sar x w => x.ok && opIs w 0x01 0x7
  | .mul x w => x.ok && opIs w 0x01 0x8
  | .min x w => x.ok && opIs w 0x01 0x9
  | .max x w => x.ok && opIs w 0x01 0xA
  | .minu x w => x.ok && opIs w 0x01 0xB
  | .maxu x w => x.ok && opIs w 0x01 0xC
  | .addi x w => x.ok && opIs w 0x02 0x0
  | .subi x w => x.ok && opIs w 0x02 0x1
  | .andi x w => x.ok && opIs w 0x02 0x2
  | .ori x w => x.ok && opIs w 0x02 0x3
  | .xori x w => x.ok && opIs w 0x02 0x4
  | .shli x w => x.ok && opIs w 0x02 0x5
  | .shri x w => x.ok && opIs w 0x02 0x6
  | .sari x w => x.ok && opIs w 0x02 0x7
  | .muli x w => x.ok && opIs w 0x02 0x8
  | .mini x w => x.ok && opIs w 0x02 0x9
  | .maxi x w => x.ok && opIs w 0x02 0xA
  | .minui x w => x.ok && opIs w 0x02 0xB
  | .maxui x w => x.ok && opIs w 0x02 0xC
  | .aluL x w _ => x.ok && opcIs w 0x82
  | .cmpEq x w => x.ok && opIs w 0x03 0x0
  | .cmpNe x w => x.ok && opIs w 0x03 0x1
  | .cmpLt x w => x.ok && opIs w 0x03 0x2
  | .cmpLe x w => x.ok && opIs w 0x03 0x3
  | .cmpLtu x w => x.ok && opIs w 0x03 0x4
  | .cmpLeu x w => x.ok && opIs w 0x03 0x5
  | .movi x w => x.ok && opIs w 0x04 0
  | .moviL x w _ => x.ok && opIs w 0x84 0
  | .br x w => x.ok && opIs w 0x08 0
  | .bz x w => x.ok && opIs w 0x09 0
  | .bnz x w => x.ok && opIs w 0x0A 0
  | .bp x w => x.ok && opIs w 0x0B 0
  | .jr x w => x.ok && opIs w 0x0D 0
  | .endProg x w => x.ok && opIs w 0x0F 0
  | .vadd x w => x.ok && opIs w 0x20 0x0
  | .vsub x w => x.ok && opIs w 0x20 0x1
  | .vmul x w => x.ok && opIs w 0x20 0x2
  | .vmax x w => x.ok && opIs w 0x20 0x4
  | .vmin x w => x.ok && opIs w 0x20 0x5
  | .vfma x w => x.ok && opIs w 0x20 0x3
  | .vexp2 x w => x.ok && opIs w 0x21 0x0
  | .vlog2 x w => x.ok && opIs w 0x21 0x1
  | .vrcp x w => x.ok && opIs w 0x21 0x2
  | .vredsum x w => x.ok && opIs w 0x22 0x0
  | .vredmax x w => x.ok && opIs w 0x22 0x1
  | .vredmin x w => x.ok && opIs w 0x22 0x2
  | .vcmpEq x w => x.ok && opIs w 0x23 0x0
  | .vcmpLt x w => x.ok && opIs w 0x23 0x1
  | .vcmpLe x w => x.ok && opIs w 0x23 0x2
  | .vbcast x w => x.ok && opIs w 0x24 0
  | .vext x w => x.ok && opIs w 0x25 0
  | .vsel x w => x.ok && opIs w 0x26 0
  | .vcvt x w => x.ok && opcIs w 0x27
  | .vld x w => x.ok && opIs w 0x30 0
  | .vst x w => x.ok && opIs w 0x31 0
  | .tld x w => x.ok && opIs w 0x32 0
  | .tst x w => x.ok && opIs w 0x33 0
  | .ldg x w => x.ok && opIs w 0x34 0
  | .stg x w => x.ok && opIs w 0x35 0
  | .mma x w => x.ok && opcIs w 0x38
  | .mmaStart x => x.ok
  | .expand x w => x.ok && opIs w 0x39 0
  | .expandStart x => x.ok
  | .tzero x w => x.ok && opIs w 0x3A 0
  | .ldLoc x w => x.ok && opIs w 0x40 0
  | .stLoc x w => x.ok && opIs w 0x41 0
  | .ldH x w => x.ok && opIs w 0x42 0
  | .stH x w => x.ok && opIs w 0x43 0
  | .stHTok x w => x.ok && opIs w 0x43 1
  | .memoryOpComplete x entry _ => x.ok && decide (entry < 32)
  | .flushRange x w => x.ok && opIs w 0x44 0
  | .nbFill x w => x.ok && opIs w 0x45 0
  | .nbCopy x w => x.ok && opIs w 0x45 1
  | .nbCompareEqual x w => x.ok && opIs w 0x45 2
  | .nbSum x w => x.ok && opIs w 0x45 3
  | .nbMax x w => x.ok && opIs w 0x45 4
  | .nbMin x w => x.ok && opIs w 0x45 5
  | .nbOrderedCompare x w => x.ok && opIs w 0x45 6
  | .nbWindowStart stack refusing => decide (stack < 16) && refusing.all (fun c => decide (c < 128))
  | .nbComplete stack => decide (stack < 16)
  | .dmaPost x w => x.ok && opIs w 0x46 0
  | .engineDescriptorStart bay => decide (bay < 16)
  | .compressGroup bay _ => decide (bay < 16)
  | .expandSheets bay _ => decide (bay < 16)
  | .buildSketches bay _ => decide (bay < 16)
  | .moveSheets bay _ => decide (bay < 16)
  | .discardT3Range bay => decide (bay < 16)
  | .copyT3 bay => decide (bay < 16)
  | .heatReport bay => decide (bay < 16)
  | .movePartnerAck bay _ => decide (bay < 16)
  | .engineOpComplete bay => decide (bay < 16)
  | .attnStep x w => x.ok && opIs w 0x50 0
  | .partnerFetchDone x _ => x.ok
  | .sketchRank x w => x.ok && opIs w 0x51 0
  | .glaze x w => x.ok && opIs w 0x52 0
  | .glazeEmpty x w => x.ok && opIs w 0x52 1
  | .catSearch x w => x.ok && opIs w 0x58 0
  | .searchAdmission bay => decide (bay < 16)
  | .searchResult x => x.ok
  | .catWr x w => x.ok && opcIs w 0x59
  | .catRd x w => x.ok && opcIs w 0x5A
  | .catAccessCommit _ => true
  | .wrimm x w => x.ok && opIs w 0x60 0
  | .send x w => x.ok && opIs w 0x61 0
  | .recv x w => x.ok && opIs w 0x62 0
  | .launch x w => x.ok && opIs w 0x68 0
  | .resume x w => x.ok && opIs w 0x69 0
  | .dbRing x w => x.ok && opIs w 0x6A 0
  | .wait x w => x.ok && opIs w 0x6B 0
  | .sleep x w => x.ok && opIs w 0x6C 0
  | .dbpop x w => x.ok && opIs w 0x6D 0
  | .waitResume x => x.ok
  | .fenceEasel x w => x.ok && opIs w 0x70 0
  | .fenceBay x w => x.ok && opIs w 0x70 1
  | .fenceBayBarrier x w => x.ok && opIs w 0x70 2
  | .fenceNode x w => x.ok && opIs w 0x70 3
  | .fencePair x w => x.ok && opIs w 0x70 4
  | .fencePeer x w => x.ok && opIs w 0x70 5
  | .fenceComplete x => x.ok
  | .barrierTimeout x => x.ok
  | .rdgc x w => x.ok && opIs w 0x78 0
  | .perfRd x w => x.ok && opIs w 0x79 0
  | .trace x w => x.ok && opIs w 0x7A 0
  | .runLimitExpiry x => x.ok
  | .launchAccept bay => decide (bay < 16)
  | .launchPlace bay => decide (bay < 16)
  | .launchFirstInstruction x => x.ok
  | .doorbellArrival bay db _ => decide (bay < 16) && decide (db < 64)
  | .bayTimerExpiry bay timer => decide (bay < 16) && decide (timer < 8)
  | .easelCtrlStop x => x.ok
  | .easelCtrlResume x => x.ok
  | .easelCtrlReset x => x.ok
  | .bayProgUpperWrite bay entry _ => decide (bay < 16) && decide (entry < 64)
  | .bayProgCommit bay entry _ => decide (bay < 16) && decide (entry < 64)
  | .catCtrlStart _ => true
  | .catCtrlFlip => true
  | .catCtrlAbort => true
  | .catCtrlKeep => true
  | .rebuildFillDone => true
  | .flipRound => true
  | .catJrnlpop => true
  | .catScrubStep => true
  | .bayCmpStatclr bay => decide (bay < 16)
  | .baySpsClr bay => decide (bay < 16)
  | .wsLaneStart bay lane => decide (bay < 16) && decide (lane < 12)
  | .wsLaneStop bay lane => decide (bay < 16) && decide (lane < 12)
  | .wsEnableWrite bay _ => decide (bay < 16)
  | .keyslotWrite bay slot => decide (bay < 16) && decide (slot < 65536)
  | .wsStrokeIssue bay => decide (bay < 16)
  | .wsStrokeLand bay lane => decide (bay < 16) && decide (lane < 12)
  | .wsReleasedSample bay lane => decide (bay < 16) && decide (lane < 12)
  | .wsStrokeRetry bay lane => decide (bay < 16) && decide (lane < 12)
  | .accessAdmission stack accesses =>
    decide (stack < 16) && accesses.all fun a => decide (a.addr < stackStrokes) && decide (a.sourceBay < 16)
  | .strokeReadComplete stack addr slot _ _ => decide (stack < 16) && decide (addr < stackStrokes) && decide (slot < 65536)
  | .pageBufferWrite stack addr slot _ offset data => decide (stack < 16) && decide (addr < stackStrokes) && decide (slot < 65536)
      && decide (offset + data.length ≤ 512)
  | .writeBackAdmit stack => decide (stack < 16)
  | .meshTransferEnter transfers => transfers.all fun t => decide (t.src < 16) && decide (t.dst < 16)
  | .frameStart temps die => temps.length == 16 && temps.all (decide <| · < 256) && decide (die < 256)
  | .stackTripSelfref stack => decide (stack < 16)
  | .refreshWindow stack channel _ => decide (stack < 16) && decide (channel < 128)
  | .scrubWindow stack channel _ => decide (stack < 16) && decide (channel < 128)
  | .rowRemapCommit stack => decide (stack < 16)
  | .baySlotmapWrite bay _ => decide (bay < 16)
  | .bayRegionWrite bay region _ => decide (bay < 16) && decide (region < 16)
  | .stackRetrain stack => decide (stack < 16)
  | .stackRetrainDone stack => decide (stack < 16)
  | .heatTick bay => decide (bay < 16)
  | .heatSweepStep bay => decide (bay < 16)
  | .bayHeatClear bay => decide (bay < 16)
  | .extentWithdraw extent => decide (extent < 256)
  | .extentGone extent => decide (extent < 256)
  | .flashFormat => true
  | .flashCkpt => true
  | .flashMapbaseWrite channel _ => decide (channel < 32)
  | .flashMapRebuildDone channel => decide (channel < 32)
  | .flashPageReadDone channel lpage bits => decide (channel < 32) && pageCh lpage == channel && bits.length == 4
  | .flashPageProgrammed channel lpage _ _ => decide (channel < 32) && pageCh lpage == channel
  | .flashCheckpoint channel => decide (channel < 32)
  | .garbageCollect channel _ => decide (channel < 32)
  | .patrolRead channel lpage bits => decide (channel < 32) && pageCh lpage == channel && bits.length == 4
  | .portEnable port _ => decide (port < 8)
  | .portReneg port => decide (port < 8)
  | .portSignalDetect port => decide (port < 8)
  | .portTrainDone port locked => decide (port < 8) && decide (locked < 256)
  | .capabilityPageReceived port _ => decide (port < 8)
  | .portExchangeTimeout port => decide (port < 8)
  | .portSettleCheck port _ => decide (port < 8)
  | .portDown port => decide (port < 8)
  | .ferruleChange port _ => decide (port < 8)
  | .frameReceive port _ _ _ => decide (port < 8)
  | .packetAdmit port _ => decide (port < 8)
  | .packetPlaced conn cclass _ _ _ => decide (cclass < 2) && decide (conn < if cclass = 1 then 2 ^ 20 else 4096)
  | .messageComplete conn cclass _ => decide (cclass < 2) && decide (conn < if cclass = 1 then 2 ^ 20 else 4096)
  | .ackDelayExpiry conn cclass => decide (cclass < 2) && decide (conn < if cclass = 1 then 2 ^ 20 else 4096)
  | .ackReceive _ => true
  | .completeReceive _ => true
  | .rtoExpiry conn psn => decide (conn < 4096) && decide (psn < 65536)
  | .retransmit conn psn => decide (conn < 4096) && decide (psn < 65536)
  | .resyncSend conn => decide (conn < 4096)
  | .resyncReceive port _ => decide (port < 8)
  | .fabConnopWrite conn => decide (conn < 4096)
  | .fabConnopRead conn => decide (conn < 4096)
  | .fabRegopWrite index => decide (index < 65536)
  | .fabRegopRead index => decide (index < 65536)
  | .fabRegopRevoke index => decide (index < 65536)
  | .revokeDrained index => decide (index < 65536)
  | .revdrainExpiry index => decide (index < 65536)
  | .fabCliopInval conn => decide (conn < 2 ^ 20)
  | .clientRecordFetched conn record => decide (conn < 2 ^ 20) && record.length == 256
  | .fabIdWrite _ => true
  | .messageEnqueue conn firstPsn => decide (conn < 4096) && decide (firstPsn < 65536)
  | .schedSelect inst => decide (inst < 10)
  | .bucketRefill => true
  | .schedSubopWrite inst queue => decide (inst < 10) && decide (queue < 65536)
  | .schedSubopRead inst queue => decide (inst < 10) && decide (queue < 65536)
  | .polOpWrite index => decide (index < 65536)
  | .polOpRead index => decide (index < 65536)
  | .polNcopWrite conn => decide (conn < 4096)
  | .polNcopRead conn => decide (conn < 4096)
  | .sampleStart => true
  | .mirrorApply op => decide (op.bay < 16) && decide (op.unit < 7) && decide (op.pf < 2 ^ 18)
  | .mirrorAckReceive _ _ => true
  | .pairLinkChange groups => decide (groups < 16)
  | .partnerUnreachable => true
  | .pairholdExpiry => true
  | .pairResyncStart _ => true
  | .pairResyncDone copies => copies.all fun u => decide (u.pf < 2 ^ 18) && decide (u.unit < 4)
  | .auditStep copies => copies.all fun u => decide (u.pf < 2 ^ 18) && decide (u.unit < 4)
  | .epochInstall record => decide (record.changes.length ≤ 16)
  | .graceClose _ => true
  | .mapPlan => true
  | .mapSeed => true
  | .mapMemberopWrite node => decide (node < 1024)
  | .mapMemberopRead node => decide (node < 1024)
  | .mapFwdopWrite index => decide (index < 16384)
  | .mapFwdopRead index => decide (index < 16384)
  | .heartbeatSend => true
  | .heartbeatReceive node _ => decide (node < 1024)
  | .suspectExpiry node => decide (node < 1024)
  | .suspectReceive watcher subject _ => decide (watcher < 1024) && decide (subject < 1024)
  | .confirmExpiry node => decide (node < 1024)
  | .proposeReceive proposer record => decide (proposer < 1024) && decide (record.changes.length ≤ 16)
  | .acceptReceive node _ => decide (node < 1024)
  | .commitReceive node record => decide (node < 1024) && decide (record.changes.length ≤ 16)
  | .abortReceive node _ accepted => decide (node < 1024) && decide (accepted < 4096)
  | .accwaitExpiry => true
  | .reproposeTimerExpiry => true
  | .fetchReceive node _ => decide (node < 1024)
  | .isolateExpiry => true
  | .leaseTake queue => decide (queue < 64)
  | .leaseWrite queue => decide (queue < 64)
  | .leaseFence queue => decide (queue < 64)
  | .leaseDrop queue => decide (queue < 64)
  | .leaseRenew queue => decide (queue < 64)
  | .leaseExpiry pf line => decide (pf < 2 ^ 18) && decide (line < 2)
  | .easelFailure x => x.ok
  | .spareSwitchInDone x => x.ok
  | .mailboxGo channel => decide (channel < 2)
  | .mailboxTake => true
  | .idGet => true
  | .attest => true
  | .keyNonce => true
  | .keyInstall _ => true
  | .keyGen _ => true
  | .keyDestroy => true
  | .keyDestroyEffect slot => decide (slot < 65536)
  | .pendingDestroyDeliver => true
  | .keyQuery => true
  | .digestReg => true
  | .digestDereg => true
  | .confEnter _ => true
  | .confExit => true
  | .fwWrite => true
  | .fwVerify => true
  | .fwArm => true
  | .fwDisarm => true
  | .fwActivationDone => true
  | .fwActivationRollback => true
  | .licInstall => true
  | .recover => true
  | .decommission => true
  | .rotWatchdogExpiry => true
  | .pairKeyEstablish _ => true
  | .idleGate x => x.ok
  | .easelWakeDone x => x.ok
  | .bayDeepEntry bay => decide (bay < 16)
  | .bayWake bay easels _ => decide (bay < 16) && decide (easels < 4096)
  | .bayActive bay => decide (bay < 16)
  | .pwrN1 => true
  | .pwrN2 _ => true
  | .pwrN3 => true
  | .pwrWake => true
  | .portNarrowing port => decide (port < 8)
  | .pairWake => true
  | .n2ExitDone => true
  | .supplySample rails => rails.levels.length == 32
  | .brakeRelease => true
  | .longBrakeExpiry => true
  | .ageingPass readings => readings.all AgeReading.ok
  | .freqBinWrite bin => decide (bin < 4)
  | .relockDone => true
  | .pllLockRetry unit _ => decide (unit < 17)
  | .crystalLoss => true
  | .globalResetBay bay => decide (bay < 16)
  | .globalResetPart part => decide (part < 4)
  | .globalResetWarm => true
  | .globalResetCold => true
  | .warmRstPin => true
  | .coldRstPin => true
  | .resetDrainEnd => true
  | .resetRelease _ => true
  | .rotImageVerified _ => true
  | .bayReady bay _ => decide (bay < 16)
  | .stackReady stack _ => decide (stack < 16)
  | .pairLinkTrained groups => decide (groups < 16)
  | .flashInterfaceTrained channel _ => decide (channel < 32)
  | .repairRecordAppend => true
  | .perstChange function _ => decide (function < 2)
  | .hostLinkChange function rate width => decide (function < 2) && decide (rate < 8) && [0, 4, 8, 16].contains width
  | .registerWrite path offset _ _ => decide (offset < 0x4010000) && (match path with | .bar0 f => decide (f < 2) | _ => true)
  | .hqCfgEnable queue _ => decide (queue < 64)
  | .hqSqtail queue tail => decide (queue < 64) && decide (tail < 65536)
  | .hqCqhead queue head => decide (queue < 64) && decide (head < 65536)
  | .queueFetch queue => decide (queue < 64)
  | .mgmtTransmit queue => decide (queue < 64)
  | .mgmtReceivePost queue => decide (queue < 64)
  | .mgmtFrameReceive port _ => decide (port < 8)
  | .cpltoExpiry _ => true
  | .eventRecordPlace => true
  | .bar4Read function _ len _ => decide (function < 2) && decide (1 ≤ len) && decide (len ≤ 4096)
  | .bar4Write function _ data _ => decide (function < 2) && decide (1 ≤ data.length) && decide (data.length ≤ 4096)
  | .railsOkLow => true
  | .crystalReturn => true
  | .groundSupplyReturn => true
  | .flashChannelFailure channel => decide (channel < 32)
  | .flashChannelRetrain channel => decide (channel < 32)
  | .suspectResend node => decide (node < 1024)
  | .hostReadCompletion _ _ => true
  | .avsbusAcknowledge rail => decide (2 ≤ rail) && decide (rail < 19)
  | .flashFormatDone => true

end Sys2Proof
end

