-- ==== Sys2Proof/Safety.lean ====
section
/-! DEFINITION. What the statements about the node are said with: when an instruction runs, what a command leaves alone, and the
invariant of every step. -/

namespace Sys2Proof

open Sys2Proof.Machine

/-- The easel, the word and the operand forms of a Drevos command (R111 to R114); `none` for every other command. -/
def Instr.issued (i : Instr) : Option (Ea × Word × Issue) :=
  match i with
  | .nop x w => some (x, w, { sh := shI .z .z 0, legal := opIs w 0x00 0 })
  | .add x w => some (x, w, { sh := shR .g .g .g .z })
  | .sub x w => some (x, w, { sh := shR .g .g .g .z })
  | .andG x w => some (x, w, { sh := shR .g .g .g .z })
  | .orG x w => some (x, w, { sh := shR .g .g .g .z })
  | .xor x w => some (x, w, { sh := shR .g .g .g .z })
  | .shl x w => some (x, w, { sh := shR .g .g .g .z })
  | .shr x w => some (x, w, { sh := shR .g .g .g .z })
  | .sar x w => some (x, w, { sh := shR .g .g .g .z })
  | .mul x w => some (x, w, { sh := shR .g .g .g .z })
  | .min x w => some (x, w, { sh := shR .g .g .g .z })
  | .max x w => some (x, w, { sh := shR .g .g .g .z })
  | .minu x w => some (x, w, { sh := shR .g .g .g .z })
  | .maxu x w => some (x, w, { sh := shR .g .g .g .z })
  | .addi x w => some (x, w, { sh := shI .g .g 37 })
  | .subi x w => some (x, w, { sh := shI .g .g 37 })
  | .andi x w => some (x, w, { sh := shI .g .g 37 })
  | .ori x w => some (x, w, { sh := shI .g .g 37 })
  | .xori x w => some (x, w, { sh := shI .g .g 37 })
  | .shli x w => some (x, w, { sh := shI .g .g 37 })
  | .shri x w => some (x, w, { sh := shI .g .g 37 })
  | .sari x w => some (x, w, { sh := shI .g .g 37 })
  | .muli x w => some (x, w, { sh := shI .g .g 37 })
  | .mini x w => some (x, w, { sh := shI .g .g 37 })
  | .maxi x w => some (x, w, { sh := shI .g .g 37 })
  | .minui x w => some (x, w, { sh := shI .g .g 37 })
  | .maxui x w => some (x, w, { sh := shI .g .g 37 })
  | .aluL x w _ => some (x, w, { sh := shI .g .g 0, legal := decide (fnOf w ≤ 0xC), len := 2 })
  | .cmpEq x w => some (x, w, { sh := shR .p .g .g .z })
  | .cmpNe x w => some (x, w, { sh := shR .p .g .g .z })
  | .cmpLt x w => some (x, w, { sh := shR .p .g .g .z })
  | .cmpLe x w => some (x, w, { sh := shR .p .g .g .z })
  | .cmpLtu x w => some (x, w, { sh := shR .p .g .g .z })
  | .cmpLeu x w => some (x, w, { sh := shR .p .g .g .z })
  | .movi x w => some (x, w, { sh := shI .g .z 37 })
  | .moviL x w _ => some (x, w, { sh := shI .g .z 0, len := 2 })
  | .br x w => some (x, w, { sh := shI .z .z 13 })
  | .bz x w => some (x, w, { sh := shI .z .g 13 })
  | .bnz x w => some (x, w, { sh := shI .z .g 13 })
  | .bp x w => some (x, w, { sh := shI .z .p 13 })
  | .jr x w => some (x, w, { sh := shR .z .g .z .z })
  | .endProg x w => some (x, w, { sh := shR .z .g .z .z })
  | .vadd x w => some (x, w, { sh := shR .v .v .v .z, vec := true })
  | .vsub x w => some (x, w, { sh := shR .v .v .v .z, vec := true })
  | .vmul x w => some (x, w, { sh := shR .v .v .v .z, vec := true })
  | .vmax x w => some (x, w, { sh := shR .v .v .v .z, vec := true })
  | .vmin x w => some (x, w, { sh := shR .v .v .v .z, vec := true })
  | .vfma x w => some (x, w, { sh := shR .v .v .v .v, vec := true })
  | .vexp2 x w => some (x, w, { sh := shR .v .v .z .z, vec := true })
  | .vlog2 x w => some (x, w, { sh := shR .v .v .z .z, vec := true })
  | .vrcp x w => some (x, w, { sh := shR .v .v .z .z, vec := true })
  | .vredsum x w => some (x, w, { sh := shR .g .v .z .z, vec := true })
  | .vredmax x w => some (x, w, { sh := shR .g .v .z .z, vec := true })
  | .vredmin x w => some (x, w, { sh := shR .g .v .z .z, vec := true })
  | .vcmpEq x w => some (x, w, { sh := shR .p .v .v .z, vec := true })
  | .vcmpLt x w => some (x, w, { sh := shR .p .v .v .z, vec := true })
  | .vcmpLe x w => some (x, w, { sh := shR .p .v .v .z, vec := true })
  | .vbcast x w => some (x, w, { sh := shR .v .g .z .z, vec := true })
  | .vext x w => some (x, w, { sh := shI .g .v 7, vec := true })
  | .vsel x w => some (x, w, { sh := shR .v .v .v .p, vec := true })
  | .vcvt x w =>
    some (x, w, { sh := { form := .r, rd := .v, ra := .v, tail := 2 }, legal := decide (1 ≤ fnOf w ∧ fnOf w ≤ 8), vec := true })
  | .vld x w => some (x, w, { sh := shM .v .g .z })
  | .vst x w => some (x, w, { sh := shM .v .g .z })
  | .tld x w => some (x, w, { sh := shM .t .g .z })
  | .tst x w => some (x, w, { sh := shM .t .g .z })
  | .ldg x w => some (x, w, { sh := shM .g .g .z })
  | .stg x w => some (x, w, { sh := shM .g .g .z })
  | .mma x w =>
    some (x, w, { sh := { form := .r, rd := .t, ra := .t, rb := .t, rc := if decide (5 ≤ fnOf w) then .vp else .z }
                  legal := decide (fnOf w ≤ 8), tiles := false })
  | .expand x w => some (x, w, { sh := shR .t .g .z .z, tiles := false })
  | .tzero x w => some (x, w, { sh := shR .t .z .z .z })
  | .ldLoc x w => some (x, w, { sh := shRO .g .g .gp .g })
  | .stLoc x w => some (x, w, { sh := shRO .g .g .gp .g })
  | .ldH x w => some (x, w, { sh := shRO .g .g .g .g })
  | .stH x w => some (x, w, { sh := shRO .g .g .g .g })
  | .stHTok x w => some (x, w, { sh := shRO .g .g .gp .z })
  | .flushRange x w => some (x, w, { sh := shR .g .z .g .g })
  | .nbFill x w => some (x, w, { sh := shM .g .g .z })
  | .nbCopy x w => some (x, w, { sh := shM .g .g .z })
  | .nbCompareEqual x w => some (x, w, { sh := shM .g .g .z })
  | .nbSum x w => some (x, w, { sh := shM .g .g .z })
  | .nbMax x w => some (x, w, { sh := shM .g .g .z })
  | .nbMin x w => some (x, w, { sh := shM .g .g .z })
  | .nbOrderedCompare x w => some (x, w, { sh := shM .g .g .z })
  | .dmaPost x w => some (x, w, { sh := shM .g .g .z })
  | .attnStep x w => some (x, w, { sh := shR .g .g .z .z })
  | .sketchRank x w => some (x, w, { sh := shR .g .g .z .z })
  | .glaze x w => some (x, w, { sh := shR .g .g .z .z })
  | .glazeEmpty x w => some (x, w, { sh := shR .g .z .z .z })
  | .catSearch x w => some (x, w, { sh := shR .gp .gp (if rbOf w = 0 then .z else .gp) .z })
  | .catWr x w => some (x, w, { sh := shR .g .g .g .z, legal := decide (fnOf w ≤ 1) })
  | .catRd x w => some (x, w, { sh := shR .g .g .g .z, legal := decide (fnOf w ≤ 1) })
  | .wrimm x w => some (x, w, { sh := shR .g .g .z .z })
  | .send x w => some (x, w, { sh := shR .g .g .z .z })
  | .recv x w => some (x, w, { sh := shR .g .g .z .z })
  | .launch x w => some (x, w, { sh := shR .g .g .g .z })
  | .resume x w => some (x, w, { sh := shR .g .g .z .z })
  | .dbRing x w => some (x, w, { sh := shR .z .g .g .z })
  | .wait x w => some (x, w, { sh := shR .gp .g .g .z })
  | .sleep x w => some (x, w, { sh := shR .gp .g .g .z })
  | .dbpop x w => some (x, w, { sh := shR .g .g .z .z })
  | .fenceEasel x w => some (x, w, { sh := shR .z .z .z .z })
  | .fenceBay x w => some (x, w, { sh := shR .z .z .z .z })
  | .fenceBayBarrier x w => some (x, w, { sh := shR .z .g .g .z })
  | .fenceNode x w => some (x, w, { sh := shR .z .z .z .z })
  | .fencePair x w => some (x, w, { sh := shR .z .z .z .z })
  | .fencePeer x w => some (x, w, { sh := shR .z .g .z .z })
  | .rdgc x w => some (x, w, { sh := shR .g .z .z .z })
  | .perfRd x w => some (x, w, { sh := shI .g .z 8 })
  | .trace x w => some (x, w, { sh := shR .z .g .z .z })
  | _ => none

end Sys2Proof

namespace Sys2Proof.Machine

/-- A word is legal for its instruction (R112, R113). -/
def State.legalFor (s : State) (x : Ea) (w : Word) (i : Issue) : Bool :=
  i.sh.legal w && i.legal && (i.len == 1 || decide (s.pc x + 1 < (s.ex x).imgLen))

/-- A guard lets its instruction execute (R114): bit 0 is set, or the instruction selects lanes by it. -/
def State.guardOn (s : State) (x : Ea) (w : Word) (i : Issue) : Bool := i.vec || (s.pr x (pgOf w)).getLsbD 0

/-- An instruction runs: its easel can issue, its word is legal, its guard lets it execute and no register or tile it names is
awaited (R91, R113 to R115, R117, R125). -/
def runs (i : Instr) (s : State) : Bool :=
  i.wf &&
    match i.issued with
    | some (x, w, iss) => s.canIssue x && s.legalFor x w iss && s.guardOn x w iss && !s.stalls x iss.sh w iss.tiles
    | none => false

/-- The visits of an ATTN.STEP or SKETCH.RANK made one after another, where none waits and none ends the run before its last. -/
def visitsAll (x : Ea) (d : AttnDesc) (p : Pf) : List Nat → RunX → State → Option (RunX × State)
  | [], r, s => some (r, s)
  | v :: vs, r, s =>
    if s.pfCode d.pf p = cKey then none
    else
      match if r.rank then s.rankVisit x p d r v none 1 else s.attnVisit x p d r v none with
      | .next r' s' => visitsAll x d p vs { r' with live := false } s'
      | _ => none

/-- Two states hold the same registers of every easel: the general, vector, tile and predicate registers. -/
def SameRegisters (s t : State) : Prop := t.g = s.g ∧ t.v = s.v ∧ t.t = s.t ∧ t.p = s.p

/-- Every byte of memory reads the same in two states. -/
def SameMemory (s t : State) : Prop := ∀ a, t.byte a = s.byte a

/-- Every byte outside the `n` bytes from `a` on reads the same in two states. -/
def SameMemoryOutside (s t : State) (a n : Nat) : Prop := ∀ b, b < a ∨ a + n ≤ b → t.byte b = s.byte b

/-- A byte outside the map region of every flash channel (R329), which follows the map and the erase counts. -/
def OutsideMaps (s : State) (a : Nat) : Prop :=
  ∀ c, c < 32 → let lo := 512 * (locMem (s.fld (Reg.flashChMapbase c) Reg.flashChMapbase_LOC) / 512)
    a < lo ∨ lo + 4 * (s.chPages + 1 + (s.fch c).luns * (s.fch c).perLun) ≤ a

/-- The invariant of the node that every step keeps: its memory is in its canonical form. -/
def Inv (s : State) : Prop := Memory.wf s.mem = true

end Sys2Proof.Machine
end

