-- ==== Sys2Proof/Certificates/Slice0/Obligations.lean ====
section
/-! DEFINITION. The statements about the node. -/

open Sys2Proof Sys2Proof.Machine

/-- A step of a state with a command at the front of its queue is the command's effect on the state with the queue's rest; on an
empty queue the node idles: one crystal cycle passes, and the invalidations whose time is over are cut. The queue and what an
empty queue does are the model's own (log entries 2, 20 and 28). (00_scope, 98_reader) -/
def Obligations.StepRunsTheFrontCommand : Prop :=
  (∀ (c : Instr) (rest : List Instr) (s : State), s.pending = c :: rest → step s = exec c { s with pending := rest }) ∧
    (∀ s : State, s.pending = [] → step s = .next s.idle ∧ s.idle = s.tick.invalDue ∧
      (s.fab.conns.all (fun k => k.2.inval.isNone) = true → s.idle = s.tick))

/-- Every command of the table answers a next state in every state when it names units the node has and its word is of its row,
and is refused as ill formed otherwise: no command of the table stops the node. That other commands are refused is the model's
choice (log entry 40). (R15, R110, R111, R113) -/
def Obligations.IllFormedCommandsAreRefused : Prop :=
  ∀ (c : Instr) (s : State),
    (c.wf = true → ∃ t, exec c s = .next t) ∧ (c.wf = false → exec c s = .refused .illFormed)

/-- For every Drevos instruction: on an easel that cannot issue nothing happens; on one that can, a word that is not legal raises
the illegal-encoding exception whatever its guard; a legal word whose guard is clear only moves the program counter past its
words; and one that names an awaited register or tile does nothing until it is issued again. (R91, R112, R113, R114, R115, R117,
R125, R572) -/
def Obligations.DrevosInstructionsIssueInOrder : Prop :=
  ∀ (c : Instr) (s : State) (x : Ea) (w : Word) (i : Issue), c.issued = some (x, w, i) → c.wf = true →
    (s.canIssue x = false → exec c s = .next s) ∧
    (s.canIssue x = true → s.legalFor x w i = false → exec c s = .next (s.illegal x)) ∧
    (s.canIssue x = true → s.legalFor x w i = true → s.guardOn x w i = false → exec c s = .next (s.advance x i.len)) ∧
    (s.canIssue x = true → s.legalFor x w i = true → s.guardOn x w i = true → s.stalls x i.sh w i.tiles = true →
      exec c s = .next s)

/-- A precise exception of an easel of the die with no imprecise one pending leaves its program counter and every register of
every easel and all memory as they were, sets its state to stopped, and writes code, PRECISE, INFO and the program counter to
EASEL.EXC and the location to EASEL.EXCADDR; the event log, while the on-die buffer has room, gets a record of kind 0x03, and one
of kind 0x04 after it where the program is a fault-response program, which is then also kept from being launched. While imprecise
exceptions are pending, the one that is first in program order is taken in its place. (R100, R103, R108) -/
def Obligations.ExceptionsStopTheEasel : Prop :=
  ∀ (s : State) (x : Ea) (code info loc : Nat), x.ok = true → code < 256 → info < 2 ^ 32 → loc < 2 ^ 48 →
    (∀ f, firstFault (s.ex x).faults = some f → s.raise x true code info loc = s.raise x false f.code f.info f.loc) ∧
    ((s.ex x).faults = [] →
    (s.raise x true code info loc).pc x = s.pc x ∧
    (s.raise x true code info loc).est x = stStopped ∧
    SameRegisters s (s.raise x true code info loc) ∧ (s.raise x true code info loc).mem = s.mem ∧
    (s.raise x true code info loc).fld (Reg.easelExc x.bay x.easel) Reg.easelExc_CODE = code ∧
    (s.raise x true code info loc).fld (Reg.easelExc x.bay x.easel) Reg.easelExc_EPC = s.pc x ∧
    (s.raise x true code info loc).fld (Reg.easelExc x.bay x.easel) Reg.easelExc_PRECISE = 1 ∧
    (s.raise x true code info loc).fld (Reg.easelExc x.bay x.easel) Reg.easelExc_INFO = info ∧
    ((s.raise x true code info loc).reg (Reg.easelExcaddr x.bay x.easel)).toNat = loc ∧
    (s.host.evBuf.length + (if (s.ex x).role = 5 then 2 else 1) ≤ 512 →
      (s.raise x true code info loc).host.evBuf.length = s.host.evBuf.length + (if (s.ex x).role = 5 then 2 else 1) ∧
      ((s.raise x true code info loc).host.evBuf.getLast?.map fun r => bf (r.headD 0) 0 8) =
        some (if (s.ex x).role = 5 then 0x04 else 0x03)) ∧
    ((s.ex x).role = 5 →
      ((s.raise x true code info loc).bay x.bay).blocked.contains
        (s.fld (Reg.easelStatus x.bay x.easel) Reg.easelStatus_PROG) = true))

/-- Each scalar operation of two registers writes its result to gD (a write of g0 is discarded), and moves the program counter
past its word: ADD, SUB, AND, OR, XOR, the shifts by the low six bits of gB, the low word of the product, and the signed and
unsigned minimum and maximum. Nothing else changes. The immediate forms take the 37-bit IMM sign-extended as their second operand,
MOVI writes it, and the long forms take the 64-bit LIMM and move the program counter past both words. Nothing else changes. Each
compare sets all 128 lanes of pD when its relation holds of gA and gB and clears them when it does not (a write of p0 is
discarded), and moves the program counter past its word. Nothing else changes. BR always, BZ and BNZ on gA, BP on lane 0 of pA:
taken, the program counter becomes IMM[12:0]; not taken, it moves past the word; JR sets it to gA[12:0]. A taken target at or
above the image length raises the illegal-encoding exception. Nothing else changes. (R73, R111, R112, R119) -/
def Obligations.ScalarResultsComparesAndBranches : Prop :=
  (
  ∀ (x : Ea) (w : Word) (s : State),
    let a := s.gr x (raOf w)
    let b := s.gr x (rbOf w)
    let res (v : Word) : Host.Outcome State Fault Refusal := .next ((s.setG x (rdOf w) v).advance x 1)
    (runs (.nop x w) s = true → opIs w 0x00 0 = true → exec (.nop x w) s = .next (s.advance x 1)) ∧
    (runs (.add x w) s = true → exec (.add x w) s = res (a + b)) ∧
    (runs (.sub x w) s = true → exec (.sub x w) s = res (a - b)) ∧
    (runs (.andG x w) s = true → exec (.andG x w) s = res (a &&& b)) ∧
    (runs (.orG x w) s = true → exec (.orG x w) s = res (a ||| b)) ∧
    (runs (.xor x w) s = true → exec (.xor x w) s = res (a ^^^ b)) ∧
    (runs (.shl x w) s = true → exec (.shl x w) s = res (a <<< (b.toNat % 64))) ∧
    (runs (.shr x w) s = true → exec (.shr x w) s = res (a >>> (b.toNat % 64))) ∧
    (runs (.sar x w) s = true → exec (.sar x w) s = res (a.sshiftRight (b.toNat % 64))) ∧
    (runs (.mul x w) s = true → exec (.mul x w) s = res (a * b)) ∧
    (runs (.min x w) s = true → exec (.min x w) s = res (if a.slt b then a else b)) ∧
    (runs (.max x w) s = true → exec (.max x w) s = res (if a.slt b then b else a)) ∧
    (runs (.minu x w) s = true → exec (.minu x w) s = res (if a.ult b then a else b)) ∧
    (runs (.maxu x w) s = true → exec (.maxu x w) s = res (if a.ult b then b else a))) ∧
  (
  ∀ (x : Ea) (w limm : Word) (s : State),
    let a := s.gr x (raOf w)
    let b : Word := (BitVec.ofNat 37 (w.toNat % 2 ^ 37)).signExtend 64
    let res (v : Word) : Host.Outcome State Fault Refusal := .next ((s.setG x (rdOf w) v).advance x 1)
    (runs (.addi x w) s = true → exec (.addi x w) s = res (a + b)) ∧
    (runs (.subi x w) s = true → exec (.subi x w) s = res (a - b)) ∧
    (runs (.andi x w) s = true → exec (.andi x w) s = res (a &&& b)) ∧
    (runs (.ori x w) s = true → exec (.ori x w) s = res (a ||| b)) ∧
    (runs (.xori x w) s = true → exec (.xori x w) s = res (a ^^^ b)) ∧
    (runs (.shli x w) s = true → exec (.shli x w) s = res (a <<< (b.toNat % 64))) ∧
    (runs (.shri x w) s = true → exec (.shri x w) s = res (a >>> (b.toNat % 64))) ∧
    (runs (.sari x w) s = true → exec (.sari x w) s = res (a.sshiftRight (b.toNat % 64))) ∧
    (runs (.muli x w) s = true → exec (.muli x w) s = res (a * b)) ∧
    (runs (.mini x w) s = true → exec (.mini x w) s = res (if a.slt b then a else b)) ∧
    (runs (.maxi x w) s = true → exec (.maxi x w) s = res (if a.slt b then b else a)) ∧
    (runs (.minui x w) s = true → exec (.minui x w) s = res (if a.ult b then a else b)) ∧
    (runs (.maxui x w) s = true → exec (.maxui x w) s = res (if a.ult b then b else a)) ∧
    (runs (.movi x w) s = true → exec (.movi x w) s = res b) ∧
    (runs (.aluL x w limm) s = true →
      exec (.aluL x w limm) s = .next ((s.setG x (rdOf w) (aluOp (fnOf w) a limm)).advance x 2)) ∧
    (runs (.moviL x w limm) s = true → exec (.moviL x w limm) s = .next ((s.setG x (rdOf w) limm).advance x 2))) ∧
  (
  ∀ (x : Ea) (w : Word) (s : State),
    let a := s.gr x (raOf w)
    let b := s.gr x (rbOf w)
    let res (r : Bool) : Host.Outcome State Fault Refusal :=
      .next ((s.setP x (rdOf w) (if r then BitVec.allOnes 128 else 0)).advance x 1)
    (runs (.cmpEq x w) s = true → exec (.cmpEq x w) s = res (a == b)) ∧
    (runs (.cmpNe x w) s = true → exec (.cmpNe x w) s = res (a != b)) ∧
    (runs (.cmpLt x w) s = true → exec (.cmpLt x w) s = res (a.slt b)) ∧
    (runs (.cmpLe x w) s = true → exec (.cmpLe x w) s = res (a.sle b)) ∧
    (runs (.cmpLtu x w) s = true → exec (.cmpLtu x w) s = res (a.ult b)) ∧
    (runs (.cmpLeu x w) s = true → exec (.cmpLeu x w) s = res (a.ule b))) ∧
  (
  ∀ (x : Ea) (w : Word) (s : State),
    let go (n : Nat) : Host.Outcome State Fault Refusal :=
      if n < (s.ex x).imgLen then .next (s.setPc x n) else .next (s.illegal x)
    let branch (c : Bool) : Host.Outcome State Fault Refusal :=
      if c then go (w.toNat % 2 ^ 13) else .next (s.advance x 1)
    (runs (.br x w) s = true → exec (.br x w) s = go (w.toNat % 2 ^ 13)) ∧
    (runs (.bz x w) s = true → exec (.bz x w) s = branch (s.gr x (raOf w) == 0)) ∧
    (runs (.bnz x w) s = true → exec (.bnz x w) s = branch (s.gr x (raOf w) != 0)) ∧
    (runs (.bp x w) s = true → exec (.bp x w) s = branch ((s.pr x (raOf w)).getLsbD 0)) ∧
    (runs (.jr x w) s = true → exec (.jr x w) s = go ((s.gr x (raOf w)).toNat % 2 ^ 13)))

/-- With the outstanding-operation table empty of operations in flight, END makes the easel idle 4 ec later and posts the
completion of its launch with code done and status gA[31:0] when no imprecise exception is pending, and otherwise raises the one
that is first in program order; with operations in flight it waits as a fence does. (R82, R100, R120, R154) -/
def Obligations.EndReportsAndReleases : Prop :=
  ∀ (x : Ea) (w : Word) (s : State), runs (.endProg x w) s = true →
    ((s.ex x).outst.all (·.failed) = true → (s.ex x).faults = [] →
      let t := (s.passTo (s.ec + 4)).toIdle x
      t.est x = stIdle ∧ (t.ex x).src = none ∧
        exec (.endProg x w) s = .next (match (s.ex x).src with
          | some l => t.launchDone x l cDone ((s.gr x (raOf w)).toNat % 2 ^ 32)
          | none => t)) ∧
    ((s.ex x).outst.all (·.failed) = true → ∀ f, firstFault (s.ex x).faults = some f →
      exec (.endProg x w) s = .next (s.raise x false f.code f.info f.loc)) ∧
    ((s.ex x).outst.all (·.failed) = false →
      exec (.endProg x w) s = .next (s.updEx x fun y => { y with
        fence := some { kind := .endProg, arg := (s.gr x (raOf w)).toNat % 2 ^ 32, limit := none } }))

/-- Lane by lane, VADD, VSUB, VMUL, VMAX, VMIN and VFMA combine the lanes of their sources, VEXP2, VLOG2 and VRCP map the lane of
theirs, VBCAST copies gA[31:0] and VSEL chooses by pC; the lanes whose guard bit is set take the result, the others keep their
value; the program counter moves past the word and nothing but vD and it changes. The values of the functions on lanes are the
model's own definitions (R121, R167, R168). (R114, R121, R167, R168) -/
def Obligations.VectorArithmeticWritesGuardedLanes : Prop :=
  ∀ (x : Ea) (w : Word) (s : State),
    let a := s.vr x (raOf w)
    let b := s.vr x (rbOf w)
    let c := s.vr x (rcOf w)
    let sets (i : Instr) (f : Nat → Nat) : Prop := runs i s = true →
      ∃ v : Vec, exec i s = .next ((s.setV x (rdOf w) v).advance x 1) ∧
        ∀ k, k < 128 → lane v k = if (s.pr x (pgOf w)).getLsbD k then f k % 2 ^ 32 else lane (s.vr x (rdOf w)) k
    sets (.vadd x w) (fun k => fAdd (lane a k) (lane b k)) ∧
    sets (.vsub x w) (fun k => fSub (lane a k) (lane b k)) ∧
    sets (.vmul x w) (fun k => fMul (lane a k) (lane b k)) ∧
    sets (.vmax x w) (fun k => fMax (lane a k) (lane b k)) ∧
    sets (.vmin x w) (fun k => fMin (lane a k) (lane b k)) ∧
    sets (.vfma x w) (fun k => fFma (lane a k) (lane b k) (lane c k)) ∧
    sets (.vexp2 x w) (fun k => fExp2 (lane a k)) ∧
    sets (.vlog2 x w) (fun k => fLog2 (lane a k)) ∧
    sets (.vrcp x w) (fun k => fRcp (lane a k)) ∧
    sets (.vbcast x w) (fun _ => (s.gr x (raOf w)).toNat) ∧
    sets (.vsel x w) (fun k => if (s.pr x (rcOf w)).getLsbD k then lane a k else lane b k)

/-- VREDSUM, VREDMAX and VREDMIN write to gD[31:0] the tree reduction over the guarded lanes of vA, its NaN in the one produced
form, with gD[63:32] zero; with no lane guarded, on which the spec states no result, gD[31:0] is a free value (log entry 18). The
vector compares write the guarded lanes of pD; VEXT writes lane IMM[6:0] of vA to gD[31:0] with gD[63:32] zero. Nothing else
changes but the program counter and, for a free value, the model's count of draws. Up-conversion (SUB[0] set) writes to the
guarded lanes of vD the exact values of the packed elements of vA in FP32; down-conversion packs the 128 lanes of vA into the
layout of the palette code FN with zeros beyond it, rounding to nearest even, or, with SUB[1] set, stochastically with one draw of
EASEL.SEED per lane, guarded or not, after which EASEL.SEED holds the stepped seed. Nothing else changes but the program counter.
(R114, R121, R122, R160, R164, R165, R166, R167) -/
def Obligations.ReductionsComparesAndConversions : Prop :=
  (
  ∀ (x : Ea) (w : Word) (s : State),
    let a := s.vr x (raOf w)
    let b := s.vr x (rbOf w)
    let g := s.pr x (pgOf w)
    let sel := (List.range 128).map fun k => if g.getLsbD k then some (lane a k) else none
    let reduces (i : Instr) (f : Nat → Nat → Nat) : Prop := runs i s = true →
      (∀ r, reduceTree f 7 sel = some r →
        exec i s = .next ((s.setG x (rdOf w) (BitVec.ofNat 64 (canonNan r))).advance x 1)) ∧
      (reduceTree f 7 sel = none →
        exec i s = .next ((s.draw.2.setG x (rdOf w) (BitVec.ofNat 64 (s.draw.1 % 2 ^ 32))).advance x 1))
    let compares (i : Instr) (r : Fp → Fp → Bool) : Prop := runs i s = true →
      exec i s = .next ((s.setP x (rdOf w) ((s.pr x (rdOf w) &&& ~~~g) ||| (relLanes r a b &&& g))).advance x 1)
    reduces (.vredsum x w) fAdd ∧ reduces (.vredmax x w) fMax ∧ reduces (.vredmin x w) fMin ∧
    compares (.vcmpEq x w) Fp.eq ∧ compares (.vcmpLt x w) Fp.lt ∧
    compares (.vcmpLe x w) (fun p q => p.lt q || p.eq q) ∧
    (runs (.vext x w) s = true →
      exec (.vext x w) s = .next ((s.setG x (rdOf w) (BitVec.ofNat 64 (lane a (w.toNat % 2 ^ 7)))).advance x 1))) ∧
  (
  ∀ (x : Ea) (w : Word) (s : State), runs (.vcvt x w) s = true →
    let v := s.vr x (raOf w)
    let sd := Reg.easelSeed x.bay x.easel
    let str := v.toNat % 2 ^ (8 * palStr (fnOf w) 128)
    let sc := v.toNat / 2 ^ (8 * palStr (fnOf w) 128)
    exec (.vcvt x w) s = .next (
      if w.getLsbD 0 then
        (s.putV x w (ofLanes ((List.range 128).map fun i => toFp32 .near (palDecode (fnOf w) str sc i)))).advance x 1
      else if w.getLsbD 1 then
        ((s.putV x w (BitVec.ofNat 4096 (palEncode (fnOf w) (seedDraws 128 (s.reg sd)).1 (lanes v)))).setReg sd
          (seedDraws 128 (s.reg sd)).2).advance x 1
      else (s.putV x w (BitVec.ofNat 4096 (palEncode (fnOf w) (List.replicate 128 .near) (lanes v)))).advance x 1))

/-- VLD, TLD and LDG at an aligned offset gA + OFF inside the operand store, with no load in flight on its bytes, fill vD, tD or
gD with the bytes there in little-endian order; VST and TST, with no store in flight on them, and STG write the register's bytes
there, and every byte of memory outside them reads as before. Nothing else changes but the program counter. An operand-store load
or store whose offset is not aligned as it requires raises the alignment exception with the offset as its location, whatever its
range; an aligned one whose bytes do not all lie inside the operand store raises the operand-bound exception; neither writes
anything. (R92, R100, R123, R572) -/
def Obligations.OperandStoreAccesses : Prop :=
  (
  ∀ (x : Ea) (w : Word) (s : State),
    let a := s.opAddr x w
    let at_ := opBase x + a.toNat
    let loads (i : Instr) (n align : Nat) (put : List Byte → State) : Prop :=
      runs i s = true → opCheck a n align = none → s.opBusy x a.toNat n false = false →
        exec i s = .next ((put (s.bytes at_ n)).advance x 1)
    let stores (i : Instr) (n align : Nat) (waits : Bool) (bs : List Byte) : Prop :=
      runs i s = true → opCheck a n align = none → (waits = true → s.opBusy x a.toNat n true = false) →
        ∃ t, exec i s = .next t ∧ t = (s.setBytes at_ bs).advance x 1 ∧ t.bytes at_ n = bs ∧ SameMemoryOutside s t at_ n ∧
          SameRegisters s t
    loads (.vld x w) 512 64 (fun bs => s.setV x (rdOf w) (BitVec.ofNat 4096 (bytesNat bs))) ∧
    loads (.tld x w) 4096 64 (fun bs => s.setT x (rdOf w) (BitVec.ofNat 32768 (bytesNat bs))) ∧
    loads (.ldg x w) 8 8 (fun bs => s.setG x (rdOf w) (BitVec.ofNat 64 (bytesNat bs))) ∧
    stores (.vst x w) 512 64 true (natBytes 512 (s.vr x (rdOf w)).toNat) ∧
    stores (.tst x w) 4096 64 true (natBytes 4096 (s.tr x (rdOf w)).toNat) ∧
    stores (.stg x w) 8 8 false (natBytes 8 (s.gr x (rdOf w)).toNat)) ∧
  (
  ∀ (x : Ea) (w : Word) (s : State),
    let a := s.opAddr x w
    let faults (i : Instr) (n align : Nat) : Prop := runs i s = true →
      (a % align ≠ 0 → exec i s = .next (s.raise x true 0x04 0 (narrow 48 a))) ∧
      (a % align = 0 → a < 0 ∨ 0x300000 < a + n → exec i s = .next (s.raise x true 0x03 0 (narrow 48 a)))
    faults (.vld x w) 512 64 ∧ faults (.tld x w) 4096 64 ∧ faults (.ldg x w) 8 8 ∧
    faults (.vst x w) 512 64 ∧ faults (.tst x w) 4096 64 ∧ faults (.stg x w) 8 8)

/-- An MMA that finds the unit free writes tD + tA × tB to tD and keeps the unit busy for 128 ec with its three tiles in use; one
that finds it busy and the queue empty waits there with its scales, with no other effect, and MMA_START then starts it when the
unit frees; one that finds the queue taken, or a tile that an EXPAND is still to write, stalls. TZERO clears tD. (R124, R125,
R161, R169) -/
def Obligations.MatrixUnitAccumulates : Prop :=
  ∀ (x : Ea) (w : Word) (s : State),
    (runs (.mma x w) s = true →
      let y := s.ex x
      let awaited := [rdOf w, raOf w, rbOf w].any fun t => (y.expQ.map (·.1)).contains t
      let start (u : State) : State :=
        (u.setT x (rdOf w) (mmaTile (fnOf w) (u.tr x (rdOf w)).toNat (u.tr x (raOf w)).toNat (u.tr x (rbOf w)).toNat
          (u.vr x (rcOf w)).toNat (u.vr x (rcOf w + 1)).toNat)).updEx x fun y =>
            { y with mmaBusy := u.ec + 128, mmaTiles := [rdOf w, raOf w, rbOf w] }
      (awaited = true ∨ y.mmaQ.isSome = true → exec (.mma x w) s = .next s) ∧
      (awaited = false → y.mmaQ = none → y.mmaBusy ≤ s.ec → exec (.mma x w) s = .next ((start s).advance x 1)) ∧
      (awaited = false → y.mmaQ = none → s.ec < y.mmaBusy →
        exec (.mma x w) s = .next ((s.updEx x fun y => { y with mmaQ := some (w, s.vr x (rcOf w), s.vr x (rcOf w + 1)) }).advance x 1))) ∧
    (∀ va vb, x.ok = true → (s.ex x).mmaQ = some (w, va, vb) → s.ec ≤ (s.ex x).mmaBusy →
      ∃ t, exec (.mmaStart x) s = .next t ∧ (t.ex x).mmaQ = none ∧ (t.ex x).mmaBusy = (s.ex x).mmaBusy + 128 ∧
        (t.ex x).mmaTiles = [rdOf w, raOf w, rbOf w] ∧
        t.tr x (rdOf w) = mmaTile (fnOf w) (s.tr x (rdOf w)).toNat (s.tr x (raOf w)).toNat (s.tr x (rbOf w)).toNat
          va.toNat vb.toNat ∧
        t.g = s.g ∧ t.v = s.v ∧ t.p = s.p ∧ t.mem = s.mem) ∧
    (runs (.tzero x w) s = true → exec (.tzero x w) s = .next ((s.setT x (rdOf w) 0).advance x 1))

/-- An EXPAND on an aligned block inside the operand store that finds the expander free and tD not in use starts at once, and one
that finds it busy waits while at most one other waits, EXPAND_START then starting the first that waits; a started EXPAND of a
sound data block writes its bytes to tD with zeros beyond them, one of a damaged block leaves tD and every other register as they
were and puts exception 0x08 last among those pending. (R126, R127, R176, R177) -/
def Obligations.ExpanderDecodesItsBlock : Prop :=
  ∀ (x : Ea) (w : Word) (s : State),
    let off := (s.gr x (raOf w)).toNat
    let n := max 32 (blockHdr (s.bytes (opBase x + off) 32)).clen
    let bs := s.bytes (opBase x + off) n
    let fits := opCheck (off : Int) n 64 = none ∧ opCheck (off : Int) 32 64 = none ∧ s.opBusy x off n false = false
    (runs (.expand x w) s = true → fits → (s.ex x).expQ = [] → (s.ex x).expBusy ≤ s.ec → s.mmaUses x (rdOf w) = false →
      exec (.expand x w) s = .next ((s.expandBegin x (rdOf w) off bs).advance x 1)) ∧
    (runs (.expand x w) s = true → fits → (s.ex x).expQ.length < 2 →
      (s.ex x).expQ ≠ [] ∨ s.ec < (s.ex x).expBusy ∨ s.mmaUses x (rdOf w) = true →
      exec (.expand x w) s = .next ((s.updEx x fun y => { y with expQ := y.expQ ++ [(rdOf w, off, bs)] }).advance x 1)) ∧
    (runs (.expand x w) s = true → fits → 2 ≤ (s.ex x).expQ.length → exec (.expand x w) s = .next s) ∧
    (∀ td o b l, x.ok = true → (s.ex x).expQ = (td, o, b) :: l → (s.ex x).expBusy ≤ s.ec → s.mmaUses x td = false →
      (s.ex x).mmaBusy ≤ s.ec →
      exec (.expandStart x) s = .next ((s.updEx x fun y => { y with expQ := l }).expandBegin x td o b)) ∧
    (∀ td raw, expandBlock (s.ex x).slots bs = .data raw →
      (s.expandBegin x td off bs).tr x td = BitVec.ofNat 32768 (bytesNat raw)) ∧
    (∀ td cause, expandBlock (s.ex x).slots bs = .damaged cause →
      SameRegisters s (s.expandBegin x td off bs) ∧
      (((s.expandBegin x td off bs).ex x).faults.getLast?.map (·.code)) = some 0x08)

/-- With its operands aligned and inside the operand store and an entry free, LD.LOC, ST.LOC, LD.H, ST.H, ST.H.TOK, FLUSH.RANGE
and DMA.POST take the lowest free entry for their captured operands and go on; no register, and no byte of memory, changes before
the operation completes. While all 32 entries are taken they stall. (R92, R117, R128, R129, R132, R134) -/
def Obligations.AsyncInstructionsTakeAnEntry : Prop :=
  ∀ (x : Ea) (w : Word) (s : State),
    let a := s.opAddrR x w
    let m := s.opAddr x w
    let lenOf := (s.gr x (rcOf w)).toNat
    let locOf := (s.gr x (rbOf w)).toNat % 2 ^ 48
    let boOf := bf (s.gr x (rbOf w + 1)) 0 9
    let hOf := (s.gr x (rbOf w)).toNat
    let tok := (s.pf (hdPf hOf)).tokBytes
    let takes (i : Instr) (kind : OutKind) (off p q len : Nat) : Prop :=
      (∀ n, freeEntry (s.ex x).outst = some n → ∃ t due, exec i s = .next t ∧
        (t.ex x).outst = (s.ex x).outst ++ [⟨n, (s.ex x).opSeq, rdOf w, kind, off, p, q, len, s.ec, due, false⟩] ∧
        s.ec ≤ due ∧ t.pc x = (s.pc x + 1) % 2 ^ 13 ∧ SameRegisters s t ∧ t.mem = s.mem) ∧
      (freeEntry (s.ex x).outst = none → exec i s = .next s)
    (runs (.ldLoc x w) s = true → a % 64 = 0 → opCheck a lenOf 64 = none →
      takes (.ldLoc x w) .ldLoc a.toNat locOf boOf lenOf) ∧
    (runs (.stLoc x w) s = true → a % 64 = 0 → wholeOffset locOf boOf lenOf = false → opCheck a lenOf 64 = none →
      takes (.stLoc x w) .stLoc a.toNat locOf boOf lenOf) ∧
    (runs (.ldH x w) s = true → a % 64 = 0 → lenOf % 512 = 0 → opCheck a lenOf 64 = none →
      takes (.ldH x w) .ldH a.toNat hOf 0 lenOf) ∧
    (runs (.stH x w) s = true → a % 64 = 0 → lenOf % 512 = 0 → opCheck a lenOf 64 = none →
      takes (.stH x w) .stH a.toNat hOf 0 lenOf) ∧
    (runs (.stHTok x w) s = true → opCheck a tok 64 = none →
      takes (.stHTok x w) .stHTok a.toNat hOf (bf (s.gr x (rbOf w + 1)) 0 9) tok) ∧
    (runs (.flushRange x w) s = true → takes (.flushRange x w) .flush 0 locOf
      (if locTier locOf = 1 then ((s.stk (locBay locOf)).pb.filter fun p =>
        decide (locAddr locOf ≤ p.addr ∧ p.addr < locAddr locOf + ceilDiv lenOf 512)).length else 0) lenOf) ∧
    (runs (.dmaPost x w) s = true → opCheck m 64 64 = none →
      takes (.dmaPost x w) .dmaPost m.toNat (bytesNat (s.bytes (opBase x + m.toNat) 64)) 0 64)

/-- A memory operation that has not failed, waits for no other on its strokes and whose bays are awake completes at its count. A
load places its data and a store what it was issued with, and the completion word lands in the status register and the entry
frees; a location that names no memory leaves exception 0x05 pending with the entry in its place. FLUSH.RANGE answers done with
its count, DMA.POST done where the bay's engine has room and busy where it has none; DB.RING delivers its record, and RESUME acts
on its easel. (R83, R92, R97, R100, R118, R129, R130, R131, R132, R134, R149) -/
def Obligations.MemoryOperationsComplete : Prop :=
  ∀ (x : Ea) (e : Nat) (part : PartnerCopies) (s : State) (o : OutOp),
    x.ok = true → e < 32 → s.entry x e = some o → o.failed = false → s.mustWait x o = false → s.opAsleep o = false →
    s.windowFull = false → (o.kind.loads = true → s.clockRuns x = true) →
    let u := s.passTo (s.opDue x o)
    let run := exec (.memoryOpComplete x e part) s
    let sg := segs o.b o.len
    let n := ceilDiv (o.b + o.len) 512
    let ends (t : State) : Prop := t.entry x e = none ∧ (o.rd ≠ 0 → ∃ c k d, t.gr x o.rd = compWord c k d)
    (o.kind ∈ [OutKind.ldH, .stH, .stHTok, .flush, .dmaPost, .ring, .resume] → ∃ t, run = .next t ∧ t.entry x e = none ∧
      (o.rd ≠ 0 → o.kind ≠ .ring → ∃ c k d, t.gr x o.rd = compWord c k d)) ∧
    (o.kind = .ldLoc → o.len ≠ 0 → u.locOk o.a sg.length = true → u.locReads o.a (o.reaches x (locBay o.a)) = true →
      (∃ t, run = .next t ∧ ends t) ∧
      ((u.readLoc o.a sg).1.all (·.isSome) = true →
        run = .next (((u.readLoc o.a sg).2.placeSegs x o.off sg (u.readLoc o.a sg).1).finish x o (compWord cDone o.len 0)))) ∧
    (o.kind = .stLoc → o.len ≠ 0 → u.locOk o.a n = true → ((List.range n).any fun i => locTier o.a == 1 && u.inFlashMap (locBay o.a) (locAddr o.a + i)) = false →
      ∃ t, run = .next t ∧ ends t ∧
        t = (u.storeLoc (some x) o.a o.b (u.bytes (opBase x + o.off) o.len) part).2.finish x o
          (compWord (u.storeLoc (some x) o.a o.b (u.bytes (opBase x + o.off) o.len) part).1
            (if (u.storeLoc (some x) o.a o.b (u.bytes (opBase x + o.off) o.len) part).1 = cDone then o.len else 0) 0)) ∧
    (o.kind = .ldLoc ∨ o.kind = .stLoc → o.len = 0 → run = .next (u.finish x o (compWord cDone 0 0))) ∧
    (o.kind = .ldLoc ∨ o.kind = .stLoc → o.len ≠ 0 → u.locOk o.a n = false → (s.ex x).faults = [] →
      ∃ t, run = .next t ∧ (t.ex x).faults = [⟨o.seq, 0x05, e, o.a⟩]) ∧
    (o.kind = .dmaPost → (s.bay x.bay).engineQ.length < Config.engineDepth →
      ∃ t, run = .next t ∧ (o.rd ≠ 0 → t.gr x o.rd = compWord cDone 0 0) ∧
        (t.bay x.bay).engineQ = (s.bay x.bay).engineQ ++ [(List.range 8).map fun i => bitsOf o.a (64 * i) 64]) ∧
    (o.kind = .flush → locTier o.a = 1 → o.rd ≠ 0 → ∃ t, run = .next t ∧ t.gr x o.rd = compWord cDone o.b 0) ∧
    (o.kind = .ring → run = .next
      ((u.arrive (bitsOf o.a 0 4) (bitsOf o.a 4 6) (dbRecord o.b s.node (Config.sourceKind 0))).finish x o 0)) ∧
    (o.kind = .resume → run = .next ((u.resumeEasel ⟨o.a / 16, o.a % 16⟩).2.finish x o
      (compWord (u.resumeEasel ⟨o.a / 16, o.a % 16⟩).1 0 0)))

/-- A near-bank instruction whose descriptor passes the checks of R298 takes an entry and joins the tail of its stack's queue,
moving no byte; one that fails them writes its completion word with the first failing code and does nothing else; one whose
element operation is restricted in confidential mode raises 0x07 first. (R133, R153, R297, R298) -/
def Obligations.NearBankOperationsQueue : Prop :=
  ∀ (x : Ea) (w : Word) (s : State),
    let a := s.opAddr x w
    let d := s.bytes (opBase x + a.toNat) 64
    let dst := bitsOf (wordAt d 0) 0 48
    let src := bitsOf (wordAt d 1) 0 48
    let units := bitsOf (wordAt d 2) 0 14 + 1
    let ty := bitsOf (wordAt d 2) 16 2
    let posts (i : Instr) (fn : Nat) : Prop :=
      runs i s = true →
        (3 ≤ fn → s.conf = true → exec i s = .next (s.raise x true 0x07 0 0)) ∧
        (fn < 3 ∨ s.conf = false → opCheck a 64 64 = none →
          ∀ n, freeEntry (s.ex x).outst = some n →
            (s.nbCode fn dst src units ty ≠ cDone →
              exec i s = .next ((s.setG x (rdOf w) (compWord (s.nbCode fn dst src units ty) 0 0)).advance x 1)) ∧
            (s.nbCode fn dst src units ty = cDone → ∃ t op, exec i s = .next t ∧
              (t.stk (locBay dst)).nbQ = (s.stk (locBay dst)).nbQ ++ [op] ∧ op.x = x ∧ op.entry = n ∧ op.fn = fn ∧
              op.dst = dst ∧ op.src = src ∧ op.units = units ∧ op.ty = ty ∧ op.pattern = wordAt d 3 ∧ op.arrival = s.ec + 6 * hops x.bay (locBay dst) ∧
              SameRegisters s t ∧ t.mem = s.mem))
    posts (.nbFill x w) 0 ∧ posts (.nbCopy x w) 1 ∧ posts (.nbCompareEqual x w) 2 ∧ posts (.nbSum x w) 3 ∧
    posts (.nbMax x w) 4 ∧ posts (.nbMin x w) 5 ∧ posts (.nbOrderedCompare x w) 6

/-- With no operation running and the controller admitting accesses, the head of the queue starts in a near-bank window, at least
24 cycles after its arrival, on every channel but the refusing ones, and nothing starts while the map has no such window; it
changes no byte of memory outside its destination range. The end of the running operation writes its completion word, leaves no
operation running and frees its entry. That the bytes change when it starts is the model's choice (log entry 73). (R133, R299,
R300, R301, R303, R305) -/
def Obligations.NearBankOperationsRunAndEnd : Prop :=
  ∀ (stack : Nat) (refusing : List Nat) (s : State), stack < 16 →
    (∀ op q, (refusing.all fun c => decide (c < 128)) = true → (s.stk stack).nbRun = none → (s.stk stack).nbQ = op :: q →
      s.admits stack = true → ((s.stk stack).remapping.any fun r => r.2 != 0 && op.hasRow r.1) = false →
      (mapNn (s.stk stack).map = 0 → exec (.nbWindowStart stack refusing) s = .next s) ∧
      (mapNn (s.stk stack).map ≠ 0 → ∃ t run, exec (.nbWindowStart stack refusing) s = .next t ∧
        (t.stk stack).nbRun = some run ∧ (t.stk stack).nbQ = q ∧
        run.refusing = refusing.eraseDups ∧ run.entry = op.entry ∧ run.fn = op.fn ∧ run.dst = op.dst ∧ run.src = op.src ∧
        run.units = op.units ∧ t.ec = run.start ∧ op.arrival + 24 ≤ run.start ∧ s.ec ≤ run.start ∧ run.start % 96 = 0 ∧
        run.start / 96 % 128 ∈ nbPositions (s.stk stack).map ∧
        run.start + 96 + op.units * nbUnit op.fn + nbResult op.fn ≤ run.due ∧
        run.result = ((s.passTo run.start).nbRunOp { op with refusing := refusing.eraseDups, start := run.start }).1 ∧
        SameRegisters s t ∧
        SameMemoryOutside s t (stackBase (locBay op.dst) + 512 * locAddr op.dst) (131072 * op.units))) ∧
    (∀ op o, (s.stk stack).nbRun = some op → s.entry op.x op.entry = some o → o.kind = .nb →
      ∃ t, exec (.nbComplete stack) s = .next t ∧ (t.stk stack).nbRun = none ∧ t.entry op.x op.entry = none ∧
        t.mem = s.mem ∧ op.due + 16 + 6 * hops op.x.bay stack ≤ t.ec ∧ (o.rd ≠ 0 → t.gr op.x o.rd = op.result))

/-- CAT.SEARCH with fewer than 32 results pending and room in the bay's queue of 16 joins the queue with the key of its pair and
its mask, all ones where RB is 0, and its pair is awaited; with 32 results pending it raises 0x0C; with the queue full it stalls.
An admission takes the head of the queue with the result the live bank gives; a result writes both words and its pair is awaited
no more. (R55, R56, R117, R144) -/
def Obligations.CatalogueSearchesQueueAndLand : Prop :=
  (∀ (x : Ea) (w : Word) (s : State), runs (.catSearch x w) s = true →
    (s.pendFull x = true → exec (.catSearch x w) s = .next (s.raise x true 0x0C 0 0)) ∧
    (s.pendFull x = false → 16 ≤ (s.bay x.bay).searchQ.length → exec (.catSearch x w) s = .next s) ∧
    (s.pendFull x = false → (s.bay x.bay).searchQ.length < 16 → ∃ t, exec (.catSearch x w) s = .next t ∧
      (t.bay x.bay).searchQ = (s.bay x.bay).searchQ ++ [⟨x, rdOf w, s.pair80 x (raOf w),
        if rbOf w = 0 then 2 ^ 80 - 1 else s.pair80 x (rbOf w), none, 0⟩] ∧
      (t.ex x).pend = (s.ex x).pendAt (s.resultCycle x) ++ [⟨rdOf w, s.resultCycle x, none⟩] ∧ t.pc x = (s.pc x + 1) % 2 ^ 13 ∧ SameRegisters s t ∧ t.mem = s.mem)) ∧
  (∀ (b : Nat) (s : State) (q : SearchX) (qs : List SearchX), b < 16 → (s.bay b).searchQ = q :: qs →
    ∃ t a, exec (.searchAdmission b) s = .next t ∧ (t.bay b).searchQ = qs ∧
      (t.bay b).searching = (s.bay b).searching ++ [a] ∧ a.x = q.x ∧ a.rd = q.rd ∧
      a.result = some (t.searchWords q.key q.mask) ∧ t.ec % 32 = 2 * b ∧ a.due = t.ec + 128 ∧
      SameRegisters s t ∧ t.mem = s.mem) ∧
  (∀ (x : Ea) (s : State) (q : SearchX) (lo hi : Word), x.ok = true →
    ((s.bay x.bay).searching.find? fun a => a.x == x) = some q → q.result = some (lo, hi) →
    ∃ t, exec (.searchResult x) s = .next t ∧ (q.rd ≠ 0 → t.gr x q.rd = lo) ∧ t.gr x (q.rd + 1) = hi ∧
      (t.bay x.bay).searching = (s.bay x.bay).searching.erase q ∧ (t.ex x).pend = dropPend q.rd (s.ex x).pend ∧
      t.v = s.v ∧ t.t = s.t ∧ t.p = s.p ∧ t.mem = s.mem)

/-- CAT.WR and CAT.RD on an aligned operand inside the operand store take an outstanding-operation entry and schedule their
access. In its cycle an access to an entry past the tier answers licence with nothing written; a write of the shadow bank outside
Ready answers rebuild with nothing written; a write of the shadow bank in Ready stores its image there, reserved bits as zero and
on LVC48-S CARE as ones; a read places the entry's 32 bytes in the operand store; its completion word lands and its entry frees.
(R12, R51, R57, R60, R63, R69, R118, R145) -/
def Obligations.CatalogueEntriesAreAccessedInTheirCycle : Prop :=
  (∀ (x : Ea) (w : Word) (s : State) (n : Nat), opCheck ((s.gr x (raOf w)).toNat : Int) 32 32 = none →
    freeEntry (s.ex x).outst = some n →
    (runs (.catWr x w) s = true → ∃ t a, exec (.catWr x w) s = .next t ∧ t.catc.pendAcc = s.catc.pendAcc ++ [a] ∧ a.x = x ∧ a.entry = n ∧
        a.write = true ∧ a.shadow = (fnOf w == 1) ∧ a.n = bf (s.gr x (rbOf w)) 0 22 ∧
        a.image = BitVec.ofNat 256 (bytesNat (s.bytes (opBase x + (s.gr x (raOf w)).toNat) 32)) ∧ s.ec + 48 ≤ a.due ∧
        SameRegisters s t ∧ t.mem = s.mem ∧ t.cat = s.cat) ∧
    (runs (.catRd x w) s = true → ∃ t a, exec (.catRd x w) s = .next t ∧ t.catc.pendAcc = s.catc.pendAcc ++ [a] ∧ a.x = x ∧ a.entry = n ∧
        a.write = false ∧ a.shadow = (fnOf w == 1) ∧ a.n = bf (s.gr x (rbOf w)) 0 22 ∧
        a.off = (s.gr x (raOf w)).toNat ∧ s.ec + 48 ≤ a.due ∧ SameRegisters s t ∧ t.mem = s.mem ∧ t.cat = s.cat)) ∧
  (∀ (i : Nat) (s : State) (a : CatAcc) (o : OutOp), s.catc.pendAcc[i]? = some a → s.entry a.x a.entry = some o →
    o.kind = .catWr ∨ o.kind = .catRd → o.rd ≠ 0 →
    ∃ t, exec (.catAccessCommit i) s = .next t ∧ t.gr a.x o.rd = compWord ((s.passTo a.due).catCode a) 0 0 ∧
      t.entry a.x a.entry = none ∧ t.catc.pendAcc = s.catc.pendAcc.eraseIdx i ∧
      ((s.passTo a.due).catCode a ≠ cDone → t.cat = s.cat ∧ t.mem = s.mem) ∧
      ((s.passTo a.due).catCode a = cDone → a.write = true → a.shadow = true → s.catc.fill = none →
        t.catEnt (1 - s.liveBank) a.n = BitVec.ofNat 256 (if s.perSlice = 65536 then
          putBits (bitsOf a.image.toNat 0 220) 80 80 (2 ^ 80 - 1) else bitsOf a.image.toNat 0 220) ∧ t.mem = s.mem) ∧
      ((s.passTo a.due).catCode a = cDone → a.write = false → t.cat = s.cat ∧
        t.bytes (opBase a.x + a.off) 32 = natBytes 32 ((s.passTo a.due).catEnt (if a.shadow then 1 - s.liveBank else s.liveBank) a.n).toNat ∧
        SameMemoryOutside s t (opBase a.x + a.off) 32))

/-- START enters Filling with COUNT 0, an empty journal and JOVF clear; Filling ends in Ready with START 0; KEEP enters Ready from
Idle; ABORT returns to Idle with no flip armed; FLIP in Ready arms the next round, elsewhere sets FLIPSTALE; an armed round
exchanges the banks and returns to Idle where the count of live writes is the expected one and JOVF is clear, and else sets
FLIPSTALE and keeps the banks. JRNLPOP drops the oldest journal record and a scrub step moves its local index on by one. (R63,
R64, R65, R67, R68) -/
def Obligations.CatalogueRebuildsAndFlips : Prop :=
  ∀ s : State,
    (∀ clone : Bool, ∃ t, exec (.catCtrlStart clone) s = .next t ∧ t.fld Reg.catStatus Reg.catStatus_STATE = 1 ∧
      t.fld Reg.catStatus Reg.catStatus_JOVF = 0 ∧ t.fld Reg.catLivewr Reg.catLivewr_COUNT = 0 ∧ t.catc.journal = [] ∧
      t.catc.flipAt = none ∧ t.fld Reg.catCtrl Reg.catCtrl_START = 1 ∧ t.fld Reg.catCtrl Reg.catCtrl_CLONE = b2n clone ∧
      t.liveBank = s.liveBank ∧ (∀ n, s.catc.fill = none → n < 2 ^ 22 →
        t.catEnt (1 - s.liveBank) n = s.catEnt (1 - s.liveBank) n ∧ t.catEnt s.liveBank n = s.catEnt s.liveBank n) ∧
      t.catc.fillEnd = s.ec + s.perSlice / (if clone then 4 else 16)) ∧
    (s.fld Reg.catStatus Reg.catStatus_STATE = 1 → ∃ t, exec .rebuildFillDone s = .next t ∧
      t.fld Reg.catStatus Reg.catStatus_STATE = 2 ∧ t.fld Reg.catCtrl Reg.catCtrl_START = 0 ∧ t.cat = s.cat) ∧
    (s.fld Reg.catStatus Reg.catStatus_STATE = 0 → ∃ t, exec .catCtrlKeep s = .next t ∧
      t.fld Reg.catStatus Reg.catStatus_STATE = 2 ∧ t.fld Reg.catLivewr Reg.catLivewr_COUNT = 0 ∧ t.catc.journal = [] ∧
      t.cat = s.cat) ∧
    (∃ t, exec .catCtrlAbort s = .next t ∧ t.fld Reg.catStatus Reg.catStatus_STATE = 0 ∧ t.catc.flipAt = none ∧
      t.catc.fill = none ∧ (s.catc.fill = none → t.cat = s.cat) ∧
      (SMap.wf (fun _ => 0) s.cat = true → (∀ f, s.catc.fill = some f → SMap.wf (fun _ => 0) f.old = true) →
        ∀ k n, k < 2 → n < 2 ^ 22 → t.catEnt k n = s.catEnt k n)) ∧
    (s.fld Reg.catStatus Reg.catStatus_STATE = 2 → s.catc.flipAt = none → ∃ t, exec .catCtrlFlip s = .next t ∧
      t.catc.flipAt = some (32 * (s.ec / 32 + 1)) ∧ t.fld Reg.catStatus Reg.catStatus_STATE = 2 ∧ t.cat = s.cat) ∧
    (s.fld Reg.catStatus Reg.catStatus_STATE ≠ 2 →
      exec .catCtrlFlip s = .next (s.setFld Reg.catStatus Reg.catStatus_FLIPSTALE 1)) ∧
    (∀ r, s.catc.flipAt = some r → ∃ t, exec .flipRound s = .next t ∧ t.catc.flipAt = none ∧ t.cat = s.cat ∧
      (s.fld Reg.catLivewr Reg.catLivewr_COUNT = s.fld Reg.catExpect Reg.catExpect_EXPECTWR ∧
          s.fld Reg.catStatus Reg.catStatus_JOVF = 0 →
        t.fld Reg.catStatus Reg.catStatus_LIVEBANK = 1 - s.liveBank ∧ t.fld Reg.catStatus Reg.catStatus_STATE = 0) ∧
      (¬ (s.fld Reg.catLivewr Reg.catLivewr_COUNT = s.fld Reg.catExpect Reg.catExpect_EXPECTWR ∧
          s.fld Reg.catStatus Reg.catStatus_JOVF = 0) →
        t.fld Reg.catStatus Reg.catStatus_FLIPSTALE = 1 ∧ t.liveBank = s.liveBank)) ∧
    (∃ t, exec .catJrnlpop s = .next t ∧ t.catc.journal = s.catc.journal.drop 1 ∧ t.cat = s.cat) ∧
    (∃ t, exec .catScrubStep s = .next t ∧ t.catc.scrubIdx = (s.catc.scrubIdx % s.perSlice + 1) % s.perSlice)

/-- LAUNCH on an aligned descriptor inside the operand store takes an entry and its launch waits at the target bay, or raises the
licence exception for a MASK outside the tier; DB.RING takes an entry that will deliver gB[31:0] to the doorbell gA names, RESUME
one that will resume its easel, each 6h + 4 cycles on; DBPOP writes the head record with bit 63 set and takes it off, or from an
empty doorbell writes a free value with bit 63 clear (log entry 13); a resume restarts a stopped easel with code done and answers
sequence for one neither stopped nor held; RESUME of an easel outside the tier raises the licence exception. (R4, R83, R86, R98,
R104, R117, R149) -/
def Obligations.LaunchInstructionsReachTheirUnit : Prop :=
  ∀ (x : Ea) (w : Word) (s : State),
    let a := s.gr x (raOf w)
    let db := s.gr x (rbOf w)
    let d := bf a 0 6
    let y : Ea := ⟨bf a 4 4, bf a 0 4⟩
    (runs (.launch x w) s = true → opCheck (a.toNat : Int) 64 64 = none → ∀ n, freeEntry (s.ex x).outst = some n →
        let bl := launchOf (.easel x n (if rbOf w = 0 then none else some (bf db 6 4, bf db 0 6)))
          (s.bytes (opBase x + a.toNat) 64)
        (s.tierMask < bl.2.mask → exec (.launch x w) s = .next (s.licTrap x 0x01 (bl.1 * 16 + s.outside bl.2.mask))) ∧
        (bl.2.mask ≤ s.tierMask → ∃ t, exec (.launch x w) s = .next t ∧ (t.bay bl.1).incoming = (s.bay bl.1).incoming ++ [bl.2] ∧
          (t.ex x).outst.length = (s.ex x).outst.length + 1 ∧ SameRegisters s t ∧ t.mem = s.mem)) ∧
    (runs (.dbRing x w) s = true → ∀ n, freeEntry (s.ex x).outst = some n → ∃ t, exec (.dbRing x w) s = .next t ∧
      (t.ex x).outst = (s.ex x).outst ++ [⟨n, (s.ex x).opSeq, 0, .ring, 0, bf a 0 10, bf db 0 32, 0, s.ec,
        s.ec + (6 * hops x.bay (bf a 0 4) + 4), false⟩] ∧ t.pc x = (s.pc x + 1) % 2 ^ 13 ∧ SameRegisters s t ∧ t.mem = s.mem) ∧
    (runs (.dbpop x w) s = true → s.pendFull x = true → exec (.dbpop x w) s = .next (s.raise x true 0x0C 0 0)) ∧
    (runs (.dbpop x w) s = true → s.pendFull x = false →
      let u := s.takePend x (rdOf w) (some 8)
      (∀ r q, s.fifo x.bay d = r :: q →
        exec (.dbpop x w) s = .next (((u.setFifo x.bay d q).setG x (rdOf w) (r ||| BitVec.ofNat 64 (2 ^ 63))).advance x 1)) ∧
      (s.fifo x.bay d = [] →
        exec (.dbpop x w) s = .next ((u.draw.2.setG x (rdOf w) (BitVec.ofNat 64 (u.draw.1 % 2 ^ 63))).advance x 1))) ∧
    (runs (.resume x w) s = true →
      (s.easelsPerBay ≤ y.easel →
        exec (.resume x w) s = .next (s.licTrap x 0x01 (y.bay * 16 + y.easel))) ∧
      (y.easel < s.easelsPerBay → ∀ n, freeEntry (s.ex x).outst = some n → ∃ t, exec (.resume x w) s = .next t ∧
        (t.ex x).outst = (s.ex x).outst ++ [⟨n, (s.ex x).opSeq, rdOf w, .resume, 0, y.bay * 16 + y.easel, 0, 0, s.ec,
          s.ec + (6 * hops x.bay y.bay + 4), false⟩] ∧ t.pc x = (s.pc x + 1) % 2 ^ 13 ∧ SameRegisters s t ∧ t.mem = s.mem)) ∧
    (s.est y = stStopped → s.resumeEasel y = (cDone, s.restart y)) ∧
    (s.est y ≠ stStopped → s.est y ≠ stHeld → s.resumeEasel y = (cSequence, s))

/-- A ready bay that is awake takes off, once its port is free, the launch of highest precedence of those that have reached it: a
refused one is answered with its code, an accepted one begins on the easels it needs when the queue is empty and they are idle,
and joins the tail of the queue otherwise; the head of the queue is placed when the easels it needs are idle. (R4, R78, R79, R82,
R103, R106, R431, R518) -/
def Obligations.LaunchesAreTakenPlacedOrQueued : Prop :=
  ∀ (b : Nat) (s : State) (l : Launch), b < 16 →
    (∀ t0, s.nextLaunch b = some (l, t0) → l ∈ (s.bay b).incoming ∧ s.launchAt l ≤ t0 ∧ s.ec ≤ t0 ∧ (s.bay b).acceptAt ≤ t0 ∧
      ∀ m ∈ (s.bay b).incoming, s.launchAt m ≤ t0 → l.rank ≤ m.rank) ∧
    (∀ t0, s.nextLaunch b = some (l, t0) → s.bayUp b = true → s.asleep b = false →
      let u := (s.passTo t0).updBay b fun y => { y with incoming := y.incoming.erase l, acceptAt := (s.passTo t0).ec + 4 }
      let v := u.launchAnswer b l cDone
      (u.launchCode b l ≠ cDone → exec (.launchAccept b) s = .next (u.refuseLaunch b l (u.launchCode b l))) ∧
      (u.launchCode b l = cDone → (v.bay b).queue = [] → ∀ es, v.pick b l = some es →
        exec (.launchAccept b) s = .next (es.foldl (fun t e => t.placeOn b l e) v)) ∧
      (u.launchCode b l = cDone → (v.bay b).queue ≠ [] ∨ v.pick b l = none → ∃ t, exec (.launchAccept b) s = .next t ∧
        (t.bay b).queue = (v.bay b).queue ++ [l] ∧
        t.fld (Reg.bayDispStatus b) Reg.bayDispStatus_QDEPTH = ((v.bay b).queue.length + 1) % 2 ^ Reg.bayDispStatus_QDEPTH.w)) ∧
    (∀ q es, (s.bay b).queue = l :: q → s.pick b l = some es →
      exec (.launchPlace b) s =
        .next (es.foldl (fun t e => t.placeOn b l e) ((s.updBay b fun y => { y with queue := q }).dispStatus b)))

/-- At the first instruction of a launched program the program counter is ENTRY of its entry, g1 to g4 hold the four arguments, g5
the source word, g6 GEN and the entry's number, g7 the easel's place, every other general register zero; the easel runs with
EASEL.RUNTIME 0. In confidential mode the vector, tile and predicate registers and the operand store are zero as well; otherwise
they and all memory are as they were. (R72, R80, R81, R108, R176) -/
def Obligations.ProgramsStartAsLaunched : Prop :=
  ∀ (x : Ea) (s : State) (c : CopyX), x.ok = true → (s.ex x).copy = some c → c.begun = true →
    ∃ t, exec (.launchFirstInstruction x) s = .next t ∧ t.est x = stRunning ∧ t.pc x = pgEntry c.entry ∧
      (∀ k, k < 4 → t.gr x (k + 1) = c.launch.args.getD k 0) ∧ t.gr x 5 = c.launch.source ∧
      t.gr x 6 = BitVec.ofNat 64 (pgGen c.entry + c.launch.prog * 2 ^ 16) ∧ t.gr x 7 = BitVec.ofNat 64 (x.easel + x.bay * 16) ∧
      (∀ r, 8 ≤ r → r < 64 → t.gr x r = 0) ∧ t.reg (Reg.easelRuntime x.bay x.easel) = 0 ∧
      t.reg (Reg.easelXtbl x.bay x.easel) = 0 ∧ (t.ex x).src = some c.launch ∧ (t.ex x).copy = none ∧
      (t.ex x).role = pgRole c.entry ∧ (t.ex x).limit = pgLimit c.entry ∧
      (s.conf = true → (∀ r, r < 32 → t.vr x r = 0) ∧ (∀ r, r < 16 → t.tr x r = 0) ∧
        (∀ r, 0 < r → r < 8 → t.pr x r = 0) ∧ (∀ k, k < opSize → t.byte (opBase x + k) = 0) ∧
        SameMemoryOutside s t (opBase x) opSize ∧ t.reg (Reg.easelSeed x.bay x.easel) = 0) ∧
      (s.conf = false → t.v = s.v ∧ t.t = s.t ∧ t.p = s.p ∧ t.mem = s.mem)

/-- WAIT puts its easel in the waiting state with its program counter standing; SLEEP puts one whose outstanding table is empty to
sleep, or off with its bit of IDLEOFF; either takes the head record of the lowest of its doorbells that holds one. The easel
resumes with the doorbell in gD and the record in gD+1, or, on the limit, with bit 63 of gD set and gD+1 zero, past its
instruction; without a record or a limit it goes on waiting. A gated idle easel without a launch wakes to idle. (R85, R86, R87,
R117, R149, R150, R485, R486) -/
def Obligations.WaitsEndWithARecordOrTheirLimit : Prop :=
  ∀ (x : Ea) (w : Word) (s : State),
    let mask := (s.gr x (raOf w)).toNat
    let lim := (s.gr x (rbOf w)).toNat
    let limit := if lim = 0 then none else some (s.gc + lim + 1)
    let waits (i : Instr) (st after : Nat) (sleep : Bool) : Prop :=
      ∃ t, exec i s = .next t ∧ t.est x = st ∧ t.pc x = s.pc x ∧ SameRegisters s t ∧ t.mem = s.mem ∧
        (t.ex x).wait = some ⟨mask, limit, rdOf w, sleep, (s.headRecord x.bay mask).map fun r => (s.ec + after, r.1, r.2)⟩
    let ends (i : Instr) (q : WaitX) : Prop :=
      s.fld (Reg.easelCtrl x.bay x.easel) Reg.easelCtrl_STOP = 0 →
      (∀ c d r, q.got = some (c, d, r) → ∃ t, exec i s = .next t ∧ t.est x = stRunning ∧ t.pc x = (s.pc x + 1) % 2 ^ 13 ∧
        (t.ex x).wait = none ∧ (q.rd ≠ 0 → t.gr x q.rd = BitVec.ofNat 64 d) ∧ t.gr x (q.rd + 1) = r ∧ t.mem = s.mem) ∧
      (∀ g, q.got = none → q.limit = some g → ∃ t, exec i s = .next t ∧ t.est x = stRunning ∧
        t.pc x = (s.pc x + 1) % 2 ^ 13 ∧ (t.ex x).wait = none ∧ (q.rd ≠ 0 → t.gr x q.rd = BitVec.ofNat 64 (2 ^ 63)) ∧
        t.gr x (q.rd + 1) = 0 ∧ t.mem = s.mem) ∧
      (q.got = none → q.limit = none → exec i s = .next s)
    (runs (.wait x w) s = true → s.pendFull x = true → exec (.wait x w) s = .next (s.raise x true 0x0C 0 0)) ∧
    (runs (.wait x w) s = true → s.pendFull x = false → waits (.wait x w) stWaiting 4 false) ∧
    (runs (.sleep x w) s = true → s.pendFull x = false → s.quiet x = false → waits (.sleep x w) stWaiting 4 true) ∧
    (runs (.sleep x w) s = true → s.pendFull x = false → s.quiet x = true →
      waits (.sleep x w) (s.gateState x) (if s.gateState x = stSleep then 28800 else 120000) true) ∧
    (∀ q, x.ok = true → (s.ex x).wait = some q →
      (s.est x = stWaiting → ends (.waitResume x) q) ∧ (s.est x = stSleep ∨ s.est x = stOff → ends (.easelWakeDone x) q)) ∧
    (∀ k, x.ok = true → s.est x = stSleep ∨ s.est x = stOff → (s.ex x).wait = none → (s.ex x).wake = some k →
      (s.ex x).copy = none → ∃ t, exec (.easelWakeDone x) s = .next t ∧ t.est x = stIdle ∧ (t.ex x).wake = none ∧
        SameRegisters s t ∧ t.mem = s.mem)

/-- Each doorbell of a ready bay counts every arrival in its 32-bit ARRIVALS, modulo 2^32, and holds at most 32 records: with
fewer waiting the record joins the tail and DEPTH shows it; with 32 it is not queued, LOST is incremented, OVF and DBLOST are set
and a doorbell event joins the event log where its buffer has room. A bay that is not ready drops the record. No register of an
easel and no memory changes. (R84) -/
def Obligations.ArrivalsAreCountedAndQueued : Prop :=
  ∀ (b d : Nat) (r : Word) (s : State), b < 16 → d < 64 →
    (s.bayUp b = false → exec (.doorbellArrival b d r) s = .next s) ∧
    (s.bayUp b = true → ∃ t, exec (.doorbellArrival b d r) s = .next t ∧ SameRegisters s t ∧ t.mem = s.mem ∧
      t.fld (Reg.bayDb0 b d) Reg.bayDb0_ARRIVALS = (s.fld (Reg.bayDb0 b d) Reg.bayDb0_ARRIVALS + 1) % 2 ^ 32 ∧
      ((s.fifo b d).length < 32 → t.fifo b d = s.fifo b d ++ [BitVec.ofNat 64 (r.toNat % 2 ^ 48)] ∧
        t.fld (Reg.bayDb0 b d) Reg.bayDb0_DEPTH = (s.fifo b d).length + 1) ∧
      (32 ≤ (s.fifo b d).length → t.fifo b d = s.fifo b d ∧ t.fld (Reg.bayDb0 b d) Reg.bayDb0_OVF = 1 ∧
        t.fld (Reg.bayDispErr b) Reg.bayDispErr_DBLOST = 1 ∧
        t.fld (Reg.bayDb1 b d) Reg.bayDb1_LOST = (s.fld (Reg.bayDb1 b d) Reg.bayDb1_LOST + 1) % 2 ^ Reg.bayDb1_LOST.w ∧
        (s.host.evBuf.length < 512 → ∃ w l, t.host.evBuf = s.host.evBuf ++
          [BitVec.ofNat 64 (0x05 + b * 2 ^ 8 + d * 2 ^ 16 + s.host.seq % 2 ^ 32 * 2 ^ 32), BitVec.ofNat 64 s.gc, w, 0] :: l)))

/-- Word 1 of an entry is staged, and word 0 commits the entry with it, in confidential mode only where the image's digest is
registered, else ATTEST is set and the entry stands. An easel outside the tier ignores its control register. A stop of a running
easel between instructions takes effect at once with code 0x00; a held one stops later. A stopped easel resumes running; a reset
leaves it idle without a program, 512 ec after the request; a program past its limit stops with exception 0x0A. An enabled timer
that reaches its period restarts from there, counts its expiry, and clears ENABLE unless it is periodic. (R3, R76, R77, R90, R102,
R104, R105, R109, R155, R517, R519, R520) -/
def Obligations.ProgramTableAndEaselControl : Prop :=
  ∀ (s : State),
    (∀ (b n : Nat) (v : Word), b < 16 → n < 64 →
      exec (.bayProgUpperWrite b n v) s =
        .next (s.setReg (Reg.bayProg1 b n) (BitVec.ofNat 64 (bf v 0 33 + bf v 40 24 * 2 ^ 40))) ∧
      let w0 := bf v 0 61 + bf v 63 1 * 2 ^ 63
      let e := BitVec.ofNat 128 (w0 + (s.reg (Reg.bayProg1 b n)).toNat * 2 ^ 64)
      (s.conf = false ∨ s.rot.digests.contains (Config.sha256 (s.imageBytes e).1) = true →
        ∃ t, exec (.bayProgCommit b n v) s = .next t ∧ t.prog b n = e ∧ t.reg (Reg.bayProg0 b n) = BitVec.ofNat 64 w0 ∧
          SameRegisters s t ∧ t.mem = s.mem) ∧
      (s.conf = true → s.rot.digests.contains (Config.sha256 (s.imageBytes e).1) = false →
        ∃ t, exec (.bayProgCommit b n v) s = .next t ∧ t.prog b n = s.prog b n ∧
          t.fld (Reg.bayDispErr b) Reg.bayDispErr_ATTEST = 1)) ∧
    (∀ x : Ea, x.ok = true → s.easelsPerBay ≤ x.easel → exec (.easelCtrlStop x) s = .next s ∧
      exec (.easelCtrlResume x) s = .next s ∧ exec (.easelCtrlReset x) s = .next s) ∧
    (∀ x : Ea, x.ok = true → x.easel < s.easelsPerBay →
      (s.est x = stRunning → (s.ex x).run = none → (s.ex x).fence = none → ∃ t, exec (.easelCtrlStop x) s = .next t ∧
        t.est x = stStopped ∧ t.pc x = s.pc x ∧ t.fld (Reg.easelExc x.bay x.easel) Reg.easelExc_CODE = 0 ∧
        t.fld (Reg.easelExc x.bay x.easel) Reg.easelExc_PRECISE = 1 ∧
        t.fld (Reg.easelCtrl x.bay x.easel) Reg.easelCtrl_STOP = 0 ∧ SameRegisters s t ∧ t.mem = s.mem) ∧
      (s.est x = stHeld → exec (.easelCtrlStop x) s =
        .next (s.setFld (Reg.easelCtrl x.bay x.easel) Reg.easelCtrl_STOP 1)) ∧
      (s.est x = stStopped → ∃ t, exec (.easelCtrlResume x) s = .next t ∧ t.est x = stRunning ∧ t.pc x = s.pc x ∧
        (t.ex x).fence = none ∧ (t.ex x).wait = none ∧ SameRegisters s t ∧ t.mem = s.mem) ∧
      ((s.ex x).failed = false → (s.ex x).switching = none → ∃ t, exec (.easelCtrlReset x) s = .next t ∧
        t.est x = stIdle ∧ t.pc x = 0 ∧ (t.ex x).imgLen = 0 ∧ (t.ex x).src = none ∧ (t.ex x).outst = [] ∧
        (t.ex x).resetDue = some (s.ec + 512)) ∧
      ((s.ex x).src.isSome = true → (s.ex x).limit ≠ 0 → s.est x = stRunning →
        exec (.runLimitExpiry x) s = .next
          (((s.passTo (96 * ((s.ex x).startGc + (s.ex x).limit))).updEx x fun y =>
            { y.dropRun with wait := none, fence := none }).raise x true 0x0A 0 0))) ∧
    (∀ b d, b < 16 → d < 8 → s.fld (Reg.bayTimer b d) Reg.bayTimer_ENABLE = 1 →
      s.fld (Reg.bayTimer b d) Reg.bayTimer_PERIOD ≠ 0 →
      ∃ t, exec (.bayTimerExpiry b d) s = .next t ∧ SameRegisters s t ∧ t.mem = s.mem ∧
        SMap.get (fun _ => 0) (t.bay b).timerStart d =
          SMap.get (fun _ => 0) (s.bay b).timerStart d + s.fld (Reg.bayTimer b d) Reg.bayTimer_PERIOD ∧
        SMap.get (fun _ => 0) (t.bay b).timerCount d = (SMap.get (fun _ => 0) (s.bay b).timerCount d + 1) % 2 ^ 32 ∧
        t.fld (Reg.bayTimer b d) Reg.bayTimer_ENABLE = s.fld (Reg.bayTimer b d) Reg.bayTimer_PERIODIC)

/-- Each fence puts its easel at it with the program counter standing. Once its scope has drained it completes and the program
counter moves past it, a barrier for every easel of its mask together; an END ends the program; with an imprecise exception
pending it reports the first in program order instead. Before that nothing happens. A barrier whose limit runs out raises 0x09.
RDGC writes the ground cycle count to gD, or raises 0x0C while all 32 pending results are out. PERF.RD and TRACE raise 0x07 in
confidential mode; outside it PERF.RD writes a value the spec does not state, a free value (log entry 13), to gD unless all 32 are
out, and TRACE appends gA to the trace of its bay, whose depth the spec leaves to the implementation (log entry 8). Nothing else
changes but the program counter, the pending-result table and the model's count of draws. (R93, R94, R95, R100, R117, R120, R151,
R152, R153, R154) -/
def Obligations.FencesAndSystemInstructions : Prop :=
  (
  ∀ (x : Ea) (w : Word) (s : State),
    let a := s.gr x (raOf w)
    let lim := (s.gr x (rbOf w)).toNat
    let enters (i : Instr) (kind : FenceKind) (arg : Nat) (limit : Option Nat) : Prop :=
      exec i s = .next (s.updEx x fun y => { y with fence := some ⟨kind, arg, limit⟩ })
    (runs (.fenceEasel x w) s = true → enters (.fenceEasel x w) .easel 0 none) ∧
    (runs (.fenceBay x w) s = true → enters (.fenceBay x w) .bay 0 none) ∧
    (runs (.fenceNode x w) s = true → enters (.fenceNode x w) .node 0 none) ∧
    (runs (.fencePair x w) s = true → enters (.fencePair x w) .pair 0 none) ∧
    (runs (.fencePeer x w) s = true →
      (bf a 0 12 ≤ 0x3FF → enters (.fencePeer x w) .peer (bf a 0 12) none) ∧
      (0x3FF < bf a 0 12 → exec (.fencePeer x w) s = .next (s.illegal x))) ∧
    (runs (.fenceBayBarrier x w) s = true →
      (s.tierMask < bf a 0 12 → exec (.fenceBayBarrier x w) s =
        .next ((s.logLic x.bay 0x01 (x.bay * 16 + s.outside (bf a 0 12))).raise x true 0x02 0 0)) ∧
      (bf a 0 12 ≤ s.tierMask → bitOf (bf a 0 12) x.easel = false → exec (.fenceBayBarrier x w) s = .next (s.illegal x)) ∧
      (bf a 0 12 ≤ s.tierMask → bitOf (bf a 0 12) x.easel = true →
        enters (.fenceBayBarrier x w) .barrier (bf a 0 12 + bf a 16 8 * 2 ^ 16) (if lim = 0 then none else some (s.gc + lim)))) ∧
    (∀ f, x.ok = true → (s.ex x).fence = some f →
      (s.drained x f = false → exec (.fenceComplete x) s = .next s) ∧
      (s.drained x f = true → ∀ e, firstFault (s.ex x).faults = some e → exec (.fenceComplete x) s =
        .next ((s.updEx x fun y => { y with fence := none }).raise x false e.code e.info e.loc)) ∧
      (s.drained x f = true → (s.ex x).faults = [] →
        (f.kind = .endProg → exec (.fenceComplete x) s = .next ((s.passTo (s.ec + 4)).endProgram x f.arg)) ∧
        (f.kind ≠ .endProg → f.kind ≠ .barrier → s.fld (Reg.easelCtrl x.bay x.easel) Reg.easelCtrl_STOP = 0 →
          ∃ t, exec (.fenceComplete x) s = .next t ∧ (t.ex x).fence = none ∧ t.pc x = (s.pc x + 1) % 2 ^ 13 ∧
            t.est x = s.est x ∧ SameRegisters s t ∧ t.mem = s.mem) ∧
        (f.kind = .barrier → ((List.range 12).all fun e => !bitOf f.arg e || s.atBarrier ⟨x.bay, e⟩ f.arg) = true →
          exec (.fenceComplete x) s = .next (((List.range 12).filter fun e => bitOf f.arg e).foldl
            (fun u e => u.leaveFence ⟨x.bay, e⟩) (s.passTo (s.ec + 24))))) ∧
      (∀ g, f.kind = .barrier → f.limit = some g → exec (.barrierTimeout x) s =
        .next (((s.passTo (96 * g)).updEx x fun y => { y with fence := none }).raise x true 0x09 0 0)))) ∧
  (
  ∀ (x : Ea) (w : Word) (s : State),
    (runs (.rdgc x w) s = true →
      (s.pendFull x = false → exec (.rdgc x w) s =
        .next (((s.takePend x (rdOf w) (some 8)).setG x (rdOf w) (BitVec.ofNat 64 s.gc)).advance x 1)) ∧
      (s.pendFull x = true → exec (.rdgc x w) s = .next (s.raise x true 0x0C 0 0))) ∧
    (runs (.perfRd x w) s = true →
      (s.conf = true → exec (.perfRd x w) s = .next (s.raise x true 0x07 0 0)) ∧
      (s.conf = false → s.pendFull x = true → exec (.perfRd x w) s = .next (s.raise x true 0x0C 0 0)) ∧
      (s.conf = false → s.pendFull x = false → let u := s.takePend x (rdOf w) (some 4)
        exec (.perfRd x w) s = .next ((u.draw.2.setG x (rdOf w) (BitVec.ofNat 64 u.draw.1)).advance x 1))) ∧
    (runs (.trace x w) s = true →
      (s.conf = true → exec (.trace x w) s = .next (s.raise x true 0x07 0 0)) ∧
      (s.conf = false → ∃ t, exec (.trace x w) s = .next t ∧
        (t.bay x.bay).trace = ((s.bay x.bay).trace ++ [s.gr x (raOf w)]).drop
          ((s.bay x.bay).trace.length + 1 - Config.traceDepth) ∧
        t.pc x = (s.pc x + 1) % 2 ^ 13 ∧ SameRegisters s t ∧ t.mem = s.mem)))

/-- With its descriptor and list passing their checks and its portfolio usable, an ATTN.STEP takes an entry, initialises its
washes and visits its sheets in order, a SKETCH.RANK visits them to rank; where no visit waits or stops, the end follows at once
with code done; with the portfolio refused either ends with the refusing code. The end writes the completion word to the status
register, a rank its list of bounds to the operand store and no other byte, empties the expander's slots and moves past the
instruction. A step that waits for the partner's copy goes on when it arrives. (R97, R118, R135, R136, R137, R138, R139, R142,
R176) -/
def Obligations.AttentionStepsVisitTheirSheets : Prop :=
  (∀ (x : Ea) (w : Word) (s u : State) (rank : Bool),
    let i : Instr := if rank then .sketchRank x w else .attnStep x w
    let off := (s.gr x (raOf w)).toNat
    let d := attnDesc rank (s.bytes (opBase x + off) 64)
    let recd := s.bytes (pfAddr d.pf) 512
    let p := decodePf recd
    let r : RunX := ⟨rank, rdOf w, off, recd, List.range d.n, 0, 0, 0, none, [], .fetch, false⟩
    runs i s = true → opCheck (off : Int) 64 64 = none → s.descCheck x rank d = none → s.takeEntry x .run (rdOf w) 0 0 0 0 0 = some u →
      let first := if rank then u else u.initWashes x p d
      (u.pfCode d.pf p = cDone → exec i s = .next (State.runGo x d p none (List.range d.n) r first)) ∧
      (u.pfCode d.pf p = cDone → ∀ r' t, visitsAll x d p (List.range d.n) r first = some (r', t) →
        exec i s = .next (t.runEnd x d { r' with left := [] } cDone)) ∧
      (u.pfCode d.pf p ≠ cDone → exec i s = .next (u.runEnd x d { r with rank := false } (u.pfCode d.pf p)))) ∧
  (∀ (x : Ea) (s : State) (d : AttnDesc) (r : RunX) (code : Nat), r.locFault = none → r.rd ≠ 0 →
    s.fld (Reg.easelCtrl x.bay x.easel) Reg.easelCtrl_STOP = 0 → x.ok = true →
    let list := (rankSort r.bounds).flatMap fun (i, b) => natBytes 4 i ++ natBytes 4 b
    let t := s.runEnd x d r code
    t.gr x r.rd = compWord code r.count (r.skipped % 2 ^ 16 + r.damaged % 2 ^ 16 * 2 ^ 16) ∧ (t.ex x).run = none ∧
      t.pc x = (s.pc x + 1) % 2 ^ 13 ∧ t.est x = s.est x ∧ t.reg (Reg.easelXtbl x.bay x.easel) = 0 ∧
      (r.rank = true → code = cDone → t.bytes (opBase x + d.rank) list.length = list ∧
        SameMemoryOutside s t (opBase x + d.rank) list.length) ∧
      (r.rank = false ∨ code ≠ cDone → t.mem = s.mem) ∧ t.v = s.v ∧ t.t = s.t ∧ t.p = s.p) ∧
  (∀ (x : Ea) (s : State) (r : RunX) (data : Option (List Byte)), x.ok = true → (s.ex x).run = some r →
    (r.hold = .fetch → exec (.partnerFetchDone x data) s = .next (s.runResume x r (some data))) ∧
    (r.hold = .miss → exec (.partnerFetchDone x data) s = .next s))

/-- GLAZE on two washes at aligned offsets inside the operand store that are equal or apart stores the glaze of the two at the
first; GLAZE.EMPTY stores a blank wash. Every byte outside that wash reads as before and no register changes but the program
counter. A misaligned offset raises 0x04, washes that overlap without being equal raise 0x01. (R143, R200, R208, R209, R572) -/
def Obligations.GlazesCombineWashes : Prop :=
  ∀ (x : Ea) (w : Word) (s : State),
    let d := (s.gr x (rdOf w)).toNat
    let a := (s.gr x (raOf w)).toNat
    let stores (i : Instr) (bs : List Byte) : Prop := ∃ t, exec i s = .next t ∧
      t.bytes (opBase x + d) bs.length = bs ∧ SameMemoryOutside s t (opBase x + d) bs.length ∧ SameRegisters s t ∧
      t.pc x = (s.pc x + 1) % 2 ^ 13
    (runs (.glaze x w) s = true →
      (d % 32 ≠ 0 → exec (.glaze x w) s = .next (s.raise x true 0x04 0 d)) ∧
      (washCheck s x (rdOf w) = none → washCheck s x (raOf w) = none →
        (d ≠ a → rangesMeet d washSize a washSize = true → exec (.glaze x w) s = .next (s.raise x true 0x01 0 d)) ∧
        (d = a ∨ rangesMeet d washSize a washSize = false → s.opBusy x d washSize false = false →
          s.opBusy x a washSize false = false → stores (.glaze x w) (glazeWash (s.washAt x d 0) (s.washAt x a 0)).bytes))) ∧
    (runs (.glazeEmpty x w) s = true → washCheck s x (rdOf w) = none →
      stores (.glazeEmpty x w) blankWash.bytes)

/-- An idle engine takes the next descriptor of its queue unless a brake holds it. A compression and an expansion place their
images and leave one record for each sheet; a build and a move take their next sheet; a refused portfolio gives every sheet its
code; a discard unmaps its pages and leaves every byte outside them and the flash maps; a copy whose strokes all pass ends done; a
heat report leaves its counts. A partner's answer is taken sheet by sheet. With nothing outstanding the operation completes, its
records stand at RES, and the engine is idle; before that nothing happens. (R134, R180, R181, R182, R184, R232, R313, R316, R320,
R322, R333, R494) -/
def Obligations.EngineRunsItsDescriptors : Prop :=
  ∀ (b : Nat) (s : State) (part : PartnerCopies), b < 16 →
    (∀ ws q, (s.bay b).engine = none → (s.bay b).engineQ = ws :: q → s.admits b = true →
      s.fld Reg.pwrStatus Reg.pwrStatus_BRAKE = 0 → ∃ t, exec (.engineDescriptorStart b) s = .next t ∧
        (t.bay b).engine = some { desc := ws } ∧ (t.bay b).engineQ = q ∧
        t.fld (Reg.bayCmpStatus b) Reg.bayCmpStatus_DONE = 0 ∧ SameRegisters s t ∧ t.mem = s.mem) ∧
    (s.fld Reg.pwrStatus Reg.pwrStatus_BRAKE = 1 → exec (.engineDescriptorStart b) s = .next s) ∧
    (∀ g, (s.bay b).engine = some g → g.ran = false →
      let d := engDesc g.desc
      let p := s.pf d.pf
      let free := s.nbQueued (locMem d.dst / 512) d.dstlen = false
      let images (i : Instr) (pl : EngX × State) (pass : Nat) : Prop := ∃ t, exec i s = .next t ∧
        (t.bay b).engine = some { pl.1 with ran := true } ∧ t.mem = pl.2.mem ∧
        t.fld (Reg.bayCmpStatus b) Reg.bayCmpStatus_PASS = pass ∧ (g.results = [] → pl.1.results.length = d.n)
      let takes (i : Instr) : Prop := ∃ t h, exec i s = .next t ∧ (t.bay b).engine = some h ∧ h.desc = g.desc ∧
        h.results.length = g.results.length + 1 ∧ h.ran = decide (d.n ≤ g.results.length + 1)
      let refuses (i : Instr) (c : Nat) : Prop := exec i s = .next (s.engAll b g c) ∧
        (((s.engAll b g c).bay b).engine.map fun h => (h.ran, h.results.length)) = some (true, d.n)
      (d.op = 0x20 → s.engCode b d = cDone → d.xform ≠ 3 → d.tid % 2 = 0 → d.tid ≠ 0 → dstOk p d = true → free →
        let gs := s.gather b d p part fun _ => false
        let imgs := gs.1.filterMap (·.img)
        let k := 256 * p.kv * p.bk
        let ck := regionCode d.xform p.bk (imgs.map (·.take k))
        let cv := regionCode d.xform p.bv (imgs.map (·.drop k))
        let made := fun x : Gathered =>
          x.img.map (buildImage (decide (s.fld (Reg.bayCmpCtrl b) Reg.bayCmpCtrl_VERIFY = 1)) p d.tid ck cv)
        let kept := fun x : Gathered => (made x).bind fun c => if ceilDiv c.1.length 512 < p.strokes then some c.1 else none
        images (.compressGroup b part) (State.placeAll (gs.2.verifyFailed b ((gs.1.filterMap made).map (·.2)).sum) d p true kept g gs.1 false) 2) ∧
      (d.op = 0x21 → s.engCode b d = cDone → dstOk p d = true → free →
        let gs := s.gather b d p part fun e => !seCompressed e
        images (.expandSheets b part) (State.placeAll gs.2 d p false (fun x => x.img.map (fitTo (512 * p.strokes) 0)) g gs.1 false) 3) ∧
      (d.op = 0x23 → g.results ≠ [] ∨ s.engCode b d = cDone → g.first = none → s.engWaits g = false →
        s.sketchHeld d p g.results.length = false → takes (.buildSketches b part)) ∧
      (d.op = 0x10 → g.results ≠ [] ∨ s.pfCode d.pf p = cDone ∧ p.home = b ∧ s.moveDst p d = true ∧ s.stackReads b s.ec = true →
        s.t2Waits p (s.listEntry p (d.idx + g.results.length)) = false →
        s.nbQueued (locMem d.dst / 512 + g.used) (seSlen (s.listEntry p (d.idx + g.results.length)) + p.ns) = false →
        (∀ c ∈ g.commits, c.1 < g.results.length) → takes (.moveSheets b part)) ∧
      (d.op = 0x20 → s.engCode b d ≠ cDone → refuses (.compressGroup b part) (s.engCode b d)) ∧
      (d.op = 0x21 → s.engCode b d ≠ cDone → refuses (.expandSheets b part) (s.engCode b d)) ∧
      (d.op = 0x23 → g.results = [] → s.engCode b d ≠ cDone → refuses (.buildSketches b part) (s.engCode b d)) ∧
      (d.op = 0x10 → g.results = [] → s.pfCode d.pf p ≠ cDone → refuses (.moveSheets b part) (s.pfCode d.pf p)) ∧
      (d.op = 0x11 → locTier d.dst = 3 → locAddr d.dst % 32 = 0 → d.dstlen % 32 = 0 →
        locAddr d.dst + d.dstlen ≤ 32 * s.fld Reg.flashCap Reg.flashCap_LPAGES →
        (∀ i, i < d.dstlen / 32 → s.t3Up (locAddr d.dst + 32 * i) = true) →
        ∃ t, exec (.discardT3Range b) s = .next t ∧ (t.bay b).engine = some { g with ran := true, results := [cDone], used := 0 } ∧
          (∀ i, i < d.dstlen / 32 → t.pageMapped (locAddr d.dst / 32 + i) = false) ∧
          (∀ a, (a < t3Base + 512 * locAddr d.dst ∨ t3Base + 512 * (locAddr d.dst + d.dstlen) ≤ a) → OutsideMaps s a →
            t.byte a = s.byte a) ∧ SameRegisters s t) ∧
      (d.op = 0x11 → locTier d.dst ≠ 3 → exec (.discardT3Range b) s = .next (s.engOne b g cShape 0)) ∧
      (d.op = 0x14 → locTier d.src = 3 → locTier d.dst < 2 → locAddr d.src % 32 = 0 → d.dstlen % 32 = 0 →
        locAddr d.src + d.dstlen ≤ 32 * s.fld Reg.flashCap Reg.flashCap_LPAGES → locFits d.dst d.dstlen = true →
        s.reserved d.dst d.dstlen = false → s.locReads d.dst s.ec = true →
        (∀ i, i < d.dstlen / 32 → s.t3Up (locAddr d.src + 32 * i) = true) → free →
        let run := (List.range d.dstlen).foldl (fun (acc : Option Nat × State) i =>
          if acc.1.isSome then acc
          else (if (acc.2.copyStroke d.src d.dst i).1 then none else some i, (acc.2.copyStroke d.src d.dst i).2)) (none, s)
        (run.1 = none → exec (.copyT3 b) s = .next (run.2.engOne b { g with pages := [] } cDone 0)) ∧
        (∀ i, run.1 = some i → exec (.copyT3 b) s = .next (run.2.engOne b g cDamaged i))) ∧
      (d.op = 0x18 → p.valid = true → p.home = b →
        let heat := (List.range d.n).map fun i =>
          match (s.heatOf b).find d.pf (d.idx + i) with
          | some w => ((s.heatOf b).way (heatSet d.pf (d.idx + i)) w).eff (s.heatTick b) + 2 ^ 16
          | none => 0
        exec (.heatReport b) s = .next (s.setEngine b { g with ran := true, results := heat })) ∧
      (d.op = 0x18 → p.valid = false → refuses (.heatReport b) cNoSession)) ∧
    (∀ g i ms, (s.bay b).engine = some g → g.moves = i :: ms →
      exec (.movePartnerAck b true) s = .next ((s.setEngine b { g with moves := ms }).settleMoves b) ∧
      ((engDesc g.desc).op = 0x10 → g.pages = [] → s.partnerAway = false → s.mirrorOff = false →
        ∃ t h, exec (.movePartnerAck b true) s = .next t ∧ (t.bay b).engine = some h ∧ h.moves = ms ∧
          h.commits = g.commits.filter fun c => ms.contains c.1) ∧
      exec (.movePartnerAck b false) s = .next (s.setEngine b ((g.commits.filter fun c => c.1 == i).foldl
        (fun h c => h.setResult i (recOf (engDesc g.desc).op cUnavailable c.2.1))
        { g with moves := ms, commits := g.commits.filter fun c => c.1 != i }))) ∧
    (let u := (s.settleMoves b).settleFirst b
      ∀ g, (u.bay b).engine = some g →
      let d := engDesc g.desc
      let known := d.op ∈ [0x10, 0x11, 0x14, 0x18, 0x20, 0x21, 0x23]
      let done' := u.commitAll d (u.pf d.pf) { u.abandonAll d g with commits := [] } g.commits
      let recs := engRecords d.op done'.1
      (known → g.ran = false → exec (.engineOpComplete b) s = .next s) ∧
      (u.engPending d g = true → exec (.engineOpComplete b) s = .next s) ∧
      (known → g.ran = true → u.engPending d g = false →
        ∃ t, exec (.engineOpComplete b) s = .next t ∧ (t.bay b).engine = none ∧
          (locTier d.res = 0 → locFits d.res (ceilDiv (8 * recs.length) 512) = true →
            t.bytes (locMem d.res) (8 * recs.length) = recs.flatMap (natBytes 8) ∧
            SameMemoryOutside done'.2 t (locMem d.res) (8 * recs.length))) ∧
      (¬ known → u.engPending d g = false →
        ∃ t, exec (.engineOpComplete b) s = .next t ∧ (t.bay b).engine = none))

/-- The tick counter of a bay goes up by one at its HALFLIFE, with the entries standing. A sweep step gives every used way of one
set its effective count and the tick as its stamp, frees it where that count is 0, leaves every other set and moves to the next
set. CLEAR frees every entry. Nothing else of the node's easels or memory changes. (R309, R311, R336) -/
def Obligations.HeatTablesAgeSweepAndClear : Prop :=
  ∀ (b : Nat) (s : State), b < 16 →
    (∃ t, exec (.heatTick b) s = .next t ∧ t.heatTick b = (s.heatTick b + 1) % 2 ^ 32 ∧ (t.heatOf b).ents = (s.heatOf b).ents ∧
      96 * ((s.heatOf b).tickAt + s.fld (Reg.bayHeatCtrl b) Reg.bayHeatCtrl_HALFLIFE) ≤ t.ec ∧ SameRegisters s t ∧ t.mem = s.mem) ∧
    (∃ t, exec (.heatSweepStep b) s = .next t ∧ SameRegisters s t ∧ t.mem = s.mem ∧
      (t.heatOf b).sweep = ((s.heatOf b).sweep + 1) % 16384 ∧
      (∀ k w, w < 4 → (t.heatOf b).way k w =
        let e := (s.heatOf b).way k w
        if k = (s.heatOf b).sweep ∧ e.used = true then
          if e.eff (s.heatTick b) = 0 then {} else { e with count := e.eff (s.heatTick b), stamp := s.heatTick b }
        else e)) ∧
    (∃ t, exec (.bayHeatClear b) s = .next t ∧ (t.heatOf b).ents = [] ∧
      t.fld (Reg.bayHeatStatus b) Reg.bayHeatStatus_USED = 0 ∧ t.heatTick b = s.heatTick b ∧ SameRegisters s t ∧ t.mem = s.mem)

/-- Starting a lane outside the tier logs a licence event; a lane whose ring does not fit stays stopped with shape; any other
starts at FIRST with bytes 0 to 63 of its ring zero and its RUN bit set. A stop takes effect at once where nothing is in flight,
with the code done in the ring's status, and is remembered where something is. ENABLE written 0 stops the lanes. A key slot is set
where the bay key store has room; one that holds no key stops the lanes. The engine's and the sparse unit's counters clear. (R186,
R248, R258, R261, R268, R269, R451) -/
def Obligations.WeightStreamLanesStartAndStop : Prop :=
  ∀ (b e : Nat) (s : State), b < 16 → e < 12 →
    (s.easelsPerBay ≤ e → exec (.wsLaneStart b e) s = .next (s.logLic b 0x04 (b * 16 + e))) ∧
    (e < s.easelsPerBay → s.fld (Reg.bayWsCtrl b) Reg.bayWsCtrl_ENABLE = 0 → exec (.wsLaneStart b e) s = .next s) ∧
    (e < s.easelsPerBay → s.fld (Reg.bayWsCtrl b) Reg.bayWsCtrl_ENABLE = 1 →
      let n := s.ringSize b e
      let off := s.fld (Reg.bayWsLane1 b e) Reg.bayWsLane1_RINGOFF
      let first := s.fld (Reg.bayWsLane1 b e) Reg.bayWsLane1_FIRST
      (n < 16 ∨ 4096 < n ∨ off % 64 ≠ 0 ∨ opSize < off + 64 + 512 * (n + 9) →
        ∃ t, exec (.wsLaneStart b e) s = .next t ∧ (t.lane b e).run = false ∧
          t.fld (Reg.bayWsErr b) Reg.bayWsErr_LANE = e ∧ t.fld (Reg.bayWsErr b) Reg.bayWsErr_CODE = cShape ∧
          t.fld (Reg.bayWsErr b) Reg.bayWsErr_ERREV = 1 ∧
          bitOf (t.fld (Reg.bayWsStatus b) Reg.bayWsStatus_RUN) e = false ∧
          bitOf (t.fld (Reg.bayWsStatus b) Reg.bayWsStatus_ERRSTOP) e = true ∧ SameRegisters s t ∧ t.mem = s.mem) ∧
      (16 ≤ n → n ≤ 4096 → off % 64 = 0 → off + 64 + 512 * (n + 9) ≤ opSize →
        ∃ t, exec (.wsLaneStart b e) s = .next t ∧ t.lane b e = { run := true, next := first, landing := first } ∧
          (∀ k, k < 64 → t.byte (s.ringBase b e + k) = 0) ∧ SameMemoryOutside s t (s.ringBase b e) 64 ∧ SameRegisters s t ∧
          bitOf (t.fld (Reg.bayWsStatus b) Reg.bayWsStatus_RUN) e = true ∧
          bitOf (t.fld (Reg.bayWsStatus b) Reg.bayWsStatus_ERRSTOP) e = false ∧
          t.fld (Reg.bayWsLane2 b e) Reg.bayWsLane2_ENTRY = first)) ∧
    (s.easelsPerBay ≤ e → exec (.wsLaneStop b e) s = .next (s.logLic b 0x04 (b * 16 + e))) ∧
    (e < s.easelsPerBay → (s.lane b e).run = false → exec (.wsLaneStop b e) s = .next s) ∧
    (e < s.easelsPerBay → (s.lane b e).run = true → (s.lane b e).stopping = none →
      ((s.lane b e).flights.all (·.landed) = true → ∃ t, exec (.wsLaneStop b e) s = .next t ∧ (t.lane b e).run = false ∧
        bitOf (t.fld (Reg.bayWsStatus b) Reg.bayWsStatus_RUN) e = false ∧
        t.bytes (s.ringBase b e + 16) 8 = natBytes 8 ((s.lane b e).landing % 4096 * 2 ^ 16) ∧
        SameMemoryOutside s t (s.ringBase b e + 16) 8 ∧ SameRegisters s t) ∧
      ((s.lane b e).flights.all (·.landed) = false → exec (.wsLaneStop b e) s =
        .next (s.setLane b e { s.lane b e with stopping := some (cDone, s.wsAt b e) }))) ∧
    exec (.wsEnableWrite b true) s = .next (s.setFld (Reg.bayWsCtrl b) Reg.bayWsCtrl_ENABLE 1) ∧
    (∃ t, exec (.wsEnableWrite b false) s = .next t ∧ t.fld (Reg.bayWsCtrl b) Reg.bayWsCtrl_ENABLE = 0 ∧
      (∀ k, k < 12 → (t.lane b k).run = false ∨ (t.lane b k).stopping.isSome = true) ∧ SameRegisters s t) ∧
    (∀ slot, slot < 65536 →
      let u := s.checkSlot slot
      (u.slotRoom b slot = true → u.keyGood slot = true → ∃ t, exec (.keyslotWrite b slot) s = .next t ∧
        t.fld (Reg.bayWsCtrl b) Reg.bayWsCtrl_KEYSLOT = slot ∧ t.slotLoaded b slot = true ∧ SameRegisters s t ∧ t.mem = s.mem) ∧
      (u.slotRoom b slot = true → u.keyGood slot = false → ∃ t, exec (.keyslotWrite b slot) s = .next t ∧
        t.fld (Reg.bayWsCtrl b) Reg.bayWsCtrl_KEYSLOT = slot ∧
        (∀ k, k < 12 → (t.lane b k).run = false ∨ (t.lane b k).stopping.isSome = true)) ∧
      (u.slotRoom b slot = false → exec (.keyslotWrite b slot) s = .next u)) ∧
    (∃ t, exec (.bayCmpStatclr b) s = .next t ∧ SameRegisters s t ∧ t.mem = s.mem ∧
      ∀ o, t.reg o = if o = Reg.bayCmpRawin b ∨ o = Reg.bayCmpStoredout b then 0 else s.reg o) ∧
    (∃ t, exec (.baySpsClr b) s = .next t ∧ SameRegisters s t ∧ t.mem = s.mem ∧
      ∀ o, t.reg o = if o = Reg.baySpsRead b ∨ o = Reg.baySpsSkip b ∨ o = Reg.baySpsForced b then 0 else s.reg o)

/-- Nothing is issued during a brake or while the stack is not ready. Descriptor work of the engine takes the slot while no
running lane is short of strokes. The lane in turn, with strokes of its span to issue and room in its ring, issues the next one,
and the turn passes on. A stroke that passes its check lands at its slot of the ring; one that fails its first read is read again;
one that fails its second stops the lane with damaged. RELEASED further than RINGSZ behind LANDED stops the lane with sequence;
otherwise it frees the slots below it. (R261, R262, R263, R264, R265, R266, R268, R271, R494) -/
def Obligations.WeightStrokesAreIssuedAndLand : Prop :=
  ∀ (b : Nat) (s : State), b < 16 →
    (s.fld Reg.pwrStatus Reg.pwrStatus_BRAKE = 1 ∨ s.stackUp b = false → exec (.wsStrokeIssue b) s = .next s) ∧
    (s.fld Reg.pwrStatus Reg.pwrStatus_BRAKE = 0 → s.stackReads b s.ec = true → s.admits b = true →
      (s.keyGood (s.fld (Reg.bayWsCtrl b) Reg.bayWsCtrl_KEYSLOT) = false →
        exec (.wsStrokeIssue b) s = .next (s.wsStopAll b cKey)) ∧
      (s.keyGood (s.fld (Reg.bayWsCtrl b) Reg.bayWsCtrl_KEYSLOT) = true →
        (s.descWants b = true ∧ s.wsShort b = false → exec (.wsStrokeIssue b) s = .next s) ∧
        (s.descWants b = false ∨ s.wsShort b = true →
        let e := (s.bay b).wsTurn
        let l := s.lane b e
        ∀ p, e < 12 → l.run = true → l.stopping = none → l.spans.getLast? = some p → p.issued < p.strokes → s.wsMay b e l = true →
          ∃ t, exec (.wsStrokeIssue b) s = .next t ∧ (t.bay b).wsTurn = (e + 1) % 12 ∧ (t.lane b e).issued = l.issued + 1 ∧
            (∃ f, (t.lane b e).flights = l.flights ++ [f] ∧ f.seq = l.issued ∧ f.addr = p.addr + p.issued ∧ f.landed = false ∧
              f.retry = false) ∧
            t.fld (Reg.bayWsLane2 b e) Reg.bayWsLane2_FETCHED = (l.issued + 1) % 2 ^ 32 ∧ SameRegisters s t ∧ t.mem = s.mem))) ∧
    (∀ e, e < 12 →
      let l := s.lane b e
      let n := s.ringSize b e
      let tries (i : Instr) (f : WsFlight) : Prop :=
        (((s.passTo f.due).wsCheck b f.addr f.kid).1 = true → 16 ≤ n → ∃ t, exec i s = .next t ∧
          t.bytes (s.ringBase b e + 64 + 512 * (f.seq % n)) 512 = s.bytes (stackBase b + 512 * f.addr) 512 ∧ SameRegisters s t) ∧
        (((s.passTo f.due).wsCheck b f.addr f.kid).1 = false → f.retry = false → ∃ t, exec i s = .next t ∧
          (t.lane b e).flights = l.flights.map (fun g => if g.seq = f.seq then { g with retry := true, due := f.due + 288 } else g) ∧
          SameRegisters s t ∧ t.mem = s.mem) ∧
        (((s.passTo f.due).wsCheck b f.addr f.kid).1 = false → f.retry = true → ∃ t, exec i s = .next t ∧ (t.lane b e).run = false ∧
          t.fld (Reg.bayWsErr b) Reg.bayWsErr_CODE = cDamaged ∧ t.fld (Reg.bayWsErr b) Reg.bayWsErr_LANE = e ∧
          SameRegisters s t ∧ SameMemoryOutside s t (s.ringBase b e + 16) 8)
      (∀ f, l.flights.find? (fun f => !f.landed && !f.retry) = some f → tries (.wsStrokeLand b e) f) ∧
      (∀ f, l.flights.find? (fun f => !f.landed && f.retry) = some f → tries (.wsStrokeRetry b e) f) ∧
      (l.flights = [] → exec (.wsStrokeLand b e) s = .next s ∧ exec (.wsStrokeRetry b e) s = .next s) ∧
      (l.run = false → exec (.wsReleasedSample b e) s = .next s) ∧
      (l.run = true →
        let away := (l.landed + 2 ^ 32 - bytesNat (s.bytes (s.ringBase b e + 8) 4)) % 2 ^ 32
        (n < away → exec (.wsReleasedSample b e) s = .next (s.wsStop b e cSequence)) ∧
        (away ≤ n → ∃ t, exec (.wsReleasedSample b e) s = .next t ∧ (t.lane b e).released = l.landed - away ∧
          (t.lane b e).landed = l.landed ∧ SameRegisters s t ∧ t.mem = s.mem)))

/-- A stroke without symbol errors that holds the wanted tag is read without a count; up to two errors count a correction, three
to five an uncorrectable error with its address (in a region that is not detection-only); a wrong tag counts a tag mismatch; a
void stroke sets VOIDRD; a portfolio record not written since its stack lost its contents passes as the zero record of R43. No
read changes memory. A write of a whole stroke replaces its 512 bytes; a write of a part is merged into a stroke that passes its
check, and leaves one that fails as it was; one to a stroke of a near-bank operation that has still to start waits. No byte
outside the stroke changes. (R277, R278, R284, R286, R291, R294, R300, R302) -/
def Obligations.StrokesAreCheckedAndWritten : Prop :=
  ∀ (b addr slot tweak errs : Nat) (s : State), b < 16 → addr < stackStrokes → slot < 65536 →
    let g := stackBase b / 512 + addr
    let q := s.sealUnder b addr slot tweak
    let ecc := Reg.bayStkEcc b
    let reads := exec (.strokeReadComplete b addr slot tweak errs) s
    (s.stamp g = q → errs = 0 → reads = .next (s.setErrs g 0)) ∧
    (s.stamp g = q → (s.regionAt b addr).2 = false → 1 ≤ errs → errs ≤ 2 → ∃ t, reads = .next t ∧
      t.fld ecc Reg.bayStkEcc_CORR = satInc Reg.bayStkEcc_CORR.w (s.fld ecc Reg.bayStkEcc_CORR) ∧
      t.fld ecc Reg.bayStkEcc_CORREV = 1 ∧ SameRegisters s t ∧ t.mem = s.mem) ∧
    (s.stamp g ≠ .void → (s.regionAt b addr).2 = false → 3 ≤ errs → errs ≤ 5 → ∃ t, reads = .next t ∧
      t.fld ecc Reg.bayStkEcc_UNCORR = satInc Reg.bayStkEcc_UNCORR.w (s.fld ecc Reg.bayStkEcc_UNCORR) ∧
      t.fld ecc Reg.bayStkEcc_UNCEV = 1 ∧ t.reg (Reg.bayStkErrloc b) = BitVec.ofNat 64 addr ∧ SameRegisters s t ∧ t.mem = s.mem) ∧
    (pfTop ≤ addr → s.stamp g = .none → q = s.locWant b addr → errs = 0 → reads = .next (s.setErrs g 0)) ∧
    (addr < pfTop ∨ s.stamp g ≠ .none → s.stamp g ≠ q → s.stamp g ≠ .void → errs = 0 → ∃ t, reads = .next t ∧
      t.fld ecc Reg.bayStkEcc_TAGMIS = satInc Reg.bayStkEcc_TAGMIS.w (s.fld ecc Reg.bayStkEcc_TAGMIS) ∧
      t.fld ecc Reg.bayStkEcc_TAGEV = 1 ∧ SameRegisters s t ∧ t.mem = s.mem) ∧
    (s.stamp g = .void → reads = .next ((s.setErrs g errs).setFld ecc Reg.bayStkEcc_VOIDRD 1)) ∧
    (∀ off data, off + data.length ≤ 512 →
      let writes := exec (.pageBufferWrite b addr slot tweak off data) s
      let held := s.nbQueued g 1 = true
      (held → writes = .next s) ∧
      (¬ held → data.length = 512 → ∃ t, writes = .next t ∧ t.bytes (512 * g) 512 = data ∧ t.stamp g = q ∧
        SameMemoryOutside s t (512 * g) 512 ∧ SameRegisters s t ∧ (t.stk b).pb.any (·.addr == addr) = true) ∧
      (¬ held → data.length ≠ 512 → (s.check g q 0).1 = true → ∃ t, writes = .next t ∧
        t.bytes (512 * g) 512 = patch (s.bytes (512 * g) 512) off data ∧ t.stamp g = q ∧
        SameMemoryOutside s t (512 * g) 512 ∧ SameRegisters s t) ∧
      (¬ held → data.length ≠ 512 → (s.check g q 0).1 = false → ∃ t, writes = .next t ∧ t.mem = s.mem ∧ t.seals = s.seals ∧
        SameRegisters s t))

/-- A read of a stroke that the page buffer does not hold, and a write-back, take their channel and bank at a cycle no earlier
than their arrival; a write-back frees its entry of the page buffer and PBDEPTH shows the rest; the write-back admitted alone is
the one that goes first. A deep or relocking bay admits nothing. A mesh transfer takes an interval of every link of its path at or
after the cycle it is ready, and none of them overlaps an interval reserved before. Memory and the easels' registers are
unchanged. (R282, R283, R284, R285, R488, R502) -/
def Obligations.AccessesAndTransfersAreAdmitted : Prop :=
  (∀ (b : Nat) (a : Access) (s : State), b < 16 → a.addr < stackStrokes → a.sourceBay < 16 →
    (s.admits b = false → exec (.accessAdmission b [a]) s = .next s) ∧
    (s.admits b = true → a.write = false → s.stackUp b = true → (s.stk b).tripping = false →
      (s.stk b).pb.any (·.addr == a.addr) = false → ∃ t c, exec (.accessAdmission b [a]) s = .next t ∧ a.arrival ≤ c ∧
        (chanOf a.addr, c) ∈ (t.stk b).windows ∧ (chanOf a.addr, bankOf a.addr, c) ∈ (t.stk b).banks ∧
        SameRegisters s t ∧ t.mem = s.mem) ∧
    (s.admits b = true → a.write = true → (s.stk b).pb.any (·.addr == a.addr) = true →
      ∃ t c, exec (.accessAdmission b [a]) s = .next t ∧ a.arrival ≤ c ∧ (chanOf a.addr, c) ∈ (t.stk b).windows ∧
        (t.stk b).pb.any (·.addr == a.addr) = false ∧ (∀ p, p ∈ (t.stk b).pb → p ∈ (s.stk b).pb) ∧
        ((s.stk b).pb.any (·.flush) = false → (s.stk b).pb.length < 224 → (t.stk b).pb = (s.stk b).pb.filter (·.addr != a.addr)) ∧
        t.fld (Reg.bayStkStatus b) Reg.bayStkStatus_PBDEPTH = (t.stk b).pb.length % 2 ^ Reg.bayStkStatus_PBDEPTH.w ∧
        SameRegisters s t ∧ t.mem = s.mem) ∧
    (s.admits b = true → (s.stk b).pb ≠ [] → ∃ p, p ∈ (s.stk b).pb ∧
      (∀ q, q ∈ (s.stk b).pb → comesFirst (s.accessTurn b (s.writeBack q)) (s.accessTurn b (s.writeBack p)) = false) ∧
      ∃ t, exec (.writeBackAdmit b) s = .next t ∧ (t.stk b).pb = (s.stk b).pb.filter (·.addr != p.addr) ∧
        SameRegisters s t ∧ t.mem = s.mem) ∧
    ((s.stk b).pb = [] → exec (.writeBackAdmit b) s = .next s)) ∧
  (∀ (x : Transfer) (s : State), x.src < 16 → x.dst < 16 → ∃ t c, exec (.meshTransferEnter [x]) s = .next t ∧ x.ready ≤ c ∧
    (∀ i, i ∈ meshSpans x.src x.dst x.bytes c → i ∈ t.mesh ∧
      ∀ r, r ∈ s.mesh → r.1 = i.1 → r.2.2 ≤ i.2.1 ∨ i.2.2 ≤ r.2.1) ∧
    SameRegisters s t ∧ t.mem = s.mem)

/-- A frame start applies the waiting slot map of every stack and takes its temperature. A refresh window refreshes four rows a
bank; a scrub window visits the next stroke of its channel and moves on where it finds no error; a row that is to be remapped
stands on its next spare row. A slot map that breaks the rules or the floors sets MAPBAD, a region that breaks them REGBAD; any
other is taken. A trip and a retrain leave the stack in self-refresh and not ready; the retrain ends ready. (R279, R280, R281,
R289, R290, R292, R295, R296, R306, R499, R501, R515) -/
def Obligations.StacksRefreshScrubRemapAndRetrain : Prop :=
  (∀ (temps : List Nat) (die : Nat) (s : State), temps.length = 16 → (∀ k, k ∈ temps → k < 256) → die < 115 →
    s.boot.noCrystal = false → s.boot.phase < 3 → s.pwr.relock = none → s.rot.act = none → s.rot.back = none → ∃ t, exec (.frameStart temps die) s = .next t ∧
      t.frames = max s.frames (ceilDiv s.ec 12288) + 1 ∧ 12288 * (t.frames - 1) ≤ t.ec ∧ SameRegisters s t ∧ t.mem = s.mem ∧
      ∀ b, b < 16 → ((s.stk b).pendFloor = false → (t.stk b).map = (s.stk b).pendMap.getD (s.stk b).map ∧
          (t.stk b).pendMap = none) ∧
        t.fld (Reg.bayStkTherm b) Reg.bayStkTherm_TEMP = temps.getD b 0) ∧
  (∀ (b : Nat) (s : State), b < 16 →
    let st := Reg.bayStkStatus b
    (∀ c ok, c < 128 → (s.asleep b = true → exec (.refreshWindow b c ok) s = .next s) ∧
      (s.asleep b = false → ∃ t, exec (.refreshWindow b c ok) s = .next t ∧
        SMap.get (fun _ => 0) (t.stk b).refresh c = (SMap.get (fun _ => 0) (s.stk b).refresh c + 4) % 20544 ∧
        (t.stk b).badTiming = ((s.stk b).badTiming || !ok) ∧ t.regs = s.regs ∧ SameRegisters s t ∧ t.mem = s.mem)) ∧
    (∀ c errs, c < 128 →
      (∃ t, exec (.scrubWindow b c errs) s = .next t ∧ SameRegisters s t ∧ t.mem = s.mem) ∧
      (mapSn (s.stk b).map = 0 ∨ s.asleep b = true → exec (.scrubWindow b c errs) s = .next s) ∧
      (mapSn (s.stk b).map ≠ 0 → s.asleep b = false → (s.stk b).remapping = [] → (s.stk b).nbRun = none → errs = 0 →
        ∃ t, exec (.scrubWindow b c errs) s = .next t ∧
          SMap.get (fun _ => 0) (t.stk b).scrub c = SMap.get (fun _ => 0) (s.stk b).scrub c + 1)) ∧
    (∀ r, (s.stk b).remapping.find? (fun r => r.2 == 4 || mapSn (s.stk b).map == 0) = some r →
      ∃ t, exec (.rowRemapCommit b) s = .next t ∧
        SMap.get (fun _ => 0) (t.stk b).remap r.1 = (s.stk b).usedIn r.1 + 1 ∧
        (t.stk b).remapping = (s.stk b).remapping.filter (·.1 != r.1) ∧
        t.fld (Reg.bayStkRemap b) Reg.bayStkRemap_REMAPEV = 1 ∧
        t.repairDue = s.repairDue ++ [⟨2, b, r.1, (s.stk b).usedIn r.1 + 1⟩] ∧ SameRegisters s t ∧ t.mem = s.mem) ∧
    ((s.stk b).remapping = [] → exec (.rowRemapCommit b) s = .next s) ∧
    (∀ v : Word, let m := mapFields v.toNat
      (mapBad m = true ∨ s.belowFloors b m = true → exec (.baySlotmapWrite b v) s =
        .next (s.setFld (Reg.bayStkMaperr b) Reg.bayStkMaperr_MAPBAD 1)) ∧
      (mapBad m = false → s.belowFloors b m = false → ∃ t, exec (.baySlotmapWrite b v) s = .next t ∧
        t.reg (Reg.baySlotmap b) = BitVec.ofNat 64 m ∧ (t.stk b).pendMap = some m ∧ (t.stk b).map = (s.stk b).map)) ∧
    (∀ n (v : Word), n < 16 →
      let refused := exec (.bayRegionWrite b n v) s = .next (s.setFld (Reg.bayStkMaperr b) Reg.bayStkMaperr_REGBAD 1)
      let base := bitsOf v.toNat 0 20
      let len := bitsOf v.toNat 20 20
      (bitOf v.toNat 63 = true → pfTop < 256 * (base + len) → refused) ∧
      (s.conf = true → bitOf v.toNat 40 = true → refused) ∧
      (bitOf v.toNat 63 = true → ∀ k, k < 16 → k ≠ n → s.fld (Reg.bayRegion b k) Reg.bayRegion_VALID = 1 →
        rangesMeet base len (s.fld (Reg.bayRegion b k) Reg.bayRegion_BASE) (s.fld (Reg.bayRegion b k) Reg.bayRegion_LEN) = true →
        refused) ∧
      (bitOf v.toNat 63 = false → s.conf = false → exec (.bayRegionWrite b n v) s =
        .next (s.setReg (Reg.bayRegion b n) (BitVec.ofNat 64 (bitsOf v.toNat 0 42 + bitsOf v.toNat 63 1 * 2 ^ 63))))) ∧
    ((s.stk b).tripping = true → (s.stk b).nbRun = none → ∃ t, exec (.stackTripSelfref b) s = .next t ∧
      t.fld st Reg.bayStkStatus_SELFREF = 1 ∧ t.fld st Reg.bayStkStatus_TRIP = 1 ∧ t.stackUp b = false ∧
      (t.stk b).tripping = false ∧ (t.stk b).pb = [] ∧ (t.stk b).nbQ = [] ∧ t.mem = s.mem) ∧
    ((s.stk b).tripping = false → exec (.stackTripSelfref b) s = .next s) ∧
    ((s.stk b).badTiming = true → (s.stk b).nbRun = none → s.stackUp b = true → ∃ t, exec (.stackRetrain b) s = .next t ∧
      t.fld st Reg.bayStkStatus_SELFREF = 1 ∧ t.fld st Reg.bayStkStatus_TRAIN = 1 ∧ t.stackUp b = false ∧
      (t.stk b).readyAt = some (frameAfter (ceilDiv s.ec 96) + 12800) ∧ t.mem = s.mem) ∧
    (∀ g, (s.stk b).readyAt = some g → s.fld st Reg.bayStkStatus_TRAIN = 1 → s.fld st Reg.bayStkStatus_SELFREF = 1 →
      ∃ t, exec (.stackRetrainDone b) s = .next t ∧ t.fld st Reg.bayStkStatus_SELFREF = 0 ∧
        t.fld st Reg.bayStkStatus_TRAIN = 0 ∧ t.stackUp b = true ∧ g ≤ t.gc ∧ SameRegisters s t ∧ t.mem = s.mem))

/-- A read of a mapped page marks the codewords that failed. A queued page is programmed on its LUN: it is mapped and no longer
queued, and no byte but its word of the map changes; a program that fails retires the block and counts it; with no place left on
any LUN its sheet fails with capacity. Collection of a LUN short of free blocks leaves its emptiest closed block free, erased once
more. The patrol counts a page near its limit as relocated and one with an uncorrectable codeword as lost. None of them changes an
easel's register. A withdrawal marks a granted extent and leaves one that is not granted. Once no read of the extent is
outstanding a withdrawn extent clears VALID and WITHDRAW and sets GONE; with one outstanding nothing happens yet. Nothing else
changes. (R325, R327, R329, R330, R331, R332, R334, R335) -/
def Obligations.FlashPagesAndExtents : Prop :=
  (
  ∀ (c : Nat) (s : State), c < 32 →
    let f := s.fch c
    let word (p : Nat) := 512 * (locMem (s.fld (Reg.flashChMapbase c) Reg.flashChMapbase_LOC) / 512) + 4 * (p / 32)
    (∀ p bits, p % 32 = c → bits.length = 4 →
      (s.pageMapped p = true → s.chUp c = true → ∃ t, exec (.flashPageReadDone c p bits) s = .next t ∧
        (∀ k, k < 4 → SMap.get (fun _ => false) (t.fch c).bad (4 * p + k) = (bits.getD k none).isNone) ∧
        SameRegisters s t ∧ t.mem = s.mem) ∧
      (s.pageMapped p = false → exec (.flashPageReadDone c p bits) s = .next s) ∧
      (s.pageMapped p = true → s.chUp c = true → s.fld Reg.flashPatrol Reg.flashPatrol_ENABLE = 1 → f.queue = [] →
        ((List.range f.luns).any fun l =>
          decide (f.freeIn l < s.fld Reg.flashCfg Reg.flashCfg_GCLOW) && (f.keysOf l).any f.stale) = false →
        (bits.any (·.isNone) = true → SMap.get (fun _ => false) f.lost p = false → ∃ t, exec (.patrolRead c p bits) s = .next t ∧
          SMap.get (fun _ => false) (t.fch c).lost p = true ∧
          t.fld (Reg.flashChErr c) Reg.flashChErr_LOST = satInc 16 (s.fld (Reg.flashChErr c) Reg.flashChErr_LOST) ∧
          t.fld (Reg.flashChErr c) Reg.flashChErr_LOSTEV = 1 ∧
          t.fld (Reg.flashChLastlost c) Reg.flashChLastlost_LPAGE = p % 2 ^ 40 ∧ SameRegisters s t ∧ t.mem = s.mem) ∧
        (bits.any (·.isNone) = false → s.fld Reg.flashCfg Reg.flashCfg_RELTH ≤ (bits.map (·.getD 0)).foldl max 0 →
          ∃ t, exec (.patrolRead c p bits) s = .next t ∧
            t.fld (Reg.flashChPatrol c) Reg.flashChPatrol_RELOC =
              (s.fld (Reg.flashChPatrol c) Reg.flashChPatrol_RELOC + 1) % 2 ^ 32 ∧ SameRegisters s t ∧
            SameMemoryOutside s t (word p) 4)) ∧
      (s.fld Reg.flashPatrol Reg.flashPatrol_ENABLE = 0 → exec (.patrolRead c p bits) s = .next s)) ∧
    (∀ p lun, p % 32 = c →
      (f.queue.contains p = false → ∀ ok, exec (.flashPageProgrammed c p lun ok) s = .next s) ∧
      (f.queue.contains p = true → s.chUp c = true → f.lunFor p = none → ∀ ok,
        exec (.flashPageProgrammed c p lun ok) s = .next ((s.passHold c).failPage p cCapacity)) ∧
      (f.queue.contains p = true → s.chUp c = true → f.lunFor p = some lun → f.collectFirst lun = false → (f.target lun).isSome = true →
        ((∀ b, b < 16 → ∀ g, (s.bay b).engine = some g → p ∉ g.pages) →
          ∃ t, exec (.flashPageProgrammed c p lun true) s = .next t ∧ t.pageMapped p = true ∧ (t.fch c).queue.contains p = false ∧
            SameRegisters s t ∧ SameMemoryOutside s t (word p) 4) ∧
        (f.perLun ≤ 2 ^ 32 → ∃ t, exec (.flashPageProgrammed c p lun false) s = .next t ∧ (t.fch c).queue = f.queue ∧
          t.fld (Reg.flashChErr c) Reg.flashChErr_RETIRED = satInc 16 (s.fld (Reg.flashChErr c) Reg.flashChErr_RETIRED) ∧
          t.fld (Reg.flashChErr c) Reg.flashChErr_RETEV = 1 ∧ SameRegisters s t))) ∧
    (∀ run : GcRun, s.fld Reg.flashCfg Reg.flashCfg_GCLOW ≤ f.freeIn run.lun → exec (.garbageCollect c run) s = .next s) ∧
    (∀ lun k fails, lun < f.luns → f.freeIn lun < s.fld Reg.flashCfg Reg.flashCfg_GCLOW → s.chUp c = true →
      f.queue = [] ∨ f.freeIn lun ≤ 2 → f.emptiest lun = some k →
      let g := (f.valid k).foldl (fun g p => g.rewriteTry fails p) f
      (g.valid k ≠ [] → ∀ erased, exec (.garbageCollect c ⟨lun, fails, erased⟩) s = .next s) ∧
      (g.valid k = [] → ∃ t, exec (.garbageCollect c ⟨lun, fails, true⟩) s = .next t ∧
        (t.fch c).block k = { st := .free, erases := (g.block k).erases + 1, pages := [] } ∧ (t.fch c).map = g.map ∧
        SameRegisters s t) ∧
      (g.valid k = [] → ∃ t, exec (.garbageCollect c ⟨lun, fails, false⟩) s = .next t ∧ t.fch c = g.retire k ∧ SameRegisters s t)) ∧
    (f.opened < s.fld Reg.flashCfg Reg.flashCfg_CKPTBLK → exec (.flashCheckpoint c) s = .next s) ∧
    (s.fld Reg.flashCfg Reg.flashCfg_CKPTBLK ≤ f.opened → ∃ t, exec (.flashCheckpoint c) s = .next t ∧
      t.fch c = { f with opened := 0 } ∧ t.regs = s.regs ∧ SameRegisters s t ∧ t.mem = s.mem)) ∧
  (
  ∀ (n : Nat) (s : State), n < 256 →
    let r := Reg.tier2Ext0 n
    (s.fld r Reg.tier2Ext0_VALID = 1 → ∃ t, exec (.extentWithdraw n) s = .next t ∧ t.fld r Reg.tier2Ext0_WITHDRAW = 1 ∧
      t.fld r Reg.tier2Ext0_VALID = 1 ∧ (∀ o, o ≠ r → t.reg o = s.reg o) ∧ SameRegisters s t ∧ t.mem = s.mem) ∧
    (s.fld r Reg.tier2Ext0_VALID = 0 → exec (.extentWithdraw n) s = .next s) ∧
    (s.fld r Reg.tier2Ext0_WITHDRAW = 1 → (∀ q, q ∈ s.host.reads → ofExtent n q.1 = false) →
      ∃ t, exec (.extentGone n) s = .next t ∧ t.fld r Reg.tier2Ext0_VALID = 0 ∧ t.fld r Reg.tier2Ext0_WITHDRAW = 0 ∧
        t.fld r Reg.tier2Ext0_GONE = 1 ∧ t.fld r Reg.tier2Ext0_HBASE = s.fld r Reg.tier2Ext0_HBASE ∧
        (∀ o, o ≠ r → t.reg o = s.reg o) ∧ SameRegisters s t ∧ t.mem = s.mem) ∧
    (∀ q, q ∈ s.host.reads → ofExtent n q.1 = true → exec (.extentGone n) s = .next s))

/-- Training without a licence does nothing; a missing page leaves no LUN, one outside the supported subset sets GEOMBAD, any
other gives the channel its geometry, none of them ready yet. A rebuild that has ended writes the map into its region and makes
its channel ready; a map base written starts another. FORMAT takes every channel out of service, and its end leaves every page
unmapped and reading as zeros. A failed channel is not ready; a retrained one holds its work. (R326, R328, R329, R331, R334, R337,
R340, R510, R516) -/
def Obligations.FlashChannelsAreBroughtUpFormattedAndLost : Prop :=
  (∀ s : State,
    (∃ t, exec .flashCkpt s = .next t ∧ (∀ c, c < 32 → t.fch c = { s.fch c with opened := 0 }) ∧ t.regs = s.regs ∧
      SameRegisters s t ∧ t.mem = s.mem) ∧
    (s.fld Reg.flashStatus Reg.flashStatus_FORMATTING = 1 → exec .flashFormat s = .next s) ∧
    (s.fld Reg.flashStatus Reg.flashStatus_FORMATTING = 0 →
      (∃ t, exec .flashFormat s = .next t ∧ t.fld Reg.flashStatus Reg.flashStatus_FORMATTING = 1 ∧
        (∀ c, c < 32 → t.chUp c = false) ∧ t.fld Reg.flashStatus Reg.flashStatus_READY = 0 ∧ SameRegisters s t ∧
        ((∀ c, c < 32 → (s.fch c).queue = []) → t.mem = s.mem)) ∧
      exec .flashFormatDone s = .next s) ∧
    (s.fld Reg.flashStatus Reg.flashStatus_FORMATTING = 1 → ∃ t, exec .flashFormatDone s = .next t ∧
      t.fld Reg.flashStatus Reg.flashStatus_FORMATTING = 0 ∧ t.fld Reg.flashCtrl Reg.flashCtrl_FORMAT = 0 ∧
      (∀ p, t.pageMapped p = false) ∧ (∀ k, k < 2 ^ 55 → t.byte (t3Base + k) = 0) ∧ SameMemoryOutside s t t3Base (2 ^ 55) ∧
      SameRegisters s t)) ∧
  (∀ (c : Nat) (s : State), c < 32 →
    let st := Reg.flashChStatus c
    (s.fld Reg.globalReady Reg.globalReady_LIC = 0 → ∀ g, exec (.flashInterfaceTrained c g) s = .next s) ∧
    (s.fld Reg.globalReady Reg.globalReady_LIC = 1 → s.chUp c = true → s.fld st Reg.flashChStatus_TRAIN = 1 → ∀ g,
      exec (.flashInterfaceTrained c g) s = .next
        ((s.setFld st Reg.flashChStatus_TRAIN 0).updFch c fun f => { f with holdUntil := min f.holdUntil s.gc })) ∧
    (s.fld Reg.globalReady Reg.globalReady_LIC = 1 → s.chUp c = false →
      (∃ t, exec (.flashInterfaceTrained c none) s = .next t ∧ t.fld st Reg.flashChStatus_LUNS = 0 ∧ t.chUp c = false ∧
        SameRegisters s t ∧ t.mem = s.mem) ∧
      (∀ g, ∃ t, exec (.flashInterfaceTrained c (some g)) s = .next t ∧ t.chUp c = false ∧
        t.fld st Reg.flashChStatus_GEOMBAD = b2n (!geomOk g) ∧ t.fld st Reg.flashChStatus_LUNS = g.targets * g.lunsPer % 16 ∧
        (t.fch c).geom = (if geomOk g then some g else none) ∧ SameRegisters s t ∧ t.mem = s.mem)) ∧
    (∀ v : Word, ∃ t, exec (.flashMapbaseWrite c v) s = .next t ∧
      t.fld (Reg.flashChMapbase c) Reg.flashChMapbase_LOC = v.toNat % 2 ^ 48 ∧ t.chUp c = false ∧
      (t.fch c).rebuilding = ((s.fch c).geom.isSome && t.mapBaseOk c) ∧ SameRegisters s t ∧ t.mem = s.mem) ∧
    ((s.fch c).rebuilding = true → s.stackUp (c / 2) = true → s.fld Reg.flashStatus Reg.flashStatus_FORMATTING = 0 →
      ∃ t, exec (.flashMapRebuildDone c) s = .next t ∧ t.chUp c = true ∧ (t.fch c).rebuilding = false ∧
        bitOf (t.fld Reg.flashStatus Reg.flashStatus_CHREADY) c = true ∧ SameRegisters s t ∧
        SameMemoryOutside s t (512 * (locMem (s.fld (Reg.flashChMapbase c) Reg.flashChMapbase_LOC) / 512))
          (4 * (s.chPages + (s.fch c).luns * (s.fch c).perLun))) ∧
    ((s.fch c).rebuilding = false → exec (.flashMapRebuildDone c) s = .next s) ∧
    (∃ t, exec (.flashChannelFailure c) s = .next t ∧ t.chUp c = false ∧ (t.fch c).rebuilding = false ∧
      bitOf (t.fld Reg.flashStatus Reg.flashStatus_CHREADY) c = false ∧ SameRegisters s t ∧ ((s.fch c).queue = [] → t.mem = s.mem)) ∧
    (s.chUp c = true → ∃ t, exec (.flashChannelRetrain c) s = .next t ∧
      t.fch c = { s.fch c with holdUntil := s.gc + 2500, holdFrom := s.gc } ∧ t.fld st Reg.flashChStatus_TRAIN = 1 ∧
      (∀ o, o ≠ st → t.reg o = s.reg o) ∧ SameRegisters s t ∧ t.mem = s.mem) ∧
    (s.chUp c = false → exec (.flashChannelRetrain c) s = .next s))

/-- An enabled port that is OFF lights its lanes, finds signal, trains to the lanes that are locked and good, exchanges pages,
settles in the best common mode and is UP in it. Renegotiation and a lost lane take an UP port to TRAIN, with its lanes shown as 0
and the loss counted, before its messages move. A disabled port is OFF, an unseated ferrule leaves DETECT, a page that does not
come in time leads back to TRAIN. In any other state nothing happens. (R3, R344, R347, R348, R349, R379, R399, R490, R566) -/
def Obligations.PortsNegotiateComeUpAndGoDown : Prop :=
  ∀ (p : Nat) (s : State), p < 8 →
    let st := s.portSt p
    let neg := Reg.portNeg p
    (s.nPorts ≤ p → ∀ on, exec (.portEnable p on) s = .next s ∧ exec (.portReneg p) s = .next s ∧
      exec (.portSignalDetect p) s = .next s ∧ exec (.portDown p) s = .next s) ∧
    (p < s.nPorts →
      (st = 0 → s.fld Reg.globalReady Reg.globalReady_LIC = 1 → ∃ t, exec (.portEnable p true) s = .next t ∧ t.portSt p = 1 ∧
        t.fld (Reg.portCtrl p) Reg.portCtrl_ENABLE = 1 ∧ SameRegisters s t ∧ t.mem = s.mem) ∧
      (∃ t, exec (.portEnable p false) s = .next t ∧ t.portSt p = 0 ∧ t.fld (Reg.portEvt p) Reg.portEvt_NFECDROP = 0 ∧
        SameRegisters s t ∧ t.mem = s.mem) ∧
      (st ≠ 5 → exec (.portReneg p) s = .next s ∧ exec (.portDown p) s = .next s) ∧
      (st = 5 → ∃ u, u.portSt p = 2 ∧ u.fld neg Reg.portNeg_MODELANES = 0 ∧
        u.fld (Reg.portEvt p) Reg.portEvt_DOWNS = satInc 32 (s.fld (Reg.portEvt p) Reg.portEvt_DOWNS) ∧
        u.fld (Reg.portEvt p) Reg.portEvt_DOWNEV = 1 ∧ bitOf (u.fld Reg.globalReady Reg.globalReady_PORT) p = false ∧
        SameRegisters s u ∧ u.mem = s.mem ∧
        exec (.portReneg p) s = .next ((u.nodeConns.foldl (fun v c => v.reassign c) u).showNode) ∧
        exec (.portDown p) s = exec (.portReneg p) s) ∧
      (st = 1 → (s.port p).unseated = false → ∃ t, exec (.portSignalDetect p) s = .next t ∧ t.portSt p = 2 ∧
        SameRegisters s t ∧ t.mem = s.mem) ∧
      (st ≠ 1 ∨ (s.port p).unseated = true → exec (.portSignalDetect p) s = .next s) ∧
      (∀ m, m < 256 → st ≠ 2 → exec (.portTrainDone p m) s = .next s) ∧
      (∀ m, m < 256 → st = 2 → ∃ t, exec (.portTrainDone p m) s = .next t ∧ SameRegisters s t ∧ t.mem = s.mem ∧
        (s.port p).since + (if m &&& s.lanesOk p = 0 then 12500 else 250) ≤ t.gc ∧
        t.portSt p = (if m &&& s.lanesOk p = 0 then 1 else 3) ∧
        (m &&& s.lanesOk p ≠ 0 → (t.port p).locked = m &&& s.lanesOk p ∧
          let u := (s.passTo (96 * ((s.port p).since + 250))).updPort p fun y => { y with locked := m &&& s.lanesOk p }
          (t.port p).offer = u.capPage p ∧ t.out = s.out ++ [.page p (BitVec.ofNat 64 (u.capPage p))])) ∧
      (∀ page : Word,
        let v := page.toNat
        let own := (s.port p).offer
        let good := bitsOf own 28 8 &&& bitsOf v 28 8
        let framings := bitsOf own 9 2 &&& bitsOf v 9 2
        let mode := bestMode (bitsOf own 0 4 &&& bitsOf v 0 4) (bitsOf own 4 3 &&& bitsOf v 4 3) good
        let native := bitOf framings 0 && bitOf (bitsOf own 7 2 &&& bitsOf v 7 2) 0
        (st ≠ 3 → exec (.capabilityPageReceived p page) s = .next s) ∧
        (st = 3 → ∃ t, exec (.capabilityPageReceived p page) s = .next t ∧ SameRegisters s t ∧ t.mem = s.mem ∧
          t.fld (Reg.portStatus p) Reg.portStatus_PEER = bitsOf v 12 12 ∧
          t.fld (Reg.portStatus p) Reg.portStatus_PEERPORT = bitsOf v 24 3 ∧
          t.fld (Reg.portStatus p) Reg.portStatus_GOOD = good % 2 ^ 8 ∧
          t.portSt p = (if framings = 0 ∨ mode = none then 3 else 4) ∧
          (∀ n r, framings ≠ 0 → mode = some (n, r) →
            (t.port p).chosen = some (n, r, if native then 0 else 1, if bitOf framings 0 then 0 else 1,
              lowLanes good (2 ^ n))))) ∧
      (st ≠ 3 → exec (.portExchangeTimeout p) s = .next s) ∧
      (st = 3 → ∃ t, exec (.portExchangeTimeout p) s = .next t ∧ t.portSt p = 2 ∧ (s.port p).since + 250 ≤ t.gc ∧
        SameRegisters s t ∧ t.mem = s.mem) ∧
      (st ≠ 4 → ∀ r, exec (.portSettleCheck p r) s = .next s) ∧
      (∀ n r fec fr used, st = 4 → (s.port p).chosen = some (n, r, fec, fr, used) →
        (∀ worst, ¬(fec = 0 ∧ s.fld neg Reg.portNeg_NFECMAX < worst) → ∃ u, (s.port p).since + 1000 ≤ u.gc ∧ u.portSt p = 5 ∧
          u.fld neg Reg.portNeg_MODELANES = 2 ^ n % 16 ∧ u.fld neg Reg.portNeg_MODERATE = r % 4 ∧
          u.fld neg Reg.portNeg_MODEFEC = fec % 2 ∧ u.fld neg Reg.portNeg_MODEFRAMING = fr % 2 ∧
          bitOf (u.fld Reg.globalReady Reg.globalReady_PORT) p = true ∧ SameRegisters s u ∧ u.mem = s.mem ∧
          exec (.portSettleCheck p (.checked worst)) s = .next ((u.nodeConns.foldl (fun v c => v.reassign c) u).showNode)) ∧
        (∀ worst, fec = 0 → s.fld neg Reg.portNeg_NFECMAX < worst → ∃ t, exec (.portSettleCheck p (.checked worst)) s = .next t ∧ t.portSt p = 2 ∧
          t.fld (Reg.portEvt p) Reg.portEvt_NFECDROP = 1 ∧ SameRegisters s t ∧ t.mem = s.mem) ∧
        (∀ m, ∃ t v, exec (.portSettleCheck p (.uncorrectable m)) s = .next t ∧ exec (.portSettleCheck p (.noLock m)) s = .next v ∧
          (s.port p).since + 25000 ≤ v.gc ∧ t.portSt p = 2 ∧ v.portSt p = 2 ∧
          (t.port p).dropped = (s.port p).dropped ||| (m &&& used) ∧ (v.port p).dropped = (t.port p).dropped ∧
          SameRegisters s t ∧ t.mem = s.mem ∧ SameRegisters s v ∧ v.mem = s.mem))) ∧
    (∃ t, exec (.ferruleChange p true) s = .next t ∧ t.portSt p = st ∧ (t.port p).unseated = false ∧ SameRegisters s t ∧
      t.mem = s.mem) ∧
    (st = 0 → ∃ t, exec (.ferruleChange p false) s = .next t ∧ t.portSt p = 0 ∧ (t.port p).unseated = true ∧
      (t.port p).lit = (0, 0) ∧ SameRegisters s t ∧ t.mem = s.mem) ∧
    (st ≠ 0 → ∃ t, exec (.ferruleChange p false) s = .next t ∧ t.portSt p = 1 ∧ (t.port p).unseated = true ∧
      SameRegisters s t ∧ t.mem = s.mem)

/-- With its descriptor and source inside the operand store and an entry free, WRIMM, and SEND in send mode, on an open connection
append the message with the next PSNs and take the lowest free entry; RECV appends its buffer. With a location that may not be
used as source the operation takes its entry and fails with an imprecise 0x05. On a connection that is not open, or in run mode
for SEND and RECV, the operation takes an entry that ends with a code. No easel register or byte changes at issue. A message whose
bytes have come to the port bay enters its queue unless the queue or the pool is full. (R146, R147, R148, R357, R358, R372, R384,
R386, R391) -/
def Obligations.MessagesAreIssuedAndQueued : Prop :=
  (∀ (x : Ea) (w : Word) (s : State),
    let a := (s.gr x (raOf w)).toNat
    let d := (List.range 8).map fun i => (s.opWord x (a + 8 * i)).toNat
    let c := bitsOf (d.getD 0 0) 12 12
    let src := d.getD 3 0
    let len := bitsOf (d.getD 4 0) 0 24
    let k := s.conn c
    let loc := bitOf src 63
    let good := opCheck (a : Int) 64 64 = none ∧ (loc = true → s.locOk (src % 2 ^ 48) (ceilDiv len 512) = true) ∧
      (loc = false → opCheck ((src % 2 ^ 48 : Nat) : Int) len 1 = none)
    let issues (i : Instr) (send : Bool) (kind : OutKind) : Prop := ∀ n, freeEntry (s.ex x).outst = some n →
      (k.state = 1 → ∃ t m, exec i s = .next t ∧ (t.conn c).msgs.getLast? = some m ∧
        (t.conn c).msgs.map (·.first) = k.msgs.map (·.first) ++ [k.txpsn] ∧ m.n = packetsOf len ∧ m.send = send ∧ m.x = x ∧
        m.entry = n ∧ m.desc = d ∧ (t.conn c).txpsn = (k.txpsn + packetsOf len) % 65536 ∧ t.pc x = (s.pc x + 1) % 2 ^ 13 ∧
        (∃ o, (t.ex x).outst = (s.ex x).outst ++ [o] ∧ o.num = n ∧ o.kind = kind ∧ o.rd = rdOf w) ∧ SameRegisters s t ∧ t.mem = s.mem) ∧
      (k.state ≠ 1 → ∃ t, exec i s = .next t ∧ t.conn c = k ∧ t.pc x = (s.pc x + 1) % 2 ^ 13 ∧
        (∃ o, (t.ex x).outst = (s.ex x).outst ++ [o] ∧ o.num = n ∧ o.kind = kind ∧ o.rd = rdOf w) ∧ SameRegisters s t ∧ t.mem = s.mem)
    let waits (i : Instr) : Prop := freeEntry (s.ex x).outst = none → exec i s = .next s
    let fails (i : Instr) : Prop := opCheck (a : Int) 64 64 = none → loc = true → s.locOk (src % 2 ^ 48) (ceilDiv len 512) = false →
      (s.ex x).faults = [] → ∀ n, freeEntry (s.ex x).outst = some n → ∃ t, exec i s = .next t ∧
        (t.ex x).faults = [{ seq := (s.ex x).opSeq, code := 0x05, info := n, loc := src % 2 ^ 48 }] ∧
        (t.entry x n).map (·.failed) = some true ∧ t.conn c = k ∧ t.pc x = (s.pc x + 1) % 2 ^ 13 ∧ SameRegisters s t ∧ t.mem = s.mem
    (runs (.wrimm x w) s = true → (k.state = 1 → fails (.wrimm x w)) ∧ (good → issues (.wrimm x w) false .wrimm ∧ waits (.wrimm x w))) ∧
    (runs (.send x w) s = true → (s.sendMode = true → k.state = 1 → fails (.send x w)) ∧
      (good → waits (.send x w) ∧ (s.sendMode = true → issues (.send x w) true .send))) ∧
    (runs (.recv x w) s = true → (s.sendMode = true → k.bufs.length < 16 → fails (.recv x w)) ∧ (good → waits (.recv x w) ∧
      (s.sendMode = true → k.bufs.length < 16 → ∀ n, freeEntry (s.ex x).outst = some n → ∃ t, exec (.recv x w) s = .next t ∧
        (t.conn c).bufs = k.bufs ++ [⟨x, n, (s.ex x).opSeq, src, len⟩] ∧ t.pc x = (s.pc x + 1) % 2 ^ 13 ∧
        (∃ o, (t.ex x).outst = (s.ex x).outst ++ [o] ∧ o.num = n ∧ o.kind = .recv ∧ o.rd = rdOf w) ∧
        SameRegisters s t ∧ t.mem = s.mem))) ∧
    (∀ n, runs (.send x w) s = true → good → s.sendMode = false → freeEntry (s.ex x).outst = some n →
      ∃ t, exec (.send x w) s = .next t ∧ t.conn c = k ∧ (t.ex x).outst.length = (s.ex x).outst.length + 1 ∧
        SameRegisters s t ∧ t.mem = s.mem)) ∧
  (∀ (c first p : Nat) (m : TxMsg) (s : State), c < 4096 → first < 65536 → p < 8 →
    (s.conn c).msgs.find? (fun m => m.first == first && !m.queued) = some m → m.port = some p →
    (s.waitEntry m.x m.entry m.seq).any (s.mustWait m.x) = false →
    let limit := s.fld (Reg.schedSvc1 p (descSvc m.desc)) Reg.schedSvc1_QLIM
    let held := ((s.inst p).sub (descSubq m.desc)).msgs.length
    (held < limit → s.queuedAll < 65536 → ∃ t, exec (.messageEnqueue c first) s = .next t ∧
      ((t.inst p).sub (descSubq m.desc)).msgs.map (·.item) =
        ((s.inst p).sub (descSubq m.desc)).msgs.map (·.item) ++ [.msg c first] ∧
      (t.conn c).msgs = (s.conn c).msgs.map (fun y => if y.first = first then { y with queued := true, ready := t.ec } else y) ∧
      m.issued + 6 * hops m.x.bay (portBay p) ≤ t.ec ∧ SameRegisters s t ∧ t.mem = s.mem) ∧
    (limit ≤ held ∨ 65536 ≤ s.queuedAll → ∃ t, exec (.messageEnqueue c first) s = .next t ∧
      (t.conn c).msgs = (s.conn c).msgs.filter (·.first != first) ∧ t.mem = s.mem))

/-- Nothing comes in on a port that is not UP in native framing. The codewords FEC corrected or could not correct are counted, and
a frame with one that it could not is lost. A node without an identifier and one under a relock take no frame. A header that fails
its CRC counts in HCRC, a wrong version, type or reserved bit in HDRBAD, a frame for another node in NOTME, a connection that does
not take it in NOTME, a wrong packet cutting in HDRBAD, a payload that fails its CRC in PCRC. A client's packet without its record
counts there too unless it may wait for the fetch. The units behind a bad header are hunted through. A header-only frame that
passes waits to be taken up; a data packet that passes is to be metered. With a test pattern on, what comes in counts in PRBSERR;
with a far-end loop the frame goes back. (R350, R351, R353, R373, R375, R377, R378, R391, R502) -/
def Obligations.FramesAreCheckedOnReceipt : Prop :=
  ∀ (p corr un : Nat) (f : Frame) (s : State), p < 8 → p < s.nPorts →
    let test := Reg.portTest p
    let loop := s.fld test Reg.portTest_LOOP
    let u := (s.updPort p fun y => { y with looped := y.looped.erase f }).codewords p corr un
    let rx := exec (.frameReceive p corr un f) s
    let drop (r : Nat) (g : Fld) : Prop := rx = .next ((u.bump r g).hunt p (ceilDiv f.payload.length 64) false f.payload)
    let c := frConn f
    (s.fld test Reg.portTest_PRBS = 1 → (s.port p).lit.1 ≠ 0 → ∃ t, rx = .next t ∧ t.fld test Reg.portTest_PRBSERR =
      min (2 ^ 32 - 1) (s.fld test Reg.portTest_PRBSERR + corr + un) ∧ t.fab = s.fab ∧ SameRegisters s t ∧ t.mem = s.mem) ∧
    (s.fld test Reg.portTest_PRBS ≠ 1 → s.portNative p = false → rx = .next s) ∧
    (s.portNative p = true → (loop = 1 → (s.port p).looped.contains f = true) →
      (0 < un → rx = .next u) ∧
      (un = 0 → loop = 2 → rx = .next (u.putFrame p f u.ec)) ∧
      (un = 0 → loop ≠ 2 → u.hears p = false → rx = .next u) ∧
      (un = 0 → loop ≠ 2 → u.hears p = true →
        (hcrcOk f = false → drop (Reg.portRxerr p) Reg.portRxerr_HCRC) ∧
        (hcrcOk f = true → idleUnit f = true → rx = .next u) ∧
        (hcrcOk f = true → idleUnit f = false →
          (hw f 0 28 4 ≠ 1 ∨ 6 < frType f ∨ hdrReserved f = true → drop (Reg.portDrop p) Reg.portDrop_HDRBAD) ∧
          (hw f 0 28 4 = 1 → frType f ≤ 6 → hdrReserved f = false →
            (frType f = 0 → rx = .next u) ∧
            (frType f ≠ 0 → hw f 0 0 12 ≠ u.node → drop (Reg.portDrop p) Reg.portDrop_NOTME) ∧
            (frType f ≠ 0 → frType f ≠ 5 → hw f 0 0 12 = u.node →
              (hw f 0 52 1 = 0 → 4096 ≤ c → drop (Reg.portDrop p) Reg.portDrop_NOTME) ∧
              (hw f 0 52 1 = 1 → u.fld Reg.fabCli Reg.fabCli_ENABLE = 0 → drop (Reg.portDrop p) Reg.portDrop_NOTME) ∧
              (hw f 0 52 1 = 1 → u.fld Reg.fabCli Reg.fabCli_ENABLE ≠ 0 → u.clientHeld c = false →
                (2 < frType f ∨ cutOk f = false → drop (Reg.portDrop p) Reg.portDrop_HDRBAD) ∧
                (frType f ≤ 2 → cutOk f = true → pcrcOk f = true → rx = .next (u.clientMiss p f c))) ∧
              ((hw f 0 52 1 = 0 ∧ c < 4096) ∨ (hw f 0 52 1 = 1 ∧ u.fld Reg.fabCli Reg.fabCli_ENABLE ≠ 0 ∧ u.clientHeld c = true) →
                (u.connTakes f = false → drop (Reg.portDrop p) Reg.portDrop_NOTME) ∧
                (u.connTakes f = true →
                  (frType f ≤ 2 → cutOk f = false → drop (Reg.portDrop p) Reg.portDrop_HDRBAD) ∧
                  (frType f ≤ 2 → cutOk f = true → pcrcOk f = false → rx = .next (u.bump (Reg.portRxerr p) Reg.portRxerr_PCRC)) ∧
                  (frType f ≤ 2 → cutOk f = true → pcrcOk f = true →
                    rx = .next { u with fab := { u.fab with metering := u.fab.metering ++ [(p, f, u.ec, u.gc)] } }) ∧
                  (2 < frType f → pcrcOk f = true →
                    rx = .next { u with fab := { u.fab with arrived := u.fab.arrived ++ [(p, f, u.ec)] } }))))))))

/-- A packet that waits is taken up: the next in order moves the window, one outside it counts in WINERR. A placed packet's bytes
stand in the buffer of its RECV. A message with every packet placed leaves the open messages with done. A delayed ACK clears the
count; an ACK acknowledges the packets below it; a COMPLETE completes its message's entry. A packet sent too often fails its
connection, else falls due and is sent again. RESYNC empties both sides and opens the connection. (R355, R359, R360, R361, R362,
R363, R364, R365, R372) -/
def Obligations.PacketsMessagesAndAcknowledgements : Prop :=
  (∀ (p : Nat) (f : Frame) (s : State), p < 8 → p < s.nPorts →
    (s.waitingPacket p f = none → exec (.packetAdmit p f) s = .next s) ∧
    (∀ last metered, s.waitingPacket p f = some (last, metered) →
      let sm := (s.passTo (max (last + 96) (96 * metered))).meterDue
      (sm.takeArrived (fun e => e.1 == p && e.2.1 == f) = none → exec (.packetAdmit p f) s = .next sm) ∧
      (∀ q g h u, sm.takeArrived (fun e => e.1 == p && e.2.1 == f) = some ((q, g, h), u) →
        let c := frConn g
        let d := (frPsn g + 65536 - (u.conn c).rxcum) % 65536
        u.connTakes g = true → (u.conn c).rx.find? (fun m => m.first == frFirst g) = none →
        (d < 1024 → (u.conn c).rxbits.contains (frPsn g) = false → (u.conn c).inval = none →
          ∃ t, exec (.packetAdmit p f) s = .next t ∧ t.fab.arrived = u.fab.arrived ∧
            (t.conn c).rxcum = (slideWindow 1025 (u.conn c).rxcum ((u.conn c).rxbits ++ [frPsn g])).1 ∧ SameRegisters s t ∧
            t.mem = s.mem) ∧
        (1024 ≤ d → d < 63488 → ∃ t, exec (.packetAdmit p f) s = .next t ∧ t.conn c = u.conn c ∧
          t.fld (Reg.portDrop p) Reg.portDrop_WINERR = satInc 16 (u.fld (Reg.portDrop p) Reg.portDrop_WINERR) ∧
          SameRegisters s t ∧ t.mem = s.mem))) ∧
    (∀ q g h u, s.takeArrived (fun e => e.1 == p && e.2.1 == f && decide (frType f = 6)) = some ((q, g, h), u) →
      (hw g 1 48 1 = 1 → (u.conn (frConn g)).state ≠ 3 → exec (.resyncReceive p f) s = .next (u.passTo (h + 96))) ∧
      (hw g 1 48 1 ≠ 1 ∨ (u.conn (frConn g)).state = 3 → ∃ t, exec (.resyncReceive p f) s = .next t ∧ (t.conn (frConn g)).rxcum = frPsn g ∧ (t.conn (frConn g)).msgs = [] ∧
        (t.conn (frConn g)).pkts = [] ∧ (t.conn (frConn g)).rx = [] ∧
        (t.conn (frConn g)).state = (if (s.conn (frConn g)).state = 3 then 1 else (s.conn (frConn g)).state)))) ∧
  (∀ (f : Frame) (s : State),
    (s.takeArrived (fun e => e.2.1 == f && decide (frType f = 3)) = none → exec (.ackReceive f) s = .next s) ∧
    (s.takeArrived (fun e => e.2.1 == f && decide (frType f = 4)) = none → exec (.completeReceive f) s = .next s) ∧
    (∀ q g h u, s.takeArrived (fun e => e.2.1 == f && decide (frType f = 3)) = some ((q, g, h), u) →
      ∃ t, exec (.ackReceive f) s = .next t ∧ t.fab.arrived = u.fab.arrived ∧ SameRegisters s t ∧ t.mem = s.mem ∧
        ∀ k, k ∈ (t.conn (frConn g)).pkts → k.sends ≠ 0 → 1 ≤ (frPsn g + 65536 - k.psn) % 65536 →
          (frPsn g + 65536 - k.psn) % 65536 ≤ 0x7FFF → k.acked = true) ∧
    (∀ q g h u m o, s.takeArrived (fun e => e.2.1 == f && decide (frType f = 4)) = some ((q, g, h), u) →
      (s.conn (frConn g)).msgs.find? (fun m => m.first == frPsn g && !m.complete) = some m →
      s.waitEntry m.x m.entry m.seq = some o → ∃ t, exec (.completeReceive f) s = .next t ∧ t.entry m.x m.entry = none ∧
        (o.rd ≠ 0 → t.gr m.x o.rd = compWord (hw g 2 0 4) (hw g 2 4 24) (hw g 2 32 32)) ∧ t.mem = s.mem)) ∧
  (∀ (c cls first : Nat) (s : State) (m : RxMsg), cls < 2 → c < 4096 →
    let k := if cls = 1 then 4096 + c else c
    (s.conn k).rx.find? (fun m => m.first == first) = some m →
    (∀ i bs due b, m.placing.find? (fun e => e.1 == i && e.2.1 == bs) = some (i, bs, due) → m.buf = some b → bitOf b.src 63 = false →
      s.windowFull = false → s.recvWaits m = false →
      s.nbQueued ((opBase b.x + b.src % 2 ^ 48 + 4096 * i) / 512)
        (ceilDiv ((opBase b.x + b.src % 2 ^ 48 + 4096 * i) % 512 + bs.length) 512) = false → ∃ t, exec (.packetPlaced c cls first i bs) s = .next t ∧
        t.bytes (opBase b.x + b.src % 2 ^ 48 + 4096 * i) bs.length = bs ∧
        SameMemoryOutside s t (opBase b.x + b.src % 2 ^ 48 + 4096 * i) bs.length ∧ SameRegisters s t ∧
        ((t.conn k).rx.find? (fun m => m.first == first)).map (·.placed) = some (m.placed + 1)) ∧
    (s.windowFull = true ∨ s.recvWaits m = true → ∀ i bs, exec (.packetPlaced c cls first i bs) s = .next s) ∧
    (m.placed ≠ m.n → exec (.messageComplete c cls first) s = .next s) ∧
    (m.placed = m.n → (∀ i, i ∈ m.ids → ∀ w, w ∈ s.pair.window → w.1 ≠ i) → (s.conn k).inval = none →
      ∃ t, exec (.messageComplete c cls first) s = .next t ∧ (t.conn k).rx = (s.conn k).rx.filter (·.first != first) ∧
        (t.conn k).done = (s.conn k).done ++ [⟨first, cDone, bitsOf (m.hdr.getD 3 0) 40 24, 0, 0⟩] ∧ t.mem = s.mem)) ∧
  (∀ (c cls : Nat) (s : State), cls < 2 → c < 4096 →
    let k := if cls = 1 then 4096 + c else c
    ((s.conn k).nack = 0 → exec (.ackDelayExpiry c cls) s = .next s) ∧
    ((s.conn k).nack ≠ 0 → (s.conn k).inval = none → ∃ t, exec (.ackDelayExpiry c cls) s = .next t ∧ (t.conn k).nack = 0 ∧
      (s.conn k).nackGc + s.fld Reg.fabTimer Reg.fabTimer_ACKDLY ≤ t.gc ∧ SameRegisters s t ∧ t.mem = s.mem)) ∧
  (∀ (c psn : Nat) (s : State), c < 4096 → psn < 65536 →
    let k := s.conn c
    let late := fun q : TxPkt => q.psn == psn && decide (q.sends ≠ 0) && !q.due && k.wanted q
    (k.pkts.find? late = none → exec (.rtoExpiry c psn) s = .next s) ∧
    (∀ q, k.pkts.find? late = some q →
      (s.fld Reg.fabTimer Reg.fabTimer_RETRYMAX + 1 ≤ q.sends → ∃ t, exec (.rtoExpiry c psn) s = .next t ∧ (t.conn c).state = 2 ∧
        (t.conn c).msgs = [] ∧ (t.conn c).pkts = [] ∧ t.fld Reg.fabErr Reg.fabErr_LASTFAIL = c ∧
        t.fld Reg.fabErr Reg.fabErr_FAILEV = 1 ∧ t.mem = s.mem) ∧
      (q.sends ≤ s.fld Reg.fabTimer Reg.fabTimer_RETRYMAX → ∃ t, exec (.rtoExpiry c psn) s = .next t ∧
        (t.conn c).pkts = k.pkts.map (fun r => if r.psn = psn then { r with due := true, dueAt := t.ec } else r) ∧ SameRegisters s t ∧ t.mem = s.mem)) ∧
    (∀ q f, k.pkts.find? (fun q => q.psn == psn && q.due) = some q → k.wanted q = true → s.portNative q.port = true →
      q.frame = some f → s.fld (Reg.portTest q.port) Reg.portTest_LOOP ≠ 1 → ∃ t first, exec (.retransmit c psn) s = .next t ∧
        s.ec ≤ first ∧ q.dueAt + 480 ≤ first ∧ t.out = s.out ++ [.frame q.port f first] ∧
        ((t.conn c).pkts.find? (fun r => r.psn == psn)).map (·.due) = some false ∧ SameRegisters s t ∧ t.mem = s.mem) ∧
    (k.state ≠ 3 → exec (.resyncSend c) s = .next s) ∧
    (k.state = 3 → ∃ t, exec (.resyncSend c) s = .next t ∧ SMap.get (fun _ => 0) t.fab.resyncAt c = t.gc ∧ t.conn c = k ∧
      SameRegisters s t ∧ t.mem = s.mem))

/-- A connection entry is written from CONNDATA unless its mask names a port outside the tier or its peer lies above 0x3FF (a
reading, log entry 122); state 0 and 3 end its messages. A free registration is loaded, one in use sets REGREF; reads show the
entries. A revocation advances the generation and frees the registration once no message is open, or cuts what is open. A client
record that is fetched is held; one invalidated is dropped, or waits while it is pinned. An identifier above 0x3FF sets IDBAD, any
other is taken. (R8, R356, R357, R365, R366, R368, R369, R370, R373, R374, R378, R513) -/
def Obligations.FabricTablesAreWrittenReadAndRevoked : Prop :=
  (∀ (c : Nat) (s : State), c < 4096 →
    let k := s.conn c
    let st := s.fld Reg.fabConndata0 Reg.fabConndata0_STATE
    let ports := s.fld Reg.fabConndata0 Reg.fabConndata0_PORTS
    (∀ p, lowestIdx 8 (fun p => bitOf ports p && decide (s.nPorts ≤ p)) = some p → exec (.fabConnopWrite c) s =
      .next ((s.setFld Reg.fabConnop Reg.fabConnop_CONN c).logLic 0xFF 0x02 p)) ∧
    (lowestIdx 8 (fun p => bitOf ports p && decide (s.nPorts ≤ p)) = none → 0x3FF < s.fld Reg.fabConndata0 Reg.fabConndata0_PEER →
      exec (.fabConnopWrite c) s = .next (s.setFld Reg.fabConnop Reg.fabConnop_CONN c)) ∧
    (lowestIdx 8 (fun p => bitOf ports p && decide (s.nPorts ≤ p)) = none → s.fld Reg.fabConndata0 Reg.fabConndata0_PEER ≤ 0x3FF →
      ∃ t, exec (.fabConnopWrite c) s = .next t ∧
      (t.conn c).peer = s.fld Reg.fabConndata0 Reg.fabConndata0_PEER ∧
      (t.conn c).peerconn = s.fld Reg.fabConndata0 Reg.fabConndata0_PEERCONN ∧ (t.conn c).ports = ports ∧
      (t.conn c).txpsn = k.txpsn ∧ (t.conn c).state = (if st = 0 ∨ st = 3 then st else k.state) ∧
      (st = 0 ∨ st = 3 → (t.conn c).msgs = [] ∧ (t.conn c).pkts = []) ∧ (st = 0 → (t.conn c).rx = []) ∧
      (st ≠ 0 → t.mem = s.mem)) ∧
    (∃ t, exec (.fabConnopRead c) s = .next t ∧ t.fab = s.fab ∧ SameRegisters s t ∧ t.mem = s.mem ∧
      t.reg Reg.fabConndata0 = BitVec.ofNat 64 (k.state + k.peer * 2 ^ 3 + k.peerconn * 2 ^ 15 + k.ports * 2 ^ 27) ∧
      t.reg Reg.fabConndata1 = BitVec.ofNat 64 (k.txpsn + k.rxcum * 2 ^ 16 + k.retx * 2 ^ 32))) ∧
  (∀ (i : Nat) (s : State), i < 65536 →
    let r := s.regn i
    (r.state ≠ 0 → ∃ t, exec (.fabRegopWrite i) s = .next t ∧ t.fab = s.fab ∧ t.fld Reg.fabRegop Reg.fabRegop_REGREF = 1 ∧
      SameRegisters s t ∧ t.mem = s.mem) ∧
    (r.state = 0 → ∃ t, exec (.fabRegopWrite i) s = .next t ∧ SameRegisters s t ∧ t.mem = s.mem ∧
      (t.regn i).state = 1 ∧ (t.regn i).kind = s.fld Reg.fabRegdata0 Reg.fabRegdata0_KIND ∧
      (t.regn i).keytag = s.fld Reg.fabRegdata0 Reg.fabRegdata0_KEYTAG ∧ (t.regn i).len = s.fld Reg.fabRegdata0 Reg.fabRegdata0_LEN ∧
      (t.regn i).base = (s.reg Reg.fabRegdata1).toNat ∧ (t.regn i).owner = s.fld Reg.fabRegdata2 Reg.fabRegdata2_OWNER ∧
      (t.regn i).cconn = s.fld Reg.fabRegdata2 Reg.fabRegdata2_CCONN ∧ (t.regn i).gen = r.gen) ∧
    (∃ t, exec (.fabRegopRead i) s = .next t ∧ t.fab = s.fab ∧ SameRegisters s t ∧ t.mem = s.mem ∧
      t.reg Reg.fabRegdata0 = BitVec.ofNat 64
        (r.state + r.kind * 4 + r.client * 8 + r.keytag * 2 ^ 8 + r.gen * 2 ^ 16 + r.len * 2 ^ 32) ∧
      t.reg Reg.fabRegdata1 = BitVec.ofNat 64 r.base ∧ t.reg Reg.fabRegdata2 = BitVec.ofNat 64 (r.owner + r.cconn * 2 ^ 16)) ∧
    (r.state = 1 → ∃ t, exec (.fabRegopRevoke i) s = .next t ∧
      t.regn i = { r with state := 2, gen := (r.gen + 1) % 65536, start := s.gc } ∧ SameRegisters s t ∧ t.mem = s.mem) ∧
    (r.state ≠ 1 → ∃ t, exec (.fabRegopRevoke i) s = .next t ∧ t.fab = s.fab ∧ SameRegisters s t ∧ t.mem = s.mem) ∧
    (r.state = 2 → s.openOf i = [] → ∃ t, exec (.revokeDrained i) s = .next t ∧ (t.regn i).state = 0 ∧
      t.fld Reg.fabRegop Reg.fabRegop_REVDONE = 1 ∧ SameRegisters s t ∧ t.mem = s.mem) ∧
    (r.state ≠ 2 ∨ s.openOf i ≠ [] → exec (.revokeDrained i) s = .next s) ∧
    (r.state = 2 → ∃ t, exec (.revdrainExpiry i) s = .next t ∧ (t.regn i).state = 0 ∧ t.fld Reg.fabRegop Reg.fabRegop_REVDONE = 1 ∧
      r.start + s.fld Reg.fabTimer Reg.fabTimer_REVDRAIN ≤ t.gc) ∧
    (r.state ≠ 2 → exec (.revdrainExpiry i) s = .next s)) ∧
  (∀ (c : Nat) (s : State), c < 2 ^ 20 →
    (s.clientHeld (4096 + c) = false → ∃ t, exec (.fabCliopInval c) s = .next t ∧ t.fab = s.fab ∧
      t.fld Reg.fabCliop Reg.fabCliop_INVAL = 0 ∧ SameRegisters s t ∧ t.mem = s.mem) ∧
    (s.clientHeld (4096 + c) = true → (s.conn (4096 + c)).pinned = false → ∃ t, exec (.fabCliopInval c) s = .next t ∧
      t.clientHeld (4096 + c) = false ∧ t.fld Reg.fabCliop Reg.fabCliop_INVAL = 0 ∧ SameRegisters s t ∧ t.mem = s.mem) ∧
    (s.clientHeld (4096 + c) = true → (s.conn (4096 + c)).pinned = true → (s.conn (4096 + c)).inval = none →
      ∃ t, exec (.fabCliopInval c) s = .next t ∧ t.conn (4096 + c) = { s.conn (4096 + c) with inval := some s.gc } ∧
        t.fld Reg.fabCliop Reg.fabCliop_INVAL = 1 ∧ SameRegisters s t ∧ t.mem = s.mem) ∧
    (∀ rec : List (BitVec 8), rec.length = 256 →
      (s.fab.fetching.contains (4096 + c) = false → exec (.clientRecordFetched c rec) s = .next s) ∧
      (s.fab.fetching.contains (4096 + c) = true → ∃ t, exec (.clientRecordFetched c rec) s = .next t ∧
        (t.conn (4096 + c)).record = rec ∧ t.fab.fetching = s.fab.fetching.filter (· != 4096 + c) ∧ SameRegisters s t ∧
        t.mem = s.mem))) ∧
  (∀ (v : Nat) (s : State),
    (0x3FF < v → exec (.fabIdWrite v) s = .next (s.setFld Reg.fabErr Reg.fabErr_IDBAD 1)) ∧
    (v ≤ 0x3FF → ∃ t, exec (.fabIdWrite v) s = .next t ∧ t.node = v ∧
      t.fld Reg.globalReady Reg.globalReady_FABID = 1 ∧ SameRegisters s t ∧ t.mem = s.mem))

/-- Nothing is granted where the instance or its link is not up, a retransmission waits, or nothing is eligible. The granted head
of a queue leaves, the node's own traffic whole and a message by its next packet, a management frame to its host ring, and the
port bucket is charged with the frame's bytes. A refill raises every bucket by its rate up to its burst. A subscriber queue, a
policer and a binding take the written values, the buckets full and the counters zero, and are read back. A sample during a walk
is skipped and counted. (R383, R387, R388, R389, R390, R391, R392, R394, R395, R396, R397, R399) -/
def Obligations.SchedulersGrantRefillPoliceAndSample : Prop :=
  (∀ (i : Nat) (s : State), i < 10 →
    let u := if i < 8 then s.passTo ((s.port i).fibre.2 / 10 ^ 6) else s
    let v := u.atStart
    (u.instUp i = false ∨ u.instLink i = false ∨ u.retxWaits i = true ∨ v.choose i = none → exec (.schedSelect i) s = .next s) ∧
    (∀ q e tag, u.selects i = true → v.choose i = some (q, e, tag) → ((u.inst i).sub q).msgs.head? = some e →
      (∀ o f, e.item = .own o f → ∃ t, exec (.schedSelect i) s = .next t ∧ t.out = s.out ++ [o] ∧
        ((t.inst i).sub q).msgs = ((s.inst i).sub q).msgs.drop 1 ∧ (t.inst i).tok = (s.inst i).tok - 16 * f ∧
        SameRegisters s t ∧ t.mem = s.mem) ∧
      (∀ c first m, e.item = .msg c first → s.txMsg c first = some m → s.fld (Reg.portTest i) Reg.portTest_LOOP ≠ 1 →
        ∃ t f at_, exec (.schedSelect i) s = .next t ∧ t.out = s.out ++ [.frame i f at_] ∧ m.ready + 480 ≤ at_ ∧
        (t.inst i).tok = (s.inst i).tok - 16 * s.headBytes e ∧ SameRegisters s t ∧ t.mem = s.mem) ∧
      (∀ f addr data ticket tg port, e.item = .mgmt f addr data ticket tg port → ∃ t l, exec (.schedSelect i) s = .next t ∧
        t.out = s.out ++ .hostWrite f addr data :: l ∧ (t.inst i).tok = (s.inst i).tok - 16 * s.headBytes e ∧
        SameRegisters s t ∧ t.mem = s.mem)) ∧
    (∀ q, q < 65536 → s.instUp i = false → exec (.schedSubopWrite i q) s = .next s ∧ exec (.schedSubopRead i q) s = .next s) ∧
    (∀ q, q < 65536 → s.instUp i = true →
      (∃ t, exec (.schedSubopWrite i q) s = .next t ∧ SameRegisters s t ∧ t.mem = s.mem ∧
        ((t.inst i).sub q).rate = s.fld (Reg.schedSubdata0 i) Reg.schedSubdata0_RATE ∧
        ((t.inst i).sub q).burst = s.fld (Reg.schedSubdata0 i) Reg.schedSubdata0_BURST ∧
        ((t.inst i).sub q).tok = 16 * s.fld (Reg.schedSubdata0 i) Reg.schedSubdata0_BURST ∧
        ((t.inst i).sub q).weight = max 1 (s.fld (Reg.schedSubdata0 i) Reg.schedSubdata0_WEIGHT) ∧
        ((t.inst i).sub q).msgs = ((s.inst i).sub q).msgs) ∧
      (∃ t, exec (.schedSubopRead i q) s = .next t ∧ t.fab = s.fab ∧ SameRegisters s t ∧ t.mem = s.mem ∧
        t.reg (Reg.schedSubdata0 i) = BitVec.ofNat 64
          (((s.inst i).sub q).rate + ((s.inst i).sub q).burst * 2 ^ 32 + ((s.inst i).sub q).weight * 2 ^ 56) ∧
        t.fld (Reg.schedSubdata1 i) Reg.schedSubdata1_MSGS = min 65535 ((s.inst i).sub q).msgs.length))) ∧
  (∀ s : State,
    let d := (s.passTo (96 * (s.fab.refillAt + 1))).meterDue
    let w := s.meterDue
    (∃ t, exec .bucketRefill s = .next t ∧ SameRegisters s t ∧ t.mem = s.mem ∧ s.fab.refillAt + 1 ≤ t.fab.refillAt ∧
      (∀ i, i < 10 → (t.inst i).tok = refill (s.inst i).tok (s.fld (Reg.schedPort i) Reg.schedPort_RATE)
        (s.fld (Reg.schedPort i) Reg.schedPort_BURST)) ∧
      (∀ i, i < 16 → t.inTok i =
        (refill (d.inTok i).1 (s.fld (Reg.schedInpol1 (i / 2) (i % 2)) Reg.schedInpol1_CIR)
          (s.fld (Reg.schedInpol1 (i / 2) (i % 2)) Reg.schedInpol1_CBS),
         refill (d.inTok i).2 (s.fld (Reg.schedInpol2 (i / 2) (i % 2)) Reg.schedInpol2_PIR)
          (s.fld (Reg.schedInpol2 (i / 2) (i % 2)) Reg.schedInpol2_PBS)))) ∧
    (∀ i, i < 65536 →
      (∃ t, exec (.polOpWrite i) s = .next t ∧ SameRegisters s t ∧ t.mem = s.mem ∧
        t.pol i = { mode := s.fld Reg.polData0 Reg.polData0_MODE, acty := s.fld Reg.polData0 Reg.polData0_ACTY,
                    actr := s.fld Reg.polData0 Reg.polData0_ACTR, cir := s.fld Reg.polData1 Reg.polData1_CIR,
                    cbs := s.fld Reg.polData1 Reg.polData1_CBS, pir := s.fld Reg.polData2 Reg.polData2_PIR,
                    pbs := s.fld Reg.polData2 Reg.polData2_PBS, tc := 16 * s.fld Reg.polData1 Reg.polData1_CBS,
                    tp := 16 * s.fld Reg.polData2 Reg.polData2_PBS }) ∧
      (∃ t, exec (.polOpRead i) s = .next t ∧ t.fab = w.fab ∧ SameRegisters s t ∧ t.mem = s.mem ∧
        t.reg Reg.polData0 = BitVec.ofNat 64 ((w.pol i).mode + (w.pol i).acty * 8 + (w.pol i).actr * 16) ∧
        t.reg Reg.polData1 = BitVec.ofNat 64 ((w.pol i).cir + (w.pol i).cbs * 2 ^ 32) ∧
        t.reg Reg.polData2 = BitVec.ofNat 64 ((w.pol i).pir + (w.pol i).pbs * 2 ^ 32) ∧
        t.reg Reg.polCntg = BitVec.ofNat 64 (w.pol i).green ∧ t.reg Reg.polCnty = BitVec.ofNat 64 (w.pol i).yellow ∧
        t.reg Reg.polCntr = BitVec.ofNat 64 (w.pol i).red)) ∧
    (∀ c, c < 4096 →
      (∃ t, exec (.polNcopWrite c) s = .next t ∧ SameRegisters s t ∧ t.mem = s.mem ∧
        SMap.get (fun _ => 0) t.fab.bound c =
          s.fld Reg.polNcdata Reg.polNcdata_POLICER + 65536 * s.fld Reg.polNcdata Reg.polNcdata_ENABLE) ∧
      (∃ t, exec (.polNcopRead c) s = .next t ∧ t.fab = s.fab ∧ SameRegisters s t ∧ t.mem = s.mem ∧
        t.reg Reg.polNcdata = BitVec.ofNat 64 (SMap.get (fun _ => 0) s.fab.bound c))) ∧
    (s.fld Reg.sampleCtrl Reg.sampleCtrl_ENABLE = 0 → exec .sampleStart s = .next s) ∧
    (s.fld Reg.sampleCtrl Reg.sampleCtrl_ENABLE = 1 →
      let due := s.fab.sampleAt + max 128 (s.fld Reg.sampleCtrl Reg.sampleCtrl_INTERVAL)
      (96 * due < s.fab.walkEnd → ∃ t, exec .sampleStart s = .next t ∧ t.ec = s.ec ∧ t.fab.sampleAt = due ∧
        t.fld Reg.sampleErr Reg.sampleErr_SKIP = satInc 32 (s.fld Reg.sampleErr Reg.sampleErr_SKIP) ∧
        SameRegisters s t ∧ t.mem = s.mem) ∧
      (s.fab.walkEnd ≤ 96 * due → ∃ t, exec .sampleStart s = .next t ∧ t.fab.sampleAt = max s.ec (96 * due) / 96 ∧
        96 * due ≤ t.ec ∧ t.ec < t.fab.walkEnd ∧ SameRegisters s t)))

/-- A mirrored operation is applied and acknowledged where its bay is ready, answered not applied where it is not, and waits for a
bay that is not active. A key the partner's root of trust installs fills an empty slot. An acknowledgement takes its operation out
of the window. The lane groups that run are those of the link's mask that have trained and whose partition is out of reset. A
partner that cannot be reached leaves the window empty and a resynchronisation owed; that starts when the partner can be reached
and no member is out, and ends with both logs empty. The audit keeps its interval. (R22, R401, R403, R404, R405, R407, R408, R409,
R410, R411, R412, R413) -/
def Obligations.ThePairMirrorsAndResynchronises : Prop :=
  (∀ (op : MirrorIn) (s : State), op.bay < 16 → op.unit < 5 → op.pf < 2 ^ 18 →
    (s.bayUp op.bay = true → s.asleep op.bay = true → exec (.mirrorApply op) s = .next s) ∧
    (s.bayUp op.bay = false ∨ s.stackUp op.bay = false → s.asleep op.bay = false →
      exec (.mirrorApply op) s = .next (s.emit (.mirrorAck false))) ∧
    (s.bayUp op.bay = true → s.stackUp op.bay = true → s.asleep op.bay = false →
      ∃ t, exec (.mirrorApply op) s = .next t ∧ t.out.getLast? = some (.mirrorAck true) ∧
        (∀ w, op.unit ≤ 1 → op.writes = [w] → t.bytes w.addr w.data.length = w.data ∧
          SameMemoryOutside s t w.addr w.data.length ∧ t.stamp (w.addr / 512) = w.stamp ∧ SameRegisters s t))) ∧
  (∀ (op : MirrorIn) (s : State), op.bay < 16 → op.unit = 6 → op.pf < 2 ^ 18 →
    let bs := (op.writes.headD ⟨0, .none, []⟩).data
    let slot := leAt bs 0 2
    op.idx = 0x11 → s.boot.phase = 2 → s.fld Reg.rotStatus Reg.rotStatus_PAIRKEY = 1 →
      (slot = 0 ∨ (s.key slot).state ≠ 0 → exec (.mirrorApply op) s = .next (s.emit (.mirrorAck false))) ∧
      (slot ≠ 0 → (s.key slot).state = 0 → ∃ t, exec (.mirrorApply op) s = .next t ∧ (t.key slot).state = 1 ∧
        (t.key slot).owner = leAt bs 2 2 ∧ t.out = s.out ++ [.mirrorAck true] ∧ SameRegisters s t ∧ t.mem = s.mem)) ∧
  (∀ (n : Nat) (ok : Bool) (s : State),
    (s.pair.window.find? (fun w => w.1 == n) = none → exec (.mirrorAckReceive n ok) s = .next s) ∧
    (∀ w, s.pair.window.find? (fun w => w.1 == n) = some w →
      (∀ b g, b < 16 → (s.bay b).engine = some g → g.first = none) → ∃ t, exec (.mirrorAckReceive n ok) s = .next t ∧
      t.pair.window = s.pair.window.filter (fun e => e.1 != n) ∧ w.2.2.2 ≤ t.ec ∧ SameRegisters s t ∧
      (ok = true → t.mem = s.mem ∧ t.fld Reg.pairStatus Reg.pairStatus_WINDOW = t.pair.window.length % 2 ^ 13))) ∧
  (∀ (m : Nat) (s : State), m < 16 →
    let can := m &&& s.pair.trained &&& (15 - s.groupsDown)
    (∃ t, exec (.pairLinkChange m) s = .next t ∧ t.pair.groups = can ∧ SameRegisters s t ∧ t.mem = s.mem ∧
      t.fld Reg.pairStatus Reg.pairStatus_GROUPS = (if s.pwr.parked then 0 else can) ∧
      t.fld Reg.pairStatus Reg.pairStatus_LINK = (if s.pwr.parked = true ∨ can = 0 then 0 else if can = 15 then 2 else 1)) ∧
    (s.boot.phase ≠ 2 → exec (.pairLinkTrained m) s = .next s) ∧
    (s.boot.phase = 2 → ∃ t, exec (.pairLinkTrained m) s = .next t ∧
      t.pair.trained = (s.pair.trained ||| (m &&& (15 - s.groupsDown))) ∧
      t.pair.groups = ((s.pair.groups ||| m) &&& t.pair.trained &&& (15 - s.groupsDown)) ∧
      SameRegisters s t ∧ t.mem = s.mem)) ∧
  (∀ s : State,
    (s.fld Reg.pairStatus Reg.pairStatus_LINK ≠ 0 → exec .partnerUnreachable s = .next s) ∧
    (s.fld Reg.pairStatus Reg.pairStatus_LINK = 0 → s.pwr.parked = false → s.fld Reg.pairStatus Reg.pairStatus_UNREACH = 0 →
      s.fld Reg.pairCtrl Reg.pairCtrl_FABPATH = 0 ∨ (s.conn (s.fld Reg.pairCtrl Reg.pairCtrl_FABCONN)).state = 2 →
      ∃ t, exec .partnerUnreachable s = .next t ∧ t.pair.window = [] ∧ t.pair.owed = true ∧ t.pair.unreachAt = s.gc ∧
        SameRegisters s t ∧ (s.pair.window = [] → t.fld Reg.pairStatus Reg.pairStatus_UNREACH = 1 ∧ t.mem = s.mem)) ∧
    (s.fld Reg.pairStatus Reg.pairStatus_UNREACH = 0 → exec .pairholdExpiry s = .next s) ∧
    (let p := s.fld Reg.pairStatus Reg.pairStatus_PARTNER
     s.fld Reg.pairStatus Reg.pairStatus_UNREACH = 1 → s.isLive = true → s.suspected p = false → s.node < p → p ≤ 0x3FF →
      let u := s.passTo (96 * (s.pair.unreachAt + s.fld Reg.pairCtrl Reg.pairCtrl_PAIRHOLD))
      (u.coordinators p = [] → exec .pairholdExpiry s = .next u) ∧
      (∀ c l, u.coordinators p = c :: l → exec .pairholdExpiry s = .next (u.tell c p true))) ∧
    (∀ log, let u := s.pairShow
      (u.fld Reg.pairStatus Reg.pairStatus_UNREACH = 1 → exec (.pairResyncStart log) s = .next u) ∧
      (u.fld Reg.pairStatus Reg.pairStatus_UNREACH = 0 → u.fld Reg.pairStatus Reg.pairStatus_SOLO = 0 →
        u.fld Reg.pairStatus Reg.pairStatus_RESYNC = 0 → u.pairBroken = false → u.mirrorOff = false →
        (∀ k, k ∈ u.keys → k.2.pending = false) → ∃ t, exec (.pairResyncStart log) s = .next t ∧
          t.fld Reg.pairStatus Reg.pairStatus_RESYNC = 1 ∧ t.pair.partnerLog = log ∧ SameRegisters s t ∧ t.mem = s.mem)) ∧
    (∀ us : List PartnerUnit, (∀ u, u ∈ us → u.pf < 2 ^ 18 ∧ u.unit < 4) →
      (s.fld Reg.pairStatus Reg.pairStatus_RESYNC = 0 → exec (.pairResyncDone us) s = .next s) ∧
      (s.fld Reg.pairStatus Reg.pairStatus_RESYNC = 1 → ∃ t, exec (.pairResyncDone us) s = .next t ∧
        t.fld Reg.pairStatus Reg.pairStatus_RESYNC = 0 ∧ t.fld Reg.pairLog Reg.pairLog_FILL = 0 ∧
        t.fld Reg.pairLog Reg.pairLog_OVFMASK = 0 ∧ t.pair.logLen = [] ∧ t.pair.owed = false ∧ t.pair.partnerLog = [] ∧
        SameRegisters s t) ∧
      (s.fld Reg.pairCtrl Reg.pairCtrl_AUDIT = 0 ∨ s.fld Reg.pairAudit Reg.pairAudit_RATE = 0 →
        exec (.auditStep us) s = .next s) ∧
      (s.fld Reg.pairCtrl Reg.pairCtrl_AUDIT = 1 → s.fld Reg.pairAudit Reg.pairAudit_RATE ≠ 0 → s.partnerAway = false →
        s.mirrorOff = false → s.fld Reg.pairStatus Reg.pairStatus_RESYNC = 0 → ∃ t, exec (.auditStep us) s = .next t ∧
          t.pair.auditAt = t.gc ∧ s.pair.auditAt + 25000 ≤ t.gc ∧ SameRegisters s t)))

/-- The host seeds the epoch and the membership in start-up mode only, and reads the tables back; a number above 0x3FF is taken
for no node (a reading, log entry 122). A record of the next epoch is installed: its changes, the epoch, its grace window and its
record; any other leaves the node as it was. A plan is proposed where the node is LIVE and no proposal runs, else it fails. The
first proposer is accepted, an acceptance counts once, an abort frees it, and a proposer without a majority in time gives up and
backs off. (R8, R414, R415, R416, R420, R421, R424, R425, R426, R434) -/
def Obligations.EpochsAreSeededProposedAndInstalled : Prop :=
  (∀ s : State,
    (s.startUp = false → exec .mapSeed s = .next s) ∧
    (s.startUp = true → ∃ t, exec .mapSeed s = .next t ∧ t.epoch = s.fld Reg.mapSeedepoch Reg.mapSeedepoch_EPOCH ∧
      t.fld Reg.mapEpoch Reg.mapEpoch_SEEDED = 1 ∧ t.fld Reg.mapEpoch Reg.mapEpoch_BEHIND = 0 ∧
      t.fld Reg.globalReady Reg.globalReady_EPOCH = 1 ∧ SameRegisters s t ∧ t.mem = s.mem) ∧
    (∀ n, n < 1024 →
      (∃ t, exec (.mapMemberopWrite n) s = .next t ∧ SameRegisters s t ∧ t.mem = s.mem ∧
        t.member n = (if s.startUp = true ∧ (s.fld Reg.mapMemberdata Reg.mapMemberdata_PARTNER ≤ 0x3FF ∨
            s.fld Reg.mapMemberdata Reg.mapMemberdata_PARTNER = 0xFFF) then
          (s.fld Reg.mapMemberdata Reg.mapMemberdata_STATE, s.fld Reg.mapMemberdata Reg.mapMemberdata_PARTNER) else s.member n)) ∧
      (∃ t, exec (.mapMemberopRead n) s = .next t ∧ t.map = s.map ∧ SameRegisters s t ∧ t.mem = s.mem ∧
        t.fld Reg.mapMemberdata Reg.mapMemberdata_STATE = (s.member n).1 % 4 ∧
        t.fld Reg.mapMemberdata Reg.mapMemberdata_PARTNER = (s.member n).2 % 4096)) ∧
    (∀ i, i < 16384 →
      (∃ t, exec (.mapFwdopWrite i) s = .next t ∧ SameRegisters s t ∧ t.fwd i =
        s.fwdOf (s.reg Reg.mapFwddata0).toNat (s.reg Reg.mapFwddata1).toNat (s.reg Reg.mapFwddata2).toNat) ∧
      (∃ t, exec (.mapFwdopRead i) s = .next t ∧ t.map = s.map ∧ SameRegisters s t ∧ t.mem = s.mem ∧
        t.fld Reg.mapFwddata0 Reg.mapFwddata0_OWNER = (s.fwd i).owner % 65536 ∧
        t.fld Reg.mapFwddata0 Reg.mapFwddata0_ACTIVE = b2n (s.fwd i).active ∧
        t.fld Reg.mapFwddata2 Reg.mapFwddata2_ACT = (s.fwd i).act % 2 ^ 32)) ∧
    (∀ e g, s.map.grace.find? (fun x => x.1 == e.toNat) = some g → ∃ t, exec (.graceClose e) s = .next t ∧
      t.map.grace = s.map.grace.filter (fun x => x.1 != e.toNat) ∧ g.2 ≤ t.gc ∧ SameRegisters s t) ∧
    (∀ e, s.map.grace.find? (fun x => x.1 == e.toNat) = none → exec (.graceClose e) s = .next s)) ∧
  (∀ (r : Commit) (s : State), r.changes.length ≤ 16 →
    (s.fld Reg.mapEpoch Reg.mapEpoch_SEEDED = 0 ∨ r.target.toNat ≠ (s.epoch + 1) % 2 ^ 32 → exec (.epochInstall r) s = .next s) ∧
    (s.fld Reg.mapEpoch Reg.mapEpoch_SEEDED = 1 → r.target.toNat = (s.epoch + 1) % 2 ^ 32 →
      ∃ t, exec (.epochInstall r) s = .next t ∧ SameRegisters s t ∧ (r.target.toNat, r) ∈ t.map.commits ∧
        (r.target.toNat, s.gc + s.fld Reg.mapCtrl Reg.mapCtrl_GRACE) ∈ t.map.grace ∧
        ((r.changes.map chgNode).Nodup → ∀ c, c ∈ r.changes → chgNode c ≤ 0x3FF → (t.member (chgNode c)).1 = chgState c) ∧
        (s.pair.window = [] → s.fld Reg.rotStatus Reg.rotStatus_ARMED = 0 → t.epoch = r.target.toNat)) ∧
    (∀ p, p < 1024 →
      (s.isLive = false ∨ (∃ c, c ∈ r.changes ∧ 0x3FF < chgNode c) → exec (.proposeReceive p r) s = .next s) ∧
      (s.isLive = true → (∀ c, c ∈ r.changes → chgNode c ≤ 0x3FF) → r.target.toNat = (s.epoch + 1) % 2 ^ 32 →
        (s.map.accepted.find? (fun a => a.1 == r.target.toNat) = none → ∃ t, exec (.proposeReceive p r) s = .next t ∧
          t.map = { s.map with accepted := s.map.accepted ++ [(r.target.toNat, p)] } ∧ t.regs = s.regs ∧
          SameRegisters s t ∧ t.mem = s.mem) ∧
        (∀ a, s.map.accepted.find? (fun a => a.1 == r.target.toNat) = some a → ∃ t, exec (.proposeReceive p r) s = .next t ∧
          t.map = s.map ∧ t.regs = s.regs ∧ SameRegisters s t ∧ t.mem = s.mem)) ∧
      (s.fld Reg.mapEpoch Reg.mapEpoch_SEEDED = 0 → exec (.commitReceive p r) s = .next s) ∧
      (s.fld Reg.mapEpoch Reg.mapEpoch_SEEDED = 1 →
        (r.target.toNat = (s.epoch + 1) % 2 ^ 32 → exec (.commitReceive p r) s = exec (.epochInstall r) s) ∧
        (r.target.toNat ≠ (s.epoch + 1) % 2 ^ 32 → s.fld Reg.fabCtrl Reg.fabCtrl_MODE = 0 →
          exec (.commitReceive p r) s = .next (s.setFld Reg.mapEpoch Reg.mapEpoch_BEHIND 1)) ∧
        (r.target.toNat ≠ (s.epoch + 1) % 2 ^ 32 → s.fld Reg.fabCtrl Reg.fabCtrl_MODE ≠ 0 →
          exec (.commitReceive p r) s = .next (s.fetchUpTo p r.target.toNat))))) ∧
  (∀ s : State,
    let chg := (List.range (s.fld Reg.mapCtrl Reg.mapCtrl_NCHG)).map fun i => bf (s.reg (Reg.mapPlan (i / 4))) (16 * (i % 4)) 14
    (16 < s.fld Reg.mapCtrl Reg.mapCtrl_NCHG ∨ s.map.proposal.isSome = true ∨ s.isLive = false ∨ (∃ c, c ∈ chg ∧ 0x3FF < chgNode c) →
      exec .mapPlan s = .next (s.setFld Reg.mapCtrl Reg.mapCtrl_PLANFAIL 1)) ∧
    (s.fld Reg.mapCtrl Reg.mapCtrl_NCHG ≤ 16 → s.map.proposal = none → s.isLive = true → s.quorum 1 = false → (∀ c, c ∈ chg → chgNode c ≤ 0x3FF) →
      ∃ t p, exec .mapPlan s = .next t ∧ t.map.proposal = some p ∧ p.record.target = BitVec.ofNat 32 ((s.epoch + 1) % 2 ^ 32) ∧
        p.record.planned = true ∧ p.record.changes = (chg ++ s.map.decided).take 16 ∧ t.map.plan = true ∧ t.regs = s.regs ∧
        SameRegisters s t ∧ t.mem = s.mem) ∧
    (∀ n target, n < 1024 → s.map.proposal = none → exec (.acceptReceive n target) s = .next s) ∧
    (∀ n p, n < 1024 → s.map.proposal = some p →
      (p.accepts.contains n = true ∨ s.liveNodes.contains n = false → exec (.acceptReceive n p.record.target) s = .next s) ∧
      (p.accepts.contains n = false → s.liveNodes.contains n = true → s.quorum (p.accepts.length + 1) = false →
        exec (.acceptReceive n p.record.target) s =
          .next { s with map := { s.map with proposal := some { p with accepts := p.accepts ++ [n] } } })) ∧
    (∀ n target a, n < 1024 → a < 4096 → s.map.proposal = none → exec (.abortReceive n target a) s =
      .next { s with map := { s.map with accepted := s.map.accepted.filter fun x => x != (target.toNat, n) } }) ∧
    (∀ n p a, n < 1024 → a < 4096 → s.map.proposal = some p → exec (.abortReceive n p.record.target a) s =
      .next (s.setFld Reg.fltStatus Reg.fltStatus_COLLEV 1)) ∧
    (s.map.proposal = none → exec .accwaitExpiry s = .next s) ∧
    (∀ p, s.map.proposal = some p → ∃ t, exec .accwaitExpiry s = .next t ∧ t.map.proposal = none ∧ t.map.plan = false ∧
      t.map.backoff = some (t.gc + 1000 * (s.node % 16)) ∧ t.fld Reg.fltStatus Reg.fltStatus_COLLEV = 1 ∧
      (p.record.planned = true → t.fld Reg.mapCtrl Reg.mapCtrl_PLANFAIL = 1) ∧ SameRegisters s t ∧ t.mem = s.mem) ∧
    (s.map.backoff = none → exec .reproposeTimerExpiry s = .next s) ∧
    (∀ g, s.map.backoff = some g → s.map.decided = [] → ∃ t, exec .reproposeTimerExpiry s = .next t ∧ t.map.backoff = none ∧
      g ≤ t.gc ∧ SameRegisters s t ∧ t.mem = s.mem) ∧
    (∀ n target, n < 1024 → s.map.commits.find? (fun c => c.1 == target.toNat) = none → exec (.fetchReceive n target) s = .next s) ∧
    (∀ n target c, n < 1024 → s.map.commits.find? (fun c => c.1 == target.toNat) = some c →
      exec (.fetchReceive n target) s = .next (s.sendRecord n 5 c.2)))

/-- A LIVE node counts the heartbeats it sends; one that is heard is not suspected. A watched LIVE node not heard in time is
reported to the first coordinator, which holds the suspicion until a majority of the watch set shares it. A coordinator drops its
own unshared suspicion and watches again; a watcher tells the next coordinator later. A node that hears no ring peer enters
recovery mode and shows ISOLATED. (R422, R423, R426, R427, R435) -/
def Obligations.WatchersHearSuspectAndDecide : Prop :=
  (∀ s : State,
    (s.isLive = false → exec .heartbeatSend s = .next s ∧ exec .isolateExpiry s = .next s) ∧
    (s.isLive = true → ∃ t, exec .heartbeatSend s = .next t ∧ t.map.beats = (s.map.beats + 1) % 2 ^ 32 ∧ t.map.beatAt = t.gc ∧
      s.map.beatAt + s.fld Reg.fltTimer0 Reg.fltTimer0_HBPERIOD ≤ t.gc ∧ SameRegisters s t ∧ t.mem = s.mem) ∧
    (s.isLive = true → s.ringPeers s.node ≠ [] → s.fld Reg.fltStatus Reg.fltStatus_ISOLATED = 0 →
      ∃ t, exec .isolateExpiry s = .next t ∧ t.fld Reg.fabCtrl Reg.fabCtrl_MODE = 3 ∧
        t.fld Reg.fltStatus Reg.fltStatus_ISOLATED = 1 ∧ SameRegisters s t ∧ t.mem = s.mem ∧
        ∀ n, n ∈ s.ringPeers s.node → SMap.get (fun _ => 0) s.map.heard n + s.fld Reg.fltTimer2 Reg.fltTimer2_ISOLATE ≤ t.gc)) ∧
  (∀ (n : Nat) (s : State), n < 1024 →
    let v := SMap.get (fun _ => 0) s.map.suspects n
    (∀ e, ∃ t, exec (.heartbeatReceive n e) s = .next t ∧ SMap.get (fun _ => 0) t.map.heard n = s.gc ∧ t.suspected n = false ∧
      t.map.members = s.map.members ∧ t.regs = s.regs ∧ SameRegisters s t ∧ t.mem = s.mem) ∧
    (s.isLive = false ∨ s.watches n = false ∨ (s.member n).1 ≠ 1 ∨ s.suspected n = true →
      exec (.suspectExpiry n) s = .next s) ∧
    (s.isLive = true → s.watches n = true → (s.member n).1 = 1 → s.suspected n = false →
      let u := s.passTo (96 * (SMap.get (fun _ => 0) s.map.heard n + s.fld Reg.fltTimer0 Reg.fltTimer0_SUSPECT))
      (u.coordinators n = [] → exec (.suspectExpiry n) s = .next u) ∧
      (∀ c l, u.coordinators n = c :: l → c ≠ s.node → ∃ t, exec (.suspectExpiry n) s = .next t ∧ t.suspected n = true ∧
        SMap.get (fun _ => 0) t.map.suspects n = 1 + c + 4096 * u.gc ∧ t.regs = u.regs ∧ SameRegisters s t ∧ t.mem = s.mem) ∧
      (∀ c l, u.coordinators n = c :: l → c = s.node → exec (.suspectExpiry n) s = .next (State.hold_
        { u with map := { u.map with suspects := SMap.set (fun _ => 0) u.map.suspects n (1 + c + 4096 * u.gc) } } n s.node false))) ∧
    (∀ w split, w < 1024 →
      (s.isLive = false ∨ (s.member n).1 ≠ 1 → exec (.suspectReceive w n split) s = .next s) ∧
      (s.isLive = true → (s.member n).1 = 1 → exec (.suspectReceive w n split) s = .next (s.hold_ n w split)) ∧
      (s.isLive = true → (s.member n).1 = 1 → split = false → s.map.held.any (fun h => h.1 == n && h.2.1 == w) = false →
        2 * ((s.watchSet n).filter fun x => x == w || s.map.held.any fun h => h.1 == n && h.2.1 == x).length ≤ (s.watchSet n).length →
        exec (.suspectReceive w n split) s = .next { s with map := { s.map with held := s.map.held ++ [(n, w, false)] } })) ∧
    (v = 0 ∨ (v - 1) % 4096 ≠ s.node → exec (.confirmExpiry n) s = .next s) ∧
    (v ≠ 0 → (v - 1) % 4096 = s.node → s.map.decided.any (fun c => chgNode c == n) = false →
      ∃ t, exec (.confirmExpiry n) s = .next t ∧ t.suspected n = false ∧ SMap.get (fun _ => 0) t.map.heard n = t.gc ∧
        (v - 1) / 4096 + s.fld Reg.fltTimer1 Reg.fltTimer1_CONFIRM ≤ t.gc ∧ SameRegisters s t ∧ t.mem = s.mem) ∧
    (v = 0 → exec (.suspectResend n) s = .next s) ∧
    (v ≠ 0 →
      let u := s.passTo (96 * ((v - 1) / 4096 + 50000))
      ((u.coordinators n).filter (· != (v - 1) % 4096) = [] → exec (.suspectResend n) s = .next u) ∧
      (∀ c l, (u.coordinators n).filter (· != (v - 1) % 4096) = c :: l → c ≠ s.node → ∃ t, exec (.suspectResend n) s = .next t ∧
        SMap.get (fun _ => 0) t.map.suspects n = 1 + c + (v - 1) / 4096 * 4096 ∧ t.regs = u.regs ∧ SameRegisters s t ∧
        t.mem = s.mem)))

/-- An entry at the front of a lease queue whose completion fits leaves its queue and renews every lease its function holds. One
whose checks fail is answered with the code; else TAKE gives the line to its function, or answers busy or capacity; WRITE starts
the read of the line; FENCE writes the staging copy to the record; DROP frees the line; RENEW answers done; WRITE, FENCE and DROP
of a line the function does not hold answer sequence. An entry of another operation is left. A lease whose period is over ends,
and is counted. (R428, R429, R549) -/
def Obligations.LeasesAreTakenWrittenFencedAndDropped : Prop :=
  (∀ (q k : Nat) (e : List Word) (s : State), q < 64 →
    (s.host.waits.any fun w => w.2.1 % 64 == q && s.ticketLive w.2.1) = false → s.hqTake q 1 = some (k, e) →
    s.asleep (lePf e % 16) = false →
    let f := s.queueFunc q
    let u := (s.hqPop q).renew f
    let c := u.leCode e
    let n := lePf e
    let does (o : Nat) (i : Instr) (p : Prop) : Prop :=
      (leOp e ≠ o → 1 ≤ leOp e → leOp e ≤ 5 → exec i s = .next s) ∧
      (leOp e = o → c ≠ cDone → exec i s = .next (u.hostPost k (leTag e) c 0 0 0 0)) ∧
      (leOp e = o → c = cDone → p)
    let mine := u.leMine k e
    let sequence (i : Instr) : Prop := mine = none → exec i s = .next (u.hostPost k (leTag e) cSequence 0 0 0 0)
    does 1 (.leaseTake q)
      ((u.leaseOn n (leLine e) = none → u.leases.length < 4096 → ∃ t, exec (.leaseTake q) s = .next t ∧
          t.leases = u.leases ++ [⟨n, leLine e, f, u.lineOf n (leLine e), s.gc⟩] ∧ SameRegisters s t ∧ t.mem = s.mem) ∧
        (u.leaseOn n (leLine e) = none → 4096 ≤ u.leases.length →
          exec (.leaseTake q) s = .next (u.hostPost k (leTag e) cCapacity 0 0 0 0)) ∧
        (∀ l, u.leaseOn n (leLine e) = some l → l.holder ≠ f →
          exec (.leaseTake q) s = .next (u.hostPost k (leTag e) cBusy 0 0 0 0)) ∧
        (∀ l, u.leaseOn n (leLine e) = some l → l.holder = f → ∃ t, exec (.leaseTake q) s = .next t ∧ t.leases = u.leases ∧
          SameRegisters s t ∧ t.mem = s.mem)) ∧
    does 2 (.leaseWrite q)
      (sequence (.leaseWrite q) ∧
        (∀ l, mine = some l → ∃ t, exec (.leaseWrite q) s = .next t ∧ t.host.waits = s.host.waits ++ [(s.host.serial, k, e)] ∧
          t.leases = u.leases ∧ SameRegisters s t ∧ t.mem = s.mem)) ∧
    does 3 (.leaseFence q)
      (sequence (.leaseFence q) ∧
        (∀ l, mine = some l →
          let r := u.writeRecord none n none (patch (u.bytes (pfAddr n) 512) (0x180 + 64 * l.line) l.staging)
          (r.1 ≠ cDone → exec (.leaseFence q) s = .next (r.2.hostPost k (leTag e) r.1 0 0 0 0)) ∧
          (r.1 = cDone → ∃ t, exec (.leaseFence q) s = .next t ∧ t.mem = r.2.mem ∧ t.leases = r.2.leases))) ∧
    does 4 (.leaseDrop q)
      (sequence (.leaseDrop q) ∧
        (∀ l, mine = some l → ∃ t, exec (.leaseDrop q) s = .next t ∧ t.leaseOn l.pf l.line = none ∧
          SameRegisters s t ∧ t.mem = s.mem)) ∧
    does 5 (.leaseRenew q) (∃ t, exec (.leaseRenew q) s = .next t ∧ t.leases = u.leases ∧
      (∀ l, l ∈ t.leases → l.holder = f → l.last = s.gc) ∧ SameRegisters s t ∧ t.mem = s.mem)) ∧
  (∀ (pf line : Nat) (s : State), pf < 2 ^ 18 → line < 2 →
    (s.leaseOn pf line = none → exec (.leaseExpiry pf line) s = .next s) ∧
    (∀ l, s.leaseOn pf line = some l → ∃ t, exec (.leaseExpiry pf line) s = .next t ∧ t.leaseOn pf line = none ∧
      l.last + s.fld Reg.leaseCtrl Reg.leaseCtrl_PERIOD ≤ t.gc ∧
      t.fld Reg.leaseErr Reg.leaseErr_EXPIRED = satInc 32 (s.fld Reg.leaseErr Reg.leaseErr_EXPIRED) ∧
      t.fld Reg.leaseErr Reg.leaseErr_LASTPF = pf ∧ SameRegisters s t ∧ t.mem = s.mem))

/-- A physical easel that fails gives its logical number to the lowest-numbered spare of its bay, which is off until it is
switched in; with no spare left the logical easel is out of service. A spare that is switched in is shown and recorded for repair,
and leaves its easel idle with exception code 0x0D. A bay that is not ready, or an easel that is out already, is left as it was.
(R101, R430, R431, R436) -/
def Obligations.SpareEaselsReplaceFailedOnes : Prop :=
  ∀ (x : Ea) (s : State), x.ok = true →
    let phys := s.physOf x
    let left := (s.updBay x.bay fun y => { y with failedPhys := y.failedPhys ||| 2 ^ phys }).idleSpares x.bay
    let fails := x.easel < s.easelsPerBay ∧ (s.ex x).failed = false ∧ s.bayUp x.bay = true
    (¬ fails → exec (.easelFailure x) s = .next s) ∧
    (∀ i l, fails → left = i :: l → ∃ t, exec (.easelFailure x) s = .next t ∧ t.est x = stOff ∧
      (t.ex x).switching = some (phys, i) ∧ (t.ex x).resetDue = some (s.ec + 48000)) ∧
    (fails → left = [] → ∃ t, exec (.easelFailure x) s = .next t ∧ t.est x = stOff ∧ (t.ex x).failed = true ∧
      bitOf (t.fld (Reg.baySpare x.bay) Reg.baySpare_FAILED) x.easel = true ∧
      t.fld (Reg.baySpare x.bay) Reg.baySpare_EXHEV = 1 ∧ ⟨1, x.bay, x.easel, phys⟩ ∈ t.repairDue) ∧
    ((s.ex x).switching = none → exec (.spareSwitchInDone x) s = .next s) ∧
    (∀ p i due, (s.ex x).switching = some (p, i) → (s.ex x).resetDue = some due → ∃ t, exec (.spareSwitchInDone x) s = .next t ∧
      t.fld (Reg.easelStatus x.bay x.easel) Reg.easelStatus_PHYS = i % 16 ∧ t.fld (Reg.baySpare x.bay) Reg.baySpare_USED = 1 ∧
      t.fld (Reg.baySpare x.bay) Reg.baySpare_SWEV = 1 ∧ ⟨0, x.bay, x.easel, i⟩ ∈ t.repairDue ∧
      t.est x = stIdle ∧ t.fld (Reg.easelExc x.bay x.easel) Reg.easelExc_CODE = 0x0D ∧ (t.ex x).switching = none ∧
      due ≤ t.ec ∧ SameRegisters s t ∧ t.mem = s.mem)

/-- A channel with a request queued or running answers busy; else its request waits and STATE shows it. The root of trust takes
the oldest request when it runs and is free: a code the channel may not send or a length that does not fit completes with shape, a
stopped image or a code recovery does not take with unavailable, any other runs. A request that completes leaves STATUS, LEN,
DETAIL and its response bytes, STATE 3 and DONEEV. ID.GET answers the device identity and a part of the certificate chain, ATTEST
its report, KEY.QUERY the slot's state, owner and partner pending, in a layout the spec leaves open (log entry 101); DIGEST.REG
and DIGEST.DEREG change the registered digests, RECOVER is kept for the next reset, and FW.WRITE writes the bank that is not
active and clears STAGED, or answers shape past its end. A row whose command does not run changes nothing. (R77, R443, R444, R445,
R446, R447, R458, R466, R472, R473) -/
def Obligations.MailboxRequestsAreQueuedTakenAndAnswered : Prop :=
  (∀ (c : Nat) (s : State), c < 2 →
    let st := s.fld (Reg.rotMbxState c) Reg.rotMbxState_STATE
    (st = 1 ∨ st = 2 → ∃ t, exec (.mailboxGo c) s = .next t ∧ t.fld (Reg.rotMbxResp c) Reg.rotMbxResp_STATUS = cBusy ∧
      t.rot = s.rot ∧ SameRegisters s t ∧ t.mem = s.mem) ∧
    (st ≠ 1 → st ≠ 2 → ∃ t, exec (.mailboxGo c) s = .next t ∧ t.rot = { s.rot with queue := s.rot.queue ++ [c] } ∧
      t.fld (Reg.rotMbxState c) Reg.rotMbxState_STATE = 1 ∧ t.fld (Reg.rotMbxCmd c) Reg.rotMbxCmd_GO = 1 ∧
      SameRegisters s t ∧ t.mem = s.mem)) ∧
  (∀ s : State,
    (s.rot.queue = [] ∨ s.boot.phase ≠ 2 ∨ s.rot.running.isSome = true → exec .mailboxTake s = .next s) ∧
    (∀ c q, c < 2 → s.rot.queue = c :: q → s.boot.phase = 2 → s.rot.running = none →
      let code := s.fld (Reg.rotMbxCmd c) Reg.rotMbxCmd_CODE
      let len := s.fld (Reg.rotMbxCmd c) Reg.rotMbxCmd_LEN
      let r := s.takeCode c code len
      ∃ t, exec .mailboxTake s = .next t ∧ t.rot.queue = q ∧ t.fld (Reg.rotMbxCmd c) Reg.rotMbxCmd_GO = 0 ∧
        SameRegisters s t ∧ SameMemory s t ∧ (s.rot.stopped = false → t.rot.wdog = 0) ∧
        (r = cDone → t.rot.running = some (c, code, len) ∧ t.fld (Reg.rotMbxState c) Reg.rotMbxState_STATE = 2) ∧
        (r ≠ cDone → t.rot.running = none ∧ t.fld (Reg.rotMbxState c) Reg.rotMbxState_STATE = 3 ∧
          t.fld (Reg.rotMbxState c) Reg.rotMbxState_DONEEV = 1 ∧ t.fld (Reg.rotMbxResp c) Reg.rotMbxResp_STATUS = r))) ∧
  (∀ (c k len code detail : Nat) (resp : List Byte) (s : State), c < 2 → s.rot.running = some (c, k, len) → code < 16 →
    resp.length < 8192 →
    let t := s.reqDone code detail resp
    t.rot = { s.rot with running := none } ∧ t.fld (Reg.rotMbxResp c) Reg.rotMbxResp_STATUS = code ∧
      t.fld (Reg.rotMbxResp c) Reg.rotMbxResp_LEN = resp.length ∧
      t.fld (Reg.rotMbxResp c) Reg.rotMbxResp_DETAIL = detail % 2 ^ 32 ∧ t.bytes (mbxBase c) resp.length = resp ∧
      t.fld (Reg.rotMbxState c) Reg.rotMbxState_STATE = 3 ∧ t.fld (Reg.rotMbxState c) Reg.rotMbxState_DONEEV = 1 ∧
      SameRegisters s t ∧ SameMemoryOutside s t (mbxBase c) resp.length) ∧
  (∀ s : State,
    let row (code : Nat) (i : Instr) (f : List Byte → State) : Prop :=
      (∀ c len, s.rot.running = some (c, code, len) → exec i s = .next (f (s.bytes (mbxBase c) len))) ∧
      ((∀ c len, s.rot.running ≠ some (c, code, len)) → exec i s = .next s)
    row 0x01 .idGet (fun rq =>
      s.reqDone cDone 0 (natBytes 8 Config.devid.toNat ++ (Config.certChain.drop (leAt rq 0 4)).take 4032)) ∧
    row 0x02 .attest (fun rq => (s.attestReport rq).2.reqDone cDone 0 (s.attestReport rq).1) ∧
    row 0x14 .keyQuery (fun rq =>
      let k := s.key (leAt rq 0 2)
      let r := Config.queryAnswer k.state k.owner k.pending
      s.reqDone cDone r.1 (r.2.take 4096)) ∧
    row 0x20 .digestReg (fun rq =>
      let ds := s.rot.digests
      State.reqDone { s with rot := { s.rot with
        digests := if ds.contains (digestOf rq) then ds else ds ++ [digestOf rq] } } cDone 0 []) ∧
    row 0x21 .digestDereg (fun rq =>
      State.reqDone { s with rot := { s.rot with digests := s.rot.digests.filter (· != digestOf rq) } } cDone 0 []) ∧
    row 0x60 .recover (fun _ => State.reqDone { s with rot := { s.rot with recover := true } } cDone 0 []) ∧
    (∀ c len, c < 2 → s.rot.running = some (c, 0x40, len) →
      let rq := s.bytes (mbxBase c) len
      let off := leAt rq 0 4
      let a := bankBase s.spareBank + off
      ∃ t, exec .fwWrite s = .next t ∧ t.fld Reg.rotStatus Reg.rotStatus_STAGED = 0 ∧
        t.rot = { s.rot with running := none } ∧ SameRegisters s t ∧
        (bankSize < off + (len - 4) → t.fld (Reg.rotMbxResp c) Reg.rotMbxResp_STATUS = cShape ∧ SameMemory s t) ∧
        (off + (len - 4) ≤ bankSize → t.fld (Reg.rotMbxResp c) Reg.rotMbxResp_STATUS = cDone ∧
          t.bytes a (len - 4) = rq.drop 4 ∧ SameMemoryOutside s t a (len - 4))))

/-- KEY.NONCE gives the slot a fresh nonce and answers it. KEY.INSTALL consumes the nonce; it is refused with the code of its
checks or of the partner, and else fills the slot. KEY.GEN fills an empty slot with a key no other slot has. KEY.DESTROY marks the
slot and tells the partner or keeps the destroy for it; at the first frame start after, the slot is empty but for its nonce, in no
bay's key store, and no weight-stream lane runs under it; held destroys are delivered when the partner can be reached. What goes
to the partner takes the held destroys before it. CONF.ENTER enters the mode where both members may; CONF.EXIT renews the node key
and resets the node, which leaves the mode. DECOMMISSION empties every slot and clears PAIRKEY. Members that meet with one tier
take the higher counters and set PAIRKEY, unless their sealed node keys differ; members of different tiers stay apart. (R449,
R452, R457, R458, R459, R461, R463, R467, R477, R478, R523) -/
def Obligations.KeysAreInstalledGeneratedAndDestroyed : Prop :=
  (∀ (c len : Nat) (s : State), c < 2 →
    let rq := s.bytes (mbxBase c) len
    let slot := leAt rq 0 2
    let idle (s : State) : Prop := ∀ b e, (s.lane b e).run = false
    let status (t : State) := t.fld (Reg.rotMbxResp c) Reg.rotMbxResp_STATUS
    let frame (t : State) (told : Bool) : Prop := SameRegisters s t ∧ ∀ k, k ≠ slot →
      t.key k = if told then { s.key k with pending := false } else s.key k
    (s.rot.running = some (c, 0x10, len) → ∃ t n, exec .keyNonce s = .next t ∧ n < 2 ^ 128 ∧
      t.key slot = { s.key slot with nonce := some n } ∧ t.bytes (mbxBase c) 16 = natBytes 16 n ∧ status t = cDone ∧
      frame t false ∧ SameMemoryOutside s t (mbxBase c) 16) ∧
    (s.rot.running = some (c, 0x11, len) → ∀ p,
      let bundle := Config.rsaUnwrap s.rot.wrapGen (rq.drop 2)
      let code := s.installCode slot bundle
      let b := bundle.getD []
      ∃ t, exec (.keyInstall p) s = .next t ∧ frame t (decide (code = cDone)) ∧ SameMemory s t ∧
        (code ≠ cDone → status t = code ∧ t.key slot = { s.key slot with nonce := none }) ∧
        (code = cDone → p % 16 ≠ 0 → status t = p % 16 ∧ t.key slot = { s.key slot with nonce := none, pending := false }) ∧
        (code = cDone → p % 16 = 0 → status t = cDone ∧ t.key slot = { s.key slot with
          nonce := none, pending := false, state := 1, owner := leAt b 96 2, kid := 2 * bytesNat (b.take 96) + 1, bad := false })) ∧
    (s.rot.running = some (c, 0x12, len) → ∀ p,
      let ok := slot ≠ 0 ∧ leAt rq 2 2 ≠ 0 ∧ (s.key slot).state = 0 ∧ s.pairTalk = true ∧ p % 16 = 0
      ∃ t, exec (.keyGen p) s = .next t ∧ SameMemory s t ∧
        (ok → frame t true ∧ status t = cDone ∧ t.kidNext = s.kidNext + 1 ∧ t.key slot = { s.key slot with
          pending := false, state := 1, owner := leAt rq 2 2, kid := 2 * s.kidNext, bad := false }) ∧
        (¬ ok → SameRegisters s t ∧ status t ≠ cDone ∧ t.keys = s.keys)) ∧
    (s.rot.running = some (c, 0x13, len) → ∃ t, exec .keyDestroy s = .next t ∧ SameMemory s t ∧
      (slot = 0 → status t = cShape ∧ t.keys = s.keys ∧ SameRegisters s t) ∧
      (slot ≠ 0 → frame t s.pairTalk ∧ status t = cDone ∧ t.key slot = { s.key slot with dying := some s.gc, pending := !s.pairTalk } ∧
        (s.pairTalk = true → .pairMsg 0x113 [slot] ∈ t.out))) ∧
    (s.rot.running = some (c, 0x30, len) → ∀ ready,
      (s.pairTalk = false → exec (.confEnter ready) s = .next (s.reqDone cUnavailable 0 [])) ∧
      (s.pairTalk = true → ready = false ∨ s.confOk = false → exec (.confEnter ready) s = .next (s.reqDone cAttest 0 [])) ∧
      (s.pairTalk = true → ready = true → s.confOk = true → ∃ t, exec (.confEnter ready) s = .next t ∧ t.conf = true ∧
        status t = cDone ∧ (∀ k, t.key k = { s.key k with pending := false }) ∧ SameRegisters s t ∧ SameMemory s t)) ∧
    (s.rot.running = some (c, 0x31, len) →
      (s.pairTalk = false → exec .confExit s = .next (s.reqDone cUnavailable 0 [])) ∧
      (s.pairTalk = true → ∃ u, u.keys = [(0, { state := 1, kid := 2 * s.kidNext })] ∧ u.kidNext = s.kidNext + 1 ∧
        u.regs = s.regs ∧ SameRegisters s u ∧ u.mem = s.mem ∧ exec .confExit s =
          .next (((u.reqDone cDone 0 []).warmReset 9 []).setFld Reg.rotStatus Reg.rotStatus_CONF 0))) ∧
    (s.rot.running = some (c, 0x70, len) → ∃ u, u.keys = [(0, { kid := 2 * s.kidNext })] ∧
      (∀ b, b < 16 → (u.bay b).keystore = []) ∧ u.fld Reg.rotStatus Reg.rotStatus_PAIRKEY = 0 ∧ SameRegisters s u ∧
      (idle s → u.mem = s.mem) ∧ exec .decommission s =
        .next ((if s.fld Reg.pairStatus Reg.pairStatus_UNREACH = 1 then u else u.unreach).reqDone cDone 0 []))) ∧
  (∀ (k : Nat) (s : State), k < 65536 →
    ((s.key k).dying = none → exec (.keyDestroyEffect k) s = .next s) ∧
    (∀ d, (s.key k).dying = some d → ∃ t, exec (.keyDestroyEffect k) s = .next t ∧
      t.key k = { pending := (s.key k).pending, nonce := (s.key k).nonce } ∧ (∀ b, b < 16 → k ∉ (t.bay b).keystore) ∧
      96 * frameAfter (d + 1) ≤ t.ec ∧ (∀ j, j ≠ k → t.key j = s.key j) ∧ SameRegisters s t ∧
      ((∀ b e, (s.lane b e).run = false) → t.mem = s.mem))) ∧
  (∀ s : State,
    (s.pairTalk = false → exec .pendingDestroyDeliver s = .next s) ∧
    (s.pairTalk = true → ∃ t, exec .pendingDestroyDeliver s = .next t ∧ t.regs = s.regs ∧ SameRegisters s t ∧ t.mem = s.mem ∧
      ∀ k, t.key k = { s.key k with pending := false } ∧ ((s.key k).pending = true → .pairMsg 0x113 [k] ∈ t.out)) ∧
    (∀ p : PairHello,
      let meets := s.boot.phase = 2 ∧ s.recovery = false ∧ s.rot.stopped = false ∧ p.attested = true ∧ s.pathUp = true
      (¬ meets → exec (.pairKeyEstablish p) s = .next s) ∧
      (meets → p.tier ≠ s.fld Reg.globalLic Reg.globalLic_TIER →
        ∃ u, u.fld Reg.globalLic Reg.globalLic_PAIRTIER = 1 ∧ u.fld Reg.rotStatus Reg.rotStatus_PAIRKEY = 0 ∧ u.rot = s.rot ∧
          u.keys = s.keys ∧ exec (.pairKeyEstablish p) s =
            .next (if s.fld Reg.pairStatus Reg.pairStatus_UNREACH = 1 then u else u.unreach)) ∧
      (meets → p.tier = s.fld Reg.globalLic Reg.globalLic_TIER → ∃ t, exec (.pairKeyEstablish p) s = .next t ∧
        t.fld Reg.globalLic Reg.globalLic_PAIRTIER = 0 ∧ t.rot.partnerSvn = p.svn ∧ SameRegisters s t ∧ t.mem = s.mem ∧
        (∀ k, k < 6 → t.rot.svn.getD k 0 = max (s.rot.svn.getD k 0) (p.svn.getD k 0)) ∧
        ((∃ k, k < 6 ∧ s.rot.svn.getD k 0 < p.svn.getD k 0) → t.fld Reg.rotErr Reg.rotErr_SVNPAIR = 1) ∧
        ((s.key 0).state = 1 → p.sealed = true → p.sameKey = false →
          t.fld Reg.rotErr Reg.rotErr_PAIRKEYBAD = 1 ∧ t.fld Reg.rotStatus Reg.rotStatus_PAIRKEY = 0 ∧ t.keys = s.keys) ∧
        ((s.key 0).state = 1 → p.sealed = false ∨ p.sameKey = true → t.keys = s.keys) ∧
        ((s.key 0).state ≠ 1 ∨ p.sealed = false ∨ p.sameKey = true →
          t.fld Reg.rotErr Reg.rotErr_PAIRKEYBAD = 0 ∧ t.fld Reg.rotStatus Reg.rotStatus_PAIRKEY = 1 ∧ (t.key 0).state = 1))))

/-- FW.ARM names an epoch E: with STAGED clear, or with E not newer than the installed epoch, it completes with sequence and what
is armed stays; else E is the armed epoch, whatever was armed before, and FW.DISARM clears it. In recovery no epoch is needed: the
bank written becomes the active one and a cold node reset follows. A row whose command does not run changes nothing. (R468) -/
def Obligations.AnEpochIsArmedAndDisarmed : Prop :=
  ∀ (c len : Nat) (s : State), c < 2 →
    let e := leAt (s.bytes (mbxBase c) len) 0 4
    let status (t : State) := t.fld (Reg.rotMbxResp c) Reg.rotMbxResp_STATUS
    let armed (t : State) := t.fld Reg.rotStatus Reg.rotStatus_ARMED
    let epoch (t : State) := t.fld Reg.rotArmepoch Reg.rotArmepoch_EPOCH
    let isNewer := ∃ d, 1 ≤ d ∧ d ≤ 2 ^ 31 - 1 ∧ e = (s.epoch + d) % 2 ^ 32
    let staged := s.fld Reg.rotStatus Reg.rotStatus_STAGED = 1
    (s.rot.running = some (c, 0x42, len) →
      (¬ staged ∨ (s.recovery = false ∧ ¬ isNewer) → ∃ t, exec .fwArm s = .next t ∧ status t = cSequence ∧
        armed t = armed s ∧ epoch t = epoch s ∧ t.rot = { s.rot with running := none } ∧ SameRegisters s t ∧ SameMemory s t) ∧
      (staged → s.recovery = false → isNewer → ∃ t, exec .fwArm s = .next t ∧ status t = cDone ∧ armed t = 1 ∧ epoch t = e ∧
        t.rot = { s.rot with running := none } ∧ SameRegisters s t ∧ SameMemory s t) ∧
      (staged → s.recovery = true → ∃ u, status u = cDone ∧ u.rot = { s.rot with running := none, bank := s.spareBank } ∧
        SameRegisters s u ∧ SameMemory s u ∧ exec .fwArm s = .next (u.coldReset 3))) ∧
    (s.rot.running = some (c, 0x43, len) → ∃ t, exec .fwDisarm s = .next t ∧ status t = cDone ∧ armed t = 0 ∧ epoch t = 0 ∧
      t.rot = { s.rot with running := none } ∧ SameRegisters s t ∧ SameMemory s t) ∧
    (s.rot.running = none → exec .fwArm s = .next s ∧ exec .fwDisarm s = .next s)

/-- FW.VERIFY stages the bank that is not active when it passes its checks, which hold every component to its length, digest and
counter, and else answers the failing check and writes nothing. An activation that is done, every bay and port having switched,
makes that bank the active one, cuts mailbox requests, and with its grace window closed raises the counters; one that fails sets
ACTFAIL, keeps the old bank and switches back what had switched. A licence record that fails a check is refused with its code; one
that passes is stored, and waits for the next reset where a licence is in force, else it takes effect. The watchdog cuts requests
and counts its firings; the third leaves the image stopped. An image that verifies is run; else the node enters recovery. No
counter falls. (R441, R466, R467, R469, R470, R471, R472, R474, R475, R511, R522, R524) -/
def Obligations.FirmwareLicencesAndTheWatchdog : Prop :=
  (∀ (b : Nat) (s : State), (s.verifyBank b).1 = cDone → ∀ i, i < 5 →
    let c := s.component b i
    c.2.2.1 + c.2.2.2.1 ≤ bankSize ∧ Config.sha256 (s.bytes (bankBase b + c.2.2.1) c.2.2.2.1) = c.2.2.2.2 ∧
      max (s.rot.svn.getD c.1 0) (s.rot.partnerSvn.getD c.1 0) ≤ c.2.1) ∧
  (∀ (c len : Nat) (s : State), c < 2 →
    let rq := s.bytes (mbxBase c) len
    let status (t : State) := t.fld (Reg.rotMbxResp c) Reg.rotMbxResp_STATUS
    (s.rot.running = some (c, 0x41, len) →
      let r := (s.verifyBank s.spareBank).1
      ∃ t, exec .fwVerify s = .next t ∧ status t = r ∧ SameRegisters s t ∧
        (r ≠ cDone → t.fld Reg.rotStatus Reg.rotStatus_STAGED = s.fld Reg.rotStatus Reg.rotStatus_STAGED ∧ SameMemory s t) ∧
        (r = cDone → t.fld Reg.rotStatus Reg.rotStatus_STAGED = 1 ∧
          SameMemoryOutside s t (stackBase 15 + 512 * 256 * 654776) (512 * 256 * 512))) ∧
    (s.rot.running = some (c, 0x50, len) →
      let r := s.licCode rq
      ∃ t, exec .licInstall s = .next t ∧ status t = r ∧ SameRegisters s t ∧ SameMemory s t ∧
        (r ≠ cDone → t.rot.lic = s.rot.lic ∧ t.fld Reg.globalLic Reg.globalLic_TIER = s.fld Reg.globalLic Reg.globalLic_TIER) ∧
        (r = cDone → t.rot.lic = some rq ∧ t.rot.svn.getD 5 0 = max (s.rot.svn.getD 5 0) (leAt rq 24 4)) ∧
        (r = cDone → s.fld Reg.globalReady Reg.globalReady_LIC = 1 →
          t.fld Reg.globalLic Reg.globalLic_LICPEND = 1 ∧ t.fld Reg.globalLic Reg.globalLic_PENDTIER = leAt rq 20 4 ∧
          t.fld Reg.globalLic Reg.globalLic_TIER = s.fld Reg.globalLic Reg.globalLic_TIER) ∧
        (r = cDone → s.fld Reg.globalReady Reg.globalReady_LIC = 0 →
          t.fld Reg.globalLic Reg.globalLic_TIER = leAt rq 20 4 ∧ t.fld Reg.globalLic Reg.globalLic_VALID = 1 ∧
          t.fld Reg.globalReady Reg.globalReady_LIC = 1))) ∧
  (∀ s : State,
    let st := Reg.rotStatus
    let mine := (∀ c, c ∈ s.rot.queue → c < 2) ∧ ∀ r, s.rot.running = some r → r.1 < 2
    (s.rot.running = none → exec .fwVerify s = .next s ∧ exec .licInstall s = .next s) ∧
    (s.rot.act = none → exec .fwActivationDone s = .next s ∧ exec .fwActivationRollback s = .next s) ∧
    (∀ a, s.rot.act = some a →
      (a.complete = true ∨ s.switched a.sw = false → exec .fwActivationDone s = .next s) ∧
      (a.complete = true → exec .fwActivationRollback s = .next s) ∧
      (a.complete = false → s.switched a.sw = true → mine → ∃ t, exec .fwActivationDone s = .next t ∧ t.rot.bank = s.spareBank ∧
        t.fld st Reg.rotStatus_ACTBANK = s.spareBank % 2 ∧ t.fld st Reg.rotStatus_ACTIVATING = 0 ∧
        t.fld st Reg.rotStatus_STAGED = 0 ∧ t.rot.queue = [] ∧ t.rot.running = none ∧ SameRegisters s t ∧ SameMemory s t ∧
        (s.graceOpen a.epoch = true → t.rot.svn = s.rot.svn ∧ t.rot.act = some { a with complete := true }) ∧
        (s.graceOpen a.epoch = false → t.rot.act = none ∧ (∀ d, d ∈ a.oldDigests → d ∉ t.rot.digests) ∧
          ∀ k, k < 6 → t.rot.svn.getD k 0 = max (s.rot.svn.getD k 0) (a.svn.getD k 0))) ∧
      (a.complete = false → ∃ t, exec .fwActivationRollback s = .next t ∧ t.rot.act = none ∧ t.rot.bank = s.rot.bank ∧
        t.rot.back = some { a.sw with portAt := 0 } ∧ t.rot.svn = s.rot.svn ∧ t.fld st Reg.rotStatus_ACTIVATING = 0 ∧ t.fld Reg.rotErr Reg.rotErr_ACTFAIL = 1 ∧
        SameRegisters s t ∧ t.mem = s.mem)) ∧
    (s.boot.phase = 0 ∨ s.rot.stopped = true ∨ s.recovery = true → exec .rotWatchdogExpiry s = .next s) ∧
    (s.boot.phase ≠ 0 → s.rot.stopped = false → s.recovery = false → mine → ∃ t, exec .rotWatchdogExpiry s = .next t ∧
      t.fld Reg.rotErr Reg.rotErr_WDOG = 1 ∧ t.rot.wdog = s.rot.wdog + 1 ∧ t.rot.stopped = decide (2 ≤ s.rot.wdog) ∧
      t.rot.queue = [] ∧ t.rot.running = none ∧ (2 ≤ s.rot.wdog → t.fld Reg.globalReady Reg.globalReady_ROT = 0) ∧
      SameRegisters s t ∧ SameMemory s t) ∧
    (∀ image : RotStart,
      (s.boot.phase ≠ 1 → exec (.rotImageVerified image) s = .next s) ∧
      (s.boot.phase = 1 → s.startBank image = none → ∃ t, exec (.rotImageVerified image) s = .next t ∧ t.boot.phase = 2 ∧
        t.recovery = true ∧ t.rot.bank = s.rot.bank ∧ SameRegisters s t ∧ t.mem = s.mem) ∧
      (∀ b, s.boot.phase = 1 → s.startBank image = some b → (∀ e, e ∈ s.rot.plan → e.1 ≠ st ∧ e.1 ≠ Reg.globalReady) →
        ∃ t, exec (.rotImageVerified image) s = .next t ∧ t.boot.phase = 2 ∧ t.rot.bank = b ∧
          t.fld st Reg.rotStatus_ACTBANK = b % 2 ∧ t.fld Reg.globalReady Reg.globalReady_ROT = 1 ∧ t.rot.plan = [] ∧
          (∀ k, k < 6 → s.rot.svn.getD k 0 ≤ t.rot.svn.getD k 0) ∧ SameRegisters s t ∧ t.mem = s.mem) ∧
      (s.svnOk s.rot.bank = false → (if s.rot.bank = 0 then image.bankA else image.bankB) = true → s.startBank image = none)))

/-- A request for N2 outside N1, without the partner in N1, with the partner unreachable or with flash work queued, a request for
N3 outside start-up and recovery mode, and a bin below FLOOR, in N2 or N3, or over a refresh floor beyond RN = 4 are refused: the
state is unchanged but for PWR.STATUS.REFUSED, which is set, and one record that is written to the event log, or counted as lost
where its buffer is full. (R493) -/
def Obligations.RefusedPowerRequestsAreRecorded : Prop :=
  ∀ s : State,
    let u := s.setFld Reg.pwrStatus Reg.pwrStatus_REFUSED 1
    let t := u.log 0x10 0xFF 0 (u.reg Reg.pwrStatus) (u.reg Reg.pwrAgeEvt)
    (t.fld Reg.pwrStatus Reg.pwrStatus_REFUSED = 1 ∧ t.pwr = s.pwr ∧ t.boot = s.boot ∧ SameRegisters s t ∧ t.mem = s.mem ∧
      (∀ o, o ≠ Reg.pwrStatus → o ≠ Reg.globalEverr → t.reg o = s.reg o) ∧
      (∀ i, i ≠ Reg.pwrStatus_REFUSED.lo → (t.reg Reg.pwrStatus).getLsbD i = (s.reg Reg.pwrStatus).getLsbD i) ∧
      (s.host.evBuf.length < 512 → ∃ r, t.host.evBuf = s.host.evBuf ++ [r]) ∧
      (512 ≤ s.host.evBuf.length → t.host.evBuf = s.host.evBuf ∧
        t.fld Reg.globalEverr Reg.globalEverr_LOST = satInc 32 (s.fld Reg.globalEverr Reg.globalEverr_LOST))) ∧
    (∀ n1, s.fld Reg.pwrStatus Reg.pwrStatus_NSTATE ≠ 1 ∨ n1 = false ∨ s.fld Reg.pairStatus Reg.pairStatus_UNREACH = 1 ∨
      s.flashBusy = true → exec (.pwrN2 n1) s = .next t) ∧
    (s.boot.phase ≠ 2 ∨ (s.fld Reg.fabCtrl Reg.fabCtrl_MODE ≠ 0 ∧ s.fld Reg.fabCtrl Reg.fabCtrl_MODE ≠ 3) →
      exec .pwrN3 s = .next t) ∧
    (∀ bin, bin < 4 → bin < s.fld Reg.pwrFreq Reg.pwrFreq_FLOOR ∨ 2 ≤ s.fld Reg.pwrStatus Reg.pwrStatus_NSTATE ∨
      (bin ≠ 0 ∧ ∃ b, b < 16 ∧ 2 ≤ s.fld (Reg.pwrStk b) Reg.pwrStk_RNMIN) → exec (.freqBinWrite bin) s = .next t)

/-- An idle easel whose gate bit was set enters sleep or off. A bay at rest that may go deep does so at a frame start after
DEEPDLY; a wake event, which a fabric message is only while MSGWAKE is set, starts its waking and that of the easels it names, and
at a frame start 625 gc later or more it is active. N1 asks the ports to narrow one by one. A request for N2 that is granted parks
the flash channels, turns sleeping easels off and takes the ports down; PAIR_WAKE_N and 2,500 gc end it in N1. A request for N3
that is granted resets the node and drops the power enables; a wake starts the power-on sequence. A row whose conditions do not
hold leaves the state as it was. (R485, R486, R487, R488, R489, R490, R491, R492, R505, R558) -/
def Obligations.EaselsBaysAndTheNodeChangePowerState : Prop :=
  (∀ (x : Ea) (s : State), x.ok = true →
    let due := (s.ex x).gate && decide (s.est x = stIdle) && s.idleFor x && s.quiet x && decide (x.easel < s.easelsPerBay)
    (due = false → exec (.idleGate x) s = .next s) ∧
    (due = true → ∃ t, exec (.idleGate x) s = .next t ∧ t.est x = s.gateState x ∧ (t.ex x).gate = false ∧
      96 * ((s.ex x).idleSince + 1) ≤ t.ec ∧ SameRegisters s t ∧ t.mem = s.mem)) ∧
  (∀ (b : Nat) (s : State), b < 16 →
    let asked := s.fld (Reg.pwrBay0 b) Reg.pwrBay0_DEEPEN = 1 ∨ s.pwr.n1 = true
    let rests := s.bayUp b = true ∧ s.bayPwr b = 0 ∧ s.bayQuiet b = true ∧ s.fld Reg.pwrStatus Reg.pwrStatus_RELOCK = 0
    (¬ (asked ∧ rests) → exec (.bayDeepEntry b) s = .next s) ∧
    (asked → rests → ∃ t, exec (.bayDeepEntry b) s = .next t ∧ t.bayPwr b = 1 ∧
      t.fld (Reg.bayStkStatus b) Reg.bayStkStatus_SELFREF = 1 ∧ bitOf (t.fld Reg.pwrStatus Reg.pwrStatus_DEEP) b = true ∧
      (s.bay b).deepSince + s.fld (Reg.pwrBay0 b) Reg.pwrBay0_DEEPDLY ≤ t.gc ∧ t.ec % 12288 = 0 ∧ SameRegisters s t ∧
      t.mem = s.mem) ∧
    (s.fld (Reg.pwrBay0 b) Reg.pwrBay0_MSGWAKE = 0 → ∀ m, m < 4096 → exec (.bayWake b m true) s = .next s) ∧
    (∀ m msg, m < 4096 → (msg = true → s.fld (Reg.pwrBay0 b) Reg.pwrBay0_MSGWAKE = 1) →
      (s.bayPwr b = 1 → ∃ t, exec (.bayWake b m msg) s = .next t ∧ t.bayPwr b = 2 ∧ (t.bay b).wakeAt = some s.gc ∧
        (t.bay b).wakeEasels = m ∧ SameRegisters s t ∧ t.mem = s.mem ∧
        (s.fld Reg.pwrStatus Reg.pwrStatus_NSTATE = 2 → s.pwr.wokenAt = none → t.pwr.wokenAt = some (s.gc + 1)) ∧
        ∀ e, e < 12 → bitOf m e = true → s.est ⟨b, e⟩ = stSleep ∨ s.est ⟨b, e⟩ = stOff → (s.ex ⟨b, e⟩).wait = none →
          (s.ex ⟨b, e⟩).wake = none → (s.ex ⟨b, e⟩).failed = false → (s.ex ⟨b, e⟩).switching = none →
          (t.ex ⟨b, e⟩).wake.isSome = true) ∧
      (s.bayPwr b = 2 → ∃ t, exec (.bayWake b m msg) s = .next t ∧ t.bayPwr b = 2 ∧
        (t.bay b).wakeEasels = (s.bay b).wakeEasels ||| m ∧ t.regs = s.regs ∧ SameRegisters s t ∧ t.mem = s.mem) ∧
      (s.bayPwr b ≠ 1 → s.bayPwr b ≠ 2 → exec (.bayWake b m msg) s = .next (s.quieten b))) ∧
    (s.bayPwr b ≠ 2 ∨ (s.bay b).wakeAt = none ∨ 2 ≤ s.fld Reg.pwrStatus Reg.pwrStatus_NSTATE →
      exec (.bayActive b) s = .next s) ∧
    (∀ w, s.bayPwr b = 2 → (s.bay b).wakeAt = some w → s.fld Reg.pwrStatus Reg.pwrStatus_NSTATE < 2 →
      ∃ t, exec (.bayActive b) s = .next t ∧ t.bayPwr b = 0 ∧ (t.bay b).wakeAt = none ∧ t.ec % 12288 = 0 ∧
        w + 625 + 250 * SMap.get (fun _ => 0) s.boot.pll b ≤ t.gc ∧
        (s.fld Reg.pwrCtrl Reg.pwrCtrl_KEEPNARROW = 0 → t.pwr.widen = true) ∧ SameRegisters s t ∧ t.mem = s.mem)) ∧
  (∀ s : State,
    let ns := s.fld Reg.pwrStatus Reg.pwrStatus_NSTATE
    (exec .pwrN1 s = .next (State.showNode { s with pwr := { s.pwr with n1 := true, widen := false } })) ∧
    (∀ p, p < 8 →
      let want := s.pwr.n1 && !s.pwr.widen
      let keep := decide (s.fld Reg.pwrCtrl Reg.pwrCtrl_KEEPNARROW = 1)
      let due := fun p => decide (s.portSt p = 5) && (s.port p).narrow != want && (want || !keep)
      let turning := (List.range 8).any fun p => (s.port p).narrow == want && decide (2 ≤ s.portSt p ∧ s.portSt p ≤ 4)
      let now := p < s.nPorts ∧ due p = true ∧ turning = false ∧ (∀ q, q < p → due q = false) ∧ ns < 2
      (now → exec (.portNarrowing p) s = .next ((s.narrowPort p want).showNode)) ∧
      (¬ now → exec (.portNarrowing p) s = .next s)) ∧
    (ns = 1 → s.fld Reg.pairStatus Reg.pairStatus_UNREACH = 0 → s.flashBusy = false →
      ∃ u, u.fld Reg.pwrStatus Reg.pwrStatus_NSTATE = 2 ∧ u.pwr.flEn = false ∧ SameRegisters s u ∧ u.mem = s.mem ∧
        (∀ x : Ea, x.ok = true → s.est x = stSleep → u.est x = stOff) ∧
        (∀ c, c < 32 → s.chUp c = true → (u.fch c).parked = true) ∧
        let v := (List.range 8).foldl (fun v p => if p < 2 then v.leaveUp p else v.portOff p) u
        exec (.pwrN2 true) s = .next (State.showGroups { v with pwr :=
          { v.pwr with parked := true, wokenAt := none, pairWake := false } }).pairShow) ∧
    (s.boot.phase = 2 → s.fld Reg.fabCtrl Reg.fabCtrl_MODE = 0 ∨ s.fld Reg.fabCtrl Reg.fabCtrl_MODE = 3 →
      ∃ t, exec .pwrN3 s = .next t ∧ t.boot.phase = 3 ∧ t.fld Reg.pwrStatus Reg.pwrStatus_NSTATE = 3 ∧
        t.pwr.enCore = false ∧ t.pwr.enStk = false ∧ t.pwr.flEn = false ∧
        (s.linkUp 0 = true → t.fld Reg.hostErr Reg.hostErr_DOWNEV = 1)) ∧
    (s.boot.phase = 3 → ∃ t, exec .pwrWake s = .next t ∧ t.boot.phase = 1 ∧ t.fld Reg.pwrStatus Reg.pwrStatus_NSTATE = 0 ∧
      t.pwr.enCore = true ∧ t.pwr.enStk = true ∧ t.pwr.flEn = true ∧ t.pwr.n1 = false ∧ SameRegisters s t ∧ t.mem = s.mem) ∧
    (s.boot.phase ≠ 3 → exec .pwrWake s = .next
      (State.leaveN2 { s with pwr := { s.pwr with n1 := false, widen := false } }).showNode) ∧
    (ns ≠ 2 ∨ s.pwr.pairWake = true → exec .pairWake s = .next s) ∧
    (ns = 2 → s.pwr.pairWake = false → ∃ t, exec .pairWake s = .next t ∧ t.pwr.pairWake = true ∧ t.pwr.flEn = true ∧
      t.pwr.wokenAt = some (s.pwr.wokenAt.getD s.gc) ∧ SameRegisters s t ∧ t.mem = s.mem) ∧
    (s.pwr.wokenAt = none ∨ s.pwr.pairWake = false ∨ ns ≠ 2 → exec .n2ExitDone s = .next s) ∧
    (∀ w, s.pwr.wokenAt = some w → s.pwr.pairWake = true → ns = 2 →
      ∃ u, u.fld Reg.pwrStatus Reg.pwrStatus_NSTATE = 1 ∧ u.pwr.parked = false ∧ u.pwr.wokenAt = none ∧ u.pwr.pairWake = false ∧
        96 * (w + 2500) ≤ u.ec ∧ SameRegisters s u ∧ u.mem = s.mem ∧ exec .n2ExitDone s = .next ((List.range 8).foldl
          (fun v p => if p < 2 then v.leaveUp p else v.portLight p) u).showGroups.pairShow.showNode))

/-- A second sample in a row below a warning level declares the warning, the next applies the brake, RECOVER good samples release
it, and LONG cycles of it are recorded; a second sample in a row at a reset level resets the node, and one of the ground supply
holds it. A bin not refused is due at the next frame start, or waits for a brake or relock; 896 gc into a relock its bays run
again, and one whose PLL was tried twice 250 gc later; a PLL that fails twice takes its bay down, or resets the node. An ageing
pass reads its monitors; too little slack raises the guardband by 5 mV while there is room, too little retention the refresh
floor, and correction the scrub floor, and a laser at its ceiling raises it by 5 or is withdrawn at 100. (R494, R496, R498, R500,
R501, R502, R505, R506, R553, R554) -/
def Obligations.SupplyClocksAndAgeingAreMonitored : Prop :=
  (∀ (rails : Rails) (s : State), rails.levels.length = 32 →
    let u := if s.recovered then s.release else s
    let l := rails.levels
    (s.boot.noCrystal = true ∨ s.boot.phase = 4 → exec (.supplySample rails) s = .next s) ∧
    (s.boot.noCrystal = false → s.boot.phase ≠ 4 → exec (.supplySample rails) s =
      .next ((if u.pwr.sampled = some u.xtal then u.tick else u).sampleRails l))) ∧
  (∀ (l : List Nat) (s : State),
    let warn := s.railsBelow l 19
    let low := s.railsBelow l 18
    let gnd := decide (l.getD 0 0 < 700000)
    let v : State := { s with pwr := { s.pwr with sampled := some s.xtal, lowRails := warn, resetLow := low, gndLow := gnd } }
    let hit := low.filter fun i => s.pwr.resetLow.contains i
    let again := warn.any fun i => s.pwr.lowRails.contains i
    let lost := allBays.filter fun b => hit.contains (19 + b / 4) || hit.contains (23 + b / 4)
    let warned := s.fld Reg.pwrSupply Reg.pwrSupply_WARN
    let brake := s.fld Reg.pwrStatus Reg.pwrStatus_BRAKE
    (gnd = true → s.pwr.gndLow = true → ∃ t, s.sampleRails l = t ∧ t.boot.phase = 4 ∧ (∀ k, k ≠ 0 → t.key k = {})) ∧
    (¬ (gnd = true ∧ s.pwr.gndLow = true) →
      (hit ≠ [] → s.sampleRails l = v.warmReset 6 lost) ∧
      (hit = [] → warned = 0 → again = false → s.sampleRails l = v) ∧
      (hit = [] → warned = 0 → again = true → (s.sampleRails l).fld Reg.pwrSupply Reg.pwrSupply_WARN = 1 ∧
        (s.sampleRails l).fld Reg.pwrStatus Reg.pwrStatus_BRAKE = brake) ∧
      (hit = [] → warned = 1 → (s.sampleRails l).fld Reg.pwrStatus Reg.pwrStatus_BRAKE = 1 ∧
        (s.sampleRails l).pwr.good = if warn ≠ [] then 0 else if brake = 0 then 1 else s.pwr.good + 1))) ∧
  (∀ s : State,
    (s.recovered = false → exec .brakeRelease s = .next s) ∧
    (s.recovered = true → ∃ t, exec .brakeRelease s = .next t ∧ t.fld Reg.pwrStatus Reg.pwrStatus_BRAKE = 0 ∧
      t.fld Reg.pwrSupply Reg.pwrSupply_WARN = 0 ∧ t.fld Reg.pwrSupply Reg.pwrSupply_DIPEV = 1 ∧
      t.fld Reg.pwrSupply Reg.pwrSupply_DIPS = satInc 16 (s.fld Reg.pwrSupply Reg.pwrSupply_DIPS) ∧
      t.pwr.passNow = true ∧ SameRegisters s t ∧ t.mem = s.mem) ∧
    (s.fld Reg.pwrStatus Reg.pwrStatus_BRAKE = 0 ∨ s.pwr.longDone = true → exec .longBrakeExpiry s = .next s) ∧
    (s.fld Reg.pwrStatus Reg.pwrStatus_BRAKE = 1 → s.pwr.longDone = false → ∃ t, exec .longBrakeExpiry s = .next t ∧
      t.fld Reg.pwrSupply Reg.pwrSupply_LONGEV = 1 ∧ t.fld Reg.pwrStatus Reg.pwrStatus_BRAKE = 1 ∧ t.pwr.longDone = true ∧
      SameRegisters s t ∧ t.mem = s.mem) ∧
    (∀ bin, bin < 4 → s.binRefused bin = false →
      let busy := s.fld Reg.pwrStatus Reg.pwrStatus_BRAKE = 1 ∨ s.pwr.relock.isSome = true
      let same := bin = s.fld Reg.pwrFreq Reg.pwrFreq_BIN
      (busy → exec (.freqBinWrite bin) s = .next { s with pwr := { s.pwr with binWait := some bin } }) ∧
      (¬ busy → same → exec (.freqBinWrite bin) s = .next s) ∧
      (¬ busy → ¬ same → exec (.freqBinWrite bin) s =
        .next { s with pwr := { s.pwr with relock := some (frameAfter (s.gc + 1), bin) } })) ∧
    (s.pwr.relock = none → exec .relockDone s = .next s) ∧
    (∀ f bin, s.pwr.relock = some (f, bin) →
      let on := s.fld Reg.pwrStatus Reg.pwrStatus_RELOCK
      let stands := ∃ b, b < 16 ∧ s.bayPwr b = 3
      let tries (b : Nat) := SMap.get (fun _ => 0) s.boot.pll b
      (on = 1 → ∃ t, exec .relockDone s = .next t ∧ 96 * (f + 896) ≤ t.ec ∧ t.fld Reg.pwrStatus Reg.pwrStatus_RELOCK = 0 ∧
        (∀ b, b < 16 → s.bayPwr b = 3 → t.bayPwr b = if tries b = 0 then 0 else 3) ∧ SameRegisters s t ∧ t.mem = s.mem) ∧
      (on = 0 → stands → ∃ t, exec .relockDone s = .next t ∧ 96 * (f + 1146) ≤ t.ec ∧
        (∀ b, b < 16 → s.bayPwr b = 3 → t.bayPwr b = 0) ∧ SameRegisters s t ∧ t.mem = s.mem) ∧
      (on = 0 → ¬ stands → exec .relockDone s = .next s)) ∧
    (∀ u locked, u < 17 →
      let tries := SMap.get (fun _ => 0) s.boot.pll u
      let on := s.fld Reg.pwrStatus Reg.pwrStatus_RELOCK = 1
      let busy := (on ∧ (u = 16 ∨ s.bayPwr u = 3)) ∨ (u ≠ 16 ∧ s.bayPwr u = 2)
      (locked = true ∨ ¬ busy → exec (.pllLockRetry u locked) s = .next s) ∧
      (busy → tries = 0 → exec (.pllLockRetry u false) s =
        .next { s with boot := { s.boot with pll := SMap.set (fun _ => 0) s.boot.pll u 1 } }) ∧
      (busy → tries ≠ 0 → u = 16 → exec (.pllLockRetry u false) s = .next (s.warmReset 7 [])) ∧
      (busy → tries ≠ 0 → u ≠ 16 → ∃ v, v.bayUp u = false ∧ v.bayPwr u = 0 ∧
        bitOf (v.fld Reg.catStatus Reg.catStatus_SLICEUP) u = false ∧ SMap.get (fun _ => 0) v.boot.pll u = 2 ∧
        SameRegisters s v ∧ v.mem = s.mem ∧ exec (.pllLockRetry u false) s = .next (v.cutBay u)))) ∧
  (∀ (rs : List AgeReading) (s : State), rs.all AgeReading.ok = true →
    (s.fld Reg.pwrAgeCtrl Reg.pwrAgeCtrl_ENABLE = 0 → exec (.ageingPass rs) s = .next s) ∧
    (s.fld Reg.pwrAgeCtrl Reg.pwrAgeCtrl_ENABLE = 1 → ∃ u, u.pwr.passNow = false ∧ u.pwr.passAt = u.gc ∧
      (s.pwr.passNow = false → s.pwr.passAt + s.fld Reg.pwrAgeCtrl Reg.pwrAgeCtrl_PERIOD ≤ u.gc) ∧ SameRegisters s u ∧
      u.mem = s.mem ∧ exec (.ageingPass rs) s = .next ((List.range 8).foldl (fun u p => u.passPort rs p)
        (allBays.foldl (fun u b => u.passStack rs b) (allBays.foldl (fun u b => u.passBay rs b) u))))) ∧
  (∀ (s : State) (b : Nat), b < 16 →
    let gb := s.fld (Reg.pwrBay1 b) Reg.pwrBay1_GB
    (∀ slow, (s.pwr.avs.any fun a => a.1 == 2 + b && decide (a.2.2 + 250 < s.gc)) = false →
      gb + 5 ≤ s.fld Reg.pwrAgeLimits Reg.pwrAgeLimits_GBMAX →
      let t := s.planSlack b slow
      t.fld (Reg.pwrBay1 b) Reg.pwrBay1_GB = gb + 5 ∧ t.fld Reg.pwrAgeEvt Reg.pwrAgeEvt_LEVER = 1 ∧
        t.fld Reg.pwrAgeEvt Reg.pwrAgeEvt_UNIT = b ∧ (2 + b, Config.baseVolt b + 1000 * (gb + 5), s.gc) ∈ t.pwr.avs) ∧
    (let step := if s.fld Reg.pwrFreq Reg.pwrFreq_BIN = 0 then 0 else 1
     let rn := max (s.fld (Reg.pwrStk b) Reg.pwrStk_RNMIN) (bitsOf (s.stk b).map 8 2 - step)
     rn + step < 2 → (s.planRetention b).fld (Reg.pwrStk b) Reg.pwrStk_RNMIN = rn + 1 ∧
       (s.planRetention b).fld (Reg.pwrStk b) Reg.pwrStk_RMARGIN = 0 ∧
       (s.planRetention b).fld Reg.pwrAgeEvt Reg.pwrAgeEvt_LEVER = 2) ∧
    (let sn := max (s.fld (Reg.pwrStk b) Reg.pwrStk_SNMIN) (bitsOf (s.stk b).map 24 3)
     (4 ≤ sn → s.planScrub b = s) ∧
     (sn < 4 → (s.planScrub b).fld (Reg.pwrStk b) Reg.pwrStk_SNMIN = sn + 1 ∧
       (s.planScrub b).fld Reg.pwrAgeEvt Reg.pwrAgeEvt_LEVER = 3))) ∧
  (∀ (s : State) (p l v : Nat) (ok : Bool), p < 8 → l < 8 →
    let r := Reg.pwrLaser p
    let ceil := s.fld r Reg.pwrLaser_CEIL
    let t := s.passPort [.laser p l v ok] p
    (bitOf (s.port p).lit.1 l = false → t = s) ∧
    (bitOf (s.port p).lit.1 l = true → t.fld r Reg.pwrLaser_BIAS = min v 255 ∧ t.fld r Reg.pwrLaser_LANE = l ∧
      (ceil ≤ v → ceil < 100 → t.fld r Reg.pwrLaser_CEIL = min 100 (ceil + 5)) ∧
      (ceil = 100 → ok = false → bitOf (t.fld r Reg.pwrLaser_WITHDRAWN) l = true))) ∧
  (∀ (s : State) (r : Nat), 2 ≤ r → r < 19 →
    ((s.pwr.avs.find? fun a => a.1 == r) = none → exec (.avsbusAcknowledge r) s = .next s) ∧
    (∀ a, (s.pwr.avs.find? fun a => a.1 == r) = some a → ∃ t, exec (.avsbusAcknowledge r) s = .next t ∧
      SMap.get (fun _ => 800000) t.pwr.setPoints r = a.2.1 ∧ (∀ q, q ∈ t.pwr.avs → q.1 ≠ r) ∧ t.regs = s.regs ∧
      SameRegisters s t ∧ t.mem = s.mem))

/-- A bay or partition reset waits for a frame start, takes its bays down and is recorded until they are up; one that a running
reset covers is merged. A bay taken down is not ready, nor its stack, and holds no work. A node reset starts from State.reset with
the cause shown; keys, counters, licence and repair record stay, and of memory the stacks on a warm one, host memory, flash and
the image banks; sticky fields survive a warm one. A drain that ends clears the stores of its bays. The crystal's loss holds a
warm reset until it returns, failed rails lose the stacks, and the ground supply's return loses key memory. A bay whose PLL locks
is ready, and a stack that trains; a second failure leaves it not ready. A row whose condition does not hold leaves the state as
it was. (R507, R508, R509, R510, R517, R518, R519, R520, R524, R525, R526, R554) -/
def Obligations.ResetsDrainKeepAndBringUp : Prop :=
  (∀ (s : State) (b f : Nat), b < 16 →
    let t := s.bayDown b f
    t.bayUp b = false ∧ t.stackUp b = false ∧ t.bayPwr b = 0 ∧ (t.bay b).queue = [] ∧ (t.bay b).incoming = [] ∧
      (t.bay b).engine = none ∧ (t.stk b).nbQ = [] ∧ (t.stk b).nbRun = none ∧
      ∃ g, (t.stk b).readyAt = some g ∧ f + 12800 ≤ g) ∧
  (∀ (s : State) (cold : Bool) (cause : Nat),
    let t := s.nodeReset cold cause
    t.boot.phase = 0 ∧ t.boot.resets = [] ∧ t.fld Reg.globalReset Reg.globalReset_LASTCAUSE = cause % 16 ∧ t.keys = s.keys ∧
      t.rot.svn = s.rot.svn ∧ t.rot.lic = s.rot.lic ∧ t.rot.bank = s.rot.bank ∧ t.repair = s.repair ∧ t.leases = [] ∧
      t.pending = s.pending ∧ t.conf = s.conf ∧
      (∀ a, keptSpace cold (a / 2 ^ 64) = true → t.byte a = s.byte a) ∧
      (∀ a, keptSpace cold (a / 2 ^ 64) = false → t.byte a = unlistedByte a) ∧
      (SMap.wf regReset s.regs = true → ∀ o, o < 2 ^ 64 → o ≠ Reg.globalReset → o ≠ Reg.hostLink → o ≠ Reg.rotStatus →
        o ≠ Reg.globalEverr → o ≠ Reg.pairLog →
        t.reg o = if cold then regReset o else (s.reg o &&& regSticky o) ||| (regReset o &&& ~~~regSticky o))) ∧
  (∀ s : State,
    let f := frameAfter (ceilDiv s.ec 96)
    let add (u : State) (r : ResetX) : State := { u with boot := { u.boot with resets := u.boot.resets ++ [r] } }
    (∀ b, b < 16 →
      let r : ResetX := { scope := 1, unit := b, f, drained := false, lost := [] }
      let merged := s.boot.phase ≠ 2 ∨ s.boot.resets.any (·.covers b) = true
      (merged → exec (.globalResetBay b) s = .next s) ∧
      (¬ merged → exec (.globalResetBay b) s =
        .next (add (((s.setFld Reg.globalReset r.bit 1).passTo (96 * f)).bayDown b f) r))) ∧
    (∀ p, p < 4 →
      let merged := s.boot.phase ≠ 2 ∨ s.boot.resets.any (fun r => r.scope == 2 && r.unit == p) = true
      (merged → exec (.globalResetPart p) s = .next s) ∧
      (¬ merged → ∃ t, exec (.globalResetPart p) s = .next t ∧
        { scope := 2, unit := p, f, drained := false, lost := [] } ∈ t.boot.resets ∧
        (∀ q, q ∈ t.boot.resets → ¬ (q.scope = 1 ∧ q.unit / 4 = p)) ∧ ∀ i, i < 4 → t.bayUp (4 * p + i) = false)) ∧
    (let warm (i : Instr) (cause : Nat) : Prop :=
      (s.boot.phase ≠ 2 → exec i s = .next s) ∧
      (s.boot.phase = 2 → ∃ t, exec i s = .next t ∧ t.boot.phase = 0 ∧ t.leases = [] ∧ t.rot.digests = [] ∧
        t.fld Reg.globalReset Reg.globalReset_LASTCAUSE = cause ∧ t.boot.resets.map (·.scope) = [3])
     warm .globalResetWarm 5 ∧ warm .warmRstPin 4) ∧
    (let cold (i : Instr) (cause : Nat) : Prop :=
      let still := s.boot.phase = 4 ∨ (s.boot.phase < 2 ∧ s.boot.resets = [] ∧ s.boot.warmHeld = false ∧
        s.fld Reg.globalReset Reg.globalReset_LASTCAUSE < 4 ∧ s.pwr.thermtrip = false)
      (still → exec i s = .next s) ∧
      (¬ still → ∃ t, exec i s = .next t ∧ t.boot.phase = 0 ∧ t.pwr.thermtrip = false ∧ t.keys = s.keys ∧
        t.rot.svn = s.rot.svn ∧ t.fld Reg.globalReset Reg.globalReset_LASTCAUSE = (if s.pwr.thermtrip then 10 else cause) ∧
        ∀ a, keptSpace true (a / 2 ^ 64) = false → t.byte a = unlistedByte a)
     cold .globalResetCold 2 ∧ cold .coldRstPin 1) ∧
    ((s.boot.resets.find? (!·.drained)) = none → exec .resetDrainEnd s = .next s) ∧
    (∀ r, (s.boot.resets.find? (!·.drained)) = some r →
      (r.scope = 3 → s.boot.noCrystal = true ∨ s.pwr.thermtrip = true → exec .resetDrainEnd s =
        .next { s with boot := { s.boot with resets := [], warmHeld := true } }) ∧
      (r.scope = 3 → s.boot.noCrystal = false → s.pwr.thermtrip = false → exec .resetDrainEnd s =
        .next { s with boot := { s.boot with resets := [], phase := 1 } }) ∧
      (r.scope ≠ 3 → ∃ t, exec .resetDrainEnd s = .next t ∧ 96 * (r.f + 512) ≤ t.ec ∧ { r with drained := true } ∈ t.boot.resets ∧
        SameRegisters s t ∧
        (∀ b a, b < 16 → r.covers b = true → a / 2 ^ 64 = b ∨ (a / 2 ^ 64 - 0x100) / 12 = b ∧ 0x100 ≤ a / 2 ^ 64 →
          t.byte a = unlistedByte a) ∧
        (∀ a, 0x300 ≤ a / 2 ^ 64 → t.byte a = s.byte a))) ∧
    (∀ strap,
      let ready := s.boot.phase = 0 ∧ s.boot.resets = [] ∧ s.boot.warmHeld = false ∧ s.boot.noCrystal = false ∧
        s.pwr.thermtrip = false
      (ready → ∃ t, exec (.resetRelease strap) s = .next t ∧ t.boot.phase = 1 ∧ t.bif = strap ∧ SameRegisters s t ∧
        t.mem = s.mem) ∧
      (¬ ready → exec (.resetRelease strap) s = .next s)) ∧
    (s.boot.noCrystal = true → exec .crystalLoss s = .next s) ∧
    (s.boot.noCrystal = false → ∃ t, exec .crystalLoss s = .next t ∧ t.boot.noCrystal = true ∧
      (s.boot.phase = 2 → t.boot.phase = 0 ∧ t.fld Reg.globalReset Reg.globalReset_LASTCAUSE = 8)) ∧
    (s.boot.noCrystal = false → exec .crystalReturn s = .next s) ∧
    (s.boot.noCrystal = true → ∃ t, exec .crystalReturn s = .next t ∧ t.boot.noCrystal = false ∧ t.regs = s.regs ∧
      SameRegisters s t ∧ t.mem = s.mem ∧
      t.boot.phase = if s.boot.warmHeld && !s.pwr.thermtrip then 1 else s.boot.phase) ∧
    (s.pwr.enCore = false → exec .railsOkLow s = .next s) ∧
    (s.pwr.enCore = true → ∃ t, exec .railsOkLow s = .next t ∧
      (∀ a, 0x300 ≤ a / 2 ^ 64 → a / 2 ^ 64 < 0x310 → t.byte a = unlistedByte a) ∧
      (s.boot.phase = 2 → t.boot.phase = 0 ∧ t.fld Reg.globalReset Reg.globalReset_LASTCAUSE = 6)) ∧
    (∃ t, exec .groundSupplyReturn s = .next t ∧ t.boot.phase = 0 ∧ t.ec = 0 ∧ (∀ k, k ≠ 0 → t.key k = {}) ∧
      t.key 0 = s.key 0 ∧ t.rot.svn = s.rot.svn ∧ t.fld Reg.globalReset Reg.globalReset_LASTCAUSE = 0)) ∧
  (∀ (s : State) (b : Nat), b < 16 →
    let r := s.boot.resets.find? (·.covers b)
    let drains := (r.map (!·.drained)).getD false
    let fails := SMap.get (fun _ => 0) s.boot.pll b
    let bayDue := s.licensed = true ∧ s.bayUp b = false ∧ fails < 2 ∧ drains = false
    let y := s.stk b
    let stackDue := s.licensed = true ∧ s.stackUp b = false ∧ y.trainFails < 2 ∧ drains = false ∧
      ¬ (s.fld (Reg.bayStkStatus b) Reg.bayStkStatus_TRAIN = 1 ∧ s.fld (Reg.bayStkStatus b) Reg.bayStkStatus_SELFREF = 1) ∧
      s.fld (Reg.bayStkStatus b) Reg.bayStkStatus_TRIP = 0
    (¬ bayDue → ∀ locked, exec (.bayReady b locked) s = .next s) ∧
    (bayDue → ∃ t, exec (.bayReady b false) s = .next t ∧ SMap.get (fun _ => 0) t.boot.pll b = fails + 1 ∧
      t.bayUp b = false ∧ SameRegisters s t ∧ t.mem = s.mem) ∧
    (bayDue → ∃ t, exec (.bayReady b true) s = .next t ∧ t.bayUp b = true ∧
      bitOf (t.fld Reg.catStatus Reg.catStatus_SLICEUP) b = true ∧
      (∀ q, r = some q → 96 * (q.f + 2048 + 250 * fails) ≤ t.ec) ∧ SameRegisters s t ∧ t.mem = s.mem) ∧
    (¬ stackDue → ∀ trained, exec (.stackReady b trained) s = .next s) ∧
    (stackDue → ∃ t, exec (.stackReady b false) s = .next t ∧ (t.stk b).trainFails = y.trainFails + 1 ∧ SameRegisters s t) ∧
    (stackDue → ∃ t, exec (.stackReady b true) s = .next t ∧ t.stackUp b = true ∧ (t.stk b).lost = false ∧
      (t.stk b).trainFails = 0 ∧ t.ec % 12288 = 0 ∧ SameRegisters s t)) ∧
  (∀ s : State,
    (s.repairDue = [] → exec .repairRecordAppend s = .next s) ∧
    (∀ r rs, s.repairDue = r :: rs → exec .repairRecordAppend s = .next { s with repair := s.repair ++ [r], repairDue := rs }))

/-- PERST_N asserted takes a function's link down, and deasserted resets its queue registers and the apertures and puts BAR4SIZE
in force. A link shows its rate and width, LOWRATE below 32 GT/s, and DOWNEV when it goes down. A register write stores the fields
that may be written, clears those that clear on one, unless they have been set in the same cycle, and leaves every other bit; one
that cannot arrive, names no register or a unit outside the tier changes nothing; one of another size or alignment is counted; one
to a mailbox buffer stores its bytes for the channel of its path. The oldest event record is placed in the host ring where there
is room. A BAR4 access that is refused is counted and logged and reads zeros; one by location or by handle answers what the
aperture reaches, and hidden owner data read as all ones and are not written; below 32 GT/s a read is aborted. (R12, R443, R462,
R530, R531, R532, R534, R535, R537, R540, R546, R547) -/
def Obligations.HostLinksRegistersAndApertures : Prop :=
  (∀ (f : Nat) (s : State), f < 2 →
    let up := s.hasFunc f = true
    (∀ a : Bool,
      let v : State := { s with host := { s.host with perst := putAt s.host.perst f a } }
      (¬ up → exec (.perstChange f a) s = .next v) ∧
      (up → a = true → exec (.perstChange f a) s = .next (v.setLink f 0 0)) ∧
      (up → a = false → s.host.perst.getD f true = false → exec (.perstChange f a) s = .next s) ∧
      (up → a = false → s.host.perst.getD f true = true → ∃ t, exec (.perstChange f a) s = .next t ∧
        t.host.perst = v.host.perst ∧ SameRegisters s t ∧ t.mem = s.mem ∧
        (f < s.host.bar4.length → t.host.bar4.getD f 0 = s.fld Reg.hostCfg Reg.hostCfg_BAR4SIZE) ∧
        (∀ n, n < 64 → t.reg (Reg.hostAp0 n) = 0 ∧ t.reg (Reg.hostAp1 n) = 0) ∧
        ∀ q, q < 64 → s.queueFunc q = f → t.reg (Reg.hqCfg q) = regReset (Reg.hqCfg q) ∧
          t.reg (Reg.hqStatus q) = regReset (Reg.hqStatus q) ∧ (t.hq q).buf = [])) ∧
    (∀ rate width, rate < 8 → width ∈ [0, 4, 8, 16] →
      let l := Reg.hostLink
      let t := s.setLink f rate width
      let ignored := ¬ up ∨ s.host.perst.getD f true = true ∨ (s.bif = true ∧ 8 < width) ∨ (rate ≠ 0 ∧ width = 0) ∨ 3 ≤ s.boot.phase
      (ignored → exec (.hostLinkChange f rate width) s = .next s) ∧
      (¬ ignored → exec (.hostLinkChange f rate width) s = .next t) ∧
      t.fld l (linkRate f) = rate ∧ t.fld l (linkWidth f) = (if rate = 0 then 0 else width) ∧
      (t.fld l Reg.hostLink_LOWRATE = 1 ↔ ∃ g, g < 2 ∧ 1 ≤ t.fld l (linkRate g) ∧ t.fld l (linkRate g) ≤ 4) ∧
      (rate = 0 → s.fld l (linkRate f) ≠ 0 → t.fld Reg.hostErr Reg.hostErr_DOWNEV = 1) ∧ SameRegisters s t ∧ t.mem = s.mem)) ∧
  (∀ (r : RegSpec) (was old v half : BitVec 64) (i : Nat),
    let mine := half.getLsbD i && !(BitVec.ofNat 64 (ownBits r)).getLsbD i
    let rw := (BitVec.ofNat 64 r.rw).getLsbD i && mine
    (regWrite r was old v half).getLsbD i = ((if rw then v.getLsbD i else old.getLsbD i) &&
      !(v.getLsbD i && (BitVec.ofNat 64 r.w1c).getLsbD i && mine && was.getLsbD i))) ∧
  (∀ (s : State) (off : Nat) (v half : Word),
    let on := s.fld Reg.globalEvctrl Reg.globalEvctrl_ENABLE = 1
    (regAt off = none → s.writeReg off v half = s) ∧
    (∀ r, regAt off = some r → s.outOfTier off = true ∨ (on ∧ off = Reg.globalEvbase) → s.writeReg off v half = s) ∧
    (∀ r, regAt off = some r → s.outOfTier off = false → off ≠ Reg.globalEvbase → off ≠ Reg.globalEvctrl →
      s.writeReg off v half = (s.setReg off (regWrite r (SMap.get regReset s.was off)
        (if off = Reg.flashCfg then BitVec.ofNat 64 s.flashAll.next else s.reg off) v half)).regEffect (s.reg off) (v &&& half) off)) ∧
  (∀ (p : RegPath) (off size : Nat) (v : BitVec 64) (s : State), off < 0x4010000 →
    (match p with | .bar0 f => f < 2 | _ => True) →
    let i : Instr := .registerWrite p off size v
    let fits := (size = 4 ∨ size = 8) ∧ off % size = 0
    let mailbox := 0x3800000 ≤ off ∧ off < 0x3804000
    let c := (off - 0x3800000) / 0x2000
    let rel := (off - 0x3800000) % 0x2000
    (s.pathOk p = false → exec i s = .next s) ∧
    (s.pathOk p = true → ¬ fits → exec i s = .next (match p with | .bar0 _ => s.badLogged | _ => s)) ∧
    (s.pathOk p = true → fits → mailbox → pathChannel p ≠ some c → exec i s = .next s) ∧
    (s.pathOk p = true → fits → mailbox → pathChannel p = some c → 0x1000 ≤ rel → ∃ t, exec i s = .next t ∧
      t.bytes (mbxBase c + (rel - 0x1000)) size = natBytes size v.toNat ∧
      SameMemoryOutside s t (mbxBase c + (rel - 0x1000)) size ∧ t.regs = s.regs ∧ SameRegisters s t) ∧
    (s.pathOk p = true → fits → ¬ mailbox → ¬ (0x8000 ≤ off ∧ off < 0x8800) →
      exec i s = .next (match s.bar2Offset p off with
        | none => s
        | some o =>
          if size = 8 then s.writeReg (o - o % 8) v (BitVec.allOnes 64)
          else s.writeReg (o - o % 8) (BitVec.ofNat 64 (v.toNat % 2 ^ 32 * 2 ^ (8 * (o % 8))))
            (BitVec.ofNat 64 ((2 ^ 32 - 1) * 2 ^ (8 * (o % 8))))))) ∧
  (∀ s : State,
    let t := s.badLogged
    let ctrl := Reg.globalEvctrl
    let f := s.fld ctrl Reg.globalEvctrl_FUNC
    let prod := s.fld Reg.globalEvprod Reg.globalEvprod_INDEX
    let n := 2 ^ s.fld ctrl Reg.globalEvctrl_LOG
    let room := s.fld ctrl Reg.globalEvctrl_ENABLE = 1 ∧ s.hasFunc f = true ∧ s.linkUp f = true ∧
      (prod + 2 ^ 32 - s.fld Reg.globalEvcons Reg.globalEvcons_INDEX) % 2 ^ 32 < n
    t.fld Reg.hostErr Reg.hostErr_BADACC = satInc 16 (s.fld Reg.hostErr Reg.hostErr_BADACC) ∧
    t.fld Reg.hostErr Reg.hostErr_BADACCEV = 1 ∧ SameRegisters s t ∧ t.mem = s.mem ∧
    (s.host.evBuf = [] ∨ ¬ room → exec .eventRecordPlace s = .next s) ∧
    (∀ r rs, s.host.evBuf = r :: rs → room → ∃ t, exec .eventRecordPlace s = .next t ∧ t.host.evBuf = rs ∧
      t.fld Reg.globalEvprod Reg.globalEvprod_INDEX = (prod + 1) % 2 ^ 32 ∧
      t.fld Reg.globalEverr Reg.globalEverr_DEPTH = rs.length % 1024 ∧
      .hostWrite f (s.fld Reg.globalEvbase Reg.globalEvbase_HBASE * 4096 + 32 * (prod % n))
        (r.flatMap fun w => natBytes 8 w.toNat) ∈ t.out ∧ SameRegisters s t ∧ t.mem = s.mem)) ∧
  (∀ (f off : Nat) (part : PartnerCopies) (s : State), f < 2 →
    let n := off / s.apSize f
    let x := off % s.apSize f
    let base := s.fld (Reg.hostAp1 n) Reg.hostAp1_BASE
    let pf := bitsOf base 0 18
    let idx := bitsOf base 18 32
    let kind := s.fld (Reg.hostAp0 n) Reg.hostAp0_KIND
    let wren := s.fld (Reg.hostAp0 n) Reg.hostAp0_WREN = 1
    let l := base % 2 ^ 48 + x / 512
    let loc := kind = 1 ∧ locTier base < 2 ∧ locTier l = locTier base ∧ locBay l = locBay base
    let reach (m : Nat) := s.pathOk (.bar0 f) = true ∧ s.host.bar4.getD f 0 ≠ 0 ∧ off + m ≤ 64 * s.apSize f
    (∀ len, 1 ≤ len → len ≤ 4096 →
      let answers (r : Option (List Byte) × State) : Prop := exec (.bar4Read f off len part) s =
        .next ((if r.1.isSome then r.2 else r.2.badLogged).emit (.bar4Data f r.1))
      (¬ reach len → exec (.bar4Read f off len part) s = .next s) ∧
      (reach len → s.linkUp f = false → exec (.bar4Read f off len part) s = .next (s.emit (.bar4Data f none))) ∧
      (reach len → s.linkUp f = true →
        (loc → s.locWaits l (segs (x % 512) len).length false = true → exec (.bar4Read f off len part) s = .next s) ∧
        (loc → s.locWaits l (segs (x % 512) len).length false = false → answers (s.apRead f l (x % 512) len)) ∧
        (kind = 2 → s.handleWaits pf idx (s.pf pf).classBytes x len false = true → exec (.bar4Read f off len part) s = .next s) ∧
        (kind = 2 → s.handleWaits pf idx (s.pf pf).classBytes x len false = false → answers (s.apReadH pf idx x len part)) ∧
        (¬ loc → kind ≠ 2 → answers (none, s))) ∧
      (s.hidden pf = true → s.pfCode pf (s.pf pf) = cDone → s.stackReads (s.pf pf).home s.ec = true →
        s.apReadH pf idx x len part = (some (List.replicate len 0xFF), s))) ∧
    (∀ data : List (BitVec 8), 1 ≤ data.length → data.length ≤ 4096 →
      let m := data.length
      let go := reach m ∧ s.linkUp f = true
      let ends (r : Bool × State) : Prop := exec (.bar4Write f off data part) s = .next (if r.1 then r.2 else r.2.badLogged)
      (¬ go → exec (.bar4Write f off data part) s = .next s) ∧
      (go → ¬ wren → ends (false, s)) ∧
      (go → wren →
        (s.windowFull = true → exec (.bar4Write f off data part) s = .next s) ∧
        (s.windowFull = false →
          (loc → s.locWaits l (segs (x % 512) m).length true = true → exec (.bar4Write f off data part) s = .next s) ∧
          (loc → s.locWaits l (segs (x % 512) m).length true = false → ends (s.apWrite f l (x % 512) data part)) ∧
          (kind = 2 → s.handleWaits pf idx (s.pf pf).classBytes x m true = true → exec (.bar4Write f off data part) s = .next s) ∧
          (kind = 2 → s.handleWaits pf idx (s.pf pf).classBytes x m true = false → ends (s.apWriteH pf idx x data part)) ∧
          (¬ loc → kind ≠ 2 → ends (false, s)))) ∧
      (s.hidden pf = true → s.apWriteH pf idx x data part = (false, s))))

/-- A queue that is enabled with a legal configuration starts empty; one that is not stops with ERR 3; one that is disabled drops
what it holds. A submission tail within the ring is kept, another stops the queue with ERR 1; a completion head frees room and re-
arms the message. A fetch in turn reads the next entry and takes its place. A frame to send is checked and read, and leaves when
its read is over; a receive buffer is kept, and a frame of 60 to 9,212 bytes that comes in waits to fill the oldest one it fits or
is counted as dropped; with a far-end loop it goes back. A read whose bytes come is over, and one that does not end in time is
counted, and fails what it was for. A row whose condition does not hold leaves the state as it was. (R341, R373, R532, R533, R541,
R542, R543, R544, R545, R550) -/
def Obligations.HostQueuesFetchAndManageFrames : Prop :=
  (∀ (q : Nat) (s : State), q < 64 →
    let cfg := Reg.hqCfg q
    let st := Reg.hqStatus q
    let f := s.queueFunc q
    let log (n : Nat) := n < 4 ∨ 15 < n
    let rate := s.fld Reg.hostLink (linkRate f)
    let bad := log (s.fld cfg Reg.hqCfg_SQLOG) ∨ log (s.fld cfg Reg.hqCfg_CQLOG) ∨ s.fld cfg Reg.hqCfg_VECTOR < 2 ∨
      (1 ≤ rate ∧ rate ≤ 4)
    let on := s.fld cfg Reg.hqCfg_ENABLE = 1
    let n := s.sqSize q
    let head := s.fld st Reg.hqStatus_SQHEAD
    (on → exec (.hqCfgEnable q true) s = .next s) ∧
    (¬ on → exec (.hqCfgEnable q false) s = .next s) ∧
    (on → ∃ t, exec (.hqCfgEnable q false) s = .next t ∧ t.fld cfg Reg.hqCfg_ENABLE = 0 ∧ (t.hq q).buf = [] ∧ (t.hq q).rx = [] ∧
      (t.hq q).gen = (s.hq q).gen + 1 ∧ SameRegisters s t ∧ t.mem = s.mem) ∧
    (¬ on → bad → ∃ t, exec (.hqCfgEnable q true) s = .next t ∧ t.fld cfg Reg.hqCfg_ENABLE = 1 ∧
      t.fld st Reg.hqStatus_STOPPED = 1 ∧ t.fld st Reg.hqStatus_ERR = 3 ∧ t.fld Reg.hostErr Reg.hostErr_QERREV = 1 ∧
      SameRegisters s t ∧ t.mem = s.mem) ∧
    (¬ on → ¬ bad → ∃ t, exec (.hqCfgEnable q true) s = .next t ∧ t.fld cfg Reg.hqCfg_ENABLE = 1 ∧
      t.fld st Reg.hqStatus_STOPPED = 0 ∧ t.fld st Reg.hqStatus_SQHEAD = 0 ∧ t.fld st Reg.hqStatus_CQTAIL = 0 ∧
      t.fld st Reg.hqStatus_PHASE = 1 ∧ (t.hq q).buf = [] ∧ SameRegisters s t ∧ t.mem = s.mem) ∧
    (∀ tail, tail < 65536 →
      let past := n ≤ tail ∨ n - 1 < ((s.hq q).tail + n - head % n) % n + (tail + n - (s.hq q).tail % n) % n
      (s.hqRuns q = false → exec (.hqSqtail q tail) s = .next s ∧ exec (.hqCqhead q tail) s = .next s) ∧
      (s.hqRuns q = true → past → ∃ t, exec (.hqSqtail q tail) s = .next t ∧ t.fld st Reg.hqStatus_STOPPED = 1 ∧
        t.fld st Reg.hqStatus_ERR = 1 ∧ (t.hq q).buf = [] ∧ t.fld Reg.hostErr Reg.hostErr_QERREV = 1 ∧ SameRegisters s t ∧
        t.mem = s.mem) ∧
      (s.hqRuns q = true → ¬ past → exec (.hqSqtail q tail) s = .next (s.setHq q { s.hq q with tail })) ∧
      (s.hqRuns q = true → exec (.hqCqhead q tail) s =
        .next ((s.setHq q { s.hq q with head := tail, msgOut := false }).hqHand q))) ∧
    (s.nextFetch f ≠ some q → exec (.queueFetch q) s = .next s) ∧
    (s.nextFetch f = some q → ∃ t, exec (.queueFetch q) s = .next t ∧ t.fld st Reg.hqStatus_SQHEAD = (head + 1) % n ∧
      (t.hq q).buf = (s.hq q).buf ++ [[]] ∧ .hostRead f (s.fld (Reg.hqSqbase q) Reg.hqSqbase_HBASE * 4096 + 64 * head) 64 ⟨2, q + 64 * head⟩ ∈ t.out ∧ (⟨2, q + 64 * head⟩, s.ec) ∈ t.host.reads ∧
      SameRegisters s t ∧ t.mem = s.mem) ∧
    (s.hqTake q 2 = none → exec (.mgmtTransmit q) s = .next s) ∧
    (∀ k e, s.hqTake q 2 = some (k, e) →
      let u := s.hqPop q
      (mgLen e < 60 ∨ 9212 < mgLen e → exec (.mgmtTransmit q) s = .next (u.hostPost k (mgTag e) cShape 0 0 0 (mgPort e))) ∧
      (60 ≤ mgLen e → mgLen e ≤ 9212 → s.nPorts ≤ mgPort e → exec (.mgmtTransmit q) s =
        .next ((u.logLic 0xFF 0x02 (mgPort e)).hostPost k (mgTag e) cUnavailable 0 0 0 (mgPort e))) ∧
      (60 ≤ mgLen e → mgLen e ≤ 9212 → mgPort e < s.nPorts → s.portEther (mgPort e) = false →
        exec (.mgmtTransmit q) s = .next (u.hostPost k (mgTag e) cUnavailable 0 0 0 (mgPort e))) ∧
      (60 ≤ mgLen e → mgLen e ≤ 9212 → mgPort e < s.nPorts → s.portEther (mgPort e) = true → ∃ t, exec (.mgmtTransmit q) s = .next t ∧
        t.host.waits = s.host.waits ++ [(s.host.serial, k, e)] ∧ (⟨4, s.host.serial⟩, s.ec) ∈ t.host.reads ∧ t.regs = s.regs ∧
        SameRegisters s t ∧ t.mem = s.mem)) ∧
    (s.hqTake q 3 = none → exec (.mgmtReceivePost q) s = .next s) ∧
    (∀ k e, s.hqTake q 3 = some (k, e) → ∃ t, exec (.mgmtReceivePost q) s = .next t ∧ (t.hq q).buf = (s.hq q).buf.drop 1 ∧
      (t.hq q).rx = (s.hq q).rx ++ [(k, entWord e 1, mgLen e, mgTag e)] ∧ t.regs = s.regs ∧ SameRegisters s t ∧ t.mem = s.mem)) ∧
  (∀ (p : Nat) (frame : List (BitVec 8)) (s : State), p < 8 →
    let first := lowestIdx 64 fun q =>
      s.hqRuns q && decide (s.fld (Reg.hqCfg q) Reg.hqCfg_TYPE = 3) && !(s.hq q).rx.isEmpty
    let loop := s.fld (Reg.portTest p) Reg.portTest_LOOP
    let u := s.updPort p fun y => { y with looped := y.looped.erase ⟨[], frame⟩ }
    let drop := exec (.mgmtFrameReceive p frame) s = .next (u.bump Reg.hostErr Reg.hostErr_RXDROP)
    (s.nPorts ≤ p ∨ s.portEther p = false → exec (.mgmtFrameReceive p frame) s = .next s) ∧
    (p < s.nPorts → s.portEther p = true → loop = 2 → exec (.mgmtFrameReceive p frame) s = .next (s.emit (.ether p frame))) ∧
    (loop ≠ 2 → frame.length < 60 ∨ 9212 < frame.length → exec (.mgmtFrameReceive p frame) s = .next s) ∧
    (p < s.nPorts → s.portEther p = true → loop ≠ 2 → (loop = 1 → (s.port p).looped.contains ⟨[], frame⟩ = true) →
      60 ≤ frame.length → frame.length ≤ 9212 →
      (first = none → drop) ∧
      (∀ q k a len tag rest, first = some q → (s.hq q).rx = (k, a, len, tag) :: rest →
        (len < frame.length → drop) ∧
        (frame.length ≤ len → exec (.mgmtFrameReceive p frame) s =
          .next ((u.setHq q { s.hq q with rx := rest }).enqueue 9 p
            { item := .mgmt (s.queueFunc q) a frame k tag p, svc := 3, entered := s.gc }))))) ∧
  (∀ (rd : HostRead) (s : State),
    let waits := s.host.reads.any fun r => r.1 == rd
    let a := 512 * (t2Base / 512 + rd.arg)
    (waits = false → exec (.cpltoExpiry rd) s = .next s ∧ ∀ data, exec (.hostReadCompletion rd data) s = .next s) ∧
    (rd.kind = 0 → waits = true → ∀ data : List (BitVec 8), data ≠ [] →
      (data.length ≠ 520 → exec (.hostReadCompletion rd data) s = .next s) ∧
      (data.length = 520 → ∃ t, exec (.hostReadCompletion rd data) s = .next t ∧
        t.host.reads = s.host.reads.filter (fun r => r.1 != rd) ∧ t.regs = s.regs ∧ SameRegisters s t ∧
        (s.wire (a / 512) = data → t.mem = s.mem) ∧
        (s.wire (a / 512) ≠ data → t.bytes a 512 = data.take 512 ∧ t.stamp (a / 512) = .none ∧ SameMemoryOutside s t a 512))) ∧
    (∀ data : List (BitVec 8), waits = true →
      (rd.kind = 2 → data.length = 64 → exec (.hostReadCompletion rd data) s = .next (s.entryRead rd data)) ∧
      (data = [] → exec (.hostReadCompletion rd data) s = .next (s.readFailed rd)) ∧
      (rd.kind = 1 → data ≠ [] → exec (.hostReadCompletion rd data) s = .next s) ∧
      (∀ k e, (s.hqReadOver rd).1 = some (k, e) →
        (rd.kind = 3 → data.length = 64 → exec (.hostReadCompletion rd data) s =
          .next ((s.hqReadOver rd).2.leWriteDone k e data)) ∧
        (rd.kind = 4 → data ≠ [] → data.length = mgLen e → exec (.hostReadCompletion rd data) s =
          .next ((s.hqReadOver rd).2.sendMgmt k e data)))) ∧
    (∀ at_, (s.host.reads.find? fun r => r.1 == rd) = some (rd, at_) →
      ∃ u, u.host.reads = s.host.reads.filter (fun r => r.1 != rd) ∧ u.host.waits = s.host.waits ∧
        at_ + 96 * s.fld Reg.hostCfg Reg.hostCfg_CPLTO ≤ u.ec ∧ SameRegisters s u ∧ u.mem = s.mem ∧
        u.fld Reg.hostErr Reg.hostErr_CPLTO = satInc 16 (s.fld Reg.hostErr Reg.hostErr_CPLTO) ∧
        u.fld Reg.hostErr Reg.hostErr_CPLTOEV = 1 ∧
        (rd.kind = 0 → exec (.cpltoExpiry rd) s =
          .next { u with host := { u.host with t2Failed := u.host.t2Failed ++ [rd.arg] } }) ∧
        (rd.kind = 1 → exec (.cpltoExpiry rd) s = .next (u.recordLost rd.arg)) ∧
        (rd.kind = 2 → exec (.cpltoExpiry rd) s = .next ((u.dropReads (rd.arg % 64)).hqStop (rd.arg % 64) 2)) ∧
        (3 ≤ rd.kind → ∀ k e, (u.hqReadOver rd).1 = some (k, e) → exec (.cpltoExpiry rd) s =
          .next ((u.hqReadOver rd).2.hostPost k (leTag e) cUnavailable 0 0 0 (if rd.kind = 4 then mgPort e else 0)))))

/-- After reset every function but those of the ground domain is down: no bay, stack, port, flash channel, catalogue or pair is
ready and no licence is in force. The node is in start-up mode, has no installed epoch, and reads 0xFFF as its identifier; every
owner key slot is empty, nothing holds work, no event is logged and every register reads its After reset value; a stack's THRESH
lies from 85 to 95. Easel registers read 0, which is the model's choice (log entry 6), and the node key stands in its sealed slot.
(R5, R11, R371, R378, R414, R457, R508, R512, R513, R571) -/
def Obligations.WhatResetLeaves : Prop :=
  State.reset.boot.phase = 0 ∧ State.reset.fld Reg.globalReset Reg.globalReset_LASTCAUSE = 0 ∧
  (∀ b, b < 16 → State.reset.bayUp b = false ∧ State.reset.stackUp b = false) ∧
  (∀ p, p < 8 → State.reset.portSt p = 0) ∧ (∀ c, c < 32 → State.reset.chUp c = false) ∧
  State.reset.fld Reg.globalReady Reg.globalReady_CAT = 0 ∧ State.reset.fld Reg.globalReady Reg.globalReady_LIC = 0 ∧
  State.reset.fld Reg.globalReady Reg.globalReady_PAIR = 0 ∧ State.reset.startUp = true ∧
  State.reset.fld Reg.mapEpoch Reg.mapEpoch_SEEDED = 0 ∧ State.reset.node = 0xFFF ∧
  (∀ k, k ≠ 0 → (State.reset.key k).state = 0) ∧ State.reset.pending = [] ∧ State.reset.host.evBuf = [] ∧
  (∀ o, State.reset.reg o = regReset o) ∧
  (∀ b, b < 16 → let th := State.reset.fld (Reg.bayStkTherm b) Reg.bayStkTherm_THRESH; 85 ≤ th ∧ th ≤ 95) ∧ (∀ x r, State.reset.gr x r = 0) ∧ (∀ a, State.reset.byte a = unlistedByte a)

/-- The memory of State.reset lists nothing, and is in the canonical form: addresses strictly rising, no entry equal to what an
unlisted byte reads as. (00_scope, 09_memory_stacks_near_bank) -/
def Obligations.ResetMemoryIsCanonical : Prop :=
  Inv State.reset

/-- In every state whose memory is in its canonical form, addresses strictly rising and no entry equal to what an unlisted byte
reads as, a step that answers a next state leaves the memory in that form: whatever command is at the front of the queue, with
whatever operands, and on an empty queue. Equal memories therefore stay equal data. (00_scope, 09_memory_stacks_near_bank) -/
def Obligations.EveryStepKeepsMemoryCanonical : Prop :=
  ∀ s t : State, Inv s → step s = .next t → Inv t
end

