-- ==== Sys2Proof/Laws/SMap.lean ====
section
/-! SUPPORT. Laws of the sparse maps: reading after writing, and that every operation keeps the canonical form. -/

namespace Sys2Proof.Machine

namespace SMap

variable {α : Type}

theorem find?_filter_of {β : Type} (p q : β → Bool) (l : List β) (h : ∀ x, p x = true → q x = true) :
    (l.filter q).find? p = l.find? p := by
  induction l with
  | nil => rfl
  | cons a l ih =>
    by_cases hq : q a = true
    · simp [hq, List.find?_cons, ih]
    · have hp : p a = false := by
        cases hpa : p a with
        | true => exact absurd (h a hpa) hq
        | false => rfl
      simp [hq, hp, ih]

theorem find?_filter_none {β : Type} (p q : β → Bool) (l : List β) (h : ∀ x, p x = true → q x = false) :
    (l.filter q).find? p = none := by
  simp only [List.find?_eq_none, List.mem_filter]
  rintro x ⟨-, hx⟩ hp
  simp [h x hp] at hx

variable [DecidableEq α]

theorem find?_entries (d : Nat → α) (k : Nat) (vs : List α) (a : Nat) :
    (entries d a vs).find? (fun e => e.1 == k) =
      if h : a ≤ k ∧ k < a + vs.length then
        if vs[k - a]'(by omega) = d k then none else some (k, vs[k - a]'(by omega))
      else none := by
  induction vs generalizing a with
  | nil => simp [entries]
  | cons v vs ih =>
    by_cases hk : k = a
    · subst hk
      by_cases hv : v = d k
      · simp [entries, hv, ih]
      · simp [entries, hv]
    · have hne : (a == k) = false := by simp; omega
      have key : (entries d (a + 1) vs).find? (fun e => e.1 == k) =
          if h : a ≤ k ∧ k < a + (v :: vs).length then
            if (v :: vs)[k - a]'(by omega) = d k then none else some (k, (v :: vs)[k - a]'(by omega))
          else none := by
        rw [ih]
        by_cases h : a + 1 ≤ k ∧ k < a + 1 + vs.length
        · have h' : a ≤ k ∧ k < a + (v :: vs).length := by simp; omega
          have e : k - a = (k - (a + 1)) + 1 := by omega
          simp only [dif_pos h, dif_pos h', e, List.getElem_cons_succ]
        · have h' : ¬ (a ≤ k ∧ k < a + (v :: vs).length) := by simp; omega
          simp only [dif_neg h, dif_neg h']
      unfold entries
      split
      · exact key
      · rw [List.find?_cons]; simp only [hne]; exact key

/-- A range written reads back inside it, and every other key reads as before. -/
theorem get_setRange (d : Nat → α) (m : SMap α) (a k : Nat) (vs : List α) :
    get d (setRange d m a vs) k = if h : a ≤ k ∧ k < a + vs.length then vs[k - a]'(by omega) else get d m k := by
  unfold get setRange
  rw [List.find?_append, List.find?_append, find?_entries]
  by_cases h : a ≤ k ∧ k < a + vs.length
  · have h1 : (m.filter fun e => decide (e.1 < a)).find? (fun e => e.1 == k) = none :=
      find?_filter_none _ _ _ (by simp; omega)
    have h2 : (m.filter fun e => decide (a + vs.length ≤ e.1)).find? (fun e => e.1 == k) = none :=
      find?_filter_none _ _ _ (by simp; omega)
    simp only [h1, h2, dif_pos h]
    simp only [Option.none_or]
    by_cases hv : vs[k - a]'(by omega) = d k <;> simp [hv]
  · simp only [dif_neg h]
    by_cases hlt : k < a
    · rw [find?_filter_of _ _ _ (by simp; omega)]
      have h2 : (m.filter fun e => decide (a + vs.length ≤ e.1)).find? (fun e => e.1 == k) = none :=
        find?_filter_none _ _ _ (by simp; omega)
      simp [h2]
    · have h1 : (m.filter fun e => decide (e.1 < a)).find? (fun e => e.1 == k) = none :=
        find?_filter_none _ _ _ (by simp; omega)
      rw [h1, find?_filter_of _ _ _ (by simp; omega)]
      simp

/-- Reading the key just written. -/
@[simp] theorem get_set_same (d : Nat → α) (m : SMap α) (k : Nat) (v : α) : get d (set d m k v) k = v := by
  simp [set, get_setRange]

/-- Reading another key than the one written. -/
theorem get_set_ne (d : Nat → α) (m : SMap α) {k j : Nat} (v : α) (h : k ≠ j) : get d (set d m j v) k = get d m k := by
  unfold set
  rw [get_setRange, dif_neg]
  simp; omega

/-- Reading after writing one key. -/
theorem get_set (d : Nat → α) (m : SMap α) (k j : Nat) (v : α) :
    get d (set d m j v) k = if k = j then v else get d m k := by
  split
  · next h => subst h; simp
  · next h => exact get_set_ne d m v h

omit [DecidableEq α] in
@[simp] theorem get_nil (d : Nat → α) (k : Nat) : get d ([] : SMap α) k = d k := rfl

omit [DecidableEq α] in
/-- A cleared key reads as an unlisted one does, and every other key as before. -/
theorem get_clear (d : Nat → α) (m : SMap α) (a b k : Nat) :
    get d (clear m a b) k = if a ≤ k ∧ k < b then d k else get d m k := by
  unfold get clear
  by_cases h : a ≤ k ∧ k < b
  · rw [find?_filter_none _ _ _ (by simp; omega), if_pos h]
  · rw [find?_filter_of _ _ _ (by simp; omega), if_neg h]

/-! ## The canonical form -/

theorem wfFrom_iff (d : Nat → α) (lo : Nat) (m : SMap α) :
    wfFrom d lo m = true ↔ m.Pairwise (fun e f => e.1 < f.1) ∧ ∀ e ∈ m, lo ≤ e.1 ∧ e.2 ≠ d e.1 := by
  induction m generalizing lo with
  | nil => simp [wfFrom]
  | cons e m ih =>
    obtain ⟨k, v⟩ := e
    simp only [wfFrom, Bool.and_eq_true, decide_eq_true_eq, ih, List.pairwise_cons, List.mem_cons]
    constructor
    · rintro ⟨⟨h1, h2⟩, h3, h4⟩
      refine ⟨⟨fun f hf => ?_, h3⟩, fun f hf => ?_⟩
      · have := (h4 f hf).1; omega
      · rcases hf with rfl | hf
        · exact ⟨h1, h2⟩
        · have := h4 f hf; exact ⟨by omega, this.2⟩
    · rintro ⟨⟨h1, h2⟩, h3⟩
      refine ⟨h3 _ (Or.inl rfl), h2, fun f hf => ?_⟩
      have := h1 f hf
      exact ⟨by omega, (h3 f (Or.inr hf)).2⟩

theorem wf_iff (d : Nat → α) (m : SMap α) :
    wf d m = true ↔ m.Pairwise (fun e f => e.1 < f.1) ∧ ∀ e ∈ m, e.2 ≠ d e.1 := by
  simp [wf, wfFrom_iff]

theorem wf_filter (d : Nat → α) (m : SMap α) (p : Nat × α → Bool) (h : wf d m = true) : wf d (m.filter p) = true := by
  rw [wf_iff] at *
  exact ⟨h.1.filter p, fun e he => h.2 e (List.mem_filter.mp he).1⟩

theorem entries_pairwise (d : Nat → α) (a : Nat) (vs : List α) :
    (entries d a vs).Pairwise (fun e f => e.1 < f.1) ∧
      ∀ e ∈ entries d a vs, (a ≤ e.1 ∧ e.1 < a + vs.length) ∧ e.2 ≠ d e.1 := by
  induction vs generalizing a with
  | nil => simp [entries]
  | cons v vs ih =>
    have := ih (a + 1)
    unfold entries
    split
    · refine ⟨this.1, fun e he => ?_⟩
      have h := this.2 e he
      exact ⟨⟨by omega, by simp; omega⟩, h.2⟩
    · next hv =>
      refine ⟨List.pairwise_cons.mpr ⟨fun e he => ?_, this.1⟩, fun e he => ?_⟩
      · have := (this.2 e he).1; simp; omega
      · rcases List.mem_cons.mp he with rfl | he
        · exact ⟨by simp, hv⟩
        · have h := this.2 e he
          simp only [List.length_cons]
          exact ⟨by omega, h.2⟩

/-- Writing a range keeps the canonical form. -/
theorem wf_setRange (d : Nat → α) (m : SMap α) (a : Nat) (vs : List α) (h : wf d m = true) :
    wf d (setRange d m a vs) = true := by
  rw [wf_iff] at h ⊢
  have he := entries_pairwise d a vs
  unfold setRange
  refine ⟨?_, ?_⟩
  · rw [List.pairwise_append, List.pairwise_append]
    refine ⟨⟨h.1.filter _, he.1, ?_⟩, h.1.filter _, ?_⟩
    · intro e h1 f h2
      have h3 := (List.mem_filter.mp h1).2
      have h4 := (he.2 f h2).1
      simp at h3; omega
    · intro e h1 f h2
      have hf := (List.mem_filter.mp h2).2
      rcases List.mem_append.mp h1 with h1 | h1
      · have h3 := (List.mem_filter.mp h1).2
        simp at h3 hf; omega
      · have h3 := (he.2 e h1).1
        simp at hf; omega
  · intro e h1
    rcases List.mem_append.mp h1 with h1 | h1
    · rcases List.mem_append.mp h1 with h1 | h1
      · exact h.2 e (List.mem_filter.mp h1).1
      · exact (he.2 e h1).2
    · exact h.2 e (List.mem_filter.mp h1).1

/-- Writing one key keeps the canonical form. -/
theorem wf_set (d : Nat → α) (m : SMap α) (k : Nat) (v : α) (h : wf d m = true) : wf d (set d m k v) = true :=
  wf_setRange d m k [v] h

/-- Clearing a range keeps the canonical form. -/
theorem wf_clear (d : Nat → α) (m : SMap α) (a b : Nat) (h : wf d m = true) : wf d (clear m a b) = true :=
  wf_filter d m _ h

end SMap

end Sys2Proof.Machine
end

