-- ==== Sys2Proof/Laws/State.lean ====
section
/-! SUPPORT. One lemma per field and per update of the state: what each update leaves as it was. -/

namespace Sys2Proof.Machine

variable (s : State)

/-! ### setReg -/

@[simp] theorem State.setReg_ec (o : Nat) (w : Word) : (s.setReg o w).ec = s.ec := rfl
@[simp] theorem State.setReg_xtal (o : Nat) (w : Word) : (s.setReg o w).xtal = s.xtal := rfl
@[simp] theorem State.setReg_g (o : Nat) (w : Word) : (s.setReg o w).g = s.g := rfl
@[simp] theorem State.setReg_v (o : Nat) (w : Word) : (s.setReg o w).v = s.v := rfl
@[simp] theorem State.setReg_t (o : Nat) (w : Word) : (s.setReg o w).t = s.t := rfl
@[simp] theorem State.setReg_p (o : Nat) (w : Word) : (s.setReg o w).p = s.p := rfl
@[simp] theorem State.setReg_mem (o : Nat) (w : Word) : (s.setReg o w).mem = s.mem := rfl
@[simp] theorem State.setReg_seals (o : Nat) (w : Word) : (s.setReg o w).seals = s.seals := rfl
@[simp] theorem State.setReg_eccErr (o : Nat) (w : Word) : (s.setReg o w).eccErr = s.eccErr := rfl
@[simp] theorem State.setReg_easels (o : Nat) (w : Word) : (s.setReg o w).easels = s.easels := rfl
@[simp] theorem State.setReg_bays (o : Nat) (w : Word) : (s.setReg o w).bays = s.bays := rfl
@[simp] theorem State.setReg_stackXs (o : Nat) (w : Word) : (s.setReg o w).stackXs = s.stackXs := rfl
@[simp] theorem State.setReg_cat (o : Nat) (w : Word) : (s.setReg o w).cat = s.cat := rfl
@[simp] theorem State.setReg_catBad (o : Nat) (w : Word) : (s.setReg o w).catBad = s.catBad := rfl
@[simp] theorem State.setReg_catc (o : Nat) (w : Word) : (s.setReg o w).catc = s.catc := rfl
@[simp] theorem State.setReg_heat (o : Nat) (w : Word) : (s.setReg o w).heat = s.heat := rfl
@[simp] theorem State.setReg_flash (o : Nat) (w : Word) : (s.setReg o w).flash = s.flash := rfl
@[simp] theorem State.setReg_flashAll (o : Nat) (w : Word) : (s.setReg o w).flashAll = s.flashAll := rfl
@[simp] theorem State.setReg_host (o : Nat) (w : Word) : (s.setReg o w).host = s.host := rfl
@[simp] theorem State.setReg_keys (o : Nat) (w : Word) : (s.setReg o w).keys = s.keys := rfl
@[simp] theorem State.setReg_kidNext (o : Nat) (w : Word) : (s.setReg o w).kidNext = s.kidNext := rfl
@[simp] theorem State.setReg_rot (o : Nat) (w : Word) : (s.setReg o w).rot = s.rot := rfl
@[simp] theorem State.setReg_pwr (o : Nat) (w : Word) : (s.setReg o w).pwr = s.pwr := rfl
@[simp] theorem State.setReg_boot (o : Nat) (w : Word) : (s.setReg o w).boot = s.boot := rfl
@[simp] theorem State.setReg_frames (o : Nat) (w : Word) : (s.setReg o w).frames = s.frames := rfl
@[simp] theorem State.setReg_mesh (o : Nat) (w : Word) : (s.setReg o w).mesh = s.mesh := rfl
@[simp] theorem State.setReg_repair (o : Nat) (w : Word) : (s.setReg o w).repair = s.repair := rfl
@[simp] theorem State.setReg_repairDue (o : Nat) (w : Word) : (s.setReg o w).repairDue = s.repairDue := rfl
@[simp] theorem State.setReg_pair (o : Nat) (w : Word) : (s.setReg o w).pair = s.pair := rfl
@[simp] theorem State.setReg_fab (o : Nat) (w : Word) : (s.setReg o w).fab = s.fab := rfl
@[simp] theorem State.setReg_map (o : Nat) (w : Word) : (s.setReg o w).map = s.map := rfl
@[simp] theorem State.setReg_leases (o : Nat) (w : Word) : (s.setReg o w).leases = s.leases := rfl
@[simp] theorem State.setReg_leaseWaits (o : Nat) (w : Word) : (s.setReg o w).leaseWaits = s.leaseWaits := rfl
@[simp] theorem State.setReg_out (o : Nat) (w : Word) : (s.setReg o w).out = s.out := rfl
@[simp] theorem State.setReg_free (o : Nat) (w : Word) : (s.setReg o w).free = s.free := rfl
@[simp] theorem State.setReg_pending (o : Nat) (w : Word) : (s.setReg o w).pending = s.pending := rfl
@[simp] theorem State.setReg_was (o : Nat) (w : Word) : (s.setReg o w).was = s.was := rfl

/-! ### setFld -/

@[simp] theorem State.setFld_ec (o : Nat) (f : Fld) (n : Nat) : (s.setFld o f n).ec = s.ec := rfl
@[simp] theorem State.setFld_xtal (o : Nat) (f : Fld) (n : Nat) : (s.setFld o f n).xtal = s.xtal := rfl
@[simp] theorem State.setFld_g (o : Nat) (f : Fld) (n : Nat) : (s.setFld o f n).g = s.g := rfl
@[simp] theorem State.setFld_v (o : Nat) (f : Fld) (n : Nat) : (s.setFld o f n).v = s.v := rfl
@[simp] theorem State.setFld_t (o : Nat) (f : Fld) (n : Nat) : (s.setFld o f n).t = s.t := rfl
@[simp] theorem State.setFld_p (o : Nat) (f : Fld) (n : Nat) : (s.setFld o f n).p = s.p := rfl
@[simp] theorem State.setFld_mem (o : Nat) (f : Fld) (n : Nat) : (s.setFld o f n).mem = s.mem := rfl
@[simp] theorem State.setFld_seals (o : Nat) (f : Fld) (n : Nat) : (s.setFld o f n).seals = s.seals := rfl
@[simp] theorem State.setFld_eccErr (o : Nat) (f : Fld) (n : Nat) : (s.setFld o f n).eccErr = s.eccErr := rfl
@[simp] theorem State.setFld_easels (o : Nat) (f : Fld) (n : Nat) : (s.setFld o f n).easels = s.easels := rfl
@[simp] theorem State.setFld_bays (o : Nat) (f : Fld) (n : Nat) : (s.setFld o f n).bays = s.bays := rfl
@[simp] theorem State.setFld_stackXs (o : Nat) (f : Fld) (n : Nat) : (s.setFld o f n).stackXs = s.stackXs := rfl
@[simp] theorem State.setFld_cat (o : Nat) (f : Fld) (n : Nat) : (s.setFld o f n).cat = s.cat := rfl
@[simp] theorem State.setFld_catBad (o : Nat) (f : Fld) (n : Nat) : (s.setFld o f n).catBad = s.catBad := rfl
@[simp] theorem State.setFld_catc (o : Nat) (f : Fld) (n : Nat) : (s.setFld o f n).catc = s.catc := rfl
@[simp] theorem State.setFld_heat (o : Nat) (f : Fld) (n : Nat) : (s.setFld o f n).heat = s.heat := rfl
@[simp] theorem State.setFld_flash (o : Nat) (f : Fld) (n : Nat) : (s.setFld o f n).flash = s.flash := rfl
@[simp] theorem State.setFld_flashAll (o : Nat) (f : Fld) (n : Nat) : (s.setFld o f n).flashAll = s.flashAll := rfl
@[simp] theorem State.setFld_host (o : Nat) (f : Fld) (n : Nat) : (s.setFld o f n).host = s.host := rfl
@[simp] theorem State.setFld_keys (o : Nat) (f : Fld) (n : Nat) : (s.setFld o f n).keys = s.keys := rfl
@[simp] theorem State.setFld_kidNext (o : Nat) (f : Fld) (n : Nat) : (s.setFld o f n).kidNext = s.kidNext := rfl
@[simp] theorem State.setFld_rot (o : Nat) (f : Fld) (n : Nat) : (s.setFld o f n).rot = s.rot := rfl
@[simp] theorem State.setFld_pwr (o : Nat) (f : Fld) (n : Nat) : (s.setFld o f n).pwr = s.pwr := rfl
@[simp] theorem State.setFld_boot (o : Nat) (f : Fld) (n : Nat) : (s.setFld o f n).boot = s.boot := rfl
@[simp] theorem State.setFld_frames (o : Nat) (f : Fld) (n : Nat) : (s.setFld o f n).frames = s.frames := rfl
@[simp] theorem State.setFld_mesh (o : Nat) (f : Fld) (n : Nat) : (s.setFld o f n).mesh = s.mesh := rfl
@[simp] theorem State.setFld_repair (o : Nat) (f : Fld) (n : Nat) : (s.setFld o f n).repair = s.repair := rfl
@[simp] theorem State.setFld_repairDue (o : Nat) (f : Fld) (n : Nat) : (s.setFld o f n).repairDue = s.repairDue := rfl
@[simp] theorem State.setFld_pair (o : Nat) (f : Fld) (n : Nat) : (s.setFld o f n).pair = s.pair := rfl
@[simp] theorem State.setFld_fab (o : Nat) (f : Fld) (n : Nat) : (s.setFld o f n).fab = s.fab := rfl
@[simp] theorem State.setFld_map (o : Nat) (f : Fld) (n : Nat) : (s.setFld o f n).map = s.map := rfl
@[simp] theorem State.setFld_leases (o : Nat) (f : Fld) (n : Nat) : (s.setFld o f n).leases = s.leases := rfl
@[simp] theorem State.setFld_leaseWaits (o : Nat) (f : Fld) (n : Nat) : (s.setFld o f n).leaseWaits = s.leaseWaits := rfl
@[simp] theorem State.setFld_out (o : Nat) (f : Fld) (n : Nat) : (s.setFld o f n).out = s.out := rfl
@[simp] theorem State.setFld_free (o : Nat) (f : Fld) (n : Nat) : (s.setFld o f n).free = s.free := rfl
@[simp] theorem State.setFld_pending (o : Nat) (f : Fld) (n : Nat) : (s.setFld o f n).pending = s.pending := rfl
@[simp] theorem State.setFld_was (o : Nat) (f : Fld) (n : Nat) : (s.setFld o f n).was = s.was := rfl

/-! ### bump -/

@[simp] theorem State.bump_ec (o : Nat) (f : Fld) : (s.bump o f).ec = s.ec := rfl
@[simp] theorem State.bump_xtal (o : Nat) (f : Fld) : (s.bump o f).xtal = s.xtal := rfl
@[simp] theorem State.bump_g (o : Nat) (f : Fld) : (s.bump o f).g = s.g := rfl
@[simp] theorem State.bump_v (o : Nat) (f : Fld) : (s.bump o f).v = s.v := rfl
@[simp] theorem State.bump_t (o : Nat) (f : Fld) : (s.bump o f).t = s.t := rfl
@[simp] theorem State.bump_p (o : Nat) (f : Fld) : (s.bump o f).p = s.p := rfl
@[simp] theorem State.bump_mem (o : Nat) (f : Fld) : (s.bump o f).mem = s.mem := rfl
@[simp] theorem State.bump_seals (o : Nat) (f : Fld) : (s.bump o f).seals = s.seals := rfl
@[simp] theorem State.bump_eccErr (o : Nat) (f : Fld) : (s.bump o f).eccErr = s.eccErr := rfl
@[simp] theorem State.bump_easels (o : Nat) (f : Fld) : (s.bump o f).easels = s.easels := rfl
@[simp] theorem State.bump_bays (o : Nat) (f : Fld) : (s.bump o f).bays = s.bays := rfl
@[simp] theorem State.bump_stackXs (o : Nat) (f : Fld) : (s.bump o f).stackXs = s.stackXs := rfl
@[simp] theorem State.bump_cat (o : Nat) (f : Fld) : (s.bump o f).cat = s.cat := rfl
@[simp] theorem State.bump_catBad (o : Nat) (f : Fld) : (s.bump o f).catBad = s.catBad := rfl
@[simp] theorem State.bump_catc (o : Nat) (f : Fld) : (s.bump o f).catc = s.catc := rfl
@[simp] theorem State.bump_heat (o : Nat) (f : Fld) : (s.bump o f).heat = s.heat := rfl
@[simp] theorem State.bump_flash (o : Nat) (f : Fld) : (s.bump o f).flash = s.flash := rfl
@[simp] theorem State.bump_flashAll (o : Nat) (f : Fld) : (s.bump o f).flashAll = s.flashAll := rfl
@[simp] theorem State.bump_host (o : Nat) (f : Fld) : (s.bump o f).host = s.host := rfl
@[simp] theorem State.bump_keys (o : Nat) (f : Fld) : (s.bump o f).keys = s.keys := rfl
@[simp] theorem State.bump_kidNext (o : Nat) (f : Fld) : (s.bump o f).kidNext = s.kidNext := rfl
@[simp] theorem State.bump_rot (o : Nat) (f : Fld) : (s.bump o f).rot = s.rot := rfl
@[simp] theorem State.bump_pwr (o : Nat) (f : Fld) : (s.bump o f).pwr = s.pwr := rfl
@[simp] theorem State.bump_boot (o : Nat) (f : Fld) : (s.bump o f).boot = s.boot := rfl
@[simp] theorem State.bump_frames (o : Nat) (f : Fld) : (s.bump o f).frames = s.frames := rfl
@[simp] theorem State.bump_mesh (o : Nat) (f : Fld) : (s.bump o f).mesh = s.mesh := rfl
@[simp] theorem State.bump_repair (o : Nat) (f : Fld) : (s.bump o f).repair = s.repair := rfl
@[simp] theorem State.bump_repairDue (o : Nat) (f : Fld) : (s.bump o f).repairDue = s.repairDue := rfl
@[simp] theorem State.bump_pair (o : Nat) (f : Fld) : (s.bump o f).pair = s.pair := rfl
@[simp] theorem State.bump_fab (o : Nat) (f : Fld) : (s.bump o f).fab = s.fab := rfl
@[simp] theorem State.bump_map (o : Nat) (f : Fld) : (s.bump o f).map = s.map := rfl
@[simp] theorem State.bump_leases (o : Nat) (f : Fld) : (s.bump o f).leases = s.leases := rfl
@[simp] theorem State.bump_leaseWaits (o : Nat) (f : Fld) : (s.bump o f).leaseWaits = s.leaseWaits := rfl
@[simp] theorem State.bump_out (o : Nat) (f : Fld) : (s.bump o f).out = s.out := rfl
@[simp] theorem State.bump_free (o : Nat) (f : Fld) : (s.bump o f).free = s.free := rfl
@[simp] theorem State.bump_pending (o : Nat) (f : Fld) : (s.bump o f).pending = s.pending := rfl
@[simp] theorem State.bump_was (o : Nat) (f : Fld) : (s.bump o f).was = s.was := rfl

/-! ### count -/

@[simp] theorem State.count_ec (o : Nat) (f : Fld) (n : Nat) : (s.count o f n).ec = s.ec := rfl
@[simp] theorem State.count_xtal (o : Nat) (f : Fld) (n : Nat) : (s.count o f n).xtal = s.xtal := rfl
@[simp] theorem State.count_g (o : Nat) (f : Fld) (n : Nat) : (s.count o f n).g = s.g := rfl
@[simp] theorem State.count_v (o : Nat) (f : Fld) (n : Nat) : (s.count o f n).v = s.v := rfl
@[simp] theorem State.count_t (o : Nat) (f : Fld) (n : Nat) : (s.count o f n).t = s.t := rfl
@[simp] theorem State.count_p (o : Nat) (f : Fld) (n : Nat) : (s.count o f n).p = s.p := rfl
@[simp] theorem State.count_mem (o : Nat) (f : Fld) (n : Nat) : (s.count o f n).mem = s.mem := rfl
@[simp] theorem State.count_seals (o : Nat) (f : Fld) (n : Nat) : (s.count o f n).seals = s.seals := rfl
@[simp] theorem State.count_eccErr (o : Nat) (f : Fld) (n : Nat) : (s.count o f n).eccErr = s.eccErr := rfl
@[simp] theorem State.count_easels (o : Nat) (f : Fld) (n : Nat) : (s.count o f n).easels = s.easels := rfl
@[simp] theorem State.count_bays (o : Nat) (f : Fld) (n : Nat) : (s.count o f n).bays = s.bays := rfl
@[simp] theorem State.count_stackXs (o : Nat) (f : Fld) (n : Nat) : (s.count o f n).stackXs = s.stackXs := rfl
@[simp] theorem State.count_cat (o : Nat) (f : Fld) (n : Nat) : (s.count o f n).cat = s.cat := rfl
@[simp] theorem State.count_catBad (o : Nat) (f : Fld) (n : Nat) : (s.count o f n).catBad = s.catBad := rfl
@[simp] theorem State.count_catc (o : Nat) (f : Fld) (n : Nat) : (s.count o f n).catc = s.catc := rfl
@[simp] theorem State.count_heat (o : Nat) (f : Fld) (n : Nat) : (s.count o f n).heat = s.heat := rfl
@[simp] theorem State.count_flash (o : Nat) (f : Fld) (n : Nat) : (s.count o f n).flash = s.flash := rfl
@[simp] theorem State.count_flashAll (o : Nat) (f : Fld) (n : Nat) : (s.count o f n).flashAll = s.flashAll := rfl
@[simp] theorem State.count_host (o : Nat) (f : Fld) (n : Nat) : (s.count o f n).host = s.host := rfl
@[simp] theorem State.count_keys (o : Nat) (f : Fld) (n : Nat) : (s.count o f n).keys = s.keys := rfl
@[simp] theorem State.count_kidNext (o : Nat) (f : Fld) (n : Nat) : (s.count o f n).kidNext = s.kidNext := rfl
@[simp] theorem State.count_rot (o : Nat) (f : Fld) (n : Nat) : (s.count o f n).rot = s.rot := rfl
@[simp] theorem State.count_pwr (o : Nat) (f : Fld) (n : Nat) : (s.count o f n).pwr = s.pwr := rfl
@[simp] theorem State.count_boot (o : Nat) (f : Fld) (n : Nat) : (s.count o f n).boot = s.boot := rfl
@[simp] theorem State.count_frames (o : Nat) (f : Fld) (n : Nat) : (s.count o f n).frames = s.frames := rfl
@[simp] theorem State.count_mesh (o : Nat) (f : Fld) (n : Nat) : (s.count o f n).mesh = s.mesh := rfl
@[simp] theorem State.count_repair (o : Nat) (f : Fld) (n : Nat) : (s.count o f n).repair = s.repair := rfl
@[simp] theorem State.count_repairDue (o : Nat) (f : Fld) (n : Nat) : (s.count o f n).repairDue = s.repairDue := rfl
@[simp] theorem State.count_pair (o : Nat) (f : Fld) (n : Nat) : (s.count o f n).pair = s.pair := rfl
@[simp] theorem State.count_fab (o : Nat) (f : Fld) (n : Nat) : (s.count o f n).fab = s.fab := rfl
@[simp] theorem State.count_map (o : Nat) (f : Fld) (n : Nat) : (s.count o f n).map = s.map := rfl
@[simp] theorem State.count_leases (o : Nat) (f : Fld) (n : Nat) : (s.count o f n).leases = s.leases := rfl
@[simp] theorem State.count_leaseWaits (o : Nat) (f : Fld) (n : Nat) : (s.count o f n).leaseWaits = s.leaseWaits := rfl
@[simp] theorem State.count_out (o : Nat) (f : Fld) (n : Nat) : (s.count o f n).out = s.out := rfl
@[simp] theorem State.count_free (o : Nat) (f : Fld) (n : Nat) : (s.count o f n).free = s.free := rfl
@[simp] theorem State.count_pending (o : Nat) (f : Fld) (n : Nat) : (s.count o f n).pending = s.pending := rfl
@[simp] theorem State.count_was (o : Nat) (f : Fld) (n : Nat) : (s.count o f n).was = s.was := rfl

/-! ### setPc -/

@[simp] theorem State.setPc_ec (x : Ea) (n : Nat) : (s.setPc x n).ec = s.ec := rfl
@[simp] theorem State.setPc_xtal (x : Ea) (n : Nat) : (s.setPc x n).xtal = s.xtal := rfl
@[simp] theorem State.setPc_g (x : Ea) (n : Nat) : (s.setPc x n).g = s.g := rfl
@[simp] theorem State.setPc_v (x : Ea) (n : Nat) : (s.setPc x n).v = s.v := rfl
@[simp] theorem State.setPc_t (x : Ea) (n : Nat) : (s.setPc x n).t = s.t := rfl
@[simp] theorem State.setPc_p (x : Ea) (n : Nat) : (s.setPc x n).p = s.p := rfl
@[simp] theorem State.setPc_mem (x : Ea) (n : Nat) : (s.setPc x n).mem = s.mem := rfl
@[simp] theorem State.setPc_seals (x : Ea) (n : Nat) : (s.setPc x n).seals = s.seals := rfl
@[simp] theorem State.setPc_eccErr (x : Ea) (n : Nat) : (s.setPc x n).eccErr = s.eccErr := rfl
@[simp] theorem State.setPc_easels (x : Ea) (n : Nat) : (s.setPc x n).easels = s.easels := rfl
@[simp] theorem State.setPc_bays (x : Ea) (n : Nat) : (s.setPc x n).bays = s.bays := rfl
@[simp] theorem State.setPc_stackXs (x : Ea) (n : Nat) : (s.setPc x n).stackXs = s.stackXs := rfl
@[simp] theorem State.setPc_cat (x : Ea) (n : Nat) : (s.setPc x n).cat = s.cat := rfl
@[simp] theorem State.setPc_catBad (x : Ea) (n : Nat) : (s.setPc x n).catBad = s.catBad := rfl
@[simp] theorem State.setPc_catc (x : Ea) (n : Nat) : (s.setPc x n).catc = s.catc := rfl
@[simp] theorem State.setPc_heat (x : Ea) (n : Nat) : (s.setPc x n).heat = s.heat := rfl
@[simp] theorem State.setPc_flash (x : Ea) (n : Nat) : (s.setPc x n).flash = s.flash := rfl
@[simp] theorem State.setPc_flashAll (x : Ea) (n : Nat) : (s.setPc x n).flashAll = s.flashAll := rfl
@[simp] theorem State.setPc_host (x : Ea) (n : Nat) : (s.setPc x n).host = s.host := rfl
@[simp] theorem State.setPc_keys (x : Ea) (n : Nat) : (s.setPc x n).keys = s.keys := rfl
@[simp] theorem State.setPc_kidNext (x : Ea) (n : Nat) : (s.setPc x n).kidNext = s.kidNext := rfl
@[simp] theorem State.setPc_rot (x : Ea) (n : Nat) : (s.setPc x n).rot = s.rot := rfl
@[simp] theorem State.setPc_pwr (x : Ea) (n : Nat) : (s.setPc x n).pwr = s.pwr := rfl
@[simp] theorem State.setPc_boot (x : Ea) (n : Nat) : (s.setPc x n).boot = s.boot := rfl
@[simp] theorem State.setPc_frames (x : Ea) (n : Nat) : (s.setPc x n).frames = s.frames := rfl
@[simp] theorem State.setPc_mesh (x : Ea) (n : Nat) : (s.setPc x n).mesh = s.mesh := rfl
@[simp] theorem State.setPc_repair (x : Ea) (n : Nat) : (s.setPc x n).repair = s.repair := rfl
@[simp] theorem State.setPc_repairDue (x : Ea) (n : Nat) : (s.setPc x n).repairDue = s.repairDue := rfl
@[simp] theorem State.setPc_pair (x : Ea) (n : Nat) : (s.setPc x n).pair = s.pair := rfl
@[simp] theorem State.setPc_fab (x : Ea) (n : Nat) : (s.setPc x n).fab = s.fab := rfl
@[simp] theorem State.setPc_map (x : Ea) (n : Nat) : (s.setPc x n).map = s.map := rfl
@[simp] theorem State.setPc_leases (x : Ea) (n : Nat) : (s.setPc x n).leases = s.leases := rfl
@[simp] theorem State.setPc_leaseWaits (x : Ea) (n : Nat) : (s.setPc x n).leaseWaits = s.leaseWaits := rfl
@[simp] theorem State.setPc_out (x : Ea) (n : Nat) : (s.setPc x n).out = s.out := rfl
@[simp] theorem State.setPc_free (x : Ea) (n : Nat) : (s.setPc x n).free = s.free := rfl
@[simp] theorem State.setPc_pending (x : Ea) (n : Nat) : (s.setPc x n).pending = s.pending := rfl
@[simp] theorem State.setPc_was (x : Ea) (n : Nat) : (s.setPc x n).was = s.was := rfl

/-! ### setEx -/

@[simp] theorem State.setEx_ec (x : Ea) (e : EaselX) : (s.setEx x e).ec = s.ec := rfl
@[simp] theorem State.setEx_xtal (x : Ea) (e : EaselX) : (s.setEx x e).xtal = s.xtal := rfl
@[simp] theorem State.setEx_regs (x : Ea) (e : EaselX) : (s.setEx x e).regs = s.regs := rfl
@[simp] theorem State.setEx_g (x : Ea) (e : EaselX) : (s.setEx x e).g = s.g := rfl
@[simp] theorem State.setEx_v (x : Ea) (e : EaselX) : (s.setEx x e).v = s.v := rfl
@[simp] theorem State.setEx_t (x : Ea) (e : EaselX) : (s.setEx x e).t = s.t := rfl
@[simp] theorem State.setEx_p (x : Ea) (e : EaselX) : (s.setEx x e).p = s.p := rfl
@[simp] theorem State.setEx_mem (x : Ea) (e : EaselX) : (s.setEx x e).mem = s.mem := rfl
@[simp] theorem State.setEx_seals (x : Ea) (e : EaselX) : (s.setEx x e).seals = s.seals := rfl
@[simp] theorem State.setEx_eccErr (x : Ea) (e : EaselX) : (s.setEx x e).eccErr = s.eccErr := rfl
@[simp] theorem State.setEx_bays (x : Ea) (e : EaselX) : (s.setEx x e).bays = s.bays := rfl
@[simp] theorem State.setEx_stackXs (x : Ea) (e : EaselX) : (s.setEx x e).stackXs = s.stackXs := rfl
@[simp] theorem State.setEx_cat (x : Ea) (e : EaselX) : (s.setEx x e).cat = s.cat := rfl
@[simp] theorem State.setEx_catBad (x : Ea) (e : EaselX) : (s.setEx x e).catBad = s.catBad := rfl
@[simp] theorem State.setEx_catc (x : Ea) (e : EaselX) : (s.setEx x e).catc = s.catc := rfl
@[simp] theorem State.setEx_heat (x : Ea) (e : EaselX) : (s.setEx x e).heat = s.heat := rfl
@[simp] theorem State.setEx_flash (x : Ea) (e : EaselX) : (s.setEx x e).flash = s.flash := rfl
@[simp] theorem State.setEx_flashAll (x : Ea) (e : EaselX) : (s.setEx x e).flashAll = s.flashAll := rfl
@[simp] theorem State.setEx_host (x : Ea) (e : EaselX) : (s.setEx x e).host = s.host := rfl
@[simp] theorem State.setEx_keys (x : Ea) (e : EaselX) : (s.setEx x e).keys = s.keys := rfl
@[simp] theorem State.setEx_kidNext (x : Ea) (e : EaselX) : (s.setEx x e).kidNext = s.kidNext := rfl
@[simp] theorem State.setEx_rot (x : Ea) (e : EaselX) : (s.setEx x e).rot = s.rot := rfl
@[simp] theorem State.setEx_pwr (x : Ea) (e : EaselX) : (s.setEx x e).pwr = s.pwr := rfl
@[simp] theorem State.setEx_boot (x : Ea) (e : EaselX) : (s.setEx x e).boot = s.boot := rfl
@[simp] theorem State.setEx_frames (x : Ea) (e : EaselX) : (s.setEx x e).frames = s.frames := rfl
@[simp] theorem State.setEx_mesh (x : Ea) (e : EaselX) : (s.setEx x e).mesh = s.mesh := rfl
@[simp] theorem State.setEx_repair (x : Ea) (e : EaselX) : (s.setEx x e).repair = s.repair := rfl
@[simp] theorem State.setEx_repairDue (x : Ea) (e : EaselX) : (s.setEx x e).repairDue = s.repairDue := rfl
@[simp] theorem State.setEx_pair (x : Ea) (e : EaselX) : (s.setEx x e).pair = s.pair := rfl
@[simp] theorem State.setEx_fab (x : Ea) (e : EaselX) : (s.setEx x e).fab = s.fab := rfl
@[simp] theorem State.setEx_map (x : Ea) (e : EaselX) : (s.setEx x e).map = s.map := rfl
@[simp] theorem State.setEx_leases (x : Ea) (e : EaselX) : (s.setEx x e).leases = s.leases := rfl
@[simp] theorem State.setEx_leaseWaits (x : Ea) (e : EaselX) : (s.setEx x e).leaseWaits = s.leaseWaits := rfl
@[simp] theorem State.setEx_out (x : Ea) (e : EaselX) : (s.setEx x e).out = s.out := rfl
@[simp] theorem State.setEx_free (x : Ea) (e : EaselX) : (s.setEx x e).free = s.free := rfl
@[simp] theorem State.setEx_pending (x : Ea) (e : EaselX) : (s.setEx x e).pending = s.pending := rfl
@[simp] theorem State.setEx_was (x : Ea) (e : EaselX) : (s.setEx x e).was = s.was := rfl

/-! ### updEx -/

@[simp] theorem State.updEx_ec (x : Ea) (f : EaselX → EaselX) : (s.updEx x f).ec = s.ec := rfl
@[simp] theorem State.updEx_xtal (x : Ea) (f : EaselX → EaselX) : (s.updEx x f).xtal = s.xtal := rfl
@[simp] theorem State.updEx_regs (x : Ea) (f : EaselX → EaselX) : (s.updEx x f).regs = s.regs := rfl
@[simp] theorem State.updEx_g (x : Ea) (f : EaselX → EaselX) : (s.updEx x f).g = s.g := rfl
@[simp] theorem State.updEx_v (x : Ea) (f : EaselX → EaselX) : (s.updEx x f).v = s.v := rfl
@[simp] theorem State.updEx_t (x : Ea) (f : EaselX → EaselX) : (s.updEx x f).t = s.t := rfl
@[simp] theorem State.updEx_p (x : Ea) (f : EaselX → EaselX) : (s.updEx x f).p = s.p := rfl
@[simp] theorem State.updEx_mem (x : Ea) (f : EaselX → EaselX) : (s.updEx x f).mem = s.mem := rfl
@[simp] theorem State.updEx_seals (x : Ea) (f : EaselX → EaselX) : (s.updEx x f).seals = s.seals := rfl
@[simp] theorem State.updEx_eccErr (x : Ea) (f : EaselX → EaselX) : (s.updEx x f).eccErr = s.eccErr := rfl
@[simp] theorem State.updEx_bays (x : Ea) (f : EaselX → EaselX) : (s.updEx x f).bays = s.bays := rfl
@[simp] theorem State.updEx_stackXs (x : Ea) (f : EaselX → EaselX) : (s.updEx x f).stackXs = s.stackXs := rfl
@[simp] theorem State.updEx_cat (x : Ea) (f : EaselX → EaselX) : (s.updEx x f).cat = s.cat := rfl
@[simp] theorem State.updEx_catBad (x : Ea) (f : EaselX → EaselX) : (s.updEx x f).catBad = s.catBad := rfl
@[simp] theorem State.updEx_catc (x : Ea) (f : EaselX → EaselX) : (s.updEx x f).catc = s.catc := rfl
@[simp] theorem State.updEx_heat (x : Ea) (f : EaselX → EaselX) : (s.updEx x f).heat = s.heat := rfl
@[simp] theorem State.updEx_flash (x : Ea) (f : EaselX → EaselX) : (s.updEx x f).flash = s.flash := rfl
@[simp] theorem State.updEx_flashAll (x : Ea) (f : EaselX → EaselX) : (s.updEx x f).flashAll = s.flashAll := rfl
@[simp] theorem State.updEx_host (x : Ea) (f : EaselX → EaselX) : (s.updEx x f).host = s.host := rfl
@[simp] theorem State.updEx_keys (x : Ea) (f : EaselX → EaselX) : (s.updEx x f).keys = s.keys := rfl
@[simp] theorem State.updEx_kidNext (x : Ea) (f : EaselX → EaselX) : (s.updEx x f).kidNext = s.kidNext := rfl
@[simp] theorem State.updEx_rot (x : Ea) (f : EaselX → EaselX) : (s.updEx x f).rot = s.rot := rfl
@[simp] theorem State.updEx_pwr (x : Ea) (f : EaselX → EaselX) : (s.updEx x f).pwr = s.pwr := rfl
@[simp] theorem State.updEx_boot (x : Ea) (f : EaselX → EaselX) : (s.updEx x f).boot = s.boot := rfl
@[simp] theorem State.updEx_frames (x : Ea) (f : EaselX → EaselX) : (s.updEx x f).frames = s.frames := rfl
@[simp] theorem State.updEx_mesh (x : Ea) (f : EaselX → EaselX) : (s.updEx x f).mesh = s.mesh := rfl
@[simp] theorem State.updEx_repair (x : Ea) (f : EaselX → EaselX) : (s.updEx x f).repair = s.repair := rfl
@[simp] theorem State.updEx_repairDue (x : Ea) (f : EaselX → EaselX) : (s.updEx x f).repairDue = s.repairDue := rfl
@[simp] theorem State.updEx_pair (x : Ea) (f : EaselX → EaselX) : (s.updEx x f).pair = s.pair := rfl
@[simp] theorem State.updEx_fab (x : Ea) (f : EaselX → EaselX) : (s.updEx x f).fab = s.fab := rfl
@[simp] theorem State.updEx_map (x : Ea) (f : EaselX → EaselX) : (s.updEx x f).map = s.map := rfl
@[simp] theorem State.updEx_leases (x : Ea) (f : EaselX → EaselX) : (s.updEx x f).leases = s.leases := rfl
@[simp] theorem State.updEx_leaseWaits (x : Ea) (f : EaselX → EaselX) : (s.updEx x f).leaseWaits = s.leaseWaits := rfl
@[simp] theorem State.updEx_out (x : Ea) (f : EaselX → EaselX) : (s.updEx x f).out = s.out := rfl
@[simp] theorem State.updEx_free (x : Ea) (f : EaselX → EaselX) : (s.updEx x f).free = s.free := rfl
@[simp] theorem State.updEx_pending (x : Ea) (f : EaselX → EaselX) : (s.updEx x f).pending = s.pending := rfl
@[simp] theorem State.updEx_was (x : Ea) (f : EaselX → EaselX) : (s.updEx x f).was = s.was := rfl

/-! ### setBay -/

@[simp] theorem State.setBay_ec (b : Nat) (y : BayX) : (s.setBay b y).ec = s.ec := rfl
@[simp] theorem State.setBay_xtal (b : Nat) (y : BayX) : (s.setBay b y).xtal = s.xtal := rfl
@[simp] theorem State.setBay_regs (b : Nat) (y : BayX) : (s.setBay b y).regs = s.regs := rfl
@[simp] theorem State.setBay_g (b : Nat) (y : BayX) : (s.setBay b y).g = s.g := rfl
@[simp] theorem State.setBay_v (b : Nat) (y : BayX) : (s.setBay b y).v = s.v := rfl
@[simp] theorem State.setBay_t (b : Nat) (y : BayX) : (s.setBay b y).t = s.t := rfl
@[simp] theorem State.setBay_p (b : Nat) (y : BayX) : (s.setBay b y).p = s.p := rfl
@[simp] theorem State.setBay_mem (b : Nat) (y : BayX) : (s.setBay b y).mem = s.mem := rfl
@[simp] theorem State.setBay_seals (b : Nat) (y : BayX) : (s.setBay b y).seals = s.seals := rfl
@[simp] theorem State.setBay_eccErr (b : Nat) (y : BayX) : (s.setBay b y).eccErr = s.eccErr := rfl
@[simp] theorem State.setBay_easels (b : Nat) (y : BayX) : (s.setBay b y).easels = s.easels := rfl
@[simp] theorem State.setBay_stackXs (b : Nat) (y : BayX) : (s.setBay b y).stackXs = s.stackXs := rfl
@[simp] theorem State.setBay_cat (b : Nat) (y : BayX) : (s.setBay b y).cat = s.cat := rfl
@[simp] theorem State.setBay_catBad (b : Nat) (y : BayX) : (s.setBay b y).catBad = s.catBad := rfl
@[simp] theorem State.setBay_catc (b : Nat) (y : BayX) : (s.setBay b y).catc = s.catc := rfl
@[simp] theorem State.setBay_heat (b : Nat) (y : BayX) : (s.setBay b y).heat = s.heat := rfl
@[simp] theorem State.setBay_flash (b : Nat) (y : BayX) : (s.setBay b y).flash = s.flash := rfl
@[simp] theorem State.setBay_flashAll (b : Nat) (y : BayX) : (s.setBay b y).flashAll = s.flashAll := rfl
@[simp] theorem State.setBay_host (b : Nat) (y : BayX) : (s.setBay b y).host = s.host := rfl
@[simp] theorem State.setBay_keys (b : Nat) (y : BayX) : (s.setBay b y).keys = s.keys := rfl
@[simp] theorem State.setBay_kidNext (b : Nat) (y : BayX) : (s.setBay b y).kidNext = s.kidNext := rfl
@[simp] theorem State.setBay_rot (b : Nat) (y : BayX) : (s.setBay b y).rot = s.rot := rfl
@[simp] theorem State.setBay_pwr (b : Nat) (y : BayX) : (s.setBay b y).pwr = s.pwr := rfl
@[simp] theorem State.setBay_boot (b : Nat) (y : BayX) : (s.setBay b y).boot = s.boot := rfl
@[simp] theorem State.setBay_frames (b : Nat) (y : BayX) : (s.setBay b y).frames = s.frames := rfl
@[simp] theorem State.setBay_mesh (b : Nat) (y : BayX) : (s.setBay b y).mesh = s.mesh := rfl
@[simp] theorem State.setBay_repair (b : Nat) (y : BayX) : (s.setBay b y).repair = s.repair := rfl
@[simp] theorem State.setBay_repairDue (b : Nat) (y : BayX) : (s.setBay b y).repairDue = s.repairDue := rfl
@[simp] theorem State.setBay_pair (b : Nat) (y : BayX) : (s.setBay b y).pair = s.pair := rfl
@[simp] theorem State.setBay_fab (b : Nat) (y : BayX) : (s.setBay b y).fab = s.fab := rfl
@[simp] theorem State.setBay_map (b : Nat) (y : BayX) : (s.setBay b y).map = s.map := rfl
@[simp] theorem State.setBay_leases (b : Nat) (y : BayX) : (s.setBay b y).leases = s.leases := rfl
@[simp] theorem State.setBay_leaseWaits (b : Nat) (y : BayX) : (s.setBay b y).leaseWaits = s.leaseWaits := rfl
@[simp] theorem State.setBay_out (b : Nat) (y : BayX) : (s.setBay b y).out = s.out := rfl
@[simp] theorem State.setBay_free (b : Nat) (y : BayX) : (s.setBay b y).free = s.free := rfl
@[simp] theorem State.setBay_pending (b : Nat) (y : BayX) : (s.setBay b y).pending = s.pending := rfl
@[simp] theorem State.setBay_was (b : Nat) (y : BayX) : (s.setBay b y).was = s.was := rfl

/-! ### updBay -/

@[simp] theorem State.updBay_ec (b : Nat) (f : BayX → BayX) : (s.updBay b f).ec = s.ec := rfl
@[simp] theorem State.updBay_xtal (b : Nat) (f : BayX → BayX) : (s.updBay b f).xtal = s.xtal := rfl
@[simp] theorem State.updBay_regs (b : Nat) (f : BayX → BayX) : (s.updBay b f).regs = s.regs := rfl
@[simp] theorem State.updBay_g (b : Nat) (f : BayX → BayX) : (s.updBay b f).g = s.g := rfl
@[simp] theorem State.updBay_v (b : Nat) (f : BayX → BayX) : (s.updBay b f).v = s.v := rfl
@[simp] theorem State.updBay_t (b : Nat) (f : BayX → BayX) : (s.updBay b f).t = s.t := rfl
@[simp] theorem State.updBay_p (b : Nat) (f : BayX → BayX) : (s.updBay b f).p = s.p := rfl
@[simp] theorem State.updBay_mem (b : Nat) (f : BayX → BayX) : (s.updBay b f).mem = s.mem := rfl
@[simp] theorem State.updBay_seals (b : Nat) (f : BayX → BayX) : (s.updBay b f).seals = s.seals := rfl
@[simp] theorem State.updBay_eccErr (b : Nat) (f : BayX → BayX) : (s.updBay b f).eccErr = s.eccErr := rfl
@[simp] theorem State.updBay_easels (b : Nat) (f : BayX → BayX) : (s.updBay b f).easels = s.easels := rfl
@[simp] theorem State.updBay_stackXs (b : Nat) (f : BayX → BayX) : (s.updBay b f).stackXs = s.stackXs := rfl
@[simp] theorem State.updBay_cat (b : Nat) (f : BayX → BayX) : (s.updBay b f).cat = s.cat := rfl
@[simp] theorem State.updBay_catBad (b : Nat) (f : BayX → BayX) : (s.updBay b f).catBad = s.catBad := rfl
@[simp] theorem State.updBay_catc (b : Nat) (f : BayX → BayX) : (s.updBay b f).catc = s.catc := rfl
@[simp] theorem State.updBay_heat (b : Nat) (f : BayX → BayX) : (s.updBay b f).heat = s.heat := rfl
@[simp] theorem State.updBay_flash (b : Nat) (f : BayX → BayX) : (s.updBay b f).flash = s.flash := rfl
@[simp] theorem State.updBay_flashAll (b : Nat) (f : BayX → BayX) : (s.updBay b f).flashAll = s.flashAll := rfl
@[simp] theorem State.updBay_host (b : Nat) (f : BayX → BayX) : (s.updBay b f).host = s.host := rfl
@[simp] theorem State.updBay_keys (b : Nat) (f : BayX → BayX) : (s.updBay b f).keys = s.keys := rfl
@[simp] theorem State.updBay_kidNext (b : Nat) (f : BayX → BayX) : (s.updBay b f).kidNext = s.kidNext := rfl
@[simp] theorem State.updBay_rot (b : Nat) (f : BayX → BayX) : (s.updBay b f).rot = s.rot := rfl
@[simp] theorem State.updBay_pwr (b : Nat) (f : BayX → BayX) : (s.updBay b f).pwr = s.pwr := rfl
@[simp] theorem State.updBay_boot (b : Nat) (f : BayX → BayX) : (s.updBay b f).boot = s.boot := rfl
@[simp] theorem State.updBay_frames (b : Nat) (f : BayX → BayX) : (s.updBay b f).frames = s.frames := rfl
@[simp] theorem State.updBay_mesh (b : Nat) (f : BayX → BayX) : (s.updBay b f).mesh = s.mesh := rfl
@[simp] theorem State.updBay_repair (b : Nat) (f : BayX → BayX) : (s.updBay b f).repair = s.repair := rfl
@[simp] theorem State.updBay_repairDue (b : Nat) (f : BayX → BayX) : (s.updBay b f).repairDue = s.repairDue := rfl
@[simp] theorem State.updBay_pair (b : Nat) (f : BayX → BayX) : (s.updBay b f).pair = s.pair := rfl
@[simp] theorem State.updBay_fab (b : Nat) (f : BayX → BayX) : (s.updBay b f).fab = s.fab := rfl
@[simp] theorem State.updBay_map (b : Nat) (f : BayX → BayX) : (s.updBay b f).map = s.map := rfl
@[simp] theorem State.updBay_leases (b : Nat) (f : BayX → BayX) : (s.updBay b f).leases = s.leases := rfl
@[simp] theorem State.updBay_leaseWaits (b : Nat) (f : BayX → BayX) : (s.updBay b f).leaseWaits = s.leaseWaits := rfl
@[simp] theorem State.updBay_out (b : Nat) (f : BayX → BayX) : (s.updBay b f).out = s.out := rfl
@[simp] theorem State.updBay_free (b : Nat) (f : BayX → BayX) : (s.updBay b f).free = s.free := rfl
@[simp] theorem State.updBay_pending (b : Nat) (f : BayX → BayX) : (s.updBay b f).pending = s.pending := rfl
@[simp] theorem State.updBay_was (b : Nat) (f : BayX → BayX) : (s.updBay b f).was = s.was := rfl

/-! ### quieten -/

@[simp] theorem State.quieten_ec (b : Nat) : (s.quieten b).ec = s.ec := rfl
@[simp] theorem State.quieten_xtal (b : Nat) : (s.quieten b).xtal = s.xtal := rfl
@[simp] theorem State.quieten_regs (b : Nat) : (s.quieten b).regs = s.regs := rfl
@[simp] theorem State.quieten_g (b : Nat) : (s.quieten b).g = s.g := rfl
@[simp] theorem State.quieten_v (b : Nat) : (s.quieten b).v = s.v := rfl
@[simp] theorem State.quieten_t (b : Nat) : (s.quieten b).t = s.t := rfl
@[simp] theorem State.quieten_p (b : Nat) : (s.quieten b).p = s.p := rfl
@[simp] theorem State.quieten_mem (b : Nat) : (s.quieten b).mem = s.mem := rfl
@[simp] theorem State.quieten_seals (b : Nat) : (s.quieten b).seals = s.seals := rfl
@[simp] theorem State.quieten_eccErr (b : Nat) : (s.quieten b).eccErr = s.eccErr := rfl
@[simp] theorem State.quieten_easels (b : Nat) : (s.quieten b).easels = s.easels := rfl
@[simp] theorem State.quieten_stackXs (b : Nat) : (s.quieten b).stackXs = s.stackXs := rfl
@[simp] theorem State.quieten_cat (b : Nat) : (s.quieten b).cat = s.cat := rfl
@[simp] theorem State.quieten_catBad (b : Nat) : (s.quieten b).catBad = s.catBad := rfl
@[simp] theorem State.quieten_catc (b : Nat) : (s.quieten b).catc = s.catc := rfl
@[simp] theorem State.quieten_heat (b : Nat) : (s.quieten b).heat = s.heat := rfl
@[simp] theorem State.quieten_flash (b : Nat) : (s.quieten b).flash = s.flash := rfl
@[simp] theorem State.quieten_flashAll (b : Nat) : (s.quieten b).flashAll = s.flashAll := rfl
@[simp] theorem State.quieten_host (b : Nat) : (s.quieten b).host = s.host := rfl
@[simp] theorem State.quieten_keys (b : Nat) : (s.quieten b).keys = s.keys := rfl
@[simp] theorem State.quieten_kidNext (b : Nat) : (s.quieten b).kidNext = s.kidNext := rfl
@[simp] theorem State.quieten_rot (b : Nat) : (s.quieten b).rot = s.rot := rfl
@[simp] theorem State.quieten_pwr (b : Nat) : (s.quieten b).pwr = s.pwr := rfl
@[simp] theorem State.quieten_boot (b : Nat) : (s.quieten b).boot = s.boot := rfl
@[simp] theorem State.quieten_frames (b : Nat) : (s.quieten b).frames = s.frames := rfl
@[simp] theorem State.quieten_mesh (b : Nat) : (s.quieten b).mesh = s.mesh := rfl
@[simp] theorem State.quieten_repair (b : Nat) : (s.quieten b).repair = s.repair := rfl
@[simp] theorem State.quieten_repairDue (b : Nat) : (s.quieten b).repairDue = s.repairDue := rfl
@[simp] theorem State.quieten_pair (b : Nat) : (s.quieten b).pair = s.pair := rfl
@[simp] theorem State.quieten_fab (b : Nat) : (s.quieten b).fab = s.fab := rfl
@[simp] theorem State.quieten_map (b : Nat) : (s.quieten b).map = s.map := rfl
@[simp] theorem State.quieten_leases (b : Nat) : (s.quieten b).leases = s.leases := rfl
@[simp] theorem State.quieten_leaseWaits (b : Nat) : (s.quieten b).leaseWaits = s.leaseWaits := rfl
@[simp] theorem State.quieten_out (b : Nat) : (s.quieten b).out = s.out := rfl
@[simp] theorem State.quieten_free (b : Nat) : (s.quieten b).free = s.free := rfl
@[simp] theorem State.quieten_pending (b : Nat) : (s.quieten b).pending = s.pending := rfl
@[simp] theorem State.quieten_was (b : Nat) : (s.quieten b).was = s.was := rfl

/-! ### setStk -/

@[simp] theorem State.setStk_ec (b : Nat) (y : StackX) : (s.setStk b y).ec = s.ec := rfl
@[simp] theorem State.setStk_xtal (b : Nat) (y : StackX) : (s.setStk b y).xtal = s.xtal := rfl
@[simp] theorem State.setStk_regs (b : Nat) (y : StackX) : (s.setStk b y).regs = s.regs := rfl
@[simp] theorem State.setStk_g (b : Nat) (y : StackX) : (s.setStk b y).g = s.g := rfl
@[simp] theorem State.setStk_v (b : Nat) (y : StackX) : (s.setStk b y).v = s.v := rfl
@[simp] theorem State.setStk_t (b : Nat) (y : StackX) : (s.setStk b y).t = s.t := rfl
@[simp] theorem State.setStk_p (b : Nat) (y : StackX) : (s.setStk b y).p = s.p := rfl
@[simp] theorem State.setStk_mem (b : Nat) (y : StackX) : (s.setStk b y).mem = s.mem := rfl
@[simp] theorem State.setStk_seals (b : Nat) (y : StackX) : (s.setStk b y).seals = s.seals := rfl
@[simp] theorem State.setStk_eccErr (b : Nat) (y : StackX) : (s.setStk b y).eccErr = s.eccErr := rfl
@[simp] theorem State.setStk_easels (b : Nat) (y : StackX) : (s.setStk b y).easels = s.easels := rfl
@[simp] theorem State.setStk_bays (b : Nat) (y : StackX) : (s.setStk b y).bays = s.bays := rfl
@[simp] theorem State.setStk_cat (b : Nat) (y : StackX) : (s.setStk b y).cat = s.cat := rfl
@[simp] theorem State.setStk_catBad (b : Nat) (y : StackX) : (s.setStk b y).catBad = s.catBad := rfl
@[simp] theorem State.setStk_catc (b : Nat) (y : StackX) : (s.setStk b y).catc = s.catc := rfl
@[simp] theorem State.setStk_heat (b : Nat) (y : StackX) : (s.setStk b y).heat = s.heat := rfl
@[simp] theorem State.setStk_flash (b : Nat) (y : StackX) : (s.setStk b y).flash = s.flash := rfl
@[simp] theorem State.setStk_flashAll (b : Nat) (y : StackX) : (s.setStk b y).flashAll = s.flashAll := rfl
@[simp] theorem State.setStk_host (b : Nat) (y : StackX) : (s.setStk b y).host = s.host := rfl
@[simp] theorem State.setStk_keys (b : Nat) (y : StackX) : (s.setStk b y).keys = s.keys := rfl
@[simp] theorem State.setStk_kidNext (b : Nat) (y : StackX) : (s.setStk b y).kidNext = s.kidNext := rfl
@[simp] theorem State.setStk_rot (b : Nat) (y : StackX) : (s.setStk b y).rot = s.rot := rfl
@[simp] theorem State.setStk_pwr (b : Nat) (y : StackX) : (s.setStk b y).pwr = s.pwr := rfl
@[simp] theorem State.setStk_boot (b : Nat) (y : StackX) : (s.setStk b y).boot = s.boot := rfl
@[simp] theorem State.setStk_frames (b : Nat) (y : StackX) : (s.setStk b y).frames = s.frames := rfl
@[simp] theorem State.setStk_mesh (b : Nat) (y : StackX) : (s.setStk b y).mesh = s.mesh := rfl
@[simp] theorem State.setStk_repair (b : Nat) (y : StackX) : (s.setStk b y).repair = s.repair := rfl
@[simp] theorem State.setStk_repairDue (b : Nat) (y : StackX) : (s.setStk b y).repairDue = s.repairDue := rfl
@[simp] theorem State.setStk_pair (b : Nat) (y : StackX) : (s.setStk b y).pair = s.pair := rfl
@[simp] theorem State.setStk_fab (b : Nat) (y : StackX) : (s.setStk b y).fab = s.fab := rfl
@[simp] theorem State.setStk_map (b : Nat) (y : StackX) : (s.setStk b y).map = s.map := rfl
@[simp] theorem State.setStk_leases (b : Nat) (y : StackX) : (s.setStk b y).leases = s.leases := rfl
@[simp] theorem State.setStk_leaseWaits (b : Nat) (y : StackX) : (s.setStk b y).leaseWaits = s.leaseWaits := rfl
@[simp] theorem State.setStk_out (b : Nat) (y : StackX) : (s.setStk b y).out = s.out := rfl
@[simp] theorem State.setStk_free (b : Nat) (y : StackX) : (s.setStk b y).free = s.free := rfl
@[simp] theorem State.setStk_pending (b : Nat) (y : StackX) : (s.setStk b y).pending = s.pending := rfl
@[simp] theorem State.setStk_was (b : Nat) (y : StackX) : (s.setStk b y).was = s.was := rfl

/-! ### updStk -/

@[simp] theorem State.updStk_ec (b : Nat) (f : StackX → StackX) : (s.updStk b f).ec = s.ec := rfl
@[simp] theorem State.updStk_xtal (b : Nat) (f : StackX → StackX) : (s.updStk b f).xtal = s.xtal := rfl
@[simp] theorem State.updStk_regs (b : Nat) (f : StackX → StackX) : (s.updStk b f).regs = s.regs := rfl
@[simp] theorem State.updStk_g (b : Nat) (f : StackX → StackX) : (s.updStk b f).g = s.g := rfl
@[simp] theorem State.updStk_v (b : Nat) (f : StackX → StackX) : (s.updStk b f).v = s.v := rfl
@[simp] theorem State.updStk_t (b : Nat) (f : StackX → StackX) : (s.updStk b f).t = s.t := rfl
@[simp] theorem State.updStk_p (b : Nat) (f : StackX → StackX) : (s.updStk b f).p = s.p := rfl
@[simp] theorem State.updStk_mem (b : Nat) (f : StackX → StackX) : (s.updStk b f).mem = s.mem := rfl
@[simp] theorem State.updStk_seals (b : Nat) (f : StackX → StackX) : (s.updStk b f).seals = s.seals := rfl
@[simp] theorem State.updStk_eccErr (b : Nat) (f : StackX → StackX) : (s.updStk b f).eccErr = s.eccErr := rfl
@[simp] theorem State.updStk_easels (b : Nat) (f : StackX → StackX) : (s.updStk b f).easels = s.easels := rfl
@[simp] theorem State.updStk_bays (b : Nat) (f : StackX → StackX) : (s.updStk b f).bays = s.bays := rfl
@[simp] theorem State.updStk_cat (b : Nat) (f : StackX → StackX) : (s.updStk b f).cat = s.cat := rfl
@[simp] theorem State.updStk_catBad (b : Nat) (f : StackX → StackX) : (s.updStk b f).catBad = s.catBad := rfl
@[simp] theorem State.updStk_catc (b : Nat) (f : StackX → StackX) : (s.updStk b f).catc = s.catc := rfl
@[simp] theorem State.updStk_heat (b : Nat) (f : StackX → StackX) : (s.updStk b f).heat = s.heat := rfl
@[simp] theorem State.updStk_flash (b : Nat) (f : StackX → StackX) : (s.updStk b f).flash = s.flash := rfl
@[simp] theorem State.updStk_flashAll (b : Nat) (f : StackX → StackX) : (s.updStk b f).flashAll = s.flashAll := rfl
@[simp] theorem State.updStk_host (b : Nat) (f : StackX → StackX) : (s.updStk b f).host = s.host := rfl
@[simp] theorem State.updStk_keys (b : Nat) (f : StackX → StackX) : (s.updStk b f).keys = s.keys := rfl
@[simp] theorem State.updStk_kidNext (b : Nat) (f : StackX → StackX) : (s.updStk b f).kidNext = s.kidNext := rfl
@[simp] theorem State.updStk_rot (b : Nat) (f : StackX → StackX) : (s.updStk b f).rot = s.rot := rfl
@[simp] theorem State.updStk_pwr (b : Nat) (f : StackX → StackX) : (s.updStk b f).pwr = s.pwr := rfl
@[simp] theorem State.updStk_boot (b : Nat) (f : StackX → StackX) : (s.updStk b f).boot = s.boot := rfl
@[simp] theorem State.updStk_frames (b : Nat) (f : StackX → StackX) : (s.updStk b f).frames = s.frames := rfl
@[simp] theorem State.updStk_mesh (b : Nat) (f : StackX → StackX) : (s.updStk b f).mesh = s.mesh := rfl
@[simp] theorem State.updStk_repair (b : Nat) (f : StackX → StackX) : (s.updStk b f).repair = s.repair := rfl
@[simp] theorem State.updStk_repairDue (b : Nat) (f : StackX → StackX) : (s.updStk b f).repairDue = s.repairDue := rfl
@[simp] theorem State.updStk_pair (b : Nat) (f : StackX → StackX) : (s.updStk b f).pair = s.pair := rfl
@[simp] theorem State.updStk_fab (b : Nat) (f : StackX → StackX) : (s.updStk b f).fab = s.fab := rfl
@[simp] theorem State.updStk_map (b : Nat) (f : StackX → StackX) : (s.updStk b f).map = s.map := rfl
@[simp] theorem State.updStk_leases (b : Nat) (f : StackX → StackX) : (s.updStk b f).leases = s.leases := rfl
@[simp] theorem State.updStk_leaseWaits (b : Nat) (f : StackX → StackX) : (s.updStk b f).leaseWaits = s.leaseWaits := rfl
@[simp] theorem State.updStk_out (b : Nat) (f : StackX → StackX) : (s.updStk b f).out = s.out := rfl
@[simp] theorem State.updStk_free (b : Nat) (f : StackX → StackX) : (s.updStk b f).free = s.free := rfl
@[simp] theorem State.updStk_pending (b : Nat) (f : StackX → StackX) : (s.updStk b f).pending = s.pending := rfl
@[simp] theorem State.updStk_was (b : Nat) (f : StackX → StackX) : (s.updStk b f).was = s.was := rfl

/-! ### setKey -/

@[simp] theorem State.setKey_ec (k : Nat) (y : KeyX) : (s.setKey k y).ec = s.ec := rfl
@[simp] theorem State.setKey_xtal (k : Nat) (y : KeyX) : (s.setKey k y).xtal = s.xtal := rfl
@[simp] theorem State.setKey_regs (k : Nat) (y : KeyX) : (s.setKey k y).regs = s.regs := rfl
@[simp] theorem State.setKey_g (k : Nat) (y : KeyX) : (s.setKey k y).g = s.g := rfl
@[simp] theorem State.setKey_v (k : Nat) (y : KeyX) : (s.setKey k y).v = s.v := rfl
@[simp] theorem State.setKey_t (k : Nat) (y : KeyX) : (s.setKey k y).t = s.t := rfl
@[simp] theorem State.setKey_p (k : Nat) (y : KeyX) : (s.setKey k y).p = s.p := rfl
@[simp] theorem State.setKey_mem (k : Nat) (y : KeyX) : (s.setKey k y).mem = s.mem := rfl
@[simp] theorem State.setKey_seals (k : Nat) (y : KeyX) : (s.setKey k y).seals = s.seals := rfl
@[simp] theorem State.setKey_eccErr (k : Nat) (y : KeyX) : (s.setKey k y).eccErr = s.eccErr := rfl
@[simp] theorem State.setKey_easels (k : Nat) (y : KeyX) : (s.setKey k y).easels = s.easels := rfl
@[simp] theorem State.setKey_bays (k : Nat) (y : KeyX) : (s.setKey k y).bays = s.bays := rfl
@[simp] theorem State.setKey_stackXs (k : Nat) (y : KeyX) : (s.setKey k y).stackXs = s.stackXs := rfl
@[simp] theorem State.setKey_cat (k : Nat) (y : KeyX) : (s.setKey k y).cat = s.cat := rfl
@[simp] theorem State.setKey_catBad (k : Nat) (y : KeyX) : (s.setKey k y).catBad = s.catBad := rfl
@[simp] theorem State.setKey_catc (k : Nat) (y : KeyX) : (s.setKey k y).catc = s.catc := rfl
@[simp] theorem State.setKey_heat (k : Nat) (y : KeyX) : (s.setKey k y).heat = s.heat := rfl
@[simp] theorem State.setKey_flash (k : Nat) (y : KeyX) : (s.setKey k y).flash = s.flash := rfl
@[simp] theorem State.setKey_flashAll (k : Nat) (y : KeyX) : (s.setKey k y).flashAll = s.flashAll := rfl
@[simp] theorem State.setKey_host (k : Nat) (y : KeyX) : (s.setKey k y).host = s.host := rfl
@[simp] theorem State.setKey_kidNext (k : Nat) (y : KeyX) : (s.setKey k y).kidNext = s.kidNext := rfl
@[simp] theorem State.setKey_rot (k : Nat) (y : KeyX) : (s.setKey k y).rot = s.rot := rfl
@[simp] theorem State.setKey_pwr (k : Nat) (y : KeyX) : (s.setKey k y).pwr = s.pwr := rfl
@[simp] theorem State.setKey_boot (k : Nat) (y : KeyX) : (s.setKey k y).boot = s.boot := rfl
@[simp] theorem State.setKey_frames (k : Nat) (y : KeyX) : (s.setKey k y).frames = s.frames := rfl
@[simp] theorem State.setKey_mesh (k : Nat) (y : KeyX) : (s.setKey k y).mesh = s.mesh := rfl
@[simp] theorem State.setKey_repair (k : Nat) (y : KeyX) : (s.setKey k y).repair = s.repair := rfl
@[simp] theorem State.setKey_repairDue (k : Nat) (y : KeyX) : (s.setKey k y).repairDue = s.repairDue := rfl
@[simp] theorem State.setKey_pair (k : Nat) (y : KeyX) : (s.setKey k y).pair = s.pair := rfl
@[simp] theorem State.setKey_fab (k : Nat) (y : KeyX) : (s.setKey k y).fab = s.fab := rfl
@[simp] theorem State.setKey_map (k : Nat) (y : KeyX) : (s.setKey k y).map = s.map := rfl
@[simp] theorem State.setKey_leases (k : Nat) (y : KeyX) : (s.setKey k y).leases = s.leases := rfl
@[simp] theorem State.setKey_leaseWaits (k : Nat) (y : KeyX) : (s.setKey k y).leaseWaits = s.leaseWaits := rfl
@[simp] theorem State.setKey_out (k : Nat) (y : KeyX) : (s.setKey k y).out = s.out := rfl
@[simp] theorem State.setKey_free (k : Nat) (y : KeyX) : (s.setKey k y).free = s.free := rfl
@[simp] theorem State.setKey_pending (k : Nat) (y : KeyX) : (s.setKey k y).pending = s.pending := rfl
@[simp] theorem State.setKey_was (k : Nat) (y : KeyX) : (s.setKey k y).was = s.was := rfl

/-! ### setHq -/

@[simp] theorem State.setHq_ec (q : Nat) (y : HqX) : (s.setHq q y).ec = s.ec := rfl
@[simp] theorem State.setHq_xtal (q : Nat) (y : HqX) : (s.setHq q y).xtal = s.xtal := rfl
@[simp] theorem State.setHq_regs (q : Nat) (y : HqX) : (s.setHq q y).regs = s.regs := rfl
@[simp] theorem State.setHq_g (q : Nat) (y : HqX) : (s.setHq q y).g = s.g := rfl
@[simp] theorem State.setHq_v (q : Nat) (y : HqX) : (s.setHq q y).v = s.v := rfl
@[simp] theorem State.setHq_t (q : Nat) (y : HqX) : (s.setHq q y).t = s.t := rfl
@[simp] theorem State.setHq_p (q : Nat) (y : HqX) : (s.setHq q y).p = s.p := rfl
@[simp] theorem State.setHq_mem (q : Nat) (y : HqX) : (s.setHq q y).mem = s.mem := rfl
@[simp] theorem State.setHq_seals (q : Nat) (y : HqX) : (s.setHq q y).seals = s.seals := rfl
@[simp] theorem State.setHq_eccErr (q : Nat) (y : HqX) : (s.setHq q y).eccErr = s.eccErr := rfl
@[simp] theorem State.setHq_easels (q : Nat) (y : HqX) : (s.setHq q y).easels = s.easels := rfl
@[simp] theorem State.setHq_bays (q : Nat) (y : HqX) : (s.setHq q y).bays = s.bays := rfl
@[simp] theorem State.setHq_stackXs (q : Nat) (y : HqX) : (s.setHq q y).stackXs = s.stackXs := rfl
@[simp] theorem State.setHq_cat (q : Nat) (y : HqX) : (s.setHq q y).cat = s.cat := rfl
@[simp] theorem State.setHq_catBad (q : Nat) (y : HqX) : (s.setHq q y).catBad = s.catBad := rfl
@[simp] theorem State.setHq_catc (q : Nat) (y : HqX) : (s.setHq q y).catc = s.catc := rfl
@[simp] theorem State.setHq_heat (q : Nat) (y : HqX) : (s.setHq q y).heat = s.heat := rfl
@[simp] theorem State.setHq_flash (q : Nat) (y : HqX) : (s.setHq q y).flash = s.flash := rfl
@[simp] theorem State.setHq_flashAll (q : Nat) (y : HqX) : (s.setHq q y).flashAll = s.flashAll := rfl
@[simp] theorem State.setHq_keys (q : Nat) (y : HqX) : (s.setHq q y).keys = s.keys := rfl
@[simp] theorem State.setHq_kidNext (q : Nat) (y : HqX) : (s.setHq q y).kidNext = s.kidNext := rfl
@[simp] theorem State.setHq_rot (q : Nat) (y : HqX) : (s.setHq q y).rot = s.rot := rfl
@[simp] theorem State.setHq_pwr (q : Nat) (y : HqX) : (s.setHq q y).pwr = s.pwr := rfl
@[simp] theorem State.setHq_boot (q : Nat) (y : HqX) : (s.setHq q y).boot = s.boot := rfl
@[simp] theorem State.setHq_frames (q : Nat) (y : HqX) : (s.setHq q y).frames = s.frames := rfl
@[simp] theorem State.setHq_mesh (q : Nat) (y : HqX) : (s.setHq q y).mesh = s.mesh := rfl
@[simp] theorem State.setHq_repair (q : Nat) (y : HqX) : (s.setHq q y).repair = s.repair := rfl
@[simp] theorem State.setHq_repairDue (q : Nat) (y : HqX) : (s.setHq q y).repairDue = s.repairDue := rfl
@[simp] theorem State.setHq_pair (q : Nat) (y : HqX) : (s.setHq q y).pair = s.pair := rfl
@[simp] theorem State.setHq_fab (q : Nat) (y : HqX) : (s.setHq q y).fab = s.fab := rfl
@[simp] theorem State.setHq_map (q : Nat) (y : HqX) : (s.setHq q y).map = s.map := rfl
@[simp] theorem State.setHq_leases (q : Nat) (y : HqX) : (s.setHq q y).leases = s.leases := rfl
@[simp] theorem State.setHq_leaseWaits (q : Nat) (y : HqX) : (s.setHq q y).leaseWaits = s.leaseWaits := rfl
@[simp] theorem State.setHq_out (q : Nat) (y : HqX) : (s.setHq q y).out = s.out := rfl
@[simp] theorem State.setHq_free (q : Nat) (y : HqX) : (s.setHq q y).free = s.free := rfl
@[simp] theorem State.setHq_pending (q : Nat) (y : HqX) : (s.setHq q y).pending = s.pending := rfl
@[simp] theorem State.setHq_was (q : Nat) (y : HqX) : (s.setHq q y).was = s.was := rfl

/-! ### emit -/

@[simp] theorem State.emit_ec (o : Out) : (s.emit o).ec = s.ec := rfl
@[simp] theorem State.emit_xtal (o : Out) : (s.emit o).xtal = s.xtal := rfl
@[simp] theorem State.emit_regs (o : Out) : (s.emit o).regs = s.regs := rfl
@[simp] theorem State.emit_g (o : Out) : (s.emit o).g = s.g := rfl
@[simp] theorem State.emit_v (o : Out) : (s.emit o).v = s.v := rfl
@[simp] theorem State.emit_t (o : Out) : (s.emit o).t = s.t := rfl
@[simp] theorem State.emit_p (o : Out) : (s.emit o).p = s.p := rfl
@[simp] theorem State.emit_mem (o : Out) : (s.emit o).mem = s.mem := rfl
@[simp] theorem State.emit_seals (o : Out) : (s.emit o).seals = s.seals := rfl
@[simp] theorem State.emit_eccErr (o : Out) : (s.emit o).eccErr = s.eccErr := rfl
@[simp] theorem State.emit_easels (o : Out) : (s.emit o).easels = s.easels := rfl
@[simp] theorem State.emit_bays (o : Out) : (s.emit o).bays = s.bays := rfl
@[simp] theorem State.emit_stackXs (o : Out) : (s.emit o).stackXs = s.stackXs := rfl
@[simp] theorem State.emit_cat (o : Out) : (s.emit o).cat = s.cat := rfl
@[simp] theorem State.emit_catBad (o : Out) : (s.emit o).catBad = s.catBad := rfl
@[simp] theorem State.emit_catc (o : Out) : (s.emit o).catc = s.catc := rfl
@[simp] theorem State.emit_heat (o : Out) : (s.emit o).heat = s.heat := rfl
@[simp] theorem State.emit_flash (o : Out) : (s.emit o).flash = s.flash := rfl
@[simp] theorem State.emit_flashAll (o : Out) : (s.emit o).flashAll = s.flashAll := rfl
@[simp] theorem State.emit_host (o : Out) : (s.emit o).host = s.host := rfl
@[simp] theorem State.emit_keys (o : Out) : (s.emit o).keys = s.keys := rfl
@[simp] theorem State.emit_kidNext (o : Out) : (s.emit o).kidNext = s.kidNext := rfl
@[simp] theorem State.emit_rot (o : Out) : (s.emit o).rot = s.rot := rfl
@[simp] theorem State.emit_pwr (o : Out) : (s.emit o).pwr = s.pwr := rfl
@[simp] theorem State.emit_boot (o : Out) : (s.emit o).boot = s.boot := rfl
@[simp] theorem State.emit_frames (o : Out) : (s.emit o).frames = s.frames := rfl
@[simp] theorem State.emit_mesh (o : Out) : (s.emit o).mesh = s.mesh := rfl
@[simp] theorem State.emit_repair (o : Out) : (s.emit o).repair = s.repair := rfl
@[simp] theorem State.emit_repairDue (o : Out) : (s.emit o).repairDue = s.repairDue := rfl
@[simp] theorem State.emit_pair (o : Out) : (s.emit o).pair = s.pair := rfl
@[simp] theorem State.emit_fab (o : Out) : (s.emit o).fab = s.fab := rfl
@[simp] theorem State.emit_map (o : Out) : (s.emit o).map = s.map := rfl
@[simp] theorem State.emit_leases (o : Out) : (s.emit o).leases = s.leases := rfl
@[simp] theorem State.emit_leaseWaits (o : Out) : (s.emit o).leaseWaits = s.leaseWaits := rfl
@[simp] theorem State.emit_free (o : Out) : (s.emit o).free = s.free := rfl
@[simp] theorem State.emit_pending (o : Out) : (s.emit o).pending = s.pending := rfl
@[simp] theorem State.emit_was (o : Out) : (s.emit o).was = s.was := rfl

/-! ### setBytes -/

@[simp] theorem State.setBytes_ec (a : Nat) (bs : List Byte) : (s.setBytes a bs).ec = s.ec := rfl
@[simp] theorem State.setBytes_xtal (a : Nat) (bs : List Byte) : (s.setBytes a bs).xtal = s.xtal := rfl
@[simp] theorem State.setBytes_regs (a : Nat) (bs : List Byte) : (s.setBytes a bs).regs = s.regs := rfl
@[simp] theorem State.setBytes_g (a : Nat) (bs : List Byte) : (s.setBytes a bs).g = s.g := rfl
@[simp] theorem State.setBytes_v (a : Nat) (bs : List Byte) : (s.setBytes a bs).v = s.v := rfl
@[simp] theorem State.setBytes_t (a : Nat) (bs : List Byte) : (s.setBytes a bs).t = s.t := rfl
@[simp] theorem State.setBytes_p (a : Nat) (bs : List Byte) : (s.setBytes a bs).p = s.p := rfl
@[simp] theorem State.setBytes_seals (a : Nat) (bs : List Byte) : (s.setBytes a bs).seals = s.seals := rfl
@[simp] theorem State.setBytes_eccErr (a : Nat) (bs : List Byte) : (s.setBytes a bs).eccErr = s.eccErr := rfl
@[simp] theorem State.setBytes_easels (a : Nat) (bs : List Byte) : (s.setBytes a bs).easels = s.easels := rfl
@[simp] theorem State.setBytes_bays (a : Nat) (bs : List Byte) : (s.setBytes a bs).bays = s.bays := rfl
@[simp] theorem State.setBytes_stackXs (a : Nat) (bs : List Byte) : (s.setBytes a bs).stackXs = s.stackXs := rfl
@[simp] theorem State.setBytes_cat (a : Nat) (bs : List Byte) : (s.setBytes a bs).cat = s.cat := rfl
@[simp] theorem State.setBytes_catBad (a : Nat) (bs : List Byte) : (s.setBytes a bs).catBad = s.catBad := rfl
@[simp] theorem State.setBytes_catc (a : Nat) (bs : List Byte) : (s.setBytes a bs).catc = s.catc := rfl
@[simp] theorem State.setBytes_heat (a : Nat) (bs : List Byte) : (s.setBytes a bs).heat = s.heat := rfl
@[simp] theorem State.setBytes_flash (a : Nat) (bs : List Byte) : (s.setBytes a bs).flash = s.flash := rfl
@[simp] theorem State.setBytes_flashAll (a : Nat) (bs : List Byte) : (s.setBytes a bs).flashAll = s.flashAll := rfl
@[simp] theorem State.setBytes_host (a : Nat) (bs : List Byte) : (s.setBytes a bs).host = s.host := rfl
@[simp] theorem State.setBytes_keys (a : Nat) (bs : List Byte) : (s.setBytes a bs).keys = s.keys := rfl
@[simp] theorem State.setBytes_kidNext (a : Nat) (bs : List Byte) : (s.setBytes a bs).kidNext = s.kidNext := rfl
@[simp] theorem State.setBytes_rot (a : Nat) (bs : List Byte) : (s.setBytes a bs).rot = s.rot := rfl
@[simp] theorem State.setBytes_pwr (a : Nat) (bs : List Byte) : (s.setBytes a bs).pwr = s.pwr := rfl
@[simp] theorem State.setBytes_boot (a : Nat) (bs : List Byte) : (s.setBytes a bs).boot = s.boot := rfl
@[simp] theorem State.setBytes_frames (a : Nat) (bs : List Byte) : (s.setBytes a bs).frames = s.frames := rfl
@[simp] theorem State.setBytes_mesh (a : Nat) (bs : List Byte) : (s.setBytes a bs).mesh = s.mesh := rfl
@[simp] theorem State.setBytes_repair (a : Nat) (bs : List Byte) : (s.setBytes a bs).repair = s.repair := rfl
@[simp] theorem State.setBytes_repairDue (a : Nat) (bs : List Byte) : (s.setBytes a bs).repairDue = s.repairDue := rfl
@[simp] theorem State.setBytes_pair (a : Nat) (bs : List Byte) : (s.setBytes a bs).pair = s.pair := rfl
@[simp] theorem State.setBytes_fab (a : Nat) (bs : List Byte) : (s.setBytes a bs).fab = s.fab := rfl
@[simp] theorem State.setBytes_map (a : Nat) (bs : List Byte) : (s.setBytes a bs).map = s.map := rfl
@[simp] theorem State.setBytes_leases (a : Nat) (bs : List Byte) : (s.setBytes a bs).leases = s.leases := rfl
@[simp] theorem State.setBytes_leaseWaits (a : Nat) (bs : List Byte) : (s.setBytes a bs).leaseWaits = s.leaseWaits := rfl
@[simp] theorem State.setBytes_out (a : Nat) (bs : List Byte) : (s.setBytes a bs).out = s.out := rfl
@[simp] theorem State.setBytes_free (a : Nat) (bs : List Byte) : (s.setBytes a bs).free = s.free := rfl
@[simp] theorem State.setBytes_pending (a : Nat) (bs : List Byte) : (s.setBytes a bs).pending = s.pending := rfl
@[simp] theorem State.setBytes_was (a : Nat) (bs : List Byte) : (s.setBytes a bs).was = s.was := rfl

/-! ### setV -/

@[simp] theorem State.setV_ec (x : Ea) (r : Nat) (y : Vec) : (s.setV x r y).ec = s.ec := rfl
@[simp] theorem State.setV_xtal (x : Ea) (r : Nat) (y : Vec) : (s.setV x r y).xtal = s.xtal := rfl
@[simp] theorem State.setV_regs (x : Ea) (r : Nat) (y : Vec) : (s.setV x r y).regs = s.regs := rfl
@[simp] theorem State.setV_g (x : Ea) (r : Nat) (y : Vec) : (s.setV x r y).g = s.g := rfl
@[simp] theorem State.setV_t (x : Ea) (r : Nat) (y : Vec) : (s.setV x r y).t = s.t := rfl
@[simp] theorem State.setV_p (x : Ea) (r : Nat) (y : Vec) : (s.setV x r y).p = s.p := rfl
@[simp] theorem State.setV_mem (x : Ea) (r : Nat) (y : Vec) : (s.setV x r y).mem = s.mem := rfl
@[simp] theorem State.setV_seals (x : Ea) (r : Nat) (y : Vec) : (s.setV x r y).seals = s.seals := rfl
@[simp] theorem State.setV_eccErr (x : Ea) (r : Nat) (y : Vec) : (s.setV x r y).eccErr = s.eccErr := rfl
@[simp] theorem State.setV_easels (x : Ea) (r : Nat) (y : Vec) : (s.setV x r y).easels = s.easels := rfl
@[simp] theorem State.setV_bays (x : Ea) (r : Nat) (y : Vec) : (s.setV x r y).bays = s.bays := rfl
@[simp] theorem State.setV_stackXs (x : Ea) (r : Nat) (y : Vec) : (s.setV x r y).stackXs = s.stackXs := rfl
@[simp] theorem State.setV_cat (x : Ea) (r : Nat) (y : Vec) : (s.setV x r y).cat = s.cat := rfl
@[simp] theorem State.setV_catBad (x : Ea) (r : Nat) (y : Vec) : (s.setV x r y).catBad = s.catBad := rfl
@[simp] theorem State.setV_catc (x : Ea) (r : Nat) (y : Vec) : (s.setV x r y).catc = s.catc := rfl
@[simp] theorem State.setV_heat (x : Ea) (r : Nat) (y : Vec) : (s.setV x r y).heat = s.heat := rfl
@[simp] theorem State.setV_flash (x : Ea) (r : Nat) (y : Vec) : (s.setV x r y).flash = s.flash := rfl
@[simp] theorem State.setV_flashAll (x : Ea) (r : Nat) (y : Vec) : (s.setV x r y).flashAll = s.flashAll := rfl
@[simp] theorem State.setV_host (x : Ea) (r : Nat) (y : Vec) : (s.setV x r y).host = s.host := rfl
@[simp] theorem State.setV_keys (x : Ea) (r : Nat) (y : Vec) : (s.setV x r y).keys = s.keys := rfl
@[simp] theorem State.setV_kidNext (x : Ea) (r : Nat) (y : Vec) : (s.setV x r y).kidNext = s.kidNext := rfl
@[simp] theorem State.setV_rot (x : Ea) (r : Nat) (y : Vec) : (s.setV x r y).rot = s.rot := rfl
@[simp] theorem State.setV_pwr (x : Ea) (r : Nat) (y : Vec) : (s.setV x r y).pwr = s.pwr := rfl
@[simp] theorem State.setV_boot (x : Ea) (r : Nat) (y : Vec) : (s.setV x r y).boot = s.boot := rfl
@[simp] theorem State.setV_frames (x : Ea) (r : Nat) (y : Vec) : (s.setV x r y).frames = s.frames := rfl
@[simp] theorem State.setV_mesh (x : Ea) (r : Nat) (y : Vec) : (s.setV x r y).mesh = s.mesh := rfl
@[simp] theorem State.setV_repair (x : Ea) (r : Nat) (y : Vec) : (s.setV x r y).repair = s.repair := rfl
@[simp] theorem State.setV_repairDue (x : Ea) (r : Nat) (y : Vec) : (s.setV x r y).repairDue = s.repairDue := rfl
@[simp] theorem State.setV_pair (x : Ea) (r : Nat) (y : Vec) : (s.setV x r y).pair = s.pair := rfl
@[simp] theorem State.setV_fab (x : Ea) (r : Nat) (y : Vec) : (s.setV x r y).fab = s.fab := rfl
@[simp] theorem State.setV_map (x : Ea) (r : Nat) (y : Vec) : (s.setV x r y).map = s.map := rfl
@[simp] theorem State.setV_leases (x : Ea) (r : Nat) (y : Vec) : (s.setV x r y).leases = s.leases := rfl
@[simp] theorem State.setV_leaseWaits (x : Ea) (r : Nat) (y : Vec) : (s.setV x r y).leaseWaits = s.leaseWaits := rfl
@[simp] theorem State.setV_out (x : Ea) (r : Nat) (y : Vec) : (s.setV x r y).out = s.out := rfl
@[simp] theorem State.setV_free (x : Ea) (r : Nat) (y : Vec) : (s.setV x r y).free = s.free := rfl
@[simp] theorem State.setV_pending (x : Ea) (r : Nat) (y : Vec) : (s.setV x r y).pending = s.pending := rfl
@[simp] theorem State.setV_was (x : Ea) (r : Nat) (y : Vec) : (s.setV x r y).was = s.was := rfl

/-! ### setT -/

@[simp] theorem State.setT_ec (x : Ea) (r : Nat) (y : Tile) : (s.setT x r y).ec = s.ec := rfl
@[simp] theorem State.setT_xtal (x : Ea) (r : Nat) (y : Tile) : (s.setT x r y).xtal = s.xtal := rfl
@[simp] theorem State.setT_regs (x : Ea) (r : Nat) (y : Tile) : (s.setT x r y).regs = s.regs := rfl
@[simp] theorem State.setT_g (x : Ea) (r : Nat) (y : Tile) : (s.setT x r y).g = s.g := rfl
@[simp] theorem State.setT_v (x : Ea) (r : Nat) (y : Tile) : (s.setT x r y).v = s.v := rfl
@[simp] theorem State.setT_p (x : Ea) (r : Nat) (y : Tile) : (s.setT x r y).p = s.p := rfl
@[simp] theorem State.setT_mem (x : Ea) (r : Nat) (y : Tile) : (s.setT x r y).mem = s.mem := rfl
@[simp] theorem State.setT_seals (x : Ea) (r : Nat) (y : Tile) : (s.setT x r y).seals = s.seals := rfl
@[simp] theorem State.setT_eccErr (x : Ea) (r : Nat) (y : Tile) : (s.setT x r y).eccErr = s.eccErr := rfl
@[simp] theorem State.setT_easels (x : Ea) (r : Nat) (y : Tile) : (s.setT x r y).easels = s.easels := rfl
@[simp] theorem State.setT_bays (x : Ea) (r : Nat) (y : Tile) : (s.setT x r y).bays = s.bays := rfl
@[simp] theorem State.setT_stackXs (x : Ea) (r : Nat) (y : Tile) : (s.setT x r y).stackXs = s.stackXs := rfl
@[simp] theorem State.setT_cat (x : Ea) (r : Nat) (y : Tile) : (s.setT x r y).cat = s.cat := rfl
@[simp] theorem State.setT_catBad (x : Ea) (r : Nat) (y : Tile) : (s.setT x r y).catBad = s.catBad := rfl
@[simp] theorem State.setT_catc (x : Ea) (r : Nat) (y : Tile) : (s.setT x r y).catc = s.catc := rfl
@[simp] theorem State.setT_heat (x : Ea) (r : Nat) (y : Tile) : (s.setT x r y).heat = s.heat := rfl
@[simp] theorem State.setT_flash (x : Ea) (r : Nat) (y : Tile) : (s.setT x r y).flash = s.flash := rfl
@[simp] theorem State.setT_flashAll (x : Ea) (r : Nat) (y : Tile) : (s.setT x r y).flashAll = s.flashAll := rfl
@[simp] theorem State.setT_host (x : Ea) (r : Nat) (y : Tile) : (s.setT x r y).host = s.host := rfl
@[simp] theorem State.setT_keys (x : Ea) (r : Nat) (y : Tile) : (s.setT x r y).keys = s.keys := rfl
@[simp] theorem State.setT_kidNext (x : Ea) (r : Nat) (y : Tile) : (s.setT x r y).kidNext = s.kidNext := rfl
@[simp] theorem State.setT_rot (x : Ea) (r : Nat) (y : Tile) : (s.setT x r y).rot = s.rot := rfl
@[simp] theorem State.setT_pwr (x : Ea) (r : Nat) (y : Tile) : (s.setT x r y).pwr = s.pwr := rfl
@[simp] theorem State.setT_boot (x : Ea) (r : Nat) (y : Tile) : (s.setT x r y).boot = s.boot := rfl
@[simp] theorem State.setT_frames (x : Ea) (r : Nat) (y : Tile) : (s.setT x r y).frames = s.frames := rfl
@[simp] theorem State.setT_mesh (x : Ea) (r : Nat) (y : Tile) : (s.setT x r y).mesh = s.mesh := rfl
@[simp] theorem State.setT_repair (x : Ea) (r : Nat) (y : Tile) : (s.setT x r y).repair = s.repair := rfl
@[simp] theorem State.setT_repairDue (x : Ea) (r : Nat) (y : Tile) : (s.setT x r y).repairDue = s.repairDue := rfl
@[simp] theorem State.setT_pair (x : Ea) (r : Nat) (y : Tile) : (s.setT x r y).pair = s.pair := rfl
@[simp] theorem State.setT_fab (x : Ea) (r : Nat) (y : Tile) : (s.setT x r y).fab = s.fab := rfl
@[simp] theorem State.setT_map (x : Ea) (r : Nat) (y : Tile) : (s.setT x r y).map = s.map := rfl
@[simp] theorem State.setT_leases (x : Ea) (r : Nat) (y : Tile) : (s.setT x r y).leases = s.leases := rfl
@[simp] theorem State.setT_leaseWaits (x : Ea) (r : Nat) (y : Tile) : (s.setT x r y).leaseWaits = s.leaseWaits := rfl
@[simp] theorem State.setT_out (x : Ea) (r : Nat) (y : Tile) : (s.setT x r y).out = s.out := rfl
@[simp] theorem State.setT_free (x : Ea) (r : Nat) (y : Tile) : (s.setT x r y).free = s.free := rfl
@[simp] theorem State.setT_pending (x : Ea) (r : Nat) (y : Tile) : (s.setT x r y).pending = s.pending := rfl
@[simp] theorem State.setT_was (x : Ea) (r : Nat) (y : Tile) : (s.setT x r y).was = s.was := rfl

/-! ### setG -/

@[simp] theorem State.setG_ec (x : Ea) (r : Nat) (w : Word) : (s.setG x r w).ec = s.ec := by unfold State.setG; split <;> rfl
@[simp] theorem State.setG_xtal (x : Ea) (r : Nat) (w : Word) : (s.setG x r w).xtal = s.xtal := by unfold State.setG; split <;> rfl
@[simp] theorem State.setG_regs (x : Ea) (r : Nat) (w : Word) : (s.setG x r w).regs = s.regs := by unfold State.setG; split <;> rfl
@[simp] theorem State.setG_v (x : Ea) (r : Nat) (w : Word) : (s.setG x r w).v = s.v := by unfold State.setG; split <;> rfl
@[simp] theorem State.setG_t (x : Ea) (r : Nat) (w : Word) : (s.setG x r w).t = s.t := by unfold State.setG; split <;> rfl
@[simp] theorem State.setG_p (x : Ea) (r : Nat) (w : Word) : (s.setG x r w).p = s.p := by unfold State.setG; split <;> rfl
@[simp] theorem State.setG_mem (x : Ea) (r : Nat) (w : Word) : (s.setG x r w).mem = s.mem := by unfold State.setG; split <;> rfl
@[simp] theorem State.setG_seals (x : Ea) (r : Nat) (w : Word) : (s.setG x r w).seals = s.seals := by unfold State.setG; split <;> rfl
@[simp] theorem State.setG_eccErr (x : Ea) (r : Nat) (w : Word) : (s.setG x r w).eccErr = s.eccErr := by unfold State.setG; split <;> rfl
@[simp] theorem State.setG_easels (x : Ea) (r : Nat) (w : Word) : (s.setG x r w).easels = s.easels := by unfold State.setG; split <;> rfl
@[simp] theorem State.setG_bays (x : Ea) (r : Nat) (w : Word) : (s.setG x r w).bays = s.bays := by unfold State.setG; split <;> rfl
@[simp] theorem State.setG_stackXs (x : Ea) (r : Nat) (w : Word) : (s.setG x r w).stackXs = s.stackXs := by unfold State.setG; split <;> rfl
@[simp] theorem State.setG_cat (x : Ea) (r : Nat) (w : Word) : (s.setG x r w).cat = s.cat := by unfold State.setG; split <;> rfl
@[simp] theorem State.setG_catBad (x : Ea) (r : Nat) (w : Word) : (s.setG x r w).catBad = s.catBad := by unfold State.setG; split <;> rfl
@[simp] theorem State.setG_catc (x : Ea) (r : Nat) (w : Word) : (s.setG x r w).catc = s.catc := by unfold State.setG; split <;> rfl
@[simp] theorem State.setG_heat (x : Ea) (r : Nat) (w : Word) : (s.setG x r w).heat = s.heat := by unfold State.setG; split <;> rfl
@[simp] theorem State.setG_flash (x : Ea) (r : Nat) (w : Word) : (s.setG x r w).flash = s.flash := by unfold State.setG; split <;> rfl
@[simp] theorem State.setG_flashAll (x : Ea) (r : Nat) (w : Word) : (s.setG x r w).flashAll = s.flashAll := by unfold State.setG; split <;> rfl
@[simp] theorem State.setG_host (x : Ea) (r : Nat) (w : Word) : (s.setG x r w).host = s.host := by unfold State.setG; split <;> rfl
@[simp] theorem State.setG_keys (x : Ea) (r : Nat) (w : Word) : (s.setG x r w).keys = s.keys := by unfold State.setG; split <;> rfl
@[simp] theorem State.setG_kidNext (x : Ea) (r : Nat) (w : Word) : (s.setG x r w).kidNext = s.kidNext := by unfold State.setG; split <;> rfl
@[simp] theorem State.setG_rot (x : Ea) (r : Nat) (w : Word) : (s.setG x r w).rot = s.rot := by unfold State.setG; split <;> rfl
@[simp] theorem State.setG_pwr (x : Ea) (r : Nat) (w : Word) : (s.setG x r w).pwr = s.pwr := by unfold State.setG; split <;> rfl
@[simp] theorem State.setG_boot (x : Ea) (r : Nat) (w : Word) : (s.setG x r w).boot = s.boot := by unfold State.setG; split <;> rfl
@[simp] theorem State.setG_frames (x : Ea) (r : Nat) (w : Word) : (s.setG x r w).frames = s.frames := by unfold State.setG; split <;> rfl
@[simp] theorem State.setG_mesh (x : Ea) (r : Nat) (w : Word) : (s.setG x r w).mesh = s.mesh := by unfold State.setG; split <;> rfl
@[simp] theorem State.setG_repair (x : Ea) (r : Nat) (w : Word) : (s.setG x r w).repair = s.repair := by unfold State.setG; split <;> rfl
@[simp] theorem State.setG_repairDue (x : Ea) (r : Nat) (w : Word) : (s.setG x r w).repairDue = s.repairDue := by unfold State.setG; split <;> rfl
@[simp] theorem State.setG_pair (x : Ea) (r : Nat) (w : Word) : (s.setG x r w).pair = s.pair := by unfold State.setG; split <;> rfl
@[simp] theorem State.setG_fab (x : Ea) (r : Nat) (w : Word) : (s.setG x r w).fab = s.fab := by unfold State.setG; split <;> rfl
@[simp] theorem State.setG_map (x : Ea) (r : Nat) (w : Word) : (s.setG x r w).map = s.map := by unfold State.setG; split <;> rfl
@[simp] theorem State.setG_leases (x : Ea) (r : Nat) (w : Word) : (s.setG x r w).leases = s.leases := by unfold State.setG; split <;> rfl
@[simp] theorem State.setG_leaseWaits (x : Ea) (r : Nat) (w : Word) : (s.setG x r w).leaseWaits = s.leaseWaits := by unfold State.setG; split <;> rfl
@[simp] theorem State.setG_out (x : Ea) (r : Nat) (w : Word) : (s.setG x r w).out = s.out := by unfold State.setG; split <;> rfl
@[simp] theorem State.setG_free (x : Ea) (r : Nat) (w : Word) : (s.setG x r w).free = s.free := by unfold State.setG; split <;> rfl
@[simp] theorem State.setG_pending (x : Ea) (r : Nat) (w : Word) : (s.setG x r w).pending = s.pending := by unfold State.setG; split <;> rfl
@[simp] theorem State.setG_was (x : Ea) (r : Nat) (w : Word) : (s.setG x r w).was = s.was := by unfold State.setG; split <;> rfl

/-! ### setP -/

@[simp] theorem State.setP_ec (x : Ea) (r : Nat) (w : BitVec 128) : (s.setP x r w).ec = s.ec := by unfold State.setP; split <;> rfl
@[simp] theorem State.setP_xtal (x : Ea) (r : Nat) (w : BitVec 128) : (s.setP x r w).xtal = s.xtal := by unfold State.setP; split <;> rfl
@[simp] theorem State.setP_regs (x : Ea) (r : Nat) (w : BitVec 128) : (s.setP x r w).regs = s.regs := by unfold State.setP; split <;> rfl
@[simp] theorem State.setP_g (x : Ea) (r : Nat) (w : BitVec 128) : (s.setP x r w).g = s.g := by unfold State.setP; split <;> rfl
@[simp] theorem State.setP_v (x : Ea) (r : Nat) (w : BitVec 128) : (s.setP x r w).v = s.v := by unfold State.setP; split <;> rfl
@[simp] theorem State.setP_t (x : Ea) (r : Nat) (w : BitVec 128) : (s.setP x r w).t = s.t := by unfold State.setP; split <;> rfl
@[simp] theorem State.setP_mem (x : Ea) (r : Nat) (w : BitVec 128) : (s.setP x r w).mem = s.mem := by unfold State.setP; split <;> rfl
@[simp] theorem State.setP_seals (x : Ea) (r : Nat) (w : BitVec 128) : (s.setP x r w).seals = s.seals := by unfold State.setP; split <;> rfl
@[simp] theorem State.setP_eccErr (x : Ea) (r : Nat) (w : BitVec 128) : (s.setP x r w).eccErr = s.eccErr := by unfold State.setP; split <;> rfl
@[simp] theorem State.setP_easels (x : Ea) (r : Nat) (w : BitVec 128) : (s.setP x r w).easels = s.easels := by unfold State.setP; split <;> rfl
@[simp] theorem State.setP_bays (x : Ea) (r : Nat) (w : BitVec 128) : (s.setP x r w).bays = s.bays := by unfold State.setP; split <;> rfl
@[simp] theorem State.setP_stackXs (x : Ea) (r : Nat) (w : BitVec 128) : (s.setP x r w).stackXs = s.stackXs := by unfold State.setP; split <;> rfl
@[simp] theorem State.setP_cat (x : Ea) (r : Nat) (w : BitVec 128) : (s.setP x r w).cat = s.cat := by unfold State.setP; split <;> rfl
@[simp] theorem State.setP_catBad (x : Ea) (r : Nat) (w : BitVec 128) : (s.setP x r w).catBad = s.catBad := by unfold State.setP; split <;> rfl
@[simp] theorem State.setP_catc (x : Ea) (r : Nat) (w : BitVec 128) : (s.setP x r w).catc = s.catc := by unfold State.setP; split <;> rfl
@[simp] theorem State.setP_heat (x : Ea) (r : Nat) (w : BitVec 128) : (s.setP x r w).heat = s.heat := by unfold State.setP; split <;> rfl
@[simp] theorem State.setP_flash (x : Ea) (r : Nat) (w : BitVec 128) : (s.setP x r w).flash = s.flash := by unfold State.setP; split <;> rfl
@[simp] theorem State.setP_flashAll (x : Ea) (r : Nat) (w : BitVec 128) : (s.setP x r w).flashAll = s.flashAll := by unfold State.setP; split <;> rfl
@[simp] theorem State.setP_host (x : Ea) (r : Nat) (w : BitVec 128) : (s.setP x r w).host = s.host := by unfold State.setP; split <;> rfl
@[simp] theorem State.setP_keys (x : Ea) (r : Nat) (w : BitVec 128) : (s.setP x r w).keys = s.keys := by unfold State.setP; split <;> rfl
@[simp] theorem State.setP_kidNext (x : Ea) (r : Nat) (w : BitVec 128) : (s.setP x r w).kidNext = s.kidNext := by unfold State.setP; split <;> rfl
@[simp] theorem State.setP_rot (x : Ea) (r : Nat) (w : BitVec 128) : (s.setP x r w).rot = s.rot := by unfold State.setP; split <;> rfl
@[simp] theorem State.setP_pwr (x : Ea) (r : Nat) (w : BitVec 128) : (s.setP x r w).pwr = s.pwr := by unfold State.setP; split <;> rfl
@[simp] theorem State.setP_boot (x : Ea) (r : Nat) (w : BitVec 128) : (s.setP x r w).boot = s.boot := by unfold State.setP; split <;> rfl
@[simp] theorem State.setP_frames (x : Ea) (r : Nat) (w : BitVec 128) : (s.setP x r w).frames = s.frames := by unfold State.setP; split <;> rfl
@[simp] theorem State.setP_mesh (x : Ea) (r : Nat) (w : BitVec 128) : (s.setP x r w).mesh = s.mesh := by unfold State.setP; split <;> rfl
@[simp] theorem State.setP_repair (x : Ea) (r : Nat) (w : BitVec 128) : (s.setP x r w).repair = s.repair := by unfold State.setP; split <;> rfl
@[simp] theorem State.setP_repairDue (x : Ea) (r : Nat) (w : BitVec 128) : (s.setP x r w).repairDue = s.repairDue := by unfold State.setP; split <;> rfl
@[simp] theorem State.setP_pair (x : Ea) (r : Nat) (w : BitVec 128) : (s.setP x r w).pair = s.pair := by unfold State.setP; split <;> rfl
@[simp] theorem State.setP_fab (x : Ea) (r : Nat) (w : BitVec 128) : (s.setP x r w).fab = s.fab := by unfold State.setP; split <;> rfl
@[simp] theorem State.setP_map (x : Ea) (r : Nat) (w : BitVec 128) : (s.setP x r w).map = s.map := by unfold State.setP; split <;> rfl
@[simp] theorem State.setP_leases (x : Ea) (r : Nat) (w : BitVec 128) : (s.setP x r w).leases = s.leases := by unfold State.setP; split <;> rfl
@[simp] theorem State.setP_leaseWaits (x : Ea) (r : Nat) (w : BitVec 128) : (s.setP x r w).leaseWaits = s.leaseWaits := by unfold State.setP; split <;> rfl
@[simp] theorem State.setP_out (x : Ea) (r : Nat) (w : BitVec 128) : (s.setP x r w).out = s.out := by unfold State.setP; split <;> rfl
@[simp] theorem State.setP_free (x : Ea) (r : Nat) (w : BitVec 128) : (s.setP x r w).free = s.free := by unfold State.setP; split <;> rfl
@[simp] theorem State.setP_pending (x : Ea) (r : Nat) (w : BitVec 128) : (s.setP x r w).pending = s.pending := by unfold State.setP; split <;> rfl
@[simp] theorem State.setP_was (x : Ea) (r : Nat) (w : BitVec 128) : (s.setP x r w).was = s.was := by unfold State.setP; split <;> rfl

/-! ### setEst -/

@[simp] theorem State.setEst_ec (x : Ea) (n : Nat) : (s.setEst x n).ec = s.ec := by unfold State.setEst; split <;> rfl
@[simp] theorem State.setEst_xtal (x : Ea) (n : Nat) : (s.setEst x n).xtal = s.xtal := by unfold State.setEst; split <;> rfl
@[simp] theorem State.setEst_g (x : Ea) (n : Nat) : (s.setEst x n).g = s.g := by unfold State.setEst; split <;> rfl
@[simp] theorem State.setEst_v (x : Ea) (n : Nat) : (s.setEst x n).v = s.v := by unfold State.setEst; split <;> rfl
@[simp] theorem State.setEst_t (x : Ea) (n : Nat) : (s.setEst x n).t = s.t := by unfold State.setEst; split <;> rfl
@[simp] theorem State.setEst_p (x : Ea) (n : Nat) : (s.setEst x n).p = s.p := by unfold State.setEst; split <;> rfl
@[simp] theorem State.setEst_mem (x : Ea) (n : Nat) : (s.setEst x n).mem = s.mem := by unfold State.setEst; split <;> rfl
@[simp] theorem State.setEst_seals (x : Ea) (n : Nat) : (s.setEst x n).seals = s.seals := by unfold State.setEst; split <;> rfl
@[simp] theorem State.setEst_eccErr (x : Ea) (n : Nat) : (s.setEst x n).eccErr = s.eccErr := by unfold State.setEst; split <;> rfl
@[simp] theorem State.setEst_easels (x : Ea) (n : Nat) : (s.setEst x n).easels = s.easels := by unfold State.setEst; split <;> rfl
@[simp] theorem State.setEst_stackXs (x : Ea) (n : Nat) : (s.setEst x n).stackXs = s.stackXs := by unfold State.setEst; split <;> rfl
@[simp] theorem State.setEst_cat (x : Ea) (n : Nat) : (s.setEst x n).cat = s.cat := by unfold State.setEst; split <;> rfl
@[simp] theorem State.setEst_catBad (x : Ea) (n : Nat) : (s.setEst x n).catBad = s.catBad := by unfold State.setEst; split <;> rfl
@[simp] theorem State.setEst_catc (x : Ea) (n : Nat) : (s.setEst x n).catc = s.catc := by unfold State.setEst; split <;> rfl
@[simp] theorem State.setEst_heat (x : Ea) (n : Nat) : (s.setEst x n).heat = s.heat := by unfold State.setEst; split <;> rfl
@[simp] theorem State.setEst_flash (x : Ea) (n : Nat) : (s.setEst x n).flash = s.flash := by unfold State.setEst; split <;> rfl
@[simp] theorem State.setEst_flashAll (x : Ea) (n : Nat) : (s.setEst x n).flashAll = s.flashAll := by unfold State.setEst; split <;> rfl
@[simp] theorem State.setEst_host (x : Ea) (n : Nat) : (s.setEst x n).host = s.host := by unfold State.setEst; split <;> rfl
@[simp] theorem State.setEst_keys (x : Ea) (n : Nat) : (s.setEst x n).keys = s.keys := by unfold State.setEst; split <;> rfl
@[simp] theorem State.setEst_kidNext (x : Ea) (n : Nat) : (s.setEst x n).kidNext = s.kidNext := by unfold State.setEst; split <;> rfl
@[simp] theorem State.setEst_rot (x : Ea) (n : Nat) : (s.setEst x n).rot = s.rot := by unfold State.setEst; split <;> rfl
@[simp] theorem State.setEst_pwr (x : Ea) (n : Nat) : (s.setEst x n).pwr = s.pwr := by unfold State.setEst; split <;> rfl
@[simp] theorem State.setEst_boot (x : Ea) (n : Nat) : (s.setEst x n).boot = s.boot := by unfold State.setEst; split <;> rfl
@[simp] theorem State.setEst_frames (x : Ea) (n : Nat) : (s.setEst x n).frames = s.frames := by unfold State.setEst; split <;> rfl
@[simp] theorem State.setEst_mesh (x : Ea) (n : Nat) : (s.setEst x n).mesh = s.mesh := by unfold State.setEst; split <;> rfl
@[simp] theorem State.setEst_repair (x : Ea) (n : Nat) : (s.setEst x n).repair = s.repair := by unfold State.setEst; split <;> rfl
@[simp] theorem State.setEst_repairDue (x : Ea) (n : Nat) : (s.setEst x n).repairDue = s.repairDue := by unfold State.setEst; split <;> rfl
@[simp] theorem State.setEst_pair (x : Ea) (n : Nat) : (s.setEst x n).pair = s.pair := by unfold State.setEst; split <;> rfl
@[simp] theorem State.setEst_fab (x : Ea) (n : Nat) : (s.setEst x n).fab = s.fab := by unfold State.setEst; split <;> rfl
@[simp] theorem State.setEst_map (x : Ea) (n : Nat) : (s.setEst x n).map = s.map := by unfold State.setEst; split <;> rfl
@[simp] theorem State.setEst_leases (x : Ea) (n : Nat) : (s.setEst x n).leases = s.leases := by unfold State.setEst; split <;> rfl
@[simp] theorem State.setEst_leaseWaits (x : Ea) (n : Nat) : (s.setEst x n).leaseWaits = s.leaseWaits := by unfold State.setEst; split <;> rfl
@[simp] theorem State.setEst_out (x : Ea) (n : Nat) : (s.setEst x n).out = s.out := by unfold State.setEst; split <;> rfl
@[simp] theorem State.setEst_free (x : Ea) (n : Nat) : (s.setEst x n).free = s.free := by unfold State.setEst; split <;> rfl
@[simp] theorem State.setEst_pending (x : Ea) (n : Nat) : (s.setEst x n).pending = s.pending := by unfold State.setEst; split <;> rfl
@[simp] theorem State.setEst_was (x : Ea) (n : Nat) : (s.setEst x n).was = s.was := by unfold State.setEst; split <;> rfl

end Sys2Proof.Machine
end

