-- ==== Sys2Proof/Laws/Regs.lean ====
section
/-! SUPPORT. Laws of the register map: reading a register or a field after writing one. -/

namespace Sys2Proof.Machine

/-! ## Bit fields -/

/-- The parts a field cuts a number into. -/
theorem putBits_split (x lo w v : Nat) :
    putBits x lo w v = x % 2 ^ lo + 2 ^ lo * (v % 2 ^ w) + 2 ^ (lo + w) * (x / 2 ^ (lo + w)) := by
  unfold putBits bitsOf
  have h1 := Nat.div_add_mod x (2 ^ lo)
  have h2 := Nat.div_add_mod (x / 2 ^ lo) (2 ^ w)
  rw [Nat.div_div_eq_div_mul, ← Nat.pow_add] at h2
  have h3 : 2 ^ (lo + w) * (x / 2 ^ (lo + w)) = 2 ^ lo * (2 ^ w * (x / 2 ^ (lo + w))) := by
    rw [Nat.pow_add, Nat.mul_assoc]
  have h4 : 2 ^ lo * (x / 2 ^ lo) =
      2 ^ lo * (2 ^ w * (x / 2 ^ (lo + w))) + 2 ^ lo * (x / 2 ^ lo % 2 ^ w) := by
    rw [← Nat.mul_add, h2]
  rw [h3, Nat.mul_comm (x / 2 ^ lo % 2 ^ w), Nat.mul_comm (v % 2 ^ w)]
  omega

/-- A field just written. -/
theorem bitsOf_putBits_same (x lo w v : Nat) : bitsOf (putBits x lo w v) lo w = v % 2 ^ w := by
  rw [putBits_split, bitsOf, Nat.pow_add, Nat.mul_assoc, Nat.add_assoc, ← Nat.mul_add,
    Nat.add_mul_div_left _ _ (Nat.two_pow_pos lo), Nat.div_eq_of_lt (Nat.mod_lt _ (Nat.two_pow_pos lo)), Nat.zero_add,
    Nat.add_mul_mod_self_left, Nat.mod_mod]

/-- A field below the one written. -/
theorem bitsOf_putBits_below (x lo w v lo' w' : Nat) (h : lo' + w' ≤ lo) :
    bitsOf (putBits x lo w v) lo' w' = bitsOf x lo' w' := by
  have key : putBits x lo w v % 2 ^ lo = x % 2 ^ lo := by
    rw [putBits_split, Nat.pow_add, Nat.mul_assoc, Nat.add_assoc, ← Nat.mul_add, Nat.add_mul_mod_self_left, Nat.mod_mod]
  have low : ∀ y : Nat, bitsOf y lo' w' = bitsOf (y % 2 ^ lo) lo' w' := by
    intro y
    apply Nat.eq_of_testBit_eq
    intro i
    simp only [bitsOf, Nat.testBit_mod_two_pow, Nat.testBit_div_two_pow]
    by_cases hi : i < w'
    · have : i + lo' < lo := by omega
      simp [hi, this]
    · simp [hi]
  rw [low, key, ← low]

/-- A field above the one written. -/
theorem bitsOf_putBits_above (x lo w v lo' w' : Nat) (h : lo + w ≤ lo') :
    bitsOf (putBits x lo w v) lo' w' = bitsOf x lo' w' := by
  have key : putBits x lo w v / 2 ^ (lo + w) = x / 2 ^ (lo + w) := by
    rw [putBits_split, Nat.add_mul_div_left _ _ (Nat.two_pow_pos _)]
    have : x % 2 ^ lo + 2 ^ lo * (v % 2 ^ w) < 2 ^ (lo + w) := by
      have h1 := Nat.mod_lt x (Nat.two_pow_pos lo)
      have h2 : v % 2 ^ w + 1 ≤ 2 ^ w := Nat.mod_lt v (Nat.two_pow_pos w)
      have h3 := Nat.mul_le_mul_left (2 ^ lo) h2
      rw [Nat.pow_add]
      rw [Nat.mul_add] at h3
      omega
    rw [Nat.div_eq_of_lt this, Nat.zero_add]
  have high : ∀ y : Nat, bitsOf y lo' w' = bitsOf (y / 2 ^ (lo + w)) (lo' - (lo + w)) w' := by
    intro y
    unfold bitsOf
    rw [Nat.div_div_eq_div_mul, ← Nat.pow_add, show lo + w + (lo' - (lo + w)) = lo' by omega]
  rw [high, key, ← high]

/-- A written field does not outgrow its register. -/
theorem putBits_lt (x lo w v n : Nat) (hx : x < 2 ^ n) (h : lo + w ≤ n) : putBits x lo w v < 2 ^ n := by
  rw [putBits_split]
  have h1 := Nat.mod_lt x (Nat.two_pow_pos lo)
  have h2 : v % 2 ^ w + 1 ≤ 2 ^ w := Nat.mod_lt v (Nat.two_pow_pos w)
  have h3 := Nat.mul_le_mul_left (2 ^ lo) h2
  have h4 : x / 2 ^ (lo + w) + 1 ≤ 2 ^ (n - (lo + w)) := by
    apply Nat.div_lt_of_lt_mul
    rw [← Nat.pow_add, show lo + w + (n - (lo + w)) = n by omega]
    exact hx
  have h5 := Nat.mul_le_mul_left (2 ^ (lo + w)) h4
  rw [← Nat.pow_add, show lo + w + (n - (lo + w)) = n by omega, Nat.mul_add] at h5
  rw [Nat.mul_add] at h3
  rw [Nat.pow_add] at *
  omega

/-! ## Registers and fields -/

variable (s : State)

/-- A register read after one has been written. -/
theorem State.reg_setReg (o o' : Nat) (v : Word) : (s.setReg o v).reg o' = if o' = o then v else s.reg o' := by
  simp [State.reg, State.setReg, SMap.get_set]

@[simp] theorem State.reg_setReg_same (o : Nat) (v : Word) : (s.setReg o v).reg o = v := by simp [State.reg_setReg]

theorem State.reg_setReg_ne {o o' : Nat} (v : Word) (h : o' ≠ o) : (s.setReg o v).reg o' = s.reg o' := by
  simp [State.reg_setReg, h]

/-- A register after one of its fields has been written. -/
theorem State.reg_setFld (o o' : Nat) (f : Fld) (n : Nat) :
    (s.setFld o f n).reg o' = if o' = o then BitVec.ofNat 64 (putBits (s.reg o).toNat f.lo f.w n) else s.reg o' := by
  simp [State.setFld, State.reg_setReg]

theorem State.reg_setFld_ne {o o' : Nat} (f : Fld) (n : Nat) (h : o' ≠ o) : (s.setFld o f n).reg o' = s.reg o' := by
  simp [State.reg_setFld, h]

/-- A field of another register than the one written. -/
theorem State.fld_setReg_ne {o o' : Nat} (f : Fld) (v : Word) (h : o' ≠ o) : (s.setReg o v).fld o' f = s.fld o' f := by
  simp [State.fld, State.reg_setReg_ne s v h]

/-- A field of a register just written. -/
@[simp] theorem State.fld_setReg_same (o : Nat) (f : Fld) (v : Word) : (s.setReg o v).fld o f = bf v f.lo f.w := by
  simp [State.fld]

/-- A field of another register than the one a field was written in. -/
theorem State.fld_setFld_ne {o o' : Nat} (f f' : Fld) (n : Nat) (h : o' ≠ o) :
    (s.setFld o f n).fld o' f' = s.fld o' f' := by
  simp [State.fld, State.reg_setFld_ne s f n h]

/-- A field just written. -/
theorem State.fld_setFld_same (o : Nat) (f : Fld) (n : Nat) (h : f.lo + f.w ≤ 64) :
    (s.setFld o f n).fld o f = n % 2 ^ f.w := by
  have := putBits_lt (s.reg o).toNat f.lo f.w n 64 (s.reg o).isLt h
  simp only [State.fld, State.reg_setFld, if_true, bf, BitVec.toNat_ofNat, Nat.mod_eq_of_lt this, bitsOf_putBits_same]

/-- Another field of the register a field was written in. -/
theorem State.fld_setFld_apart (o : Nat) (f f' : Fld) (n : Nat) (h : f.lo + f.w ≤ 64)
    (h' : f.lo + f.w ≤ f'.lo ∨ f'.lo + f'.w ≤ f.lo) : (s.setFld o f n).fld o f' = s.fld o f' := by
  have := putBits_lt (s.reg o).toNat f.lo f.w n 64 (s.reg o).isLt h
  simp only [State.fld, State.reg_setFld, if_true, bf, BitVec.toNat_ofNat, Nat.mod_eq_of_lt this]
  rcases h' with h' | h'
  · exact bitsOf_putBits_above _ _ _ _ _ _ h'
  · exact bitsOf_putBits_below _ _ _ _ _ _ h'

/-- A field is below two to its width. -/
theorem State.fld_lt (o : Nat) (f : Fld) : s.fld o f < 2 ^ f.w := Nat.mod_lt _ (Nat.two_pow_pos _)

end Sys2Proof.Machine
end

