-- ==== Sys2Proof/Laws/Issue.lean ====
section
/-! SUPPORT. What the issue of a Drevos instruction comes to: one lemma per case, to be cited in place of unfolding the issue. -/

set_option linter.unusedSimpArgs false

namespace Sys2Proof.Machine

variable (s : State) (x : Ea) (w : Word) (i : Issue) (body : State → Res)

/-- A guarded effect on operands the node has. -/
theorem guarded_next {ok : Bool} (f : State → State) (h : ok = true) : guarded ok s f = .next (f s) := by simp [guarded, h]

/-- A guarded effect on operands the node does not have. -/
theorem guarded_refused {ok : Bool} (f : State → State) (h : ok = false) : guarded ok s f = .refused .illFormed := by
  simp [guarded, h]

/-- An instruction that runs has its own effect. -/
theorem issue_runs {row : Bool} (hx : x.ok = true) (hr : row = true) (hc : s.canIssue x = true)
    (hl : s.legalFor x w i = true) (hg : s.guardOn x w i = true) (hs : s.stalls x i.sh w i.tiles = false) :
    issue x w row i body s = .next ((body s).land s x i.len) := by
  simp only [State.legalFor, State.guardOn] at hl hg
  simp only [issue, guarded, hx, hr, hc, State.issueOn, hl, hg, hs, Bool.and_self, if_true, if_false, Bool.true_eq_false, Bool.false_eq_true,
    reduceCtorEq]

/-- On an easel that cannot issue nothing happens. -/
theorem issue_waits {row : Bool} (hx : x.ok = true) (hr : row = true) (hc : s.canIssue x = false) :
    issue x w row i body s = .next s := by
  simp only [issue, guarded, hx, hr, hc, Bool.and_self, if_true, if_false, Bool.true_eq_false, Bool.false_eq_true,
    reduceCtorEq]

/-- A word that is not legal raises the illegal-encoding exception. -/
theorem issue_illegal {row : Bool} (hx : x.ok = true) (hr : row = true) (hc : s.canIssue x = true)
    (hl : s.legalFor x w i = false) : issue x w row i body s = .next (s.illegal x) := by
  simp only [State.legalFor] at hl
  simp only [issue, guarded, hx, hr, hc, State.issueOn, hl, Bool.and_self, if_true, if_false, Bool.true_eq_false, Bool.false_eq_true,
    reduceCtorEq]

/-- A legal instruction whose guard is clear is passed over. -/
theorem issue_suppressed {row : Bool} (hx : x.ok = true) (hr : row = true) (hc : s.canIssue x = true)
    (hl : s.legalFor x w i = true) (hg : s.guardOn x w i = false) : issue x w row i body s = .next (s.advance x i.len) := by
  simp only [State.legalFor, State.guardOn] at hl hg
  simp only [issue, guarded, hx, hr, hc, State.issueOn, hl, hg, Bool.and_self, if_true, if_false, Bool.true_eq_false, Bool.false_eq_true,
    reduceCtorEq]

/-- An instruction that names an awaited register or tile stalls. -/
theorem issue_stalls {row : Bool} (hx : x.ok = true) (hr : row = true) (hc : s.canIssue x = true)
    (hl : s.legalFor x w i = true) (hg : s.guardOn x w i = true) (hs : s.stalls x i.sh w i.tiles = true) :
    issue x w row i body s = .next s := by
  simp only [State.legalFor, State.guardOn] at hl hg
  simp only [issue, guarded, hx, hr, hc, State.issueOn, hl, hg, hs, Bool.and_self, if_true, if_false, Bool.true_eq_false, Bool.false_eq_true,
    reduceCtorEq]

/-- What it takes for a command to run, in parts. -/
theorem runs_iff (c : Instr) (h : c.issued = some (x, w, i)) :
    runs c s = true ↔ c.wf = true ∧ s.canIssue x = true ∧ s.legalFor x w i = true ∧ s.guardOn x w i = true ∧
      s.stalls x i.sh w i.tiles = false := by
  simp [runs, h, and_assoc]

/-- A Drevos command that runs has its own effect. -/
theorem runs_next {row : Bool} (c : Instr) (hi : c.issued = some (x, w, i)) (hw : c.wf = (x.ok && row))
    (he : exec c s = issue x w row i body s) (hr : runs c s = true) : exec c s = .next ((body s).land s x i.len) := by
  obtain ⟨h0, h1, h2, h3, h4⟩ := (runs_iff s x w i c hi).1 hr
  rw [hw, Bool.and_eq_true] at h0
  rw [he]
  exact issue_runs s x w i body h0.1 h0.2 h1 h2 h3 h4

end Sys2Proof.Machine
end

