-- ==== Sys2Proof/Laws/Memory.lean ====
section
/-! SUPPORT. Laws of the memory: reading after writing, and that every operation that writes memory keeps its canonical form. Memory is
written by `State.setBytes` and emptied by the operations that unmap, lose, clear or reset a part of it; nothing else touches it. -/

namespace Sys2Proof.Machine

variable (s : State)

/-! ## Reading after writing -/

/-- A byte after bytes have been written. -/
theorem State.byte_setBytes (a b : Nat) (bs : List Byte) :
    (s.setBytes a bs).byte b = if h : a ≤ b ∧ b < a + bs.length then bs[b - a]'(by omega) else s.byte b :=
  SMap.get_setRange _ _ _ _ _

/-- A byte outside the bytes written reads as before. -/
theorem State.byte_setBytes_outside {a b : Nat} {bs : List Byte} (h : b < a ∨ a + bs.length ≤ b) :
    (s.setBytes a bs).byte b = s.byte b := by rw [State.byte_setBytes, dif_neg]; omega

/-- Writing no bytes changes no byte. -/
@[simp] theorem State.byte_setBytes_nil (a b : Nat) : (s.setBytes a []).byte b = s.byte b :=
  s.byte_setBytes_outside (by simp; omega)

/-- As many bytes are read as are asked for. -/
@[simp] theorem State.length_bytes (a n : Nat) : (s.bytes a n).length = n := by simp [State.bytes, SMap.getRange]

/-- The bytes just written read back. -/
@[simp] theorem State.bytes_setBytes_same (a : Nat) (bs : List Byte) : (s.setBytes a bs).bytes a bs.length = bs := by
  apply List.ext_getElem (by simp)
  intro i h1 h2
  have := s.byte_setBytes a (a + i) bs
  rw [dif_pos (by omega)] at this
  simpa [State.bytes, SMap.getRange, State.byte] using this

/-- Bytes read outside the ones written are as before. -/
theorem State.bytes_setBytes_outside {a b n : Nat} {bs : List Byte} (h : b + n ≤ a ∨ a + bs.length ≤ b) :
    (s.setBytes a bs).bytes b n = s.bytes b n := by
  apply List.ext_getElem (by simp)
  intro i h1 h2
  have h3 : i < n := by simpa using h2
  have := s.byte_setBytes_outside (a := a) (b := b + i) (bs := bs) (by omega)
  simpa [State.bytes, SMap.getRange, State.byte] using this

/-! ## The canonical form -/

/-- Writing bytes keeps the canonical form. -/
theorem State.wf_setBytes (a : Nat) (bs : List Byte) (h : Memory.wf s.mem = true) : Memory.wf (s.setBytes a bs).mem = true :=
  SMap.wf_setRange _ _ _ _ h

/-- A part of memory emptied keeps the canonical form. -/
theorem Memory.wf_clear (m : List Host.Cell) (a b : Nat) (h : Memory.wf m = true) : Memory.wf (SMap.clear m a b) = true :=
  SMap.wf_clear _ _ _ _ h

/-- A choice of the entries keeps the canonical form. -/
theorem Memory.wf_filter (m : List Host.Cell) (p : Host.Cell → Bool) (h : Memory.wf m = true) : Memory.wf (m.filter p) = true :=
  SMap.wf_filter _ _ p h

/-- What a fold over units keeps, where each of its steps does. -/
theorem foldl_keeps {α : Type} (P : State → Prop) (f : State → α → State) (hf : ∀ u a, P u → P (f u a)) (l : List α) (u : State)
    (h : P u) : P (l.foldl f u) := by
  induction l generalizing u with
  | nil => exact h
  | cons a l ih => exact ih _ (hf _ _ h)

/-! ### Operations that leave memory as it is -/

/-- Time passing. -/
@[simp] theorem State.mem_passTo (t : Nat) : (s.passTo t).mem = s.mem := by
  unfold State.passTo
  split
  · refine foldl_keeps (fun u => u.mem = s.mem) _ (fun u x h => ?_) _ _ rfl
    split <;> simpa using h
  · rfl

/-- An access taking its window, its bank and its return slots. -/
@[simp] theorem State.mem_takeWindow (b addr arrival : Nat) (ret : Option Nat) :
    (s.takeWindow b addr arrival ret).mem = s.mem := by
  unfold State.takeWindow
  cases ret <;> simp [State.meshTake]

/-- A page-buffer entry freed. -/
@[simp] theorem State.mem_pbFree (b addr : Nat) : (s.pbFree b addr).mem = s.mem := by
  unfold State.pbFree
  simp only [State.setFld_mem, State.updStk_mem]
  split <;> simp

/-- An access admitted. -/
@[simp] theorem State.mem_admitOne (b : Nat) (a : Access) : (s.admitOne b a).mem = s.mem := by
  unfold State.admitOne
  simp only
  split <;> simp

/-- The write-back that goes first admitted. -/
@[simp] theorem State.mem_writeBackFirst (b : Nat) : (s.writeBackFirst b).mem = s.mem := by
  unfold State.writeBackFirst
  split <;> simp

/-- A stroke joining the page buffer. -/
@[simp] theorem State.mem_pbAdd (b addr : Nat) : (s.pbAdd b addr).mem = s.mem := by
  unfold State.pbAdd
  split
  · rfl
  · simp only [State.setFld_mem, State.updStk_mem]
    split <;> simp

/-! ### Flash -/

/-- A word of a channel's map region. -/
theorem State.wf_putMap (c i v : Nat) (h : Memory.wf s.mem = true) : Memory.wf (s.putMap c i v).mem = true := by
  unfold State.putMap
  rw [State.mem_pbAdd]
  exact s.wf_setBytes _ _ h

/-- The map region of a channel after a change. -/
theorem State.wf_showMap (c : Nat) (old : FlashX) (h : Memory.wf s.mem = true) : Memory.wf (s.showMap c old).mem = true :=
  foldl_keeps (fun u => Memory.wf u.mem = true) _ (fun u _ h => u.wf_putMap _ _ _ h) _ _
    (foldl_keeps (fun u => Memory.wf u.mem = true) _ (fun u _ h => u.wf_putMap _ _ _ h) _ _ h)

/-- A channel set. -/
theorem State.wf_setFlash (c : Nat) (f : FlashX) (h : Memory.wf s.mem = true) : Memory.wf (s.setFlash c f).mem = true := by
  unfold State.setFlash
  split
  · exact State.wf_showMap _ _ _ h
  · exact h

/-- The map region of a channel written whole. -/
theorem State.wf_loadMap (c : Nat) (h : Memory.wf s.mem = true) : Memory.wf (s.loadMap c).mem = true :=
  foldl_keeps (fun u => Memory.wf u.mem = true) _ (fun u _ h => u.wf_putMap _ _ _ h) _ _
    (foldl_keeps (fun u => Memory.wf u.mem = true) _ (fun u _ h => u.wf_putMap _ _ _ h) _ _ h)

/-- Unmapping a flash page. -/
theorem State.wf_unmapPage (p : Nat) (h : Memory.wf s.mem = true) : Memory.wf (s.unmapPage p).mem = true :=
  Memory.wf_clear _ _ _ (s.wf_setFlash _ _ h)

/-! ### Losing and clearing -/

/-- Losing a stack. -/
theorem State.wf_loseStack (b : Nat) (h : Memory.wf s.mem = true) : Memory.wf (s.loseStack b).mem = true :=
  Memory.wf_clear _ _ _ h

/-- A node reset. -/
theorem State.wf_nodeReset (cold : Bool) (cause : Nat) (h : Memory.wf s.mem = true) :
    Memory.wf (s.nodeReset cold cause).mem = true := by
  unfold State.nodeReset
  simp only
  have := Memory.wf_filter s.mem (fun e => keptSpace cold (e.1 / 2 ^ 64)) h
  repeat' split
  all_goals simpa using this

/-- Clearing the stores of a bay. -/
theorem State.wf_clearBayStores (b : Nat) (h : Memory.wf s.mem = true) : Memory.wf (s.clearBayStores b).mem = true :=
  Memory.wf_clear _ _ _ (Memory.wf_clear _ _ _ (Memory.wf_clear _ _ _ h))

/-- Clearing an easel for a confidential launch. -/
theorem State.wf_clearEasel (x : Ea) (h : Memory.wf s.mem = true) : Memory.wf (s.clearEasel x).mem = true :=
  Memory.wf_clear _ _ _ h

end Sys2Proof.Machine
end

