-- ==== Sys2Proof/Laws/Scalar.lean ====
section
/-! SUPPORT. The scalar minima and maxima as the spec's relations say them (R119), and the immediate as a sign extension (R111). -/

namespace Sys2Proof.Machine

theorem smin_eq (a b : Word) : sMin a b = if a.slt b then a else b := by
  unfold sMin
  simp only [BitVec.slt]
  by_cases h : a.toInt = b.toInt
  · have := BitVec.eq_of_toInt_eq h
    subst this; simp
  · have : a.toInt ≤ b.toInt ↔ a.toInt < b.toInt := by omega
    simp [this]

theorem smax_eq (a b : Word) : sMax a b = if a.slt b then b else a := by
  unfold sMax
  simp only [BitVec.slt]
  by_cases h : a.toInt = b.toInt
  · have := BitVec.eq_of_toInt_eq h
    subst this; simp
  · have : a.toInt ≤ b.toInt ↔ a.toInt < b.toInt := by omega
    simp [this]

theorem umin_eq (a b : Word) : uMin a b = if a.ult b then a else b := by
  unfold uMin
  simp only [BitVec.ult]
  by_cases h : a.toNat = b.toNat
  · have := BitVec.eq_of_toNat_eq h
    subst this; simp
  · have : a.toNat ≤ b.toNat ↔ a.toNat < b.toNat := by omega
    simp [this]

theorem umax_eq (a b : Word) : uMax a b = if a.ult b then b else a := by
  unfold uMax
  simp only [BitVec.ult]
  by_cases h : a.toNat = b.toNat
  · have := BitVec.eq_of_toNat_eq h
    subst this; simp
  · have : a.toNat ≤ b.toNat ↔ a.toNat < b.toNat := by omega
    simp [this]

/-- The immediate of a word is its low 37 bits, sign-extended. -/
theorem imm_eq (w : Word) : immWord w = (BitVec.ofNat 37 (w.toNat % 2 ^ 37)).signExtend 64 := by
  unfold immWord immOf sext bf bitsOf
  rw [BitVec.signExtend]
  congr 1
  simp [BitVec.toInt]
  split <;> split <;> omega

end Sys2Proof.Machine
end

