-- ==== Sys2Proof/Tests/Slice0.lean ====
section
/-! SUPPORT. Tests: what the check of a command's form refuses, results the spec works out itself, and for each statement states and
operands that meet its hypotheses. -/

namespace Sys2Proof.Tests

-- One theorem after another: side by side their stacks ask for more memory than the check allows.
set_option Elab.async false

open Sys2Proof Sys2Proof.Machine

/-! ## Words and states -/

/-- Easel 0 of bay 0. -/
def x0 : Ea := ⟨0, 0⟩

/-- A word of form R, by R111: OPC 63:56, FN 55:52, PG 51:49, RD 48:43, RA 42:37, RB 36:31, RC 30:25, SUB 24:0. -/
def wR (opc fn : Nat) (rd ra rb rc sub : Nat := 0) (pg : Nat := 0) : Word :=
  BitVec.ofNat 64 (opc * 2 ^ 56 + fn * 2 ^ 52 + pg * 2 ^ 49 + rd * 2 ^ 43 + ra * 2 ^ 37 + rb * 2 ^ 31 + rc * 2 ^ 25 + sub)

/-- A word of form I, by R111: IMM 36:0. -/
def wI (opc fn : Nat) (rd ra imm : Nat := 0) (pg : Nat := 0) : Word :=
  BitVec.ofNat 64 (opc * 2 ^ 56 + fn * 2 ^ 52 + pg * 2 ^ 49 + rd * 2 ^ 43 + ra * 2 ^ 37 + imm)

/-- A word of form M, by R111: RB 36:31, OFF 30:0. -/
def wM (opc fn : Nat) (rd ra rb off : Nat := 0) : Word :=
  BitVec.ofNat 64 (opc * 2 ^ 56 + fn * 2 ^ 52 + rd * 2 ^ 43 + ra * 2 ^ 37 + rb * 2 ^ 31 + off)

/-- Easel 0 of bay 0 runs an image of 100 words. -/
def run0 : State := (State.reset.setEst x0 stRunning).updEx x0 fun y => { y with imgLen := 100 }

/-- The same with something that no register shows of the easel changed. -/
def runWith (f : EaselX → EaselX) : State := run0.updEx x0 f

/-- An entry of the outstanding-operation table of that easel. -/
def out0 (n : Nat) (kind : OutKind) (rd a len : Nat) (failed : Bool := false) : OutOp :=
  { num := n, seq := n, rd, kind, off := 0, a, b := 0, len, issued := 0, due := 0, failed }

/-- A node under a licence of the full tier, bays and stacks ready, easel 0 of bay 0 running. -/
def lic0 : State :=
  ((((run0.setFld Reg.globalReady Reg.globalReady_LIC 1).setFld Reg.globalLic Reg.globalLic_VALID 1).setFld
    Reg.globalLic Reg.globalLic_TIER 0).setFld Reg.globalReady ⟨Reg.globalReady_BAY.lo, 16⟩ 0xFFFF).setFld
      (Reg.bayStkStatus 0) Reg.bayStkStatus_READY 1

/-- `lic0` with portfolio 0 active: owner 0 under slot 0x0000, one layer, one head of 32 FP32 elements, a list of 4 sheets at stroke 0 of
stack 0. -/
def pf0 : State :=
  lic0.setBytes (pfAddr 0)
    (natBytes 8 0 ++ natBytes 8 (2 ^ 63) ++ natBytes 8 0 ++ natBytes 8 0 ++ natBytes 8 (mkLoc 1 0 0) ++ natBytes 8 4)

/-! ## Ill-formed commands are refused -/

theorem test_refuses_word_of_another_row : exec (.add x0 (wR 0x01 1)) run0 = .refused .illFormed := rfl

theorem test_refuses_easel_past_the_die : exec (.add ⟨0, 12⟩ (wR 0x01 0)) run0 = .refused .illFormed := rfl

theorem test_refuses_bay_past_the_die : exec (.add ⟨16, 0⟩ (wR 0x01 0)) run0 = .refused .illFormed := rfl

/-! ## Drevos: the hypotheses of the statements can be met -/

theorem witness_ScalarResults :
    ([.nop x0 (wR 0 0), .add x0 (wR 1 0 1 2 3), .sub x0 (wR 1 1 0 2 3), .andG x0 (wR 1 2 63 2 3), .orG x0 (wR 1 3 1 2 3),
      .xor x0 (wR 1 4 1 2 3), .shl x0 (wR 1 5 1 2 3), .shr x0 (wR 1 6 1 2 3), .sar x0 (wR 1 7 1 2 3), .mul x0 (wR 1 8 1 2 3),
      .min x0 (wR 1 9 1 2 3), .max x0 (wR 1 10 1 2 3), .minu x0 (wR 1 11 1 2 3), .maxu x0 (wR 1 12 1 2 3),
      .addi x0 (wI 2 0 1 2 (2 ^ 37 - 1)), .subi x0 (wI 2 1 1 2 5), .andi x0 (wI 2 2 1 2 5), .ori x0 (wI 2 3 1 2 5),
      .xori x0 (wI 2 4 1 2 5), .shli x0 (wI 2 5 1 2 63), .shri x0 (wI 2 6 1 2 5), .sari x0 (wI 2 7 1 2 5), .muli x0 (wI 2 8 1 2 5),
      .mini x0 (wI 2 9 1 2 5), .maxi x0 (wI 2 10 1 2 5), .minui x0 (wI 2 11 1 2 5), .maxui x0 (wI 2 12 1 2 5),
      .movi x0 (wI 4 0 1 0 7), .aluL x0 (wI 0x82 12 1 2) 5, .moviL x0 (wI 0x84 0 1) 5] : List Instr).all (runs · run0) = true := by
  decide

theorem witness_StepRunsTheFrontCommand :
    ({ run0 with pending := [.catCtrlFlip] } : State).pending = .catCtrlFlip :: [] ∧ State.reset.pending = [] := ⟨rfl, rfl⟩

theorem witness_IllFormedCommandsAreRefused : (Instr.catCtrlFlip).wf = true ∧ (Instr.launchPlace 16).wf = false := by decide

/-- A word of ADD whose guard is p1, and p1 is clear in `run0`. -/
def addP1 : Word := wR 1 0 1 2 3 0 0 1

theorem witness_DrevosInstructionsIssueInOrder :
    ∃ i, (Instr.add x0 addP1).issued = some (x0, addP1, i) ∧ (Instr.add x0 addP1).wf = true ∧
      State.reset.canIssue x0 = false ∧ run0.canIssue x0 = true ∧ run0.legalFor x0 addP1 i = true ∧
      run0.guardOn x0 addP1 i = false := ⟨_, rfl, by decide⟩

theorem witness_DrevosInstructionsIssueInOrder_illegal :
    ∃ i, (Instr.add x0 (wR 1 0 1 2 3 0 1)).issued = some (x0, wR 1 0 1 2 3 0 1, i) ∧
      (Instr.add x0 (wR 1 0 1 2 3 0 1)).wf = true ∧ run0.legalFor x0 (wR 1 0 1 2 3 0 1) i = false := ⟨_, rfl, by decide⟩

theorem witness_DrevosInstructionsIssueInOrder_stalls :
    ∃ i, (Instr.add x0 (wR 1 0 1 2 3)).issued = some (x0, wR 1 0 1 2 3, i) ∧ (Instr.add x0 (wR 1 0 1 2 3)).wf = true ∧
      (runWith fun y => { y with outst := [out0 0 .ldLoc 2 0 64] }).canIssue x0 = true ∧
      (runWith fun y => { y with outst := [out0 0 .ldLoc 2 0 64] }).legalFor x0 (wR 1 0 1 2 3) i = true ∧
      (runWith fun y => { y with outst := [out0 0 .ldLoc 2 0 64] }).guardOn x0 (wR 1 0 1 2 3) i = true ∧
      (runWith fun y => { y with outst := [out0 0 .ldLoc 2 0 64] }).stalls x0 i.sh (wR 1 0 1 2 3) i.tiles = true :=
  ⟨_, rfl, by decide⟩

theorem witness_ExceptionsStopTheEasel :
    x0.ok = true ∧ (255 : Nat) < 256 ∧ (2 ^ 32 - 1 : Nat) < 2 ^ 32 ∧ (2 ^ 48 - 1 : Nat) < 2 ^ 48 ∧
      (runWith fun y => { y with role := 5 }).host.evBuf.length < 512 ∧ ((runWith fun y => { y with role := 5 }).ex x0).role = 5 := by
  decide

theorem witness_ComparesAndBranches :
    ([.cmpEq x0 (wR 3 0 1 2 3), .cmpNe x0 (wR 3 1 0 2 3), .cmpLt x0 (wR 3 2 7 2 3), .cmpLe x0 (wR 3 3 1 2 3),
      .cmpLtu x0 (wR 3 4 1 2 3), .cmpLeu x0 (wR 3 5 1 2 3), .br x0 (wI 8 0 0 0 99), .bz x0 (wI 9 0 0 1 99),
      .bnz x0 (wI 10 0 0 1 100), .bp x0 (wI 11 0 0 1 5), .jr x0 (wR 13 0 0 1)] : List Instr).all (runs · run0) = true := by
  decide

theorem witness_EndReportsAndReleases :
    runs (.endProg x0 (wR 15 0 0 1)) run0 = true ∧ (run0.ex x0).outst.all (·.failed) = true ∧ (run0.ex x0).faults = [] := by
  decide

theorem witness_EndReportsAndReleases_fault :
    runs (.endProg x0 (wR 15 0 0 1)) (runWith fun y => { y with faults := [⟨0, 5, 0, 0⟩] }) = true ∧
      ((runWith fun y => { y with faults := [⟨0, 5, 0, 0⟩] }).ex x0).outst.all (·.failed) = true ∧
      firstFault ((runWith fun y => { y with faults := [⟨0, 5, 0, 0⟩] }).ex x0).faults = some ⟨0, 5, 0, 0⟩ := by decide

theorem witness_EndReportsAndReleases_waits :
    runs (.endProg x0 (wR 15 0 0 1)) (runWith fun y => { y with outst := [out0 0 .ldLoc 2 0 64] }) = true ∧
      ((runWith fun y => { y with outst := [out0 0 .ldLoc 2 0 64] }).ex x0).outst.all (·.failed) = false := by decide

theorem witness_VectorArithmeticWritesGuardedLanes :
    ([.vadd x0 (wR 0x20 0 1 2 3), .vsub x0 (wR 0x20 1 1 2 3), .vmul x0 (wR 0x20 2 1 2 3), .vfma x0 (wR 0x20 3 1 2 3 4),
      .vmax x0 (wR 0x20 4 1 2 3), .vmin x0 (wR 0x20 5 1 2 3), .vexp2 x0 (wR 0x21 0 1 2), .vlog2 x0 (wR 0x21 1 1 2),
      .vrcp x0 (wR 0x21 2 1 2), .vbcast x0 (wR 0x24 0 1 2), .vsel x0 (wR 0x26 0 31 2 3 7)] : List Instr).all
        (runs · run0) = true := by decide

/-- `run0` with lane 0 of p1 set. -/
def lane0 : State := run0.setP x0 1 1

theorem witness_ReductionsComparesAndConversions :
    ([.vredsum x0 (wR 0x22 0 1 2 0 0 0 1), .vredmax x0 (wR 0x22 1 1 2 0 0 0 1), .vredmin x0 (wR 0x22 2 1 2 0 0 0 1),
      .vcmpEq x0 (wR 0x23 0 1 2 3), .vcmpLt x0 (wR 0x23 1 1 2 3), .vcmpLe x0 (wR 0x23 2 1 2 3), .vext x0 (wI 0x25 0 1 2 127),
      .vcvt x0 (wR 0x27 1 1 2 0 0 1), .vcvt x0 (wR 0x27 8 1 2 0 0 0), .vcvt x0 (wR 0x27 8 1 2 0 0 2)] : List Instr).all
        (runs · lane0) = true := by decide

/-- The lanes a reduction of v2 under p1 takes. -/
def selOf (s : State) : List (Option Nat) := (List.range 128).map fun k => if (s.pr x0 1).getLsbD k then some (lane (s.vr x0 2) k) else none

theorem witness_ReductionsComparesAndConversions_lanes :
    ((reduceTree fAdd 7 (selOf lane0)).isSome && (reduceTree fMax 7 (selOf run0)).isNone) = true := by decide +kernel

theorem witness_OperandStoreAccesses :
    ([.vld x0 (wM 0x30 0 1 2 0 (0x300000 - 512)), .tld x0 (wM 0x32 0 15 2), .ldg x0 (wM 0x34 0 1 2 0 8), .vst x0 (wM 0x31 0 1 2),
      .tst x0 (wM 0x33 0 1 2), .stg x0 (wM 0x35 0 1 2)] : List Instr).all (runs · run0) = true ∧
      (opCheck (run0.opAddr x0 (wM 0x30 0 1 2 0 (0x300000 - 512))) 512 64).isNone = true ∧
      (opCheck (run0.opAddr x0 (wM 0x32 0 15 2)) 4096 64).isNone = true ∧
      (opCheck (run0.opAddr x0 (wM 0x34 0 1 2 0 8)) 8 8).isNone = true ∧
      run0.opBusy x0 (0x300000 - 512) 512 false = false ∧ run0.opBusy x0 0 4096 true = false := by decide

theorem witness_OperandStoreAccesses_faults :
    ([.vld x0 (wM 0x30 0 1 2 0 1), .ldg x0 (wM 0x34 0 1 2 0 (2 ^ 31 - 8)), .tst x0 (wM 0x33 0 1 2 0 (0x300000 - 4096 + 64))] :
      List Instr).all (runs · run0) = true ∧
      run0.opAddr x0 (wM 0x30 0 1 2 0 1) % 64 ≠ 0 ∧ run0.opAddr x0 (wM 0x34 0 1 2 0 (2 ^ 31 - 8)) < 0 ∧
      run0.opAddr x0 (wM 0x34 0 1 2 0 (2 ^ 31 - 8)) % 8 = 0 ∧
      0x300000 < run0.opAddr x0 (wM 0x33 0 1 2 0 (0x300000 - 4096 + 64)) + 4096 ∧
      run0.opAddr x0 (wM 0x33 0 1 2 0 (0x300000 - 4096 + 64)) % 64 = 0 := by decide

/-- An MMA that waits with its scales. -/
def waits0 (y : EaselX) : EaselX := { y with mmaQ := some (wR 0x38 0 1 2 3, 0, 1#4096) }

theorem witness_MatrixUnitAccumulates :
    (runs (.mma x0 (wR 0x38 0 1 2 3)) run0 && ([rdOf (wR 0x38 0 1 2 3), 2, 3].any fun t => ((run0.ex x0).expQ.map (·.1)).contains t)
        == false && (run0.ex x0).mmaQ.isNone && decide ((run0.ex x0).mmaBusy ≤ run0.ec) && runs (.tzero x0 (wR 0x3A 0 1)) run0) = true ∧
      runs (.mma x0 (wR 0x38 0 1 2 3)) (runWith fun y => { y with mmaBusy := 128 }) = true ∧
      runs (.mma x0 (wR 0x38 0 1 2 3)) (runWith waits0) = true ∧
      runs (.mma x0 (wR 0x38 0 1 2 3)) (runWith fun y => { y with expQ := [(1, 0, [])] }) = true := by decide

theorem witness_MatrixUnitAccumulates_start :
    x0.ok = true ∧ ((runWith waits0).ex x0).mmaQ = some (wR 0x38 0 1 2 3, 0, 1#4096) ∧
      (runWith waits0).ec
        ≤ ((runWith waits0).ex x0).mmaBusy := ⟨by decide, rfl, by decide⟩

/-- A zero block of 64 raw bytes (R173). -/
def zeroBlock : List Byte := makeBlock 2 0 0 0 64 0 0 0 []

/-- `run0` with that block at byte 0 of the operand store. -/
def block0 : State := run0.setBytes (opBase x0) zeroBlock

theorem witness_ExpanderDecodesItsBlock :
    runs (.expand x0 (wR 0x39 0 1 2)) block0 = true ∧ max 32 (blockHdr (block0.bytes (opBase x0) 32)).clen = 32 ∧
      (opCheck 0 32 64).isNone = true ∧ block0.opBusy x0 0 32 false = false ∧ (block0.ex x0).expQ = [] ∧
      (block0.ex x0).expBusy ≤ block0.ec ∧ block0.mmaUses x0 1 = false ∧
      expandBlock (block0.ex x0).slots (block0.bytes (opBase x0) 32) = .data (List.replicate 64 0) ∧
      expandBlock (run0.ex x0).slots (run0.bytes (opBase x0) 32) = .damaged 0 := by decide +kernel

theorem witness_ExpanderDecodesItsBlock_waits :
    runs (.expand x0 (wR 0x39 0 1 2)) (runWith fun y => { y with expQ := [(2, 0, [])] }) = true ∧
      runs (.expand x0 (wR 0x39 0 1 2)) (runWith fun y => { y with expQ := [(2, 0, []), (3, 0, [])] }) = true ∧
      ((runWith fun y => { y with expQ := [(2, 0, [])] }).ex x0).expQ = [(2, 0, [])] ∧
      ((runWith fun y => { y with expQ := [(2, 0, [])] }).ex x0).expBusy ≤ 0 ∧
      (runWith fun y => { y with expQ := [(2, 0, [])] }).mmaUses x0 2 = false := by decide

theorem witness_AsyncInstructionsTakeAnEntry :
    ([.ldLoc x0 (wR 0x40 0 1 2 4 6), .stLoc x0 (wR 0x41 0 1 2 4 6), .ldH x0 (wR 0x42 0 1 2 4 6), .stH x0 (wR 0x43 0 1 2 4 6),
      .stHTok x0 (wR 0x43 1 1 2 4), .flushRange x0 (wR 0x44 0 1 0 4 6), .dmaPost x0 (wM 0x46 0 1 2)] : List Instr).all
        (runs · run0) = true ∧
      run0.opAddrR x0 (wR 0x40 0 1 2 4 6) % 64 = 0 ∧ (opCheck (run0.opAddrR x0 (wR 0x40 0 1 2 4 6)) 0 64).isNone = true ∧
      run0.opBusy x0 0 0 true = false ∧ wholeOffset 0 0 0 = false ∧ run0.opBusy x0 0 64 false = false ∧
      freeEntry (run0.ex x0).outst = some 0 ∧
      freeEntry ((List.range 32).map fun n => out0 n .ldLoc 0 0 64) = none := by decide

/-- `run0` with a memory operation in entry 0. -/
def op0 (o : OutOp) : State := runWith fun y => { y with outst := [o] }

theorem witness_MemoryOperationsComplete :
    [out0 0 .ldLoc 1 0 64, out0 0 .stLoc 1 0 64, out0 0 .flush 1 (2 ^ 46) 64, out0 0 .dmaPost 1 0 64, out0 0 .ring 0 63 8,
        out0 0 .resume 1 255 0].all (fun o =>
      decide ((op0 o).entry x0 0 = some o) && !o.failed && !(op0 o).mustWait x0 o && !(op0 o).opAsleep o && !(op0 o).windowFull)
        = true ∧
      (op0 (out0 0 .ldLoc 1 0 64)).clockRuns x0 = true ∧ locTier (2 ^ 46) = 1 := by decide

/-- `lic0` with an operation in entry 0. -/
def lop0 (o : OutOp) : State := lic0.updEx x0 fun y => { y with outst := [o] }

/-- Operations on a stroke of stack 0 and on a location of no tier. -/
theorem witness_MemoryOperationsComplete_locations :
    let at1 := mkLoc 1 0 (2 ^ 21)
    let l := out0 0 .ldLoc 1 at1 64
    let s := lop0 l
    (s.passTo (s.opDue x0 l)).locOk at1 1 = true ∧ (s.passTo (s.opDue x0 l)).locReads at1 (l.reaches x0 0) = true ∧
      (s.passTo (s.opDue x0 l)).inFlashMap 0 (2 ^ 21) = false ∧ (segs 0 64).length = 1 ∧ ceilDiv 64 512 = 1 ∧
      (s.passTo (s.opDue x0 l)).locOk (2 ^ 48 - 1) 1 = false ∧ (s.ex x0).faults = [] := by decide +kernel

theorem witness_MemoryOperationsComplete_dmaPost :
    ((op0 (out0 0 .dmaPost 1 0 64)).bay 0).engineQ.length < Config.engineDepth := Nat.succ_pos _
/-- `lic0` with a near-bank descriptor at byte 0 of the operand store: unit 0 and, as source, unit 1 of stack 0. -/
def nb0 : State := lic0.setBytes (opBase x0) (natBytes 8 (mkLoc 1 0 0) ++ natBytes 8 (mkLoc 1 0 256))

/-- The same in a CLEAR region of two units. -/
def nb1 : State := nb0.setReg (Reg.bayRegion 0 0) (BitVec.ofNat 64 (2 * 2 ^ 20 + 2 ^ 40 + 2 ^ 63))

theorem witness_NearBankOperationsQueue :
    ([.nbFill x0 (wM 0x45 0 1 2), .nbCopy x0 (wM 0x45 1 1 2), .nbCompareEqual x0 (wM 0x45 2 1 2), .nbSum x0 (wM 0x45 3 1 2),
      .nbMax x0 (wM 0x45 4 1 2), .nbMin x0 (wM 0x45 5 1 2), .nbOrderedCompare x0 (wM 0x45 6 1 2)] : List Instr).all
        (fun i => runs i nb0 && runs i nb1 && runs i run0) = true ∧
      (opCheck 0 64 64).isNone = true ∧ nb0.opBusy x0 0 64 false = false ∧ freeEntry (nb0.ex x0).outst = some 0 ∧
      [0, 1, 2].all (fun fn => nb0.nbCode fn (mkLoc 1 0 0) (mkLoc 1 0 256) 1 0 == cDone) = true ∧
      [3, 4, 5, 6].all (fun fn => nb1.nbCode fn (mkLoc 1 0 0) (mkLoc 1 0 256) 1 0 == cDone) = true ∧
      [0, 1, 2, 3, 4, 5, 6].all (fun fn => run0.nbCode fn 0 0 1 0 != cDone) = true ∧
      runs (.nbSum x0 (wM 0x45 3 1 2)) (run0.setFld Reg.rotStatus Reg.rotStatus_CONF 1) = true ∧
      (run0.setFld Reg.rotStatus Reg.rotStatus_CONF 1).conf = true := by decide

/-- A near-bank fill of unit 0 of stack 0 by entry 0 of easel 0. -/
def nbFill0 : NbX :=
  { x := x0, entry := 0, fn := 0, dst := mkLoc 1 0 0, src := 0, units := 1, ty := 0, pattern := 0, arrival := 0, refusing := []
    start := 0, due := 0, result := 0 }

theorem witness_NearBankOperationsRunAndEnd :
    let s := lic0.updStk 0 fun y => { y with nbQ := [nbFill0] }
    let t := (op0 (out0 0 .nb 1 0 0)).updStk 0 fun y => { y with nbRun := some nbFill0 }
    ([0, 127].all fun c => decide (c < 128)) = true ∧ (s.stk 0).nbRun = none ∧ (s.stk 0).nbQ = [nbFill0] ∧ s.admits 0 = true ∧
      mapNn (s.stk 0).map = 0 ∧ mapNn ((s.updStk 0 fun y => { y with map := 0x31001400000 }).stk 0).map = 4 ∧
      ((s.stk 0).remapping.any fun r => r.2 != 0 && nbFill0.hasRow r.1) = false ∧
      (t.stk 0).nbRun = some nbFill0 ∧ t.entry x0 0 = some (out0 0 .nb 1 0 0) := by decide

theorem witness_CatalogueSearchesQueueAndLand :
    let w := wR 0x58 0 2 4 6
    let q : SearchX := { x := x0, rd := 2, key := 0, mask := 0, result := none, due := 0 }
    runs (.catSearch x0 w) run0 = true ∧ runs (.catSearch x0 (wR 0x58 0 2 4)) run0 = true ∧ run0.pendFull x0 = false ∧
      (run0.bay 0).searchQ.length < 16 ∧
      runs (.catSearch x0 w) (runWith fun y => { y with pend := List.replicate 32 ⟨60, 0, none⟩ }) = true ∧
      (runWith fun y => { y with pend := List.replicate 32 ⟨60, 0, none⟩ }).pendFull x0 = true ∧
      runs (.catSearch x0 w) (run0.updBay 0 fun y => { y with searchQ := List.replicate 16 q }) = true ∧
      ((run0.updBay 0 fun y => { y with searchQ := List.replicate 16 q }).bay 0).searchQ.length = 16 ∧
      ((run0.updBay 15 fun y => { y with searchQ := [q] }).bay 15).searchQ = q :: [] ∧
      (((run0.updBay 0 fun y => { y with searching := [{ q with result := some (1, 2) }] }).bay 0).searching.find? fun a => a.x == x0)
        = some { q with result := some (1, 2) } := by decide

/-- A catalogue access of entry 0 of easel 0. -/
def acc0 (write shadow : Bool) (n : Nat) : CatAcc := ⟨x0, 0, write, shadow, n, 0, 0, 48⟩

/-- A licensed node with all slices up, a rebuild in Ready and that access scheduled. -/
def cat0 (a : CatAcc) : State :=
  let s := (lic0.setFld Reg.catStatus Reg.catStatus_SLICEUP 0xFFFF).setFld Reg.catStatus Reg.catStatus_STATE 2
  let s := s.updEx x0 fun y => { y with outst := [out0 0 (if a.write then .catWr else .catRd) 1 0 32] }
  { s with catc := { s.catc with pendAcc := [a] } }

theorem witness_CatalogueEntriesAreAccessedInTheirCycle :
    ([.catWr x0 (wR 0x59 1 1 2 3), .catWr x0 (wR 0x59 0 1 2 3), .catRd x0 (wR 0x5A 0 1 2 3), .catRd x0 (wR 0x5A 1 1 2 3)] :
        List Instr).all (runs · run0) = true ∧
      (opCheck 0 32 32).isNone = true ∧ freeEntry (run0.ex x0).outst = some 0 ∧ run0.opBusy x0 0 32 true = false ∧
      (cat0 (acc0 true true 0)).catc.pendAcc[0]? = some (acc0 true true 0) ∧ (cat0 (acc0 true true 0)).catc.fill = none ∧
      (cat0 (acc0 true true 0)).entry x0 0 = some (out0 0 .catWr 1 0 32) ∧
      (cat0 (acc0 false true 5)).entry x0 0 = some (out0 0 .catRd 1 0 32) ∧
      ((cat0 (acc0 true true 0)).passTo 48).catCode (acc0 true true 0) = cDone ∧
      ((cat0 (acc0 false true 5)).passTo 48).catCode (acc0 false true 5) = cDone ∧
      ((cat0 (acc0 true true (2 ^ 22))).passTo 48).catCode (acc0 true true (2 ^ 22)) = cLicence := by decide +kernel

theorem witness_CatalogueRebuildsAndFlips :
    let s := fun n => State.reset.setFld Reg.catStatus Reg.catStatus_STATE n
    let f : State := { s 2 with catc := { (s 2).catc with flipAt := some 32 } }
    (s 0).fld Reg.catStatus Reg.catStatus_STATE = 0 ∧ (s 1).fld Reg.catStatus Reg.catStatus_STATE = 1 ∧
      (s 2).fld Reg.catStatus Reg.catStatus_STATE = 2 ∧ (s 2).catc.flipAt = none ∧ f.catc.flipAt = some 32 ∧
      f.fld Reg.catLivewr Reg.catLivewr_COUNT = f.fld Reg.catExpect Reg.catExpect_EXPECTWR ∧
      f.fld Reg.catStatus Reg.catStatus_JOVF = 0 ∧
      (f.setFld Reg.catStatus Reg.catStatus_JOVF 1).fld Reg.catStatus Reg.catStatus_JOVF ≠ 0 := by decide

/-! ## Launches, doorbells and fences -/

theorem witness_LaunchInstructionsReachTheirUnit :
    ([.launch x0 (wR 0x68 0 1 2 3), .launch x0 (wR 0x68 0 1 2 0), .dbRing x0 (wR 0x6A 0 0 2 3), .dbpop x0 (wR 0x6D 0 1 2),
      .resume x0 (wR 0x69 0 1 2)] : List Instr).all (fun i => runs i run0 && runs i lic0) = true ∧
      (opCheck 0 64 64).isNone = true ∧ run0.opBusy x0 0 64 false = false ∧ freeEntry (run0.ex x0).outst = some 0 ∧
      run0.pendFull x0 = false ∧ run0.fifo 0 0 = [] ∧ (run0.setFifo 0 63 [5]).fifo 0 63 = [5] ∧
      run0.easelsPerBay ≤ 0 ∧ 0 < lic0.easelsPerBay ∧ lic0.est x0 ≠ stStopped ∧ lic0.est x0 ≠ stHeld ∧
      runs (.resume x0 (wR 0x69 0 1 2)) ((lic0.setG x0 2 0x10).setEst ⟨1, 0⟩ stStopped) = true ∧
      ((lic0.setG x0 2 0x10).setEst ⟨1, 0⟩ stStopped).est ⟨1, 0⟩ = stStopped := by decide

/-- A launch of program 0 by the host on easel 1. -/
def launch1 : Launch := { src := .host 0, prog := 0, mask := 2, mode := 0, tag := 0, args := [] }

/-- `lic0` with that launch arrived at bay 0, and program 0 of the bay valid where `ok`. -/
def arrived0 (ok : Bool) : State :=
  lic0.updBay 0 fun y => { y with incoming := [launch1], prog := if ok then [(0, BitVec.ofNat 128 (2 ^ 63))] else [] }

theorem witness_LaunchesAreTakenPlacedOrQueued :
    [true, false].all (fun ok =>
      decide ((arrived0 ok).nextLaunch 0 = some (launch1, 0)) && (arrived0 ok).bayUp 0 && !(arrived0 ok).asleep 0
        && decide ((arrived0 ok).launchAt launch1 ≤ 0)) = true ∧
      (arrived0 true).launchCode 0 launch1 = cDone ∧ (arrived0 false).launchCode 0 launch1 = cShape ∧
      (arrived0 true).pick 0 launch1 = some [1] ∧ ((arrived0 true).bay 0).queue = [] ∧
      ((arrived0 true).setEst ⟨0, 1⟩ stRunning).pick 0 launch1 = none ∧
      (((arrived0 true).updBay 0 fun y => { y with queue := [launch1] }).bay 0).queue = [launch1] := by decide

theorem witness_ProgramsStartAsLaunched :
    let c : CopyX := { launch := launch1, kept := false, entry := BitVec.ofNat 128 (2 ^ 63), begun := true, firstAt := 0, copying := false }
    let s := runWith fun y => { y with copy := some c }
    x0.ok = true ∧ (s.ex x0).copy = some c ∧ s.conf = false ∧ (s.setFld Reg.rotStatus Reg.rotStatus_CONF 1).conf = true := by decide

/-- An easel waiting for doorbell 0 with destination pair 2. -/
def wait0 (st : Nat) (limit : Option Nat) (got : Option (Nat × Nat × Word)) : State :=
  (run0.setEst x0 st).updEx x0 fun y => { y with wait := some ⟨1, limit, 2, false, got⟩ }

theorem witness_WaitsEndWithARecordOrTheirLimit :
    runs (.wait x0 (wR 0x6B 0 2 3 4)) run0 = true ∧ runs (.sleep x0 (wR 0x6C 0 2 3 4)) run0 = true ∧
      run0.pendFull x0 = false ∧ run0.quiet x0 = true ∧
      runs (.wait x0 (wR 0x6B 0 2 3 4)) (runWith fun y => { y with pend := List.replicate 32 ⟨60, 0, none⟩ }) = true ∧
      runs (.sleep x0 (wR 0x6C 0 2 3 4)) (op0 (out0 0 .ldLoc 1 0 64)) = true ∧ (op0 (out0 0 .ldLoc 1 0 64)).quiet x0 = false ∧
      (wait0 stWaiting none none).est x0 = stWaiting ∧ (wait0 stSleep none none).est x0 = stSleep ∧
      ((wait0 stOff (some 5) none).ex x0).wait = some ⟨1, some 5, 2, false, none⟩ ∧
      ((wait0 stWaiting none (some (4, 0, 9))).ex x0).wait = some ⟨1, none, 2, false, some (4, 0, 9)⟩ ∧
      (wait0 stWaiting none none).fld (Reg.easelCtrl 0 0) Reg.easelCtrl_STOP = 0 := by decide

theorem witness_WaitsEndWithARecordOrTheirLimit_gated :
    let s := (State.reset.setEst x0 stSleep).updEx x0 fun y => { y with wake := some ⟨0⟩ }
    s.est x0 = stSleep ∧ (s.ex x0).wait = none ∧ (s.ex x0).wake = some ⟨0⟩ ∧ (s.ex x0).copy = none := by decide

theorem witness_ArrivalsAreCountedAndQueued :
    (15 : Nat) < 16 ∧ (63 : Nat) < 64 ∧ State.reset.bayUp 15 = false ∧ lic0.bayUp 15 = true ∧ (lic0.fifo 15 63).length < 32 ∧
      32 ≤ ((lic0.setFifo 15 63 (List.replicate 32 0)).fifo 15 63).length ∧ lic0.host.evBuf.length < 512 := by decide

/-- `lic0` with easel 0 of bay 0 running launch 1 under a limit. -/
def limited0 : State := lic0.updEx x0 fun y => { y with src := some launch1, limit := 1 }

theorem witness_ProgramTableAndEaselControl :
    State.reset.conf = false ∧ run0.easelsPerBay ≤ 0 ∧ 11 < lic0.easelsPerBay ∧ lic0.est x0 = stRunning ∧ (lic0.ex x0).run = none ∧
      (lic0.ex x0).fence = none ∧ (lic0.setEst x0 stHeld).est x0 = stHeld ∧ (lic0.setEst x0 stStopped).est x0 = stStopped ∧
      (lic0.ex x0).failed = false ∧ (lic0.ex x0).switching = none ∧ (limited0.ex x0).src.isSome = true ∧
      (limited0.ex x0).limit ≠ 0 ∧ limited0.est x0 = stRunning ∧
      (State.reset.setReg (Reg.bayTimer 15 7) (BitVec.ofNat 64 (2 ^ 64 - 1))).fld (Reg.bayTimer 15 7) Reg.bayTimer_ENABLE = 1 ∧
      (State.reset.setReg (Reg.bayTimer 15 7) (BitVec.ofNat 64 (2 ^ 64 - 1))).fld (Reg.bayTimer 15 7) Reg.bayTimer_PERIOD ≠ 0 := by
  decide

theorem witness_ProgramTableAndEaselControl_attested :
    let s := State.reset.setFld Reg.rotStatus Reg.rotStatus_CONF 1
    s.conf = true ∧ s.rot.digests.contains (Config.sha256 []) = false ∧
      (({ s with rot := { s.rot with digests := [Config.sha256 []] } } : State).rot.digests.contains (Config.sha256 [])) = true :=
  ⟨by decide, rfl, by simp⟩

/-- Easel 0 at a fence. -/
def fence0 (kind : FenceKind) (arg : Nat) (limit : Option Nat) : State :=
  runWith fun y => { y with fence := some ⟨kind, arg, limit⟩ }

theorem witness_FencesAndSystemInstructions :
    ([.fenceEasel x0 (wR 0x70 0), .fenceBay x0 (wR 0x70 1), .fenceBayBarrier x0 (wR 0x70 2 0 2 3), .fenceNode x0 (wR 0x70 3),
      .fencePair x0 (wR 0x70 4), .fencePeer x0 (wR 0x70 5 0 2), .rdgc x0 (wR 0x78 0 1), .perfRd x0 (wI 0x79 0 1 0 255),
      .trace x0 (wR 0x7A 0 0 2)] : List Instr).all (fun i => runs i run0 && runs i (lic0.setG x0 2 1)) = true ∧
      bf (run0.gr x0 2) 0 12 ≤ 0x3FF ∧ runs (.fencePeer x0 (wR 0x70 5 0 2)) (run0.setG x0 2 0x400) = true ∧
      0x3FF < bf ((run0.setG x0 2 0x400).gr x0 2) 0 12 ∧
      bf ((lic0.setG x0 2 1).gr x0 2) 0 12 ≤ lic0.tierMask ∧ bitOf (bf ((lic0.setG x0 2 1).gr x0 2) 0 12) 0 = true ∧
      runs (.fenceBayBarrier x0 (wR 0x70 2 0 2 3)) (lic0.setG x0 2 2) = true ∧
      bf ((lic0.setG x0 2 2).gr x0 2) 0 12 ≤ lic0.tierMask ∧ bitOf (bf ((lic0.setG x0 2 2).gr x0 2) 0 12) 0 = false ∧
      runs (.fenceBayBarrier x0 (wR 0x70 2 0 2 3)) (run0.setG x0 2 1) = true ∧
      run0.tierMask < bf ((run0.setG x0 2 1).gr x0 2) 0 12 := by decide

theorem witness_FencesAndSystemInstructions_complete :
    (fence0 .endProg 0 none).drained x0 ⟨.endProg, 0, none⟩ = true ∧
      (fence0 .peer 0 none).drained x0 ⟨.peer, 0, none⟩ = true ∧
      (fence0 .peer 0 none).fld (Reg.easelCtrl 0 0) Reg.easelCtrl_STOP = 0 ∧
      ((fence0 .easel 0 none).updEx x0 fun y => { y with outst := [out0 0 .ldLoc 1 0 64] }).drained x0 ⟨.easel, 0, none⟩
        = false ∧
      firstFault (((fence0 .easel 0 none).updEx x0 fun y => { y with faults := [⟨0, 5, 0, 0⟩] }).ex x0).faults
        = some ⟨0, 5, 0, 0⟩ ∧
      ((List.range 12).all fun e => !bitOf 1 e || (fence0 .barrier 1 (some 9)).atBarrier ⟨0, e⟩ 1) = true ∧
      ((fence0 .barrier 1 (some 9)).ex x0).fence = some ⟨.barrier, 1, some 9⟩ ∧
      runs (.rdgc x0 (wR 0x78 0 1)) (runWith fun y => { y with pend := List.replicate 32 ⟨60, 0, none⟩ }) = true ∧
      runs (.trace x0 (wR 0x7A 0 0 2)) (run0.setFld Reg.rotStatus Reg.rotStatus_CONF 1) = true := by decide

/-! ## Attention, engine and weight stream -/

/-- `pf0` with one staged sheet at byte 0 of the operand store and an ATTN.STEP descriptor at byte 4,096, whose queries lie at byte
8,192 and washes at byte 16,384. -/
def attn0 : State :=
  (pf0.setBytes (opBase x0 + 4096) (natBytes 8 0 ++ natBytes 8 (2 ^ 22) ++ natBytes 8 0 ++ natBytes 8 8192 ++ natBytes 8 16384)).setG
    x0 2 4096

theorem witness_AttentionStepsVisitTheirSheets :
    let d := attnDesc false (attn0.bytes (opBase x0 + 4096) 64)
    let k := attnDesc true (attn0.bytes (opBase x0 + 4096) 64)
    runs (.attnStep x0 (wR 0x50 0 1 2)) attn0 = true ∧ runs (.sketchRank x0 (wR 0x51 0 1 2)) attn0 = true ∧
      (opCheck 4096 64 64).isNone = true ∧ attn0.opBusy x0 4096 64 false = false ∧ (attn0.descCheck x0 false d).isNone = true ∧
      (attn0.descCheck x0 true k).isNone = true ∧ attn0.pfCode 0 (attn0.pf 0) = cDone ∧
      (attn0.setFld (Reg.bayStkStatus 0) Reg.bayStkStatus_READY 0).pfCode 0 (attn0.pf 0) ≠ cDone := by decide +kernel

theorem witness_AttentionStepsVisitTheirSheets_hold :
    let r := fun h => (⟨false, 1, 0, [], [], 0, 0, 0, none, [], h, false⟩ : RunX)
    ((runWith fun y => { y with run := some (r .fetch) }).ex x0).run = some (r .fetch) ∧ (r .fetch).locFault = none ∧
      (r .fetch).rd ≠ 0 ∧ (r .fetch).hold = .fetch ∧ (r .miss).hold = .miss ∧
      (runWith fun y => { y with run := some (r .fetch) }).fld (Reg.easelCtrl 0 0) Reg.easelCtrl_STOP = 0 := by decide

theorem witness_GlazesCombineWashes :
    runs (.glaze x0 (wR 0x52 0 2 3)) run0 = true ∧ runs (.glazeEmpty x0 (wR 0x52 1 2)) run0 = true ∧
      (washCheck run0 x0 2).isNone = true ∧ run0.opBusy x0 0 washSize true = false ∧
      runs (.glaze x0 (wR 0x52 0 2 3)) (run0.setG x0 2 1) = true ∧ ((run0.setG x0 2 1).gr x0 2).toNat % 32 ≠ 0 ∧
      runs (.glaze x0 (wR 0x52 0 2 3)) (run0.setG x0 2 32) = true ∧ (washCheck (run0.setG x0 2 32) x0 2).isNone = true ∧
      rangesMeet 32 washSize 0 washSize = true ∧ rangesMeet 1024 washSize 0 washSize = false := by decide

/-- Descriptor words of an engine operation on the first sheet of portfolio 0, with its records at stroke 0 of bay 0. -/
def eng0 (op dst dstlen : Nat) : List Nat := [op, 0, dst, dstlen, 0, mkLoc 0 0 0]

/-- `pf0` with that operation running, `ran` or not. -/
def eng1 (op dst dstlen : Nat) (ran : Bool) (f : EngX → EngX := id) : State :=
  pf0.updBay 0 fun y => { y with engine := some (f { desc := eng0 op dst dstlen, ran }) }

theorem witness_TheEngineRunsAndHeatAges :
    (let s := pf0.updBay 0 fun y => { y with engineQ := [eng0 0x20 0 0] }
     (s.bay 0).engine = none ∧ (s.bay 0).engineQ = [eng0 0x20 0 0] ∧ s.admits 0 = true ∧
       s.fld Reg.pwrStatus Reg.pwrStatus_BRAKE = 0 ∧
       (s.setFld Reg.pwrStatus Reg.pwrStatus_BRAKE 1).fld Reg.pwrStatus Reg.pwrStatus_BRAKE = 1) ∧
      [0x10, 0x11, 0x14, 0x18, 0x20, 0x21, 0x23].all (fun op =>
        ((eng1 op 0 0 false).bay 0).engine == some { desc := eng0 op 0 0 } && (engDesc (eng0 op 0 0)).op == op
          && locTier (engDesc (eng0 op 0 0)).res == 0) = true ∧
      ((eng1 0x18 0 0 false).pf 0).valid = true ∧ ((eng1 0x18 0 0 false).pf 0).home = 0 ∧
      (eng1 0x20 0 0 false).engCode 0 (engDesc (eng0 0x20 0 0)) = cDone ∧
      ((eng1 0x20 0 0 false).setFld (Reg.bayStkStatus 0) Reg.bayStkStatus_READY 0).engCode 0 (engDesc (eng0 0x20 0 0)) ≠ cDone ∧
      ((run0.updBay 0 fun y => { y with engine := some { desc := eng0 0x18 0 0 } }).pf 0).valid = false := by decide +kernel

theorem witness_TheEngineRunsAndHeatAges_discard :
    let d := engDesc (eng0 0x11 (mkLoc 3 0 0) 32)
    let s := ((eng1 0x11 (mkLoc 3 0 0) 32 false).setFld Reg.flashCap Reg.flashCap_LPAGES 1).setFld Reg.flashStatus
      Reg.flashStatus_CHREADY 1
    d.op = 0x11 ∧ locTier d.dst = 3 ∧ locAddr d.dst % 32 = 0 ∧ d.dstlen % 32 = 0 ∧
      locAddr d.dst + d.dstlen ≤ 32 * s.fld Reg.flashCap Reg.flashCap_LPAGES ∧ s.t3Up 0 = true ∧
      locTier (engDesc (eng0 0x11 (mkLoc 1 0 0) 32)).dst ≠ 3 := by decide

theorem witness_TheEngineRunsAndHeatAges_complete :
    let g : EngX := { desc := eng0 0x10 0 0, ran := true, moves := [0], commits := [(0, 0, 0)] }
    let h : EngX := { desc := eng0 0x20 0 0, ran := true, results := [0] }
    let s := eng1 0x20 0 0 true fun x => { x with results := [0] }
    ((eng1 0x10 0 0 true fun x => { x with moves := [0], commits := [(0, 0, 0)] }).bay 0).engine = some g ∧ g.moves = 0 :: [] ∧
      g.commits = (0, 0, 0) :: [] ∧ (s.bay 0).engine = some h ∧ h.moves = [] ∧ h.pages = [] ∧ h.ids = [] ∧ s.pair.window = [] ∧
      locFits (engDesc h.desc).res (ceilDiv (8 * (engRecords 0x20 h).length) 512) = true ∧
      ((eng1 0x7F 0 0 false).bay 0).engine = some { desc := eng0 0x7F 0 0 } ∧
      ¬ (engDesc (eng0 0x7F 0 0)).op ∈ [0x10, 0x11, 0x14, 0x18, 0x20, 0x21, 0x23] := by decide

/-- `pf0` with an engine operation of bay 0 on the first sheet of portfolio 0, or a copy from stroke 0 of flash, with template 2. -/
def eng2 (op dst dstlen : Nat) : State :=
  let src := if op = 0x14 then mkLoc 3 0 0 else 0
  let s := (pf0.setFld Reg.flashCap Reg.flashCap_LPAGES 1).setFld Reg.flashStatus Reg.flashStatus_CHREADY 1
  s.updBay 0 fun y => { y with engine := some { desc := [op, src, dst, dstlen, 2, mkLoc 0 0 0] } }

theorem witness_EngineRunsItsDescriptors :
    let dst := mkLoc 1 0 512
    let d := fun op n => engDesc [op, if op = 0x14 then mkLoc 3 0 0 else 0, dst, n, 2, mkLoc 0 0 0]
    let s := fun op n => eng2 op dst n
    [(0x20, 1000), (0x21, 1000), (0x23, 0), (0x10, 1000), (0x14, 32)].all (fun e =>
      ((s e.1 e.2).bay 0).engine.map (fun g => (engDesc g.desc, g.ran, g.results)) == some (d e.1 e.2, false, [])
        && (s e.1 e.2).nbQueued (locMem dst / 512) e.2 == false) = true ∧
      (s 0x20 1000).engCode 0 (d 0x20 1000) = cDone ∧ (d 0x20 1000).xform = 0 ∧ (d 0x20 1000).tid = 2 ∧
      dstOk ((s 0x20 1000).pf 0) (d 0x20 1000) = true ∧
      (s 0x23 0).engWaits { desc := [] } = false ∧ (s 0x23 0).sketchHeld (d 0x23 0) ((s 0x23 0).pf 0) 0 = false ∧
      (s 0x10 1000).pfCode 0 ((s 0x10 1000).pf 0) = cDone ∧ ((s 0x10 1000).pf 0).home = 0 ∧
      (s 0x10 1000).moveDst ((s 0x10 1000).pf 0) (d 0x10 1000) = true ∧ (s 0x10 1000).stackReads 0 (s 0x10 1000).ec = true ∧
      (s 0x10 1000).t2Waits ((s 0x10 1000).pf 0) ((s 0x10 1000).listEntry ((s 0x10 1000).pf 0) 0) = false ∧
      (s 0x10 1000).nbQueued (locMem dst / 512 + 0)
        (seSlen ((s 0x10 1000).listEntry ((s 0x10 1000).pf 0) 0) + ((s 0x10 1000).pf 0).ns) = false := by decide +kernel

theorem witness_EngineRunsItsDescriptors_copy :
    let dst := mkLoc 1 0 512
    let s := eng2 0x14 dst 32
    locTier (mkLoc 3 0 0) = 3 ∧ locTier dst < 2 ∧ locAddr (mkLoc 3 0 0) % 32 = 0 ∧
      locAddr (mkLoc 3 0 0) + 32 ≤ 32 * s.fld Reg.flashCap Reg.flashCap_LPAGES ∧ locFits dst 32 = true ∧ s.reserved dst 32 = false ∧
      s.locReads dst s.ec = true ∧ s.t3Up 0 = true ∧ (s.copyStroke (mkLoc 3 0 0) dst 0).1 = true ∧
      ((s.updFch 0 fun y => { y with map := [(0, 1)] }).copyStroke (mkLoc 3 0 0) dst 0).1 = false ∧ s.partnerAway = false ∧
      s.mirrorOff = false := by decide +kernel

theorem witness_EngineRunsItsDescriptors_ends :
    let u := fun s : State => (s.settleMoves 0).settleFirst 0
    let h : EngX := { desc := eng0 0x20 0 0, ran := true, results := [0] }
    let s := eng1 0x20 0 0 true fun x => { x with results := [0] }
    ((u s).bay 0).engine = some h ∧ (u s).engPending (engDesc h.desc) h = false ∧
      (u s).engPending (engDesc h.desc) { h with pages := [3] } = true ∧
      ((u (eng1 0x20 0 0 false)).bay 0).engine.map (·.ran) = some false := by decide +kernel

/-- `lic0` with the weight stream of bay 0 enabled and a ring of `n` slots for lane 0 at byte `off`. -/
def ws0 (n off : Nat) : State :=
  ((lic0.setFld (Reg.bayWsCtrl 0) Reg.bayWsCtrl_ENABLE 1).setFld (Reg.bayWsLane1 0 0) Reg.bayWsLane1_RINGSZ n).setFld
    (Reg.bayWsLane1 0 0) Reg.bayWsLane1_RINGOFF off

/-- The same with lane 0 as `l`. -/
def ws1 (l : LaneX) : State := (ws0 16 0).setLane 0 0 l

/-- A stroke of lane 0 in flight. -/
def flight0 (retry landed : Bool) : WsFlight := { seq := 0, addr := 0, entry := 0, due := 0, retry, landed, kid := 1 }

theorem witness_WeightStreamLanesStartAndStop :
    run0.easelsPerBay ≤ 11 ∧ 11 < lic0.easelsPerBay ∧ lic0.fld (Reg.bayWsCtrl 0) Reg.bayWsCtrl_ENABLE = 0 ∧
      (ws0 16 0).fld (Reg.bayWsCtrl 0) Reg.bayWsCtrl_ENABLE = 1 ∧ (ws0 15 0).ringSize 0 0 < 16 ∧
      16 ≤ (ws0 16 0).ringSize 0 0 ∧ (ws0 4096 0).ringSize 0 0 ≤ 4096 ∧
      (ws0 4096 64).fld (Reg.bayWsLane1 0 0) Reg.bayWsLane1_RINGOFF % 64 = 0 ∧
      (ws0 4096 64).fld (Reg.bayWsLane1 0 0) Reg.bayWsLane1_RINGOFF + 64 + 512 * (4096 + 9) ≤ opSize ∧
      ((ws1 {}).lane 0 0).run = false ∧ ((ws1 { run := true }).lane 0 0).run = true ∧
      ((ws1 { run := true }).lane 0 0).stopping = none ∧ ((ws1 { run := true }).lane 0 0).flights.all (·.landed) = true ∧
      ((ws1 { run := true, flights := [flight0 false false] }).lane 0 0).flights.all (·.landed) = false ∧
      lic0.slotRoom 0 65535 = true := by decide

theorem witness_WeightStreamLanesStartAndStop_full :
    (lic0.updBay 0 fun y => { y with keystore := List.replicate 4095 7 }).slotRoom 0 65535 = false := by decide +kernel

theorem witness_WeightStrokesAreIssuedAndLand :
    let p : WsSpan := { entry := 0, layer := 0, start := 0, addr := 0, strokes := 1, issued := 0, stop := false, last := true }
    let s := ws1 { run := true, spans := [p] }
    (s.setFld Reg.pwrStatus Reg.pwrStatus_BRAKE 1).fld Reg.pwrStatus Reg.pwrStatus_BRAKE = 1 ∧ run0.stackUp 0 = false ∧
      s.fld Reg.pwrStatus Reg.pwrStatus_BRAKE = 0 ∧ s.stackUp 0 = true ∧ s.admits 0 = true ∧
      s.keyGood (s.fld (Reg.bayWsCtrl 0) Reg.bayWsCtrl_KEYSLOT) = true ∧
      (s.setFld (Reg.bayWsCtrl 0) Reg.bayWsCtrl_KEYSLOT 1).keyGood 1 = false ∧ (s.bay 0).wsTurn < 12 ∧
      (s.lane 0 0).spans.getLast? = some p ∧ p.issued < p.strokes ∧ s.wsMay 0 0 (s.lane 0 0) = true ∧
      s.stackReads 0 s.ec = true ∧ s.descWants 0 = false ∧ s.wsShort 0 = true ∧
      (pf0.updBay 0 fun y => { y with engine := some { desc := eng0 0x20 0 0 } }).descWants 0 = true ∧
      (ws1 { run := true, landed := 8 }).wsShort 0 = false := by decide

theorem witness_WeightStrokesAreIssuedAndLand_land :
    let s := fun r => ws1 { run := true, flights := [flight0 r false], landed := 16 }
    [false, true].all (fun r =>
      ((s r).lane 0 0).flights.find? (fun f => !f.landed && f.retry == r) == some (flight0 r false)
        && !(((s r).passTo 0).wsCheck 0 0 1).1
        && (((((s r).setStamp (stackBase 0 / 512) (.key 1 (locTweak 0 0))).passTo 0).wsCheck 0 0 1).1)) = true ∧
      16 ≤ (s false).ringSize 0 0 ∧ ((ws1 { run := true }).lane 0 0).flights = [] ∧
      (16 + 2 ^ 32 - bytesNat ((s false).bytes ((s false).ringBase 0 0 + 8) 4)) % 2 ^ 32 ≤ (s false).ringSize 0 0 ∧
      (ws1 { run := true, landed := 17 }).ringSize 0 0
        < (17 + 2 ^ 32 - bytesNat ((s false).bytes ((s false).ringBase 0 0 + 8) 4)) % 2 ^ 32 := by decide

/-! ## Stacks and flash -/

theorem witness_StrokesAreCheckedAndWritten :
    let g := stackBase 15 / 512 + (stackStrokes - 1)
    let q := State.reset.sealUnder 15 (stackStrokes - 1) 0 7
    let s := State.reset.setStamp g q
    (15 : Nat) < 16 ∧ stackStrokes - 1 < stackStrokes ∧ (65535 : Nat) < 65536 ∧ s.stamp g = q ∧
      (s.regionAt 15 (stackStrokes - 1)).2 = false ∧ s.stamp g ≠ .void ∧
      (s.setStamp g (.clear false)).stamp g ≠ q ∧ (s.setStamp g (.clear false)).stamp g ≠ .void ∧ (s.setStamp g (.clear false)).stamp g ≠ .none ∧
      (s.setStamp g .void).stamp g = .void ∧ pfTop ≤ stackStrokes - 1 ∧ State.reset.stamp g = .none ∧
      State.reset.sealUnder 15 (stackStrokes - 1) 0 (locTweak 15 (stackStrokes - 1)) = State.reset.locWant 15 (stackStrokes - 1) ∧
      (s.check g q 0).1 = true ∧ ((s.setStamp g (.clear false)).check g q 0).1 = false := by decide

/-- A read and a write-back of stroke 5 of stack 0. -/
def access0 (write : Bool) : Access := { write, addr := 5, requester := 0, arrival := 10, sourceBay := 15 }

theorem witness_AccessesAndTransfersAreAdmitted :
    let s := lic0.updStk 0 fun y => { y with pb := [⟨5, true⟩] }
    (access0 false).addr < stackStrokes ∧ (access0 false).sourceBay < 16 ∧ lic0.admits 0 = true ∧ lic0.stackUp 0 = true ∧
      (lic0.stk 0).tripping = false ∧ (lic0.stk 0).pb.any (·.addr == 5) = false ∧ (s.stk 0).pb.any (·.addr == 5) = true ∧
      ((s.stk 0).pb.find? (·.flush) <|> (s.stk 0).pb.head?) = some ⟨5, true⟩ ∧ (lic0.stk 0).pb = [] ∧
      (lic0.setFld Reg.pwrStatus Reg.pwrStatus_RELOCK 1).admits 0 = false := by decide

theorem witness_StacksRefreshScrubRemapAndRetrain :
    (List.replicate 16 255).length = 16 ∧ (114 : Nat) < 115 ∧ lic0.boot.noCrystal = false ∧ lic0.boot.phase < 3 ∧
      lic0.pwr.relock = none ∧ (lic0.stk 15).pendFloor = false ∧ lic0.asleep 15 = false ∧
      mapSn (lic0.stk 15).map ≠ 0 ∧ (lic0.stk 15).remapping = [] ∧ (lic0.stk 15).nbRun = none ∧
      (let s := lic0.updStk 15 fun y => { y with remapping := [(0, 4)] }
       (s.stk 15).remapping.find? (fun r => r.2 == 4 || mapSn (s.stk 15).map == 0) = some (0, 4)) ∧
      mapBad (mapFields 0x300) = true ∧ lic0.belowFloors 15 (mapFields 0x1001400000) = false ∧
      (lic0.setFld (Reg.pwrStk 15) Reg.pwrStk_RNMIN 1).belowFloors 15 (mapFields 0x1001400000) = true := by decide

theorem witness_StacksRefreshScrubRemapAndRetrain_map : mapBad (mapFields 0x1001400000) = false := by decide +kernel

theorem witness_StacksRefreshScrubRemapAndRetrain_regions :
    let v : Nat := 2 ^ 63 + 2 * 2 ^ 20 + 655328
    let s := lic0.setReg (Reg.bayRegion 0 1) (BitVec.ofNat 64 (2 ^ 63 + 2 ^ 20))
    bitOf v 63 = true ∧ pfTop < 256 * (bitsOf v 0 20 + bitsOf v 20 20) ∧ bitOf (2 ^ 40) 40 = true ∧
      (lic0.setFld Reg.rotStatus Reg.rotStatus_CONF 1).conf = true ∧
      s.fld (Reg.bayRegion 0 1) Reg.bayRegion_VALID = 1 ∧
      rangesMeet 0 1 (s.fld (Reg.bayRegion 0 1) Reg.bayRegion_BASE) (s.fld (Reg.bayRegion 0 1) Reg.bayRegion_LEN) = true ∧
      bitOf 0 63 = false ∧ lic0.conf = false := by decide

theorem witness_StacksRefreshScrubRemapAndRetrain_retrain :
    let s := lic0.updStk 0 fun y => { y with tripping := true }
    let t := lic0.updStk 0 fun y => { y with badTiming := true }
    let u := ((lic0.updStk 0 fun y => { y with readyAt := some 12800 }).setFld (Reg.bayStkStatus 0) Reg.bayStkStatus_TRAIN 1).setFld
      (Reg.bayStkStatus 0) Reg.bayStkStatus_SELFREF 1
    (s.stk 0).tripping = true ∧ (s.stk 0).nbRun = none ∧ (t.stk 0).badTiming = true ∧ t.stackUp 0 = true ∧
      (u.stk 0).readyAt = some 12800 ∧ u.fld (Reg.bayStkStatus 0) Reg.bayStkStatus_TRAIN = 1 ∧
      u.fld (Reg.bayStkStatus 0) Reg.bayStkStatus_SELFREF = 1 ∧ (lic0.stk 0).tripping = false := by decide

/-- A small flash channel. -/
def geom0 : FlashGeometry :=
  { targets := 1, lunsPer := 1, planes := 2, blocks := 4, pages := 256, dataBytes := 16384, spareBytes := 2048, lpddr4 := true
    badBlocks := [] }

/-- `lic0` with channel 0 ready and as `f` says beside its geometry. -/
def flash0 (f : FlashX → FlashX := id) : State :=
  (lic0.setFld (Reg.flashChStatus 0) Reg.flashChStatus_READY 1).updFch 0 fun y => f { y with geom := some geom0 }

theorem witness_FlashPagesAndExtents :
    let s := flash0 fun y => { y with map := [(0, 1)] }
    let q := flash0 fun y => { y with queue := [0] }
    s.pageMapped 0 = true ∧ s.chUp 0 = true ∧ lic0.pageMapped 0 = false ∧
      (s.setFld Reg.flashPatrol Reg.flashPatrol_ENABLE 1).fld Reg.flashPatrol Reg.flashPatrol_ENABLE = 1 ∧
      ([some 0, none, some 0, some 0] : List (Option Nat)).any (·.isNone) = true ∧
      SMap.get (fun _ => false) (s.fch 0).lost 0 = false ∧ s.fld Reg.flashCfg Reg.flashCfg_RELTH ≤ 1000 ∧
      (s.setFld Reg.flashPatrol Reg.flashPatrol_ENABLE 0).fld Reg.flashPatrol Reg.flashPatrol_ENABLE = 0 ∧
      (lic0.fch 0).queue.contains 0 = false ∧ (q.fch 0).queue.contains 0 = true ∧ 0 < (q.fch 0).luns ∧ (q.fch 0).room = true ∧
      2 < (q.fch 0).freeIn 0 ∧ ((q.fch 0).target 0).isSome = true ∧
      s.fld Reg.flashCfg Reg.flashCfg_GCLOW ≤ ((flash0 fun y => { y with geom := some { geom0 with blocks := 16 } }).fch 0).freeIn 0 := by
  decide

theorem witness_FlashPagesAndExtents_turns :
    let q := flash0 fun y => { y with queue := [0] }
    let full := flash0 fun y => { y with queue := [0], geom := some { geom0 with blocks := 0 } }
    let f := q.fch 0
    f.lunFor 0 = some 0 ∧ f.collectFirst 0 = false ∧ (full.fch 0).lunFor 0 = none ∧ full.chUp 0 = true ∧
      (List.range 16).all (fun b => (q.bay b).engine.isNone) = true ∧ f.perLun ≤ 2 ^ 32 ∧
      ((List.range f.luns).any fun l =>
        decide (f.freeIn l < q.fld Reg.flashCfg Reg.flashCfg_GCLOW) && (f.keysOf l).any f.stale) = false := by decide

theorem witness_FlashPagesAndExtents_collect :
    let s := flash0 fun y => { y with blocks := [(0, { st := .closed, erases := 0, pages := [] })] }
    let t := (flash0 fun y => { y with blocks := [(0, { st := .closed, erases := 0, pages := [0] })], map := [(0, 1)] })
    0 < (s.fch 0).luns ∧ (s.fch 0).freeIn 0 < s.fld Reg.flashCfg Reg.flashCfg_GCLOW ∧ s.chUp 0 = true ∧
      (s.fch 0).emptiest 0 = some 0 ∧ (s.fch 0).valid 0 = [] ∧ (t.fch 0).emptiest 0 = some 0 ∧ (t.fch 0).valid 0 = [0] ∧
      (s.fch 0).opened < s.fld Reg.flashCfg Reg.flashCfg_CKPTBLK ∧
      s.fld Reg.flashCfg Reg.flashCfg_CKPTBLK ≤ ((flash0 fun y => { y with opened := 4095 }).fch 0).opened := by decide

theorem witness_FlashPagesAndExtents_extent :
    let s := State.reset.setFld (Reg.tier2Ext0 255) Reg.tier2Ext0_VALID 1
    let w := s.setFld (Reg.tier2Ext0 255) Reg.tier2Ext0_WITHDRAW 1
    s.fld (Reg.tier2Ext0 255) Reg.tier2Ext0_VALID = 1 ∧ State.reset.fld (Reg.tier2Ext0 255) Reg.tier2Ext0_VALID = 0 ∧
      w.fld (Reg.tier2Ext0 255) Reg.tier2Ext0_WITHDRAW = 1 ∧ w.host.reads = [] ∧
      ofExtent 0 { kind := 0, arg := 0 } = true := by decide

theorem witness_FlashChannelsAreBroughtUpFormattedAndLost :
    let s := lic0.setFld Reg.flashStatus Reg.flashStatus_FORMATTING 1
    let r := (flash0 fun y => { y with rebuilding := true })
    s.fld Reg.flashStatus Reg.flashStatus_FORMATTING = 1 ∧ lic0.fld Reg.flashStatus Reg.flashStatus_FORMATTING = 0 ∧
      State.reset.fld Reg.globalReady Reg.globalReady_LIC = 0 ∧ lic0.fld Reg.globalReady Reg.globalReady_LIC = 1 ∧
      (r.fch 0).rebuilding = true ∧ r.stackUp 0 = true ∧ (lic0.fch 0).rebuilding = false ∧ r.chUp 0 = true ∧
      lic0.chUp 0 = false ∧ geomOk geom0 = true := by decide

/-! ## Ports, transport and schedulers -/

/-- `lic0` as node 5 with port 0 UP in native framing and connection 3 open to node 9. -/
def fab0 : State :=
  (((lic0.setFld Reg.fabId Reg.fabId_NODE 5).setFld (Reg.portStatus 0) Reg.portStatus_STATE 5).setFld Reg.fabCtrl
    Reg.fabCtrl_MODE 2).setConn 3 { state := 1, peer := 9, peerconn := 4, ports := 1 }

/-- `fab0` with connection 3 changed. -/
def fab1 (f : ConnX → ConnX) : State := fab0.updConn 3 f

/-- Port 7 of `lic0` in a state, lanes 0 to 3 locked. -/
def port0 (st : Nat) : State := (lic0.setPortSt 7 st).updPort 7 fun y => { y with locked := 15 }

theorem witness_PortsNegotiateComeUpAndGoDown :
    (7 : Nat) < 8 ∧ (lic0.setFld Reg.globalLic Reg.globalLic_TIER 2).nPorts ≤ 7 ∧ 7 < lic0.nPorts ∧
      (List.range 6).all (fun n => (port0 n).portSt 7 == n && decide (7 < (port0 n).nPorts)) = true ∧
      lic0.fld Reg.globalReady Reg.globalReady_LIC = 1 ∧ ((port0 1).port 7).unseated = false ∧
      (((port0 1).updPort 7 fun y => { y with unseated := true }).port 7).unseated = true ∧
      (255 : Nat) &&& (port0 2).lanesOk 7 ≠ 0 ∧ (0 : Nat) &&& (port0 2).lanesOk 7 = 0 ∧
      (let own := ((port0 3).updPort 7 fun y => { y with offer := (port0 3).capPage 7 }).port 7 |>.offer
       bitsOf own 9 2 &&& bitsOf own 9 2 ≠ 0 ∧ bestMode (bitsOf own 0 4) (bitsOf own 4 3) (bitsOf own 28 8) = some (2, 2)) ∧
      ¬(0 = 0 ∧ (port0 4).fld (Reg.portNeg 7) Reg.portNeg_NFECMAX < 0) ∧
      (port0 4).fld (Reg.portNeg 7) Reg.portNeg_NFECMAX < 2 ^ 32 ∧
      (((port0 4).updPort 7 fun y => { y with chosen := some (2, 2, 0, 0, 15) }).port 7).chosen = some (2, 2, 0, 0, 15) := by decide

/-- A WRIMM descriptor at byte 64 of the operand store of easel 0, for connection 3: one packet from byte 4,096; `src` its source. -/
def msg0 (src : Nat) : State :=
  ((fab0.setEst x0 stRunning).updEx x0 fun y => { y with imgLen := 100 }).setBytes (opBase x0 + 64)
    (natBytes 8 (9 + 3 * 2 ^ 12) ++ natBytes 8 0 ++ natBytes 8 0 ++ natBytes 8 src ++ natBytes 8 16) |>.setG x0 2 64

theorem witness_MessagesAreIssuedAndQueued :
    let d := fun s : State => (List.range 8).map fun i => (s.opWord x0 (64 + 8 * i)).toNat
    runs (.wrimm x0 (wR 0x60 0 1 2)) (msg0 4096) = true ∧ runs (.send x0 (wR 0x61 0 1 2)) (msg0 4096) = true ∧
      runs (.recv x0 (wR 0x62 0 1 2)) (msg0 4096) = true ∧ (opCheck 64 64 64).isNone = true ∧
      bitsOf ((d (msg0 4096)).getD 0 0) 12 12 = 3 ∧ bitOf ((d (msg0 4096)).getD 3 0) 63 = false ∧
      (opCheck 4096 16 1).isNone = true ∧ (msg0 4096).opBusy x0 64 64 false = false ∧
      freeEntry ((msg0 4096).ex x0).outst = some 0 ∧ ((msg0 4096).conn 3).state = 1 ∧ ((msg0 4096).conn 3).bufs.length < 16 ∧
      (msg0 4096).sendMode = true ∧ ((msg0 4096).setFld Reg.fabCtrl Reg.fabCtrl_MODE 1).sendMode = false ∧
      (((msg0 4096).updConn 3 fun k => { k with state := 2 }).conn 3).state ≠ 1 ∧
      bitOf ((d (msg0 (2 ^ 63 + 2 ^ 47))).getD 3 0) 63 = true ∧ (msg0 (2 ^ 63 + 2 ^ 47)).locOk (2 ^ 47) 1 = false ∧
      ((msg0 (2 ^ 63 + 2 ^ 47)).ex x0).faults = [] ∧
      freeEntry (((msg0 4096).updEx x0 fun y => { y with outst := (List.range 32).map fun n => out0 n .nb 0 0 0 }).ex x0).outst
        = none := by decide +kernel

/-- A message of connection 3 of one packet, not queued, on port 0. -/
def tx0 : TxMsg :=
  { first := 0, n := 1, send := false, x := x0, entry := 0, seq := 0, desc := [9 + 3 * 2 ^ 12, 0, 0, 4096, 16], epoch := 0
    port := some 0, issued := 0, ready := 0, queued := false, next := 0, complete := false }

theorem witness_MessagesAreIssuedAndQueued_queue :
    let s := fab1 fun k => { k with msgs := [tx0] }
    (s.conn 3).msgs.find? (fun m => m.first == 0 && !m.queued) = some tx0 ∧ tx0.port = some 0 ∧
      (s.waitEntry tx0.x tx0.entry tx0.seq).any (s.mustWait tx0.x) = false ∧
      ((s.inst 0).sub (descSubq tx0.desc)).msgs.length < s.fld (Reg.schedSvc1 0 (descSvc tx0.desc)) Reg.schedSvc1_QLIM ∧
      s.queuedAll < 65536 ∧
      (let t := (s.setFld (Reg.schedSvc1 0 (descSvc tx0.desc)) Reg.schedSvc1_QLIM 1).enqueue 0 (descSubq tx0.desc)
          ⟨.own (.pin "" true) 64, 0, 0⟩
       t.fld (Reg.schedSvc1 0 (descSvc tx0.desc)) Reg.schedSvc1_QLIM ≤ ((t.inst 0).sub (descSubq tx0.desc)).msgs.length) := by
  decide

/-- A frame to node `dn` from node 9 on connection `c`, of a type, its words 1 to 6 given. -/
def frm (dn c type : Nat) (ws : List Nat := []) (payload : List Byte := []) : Frame :=
  mkFrame (frameW0 dn 9 type c 0 0 :: ws) payload

/-- A packet of a WRIMM of 8 bytes, PSN `psn`. -/
def pkt0 (psn : Nat) : Frame := frm 5 3 1 [psn * 2 ^ 32, 8 * 2 ^ 12, 8 * 2 ^ 40] (List.replicate 8 1)

/-- `fab0` once a frame with three corrected codewords has come. -/
def fec0 : State := fab0.codewords 0 3 0

theorem witness_FramesAreCheckedOnReceipt :
    0 < fab0.nPorts ∧ run0.portNative 0 = false ∧ fab0.portNative 0 = true ∧ fec0.hears 0 = true ∧
      (fec0.setFld Reg.pwrStatus Reg.pwrStatus_RELOCK 1).hears 0 = false ∧
      fab0.fld (Reg.portTest 0) Reg.portTest_LOOP = 0 ∧ fab0.fld (Reg.portTest 0) Reg.portTest_PRBS = 0 ∧
      ((fab0.updPort 0 fun y => { y with lit := (15, 0) }).setFld (Reg.portTest 0) Reg.portTest_PRBS 1).fld (Reg.portTest 0)
        Reg.portTest_PRBS = 1 ∧
      (((fab0.updPort 0 fun y => { y with looped := [pkt0 0] }).setFld (Reg.portTest 0) Reg.portTest_LOOP 1).port 0).looped.contains
        (pkt0 0) = true ∧ idleUnit (pkt0 0) = false ∧
      hcrcOk ⟨[], []⟩ = false ∧ hcrcOk (pkt0 0) = true ∧ hw (pkt0 0) 0 28 4 = 1 ∧ frType (pkt0 0) = 1 ∧
      hdrReserved (pkt0 0) = false ∧ hw (pkt0 0) 0 0 12 = fec0.node ∧ fec0.connTakes (pkt0 0) = true ∧ cutOk (pkt0 0) = true ∧
      pcrcOk (pkt0 0) = true ∧ pcrcOk { pkt0 0 with payload := List.replicate 8 2 } = false ∧
      (fec0.meter 0 0 3 (frameBytesOf 8)).1 = false := by decide +kernel

theorem witness_FramesAreCheckedOnReceipt_drops :
    6 < frType (frm 5 3 7) ∧ hcrcOk (frm 5 3 7) = true ∧ hw (frm 6 3 1) 0 0 12 ≠ fec0.node ∧ frType (frm 6 3 0) = 0 ∧
      fec0.connTakes (frm 5 2 1) = false ∧ frConn (frm 5 2 1) < 4096 ∧ cutOk (frm 5 3 1 [0, 1]) = false ∧
      2 < frType (frm 5 3 3) ∧ pcrcOk (frm 5 3 3) = true ∧ fec0.connTakes (frm 5 3 3) = true ∧
      hdrReserved (frm 5 3 3) = false ∧ hdrReserved (frm 5 3 3 [1]) = true := by decide +kernel

/-- R377: PORT.FEC counts codewords and saturates. -/
theorem test_codewords :
    fec0.fld (Reg.portFec 0) Reg.portFec_CORR = 3 ∧
      ((fab0.codewords 0 0 (2 ^ 32)).fld (Reg.portFec 0) Reg.portFec_UNCORR = 2 ^ 32 - 1) := by decide

/-- `fab0` with frames that wait on port 0. -/
def came (fs : List Frame) (f : ConnX → ConnX := id) : State :=
  let s := fab1 f
  { s with fab := { s.fab with arrived := fs.map fun g => (0, g, 0) } }

theorem witness_PacketsMessagesAndAcknowledgements :
    let data := fun (g : Frame) (e : Nat × Frame × Nat) => e.1 == 0 && e.2.1 == g && decide (frType g ≤ 2)
    let typ := fun (g : Frame) (n : Nat) (e : Nat × Frame × Nat) => e.2.1 == g && decide (frType g = n)
    (fab0.waitingPacket 0 (pkt0 0)).isNone = true ∧ ((came [pkt0 0]).waitingPacket 0 (pkt0 0)) = some (0, 0) ∧
      (fab0.takeArrived (data (pkt0 0))).isNone = true ∧
      (let sm := ((came [pkt0 0]).passTo 96).meterDue
       ((sm.takeArrived fun e => e.1 == 0 && e.2.1 == pkt0 0).map (·.1)) = some (0, pkt0 0, 0) ∧
         sm.connTakes (pkt0 0) = true ∧ (sm.conn 3).rx = [] ∧ (sm.conn 3).rxbits = [] ∧ (sm.conn 3).inval = none ∧
         (frPsn (pkt0 0) + 65536 - (sm.conn 3).rxcum) % 65536 = 0) ∧
      (((fab0.passTo 0).meterDue.takeArrived fun e => e.1 == 0 && e.2.1 == pkt0 0).isNone) = true ∧
      (frPsn (pkt0 1023) + 65536 - ((came []).conn 3).rxcum) % 65536 = 1023 ∧
      (frPsn (pkt0 1024) + 65536 - ((came []).conn 3).rxcum) % 65536 = 1024 ∧
      [3, 4].all (fun n => ((came [frm 5 3 n]).takeArrived (typ (frm 5 3 n) n)).map (·.1) == some (0, frm 5 3 n, 0)) = true ∧
      ((came [frm 5 3 6]).takeArrived (fun e => e.1 == 0 && e.2.1 == frm 5 3 6 && decide (frType (frm 5 3 6) = 6))).map (·.1) =
        some (0, frm 5 3 6, 0) ∧
      (let s := (came [frm 5 3 4] fun k => { k with msgs := [tx0] }).updEx x0 fun y => { y with outst := [out0 0 .wrimm 1 0 0] }
       (s.conn 3).msgs.find? (fun m => m.first == frPsn (frm 5 3 4) && !m.complete) = some tx0 ∧
         s.waitEntry tx0.x tx0.entry tx0.seq = some (out0 0 .wrimm 1 0 0)) := by decide +kernel

/-- A message of connection 3 that is open: one packet, on its way to the buffer of a RECV. -/
def rx0 (placed : Nat) : RxMsg :=
  { first := 0, n := 1, hdr := [], port := 0, seen := [0], placing := [(0, [7, 8], 0)], placed, spans := [], ids := []
    buf := some ⟨x0, 0, 0, 4096, 64⟩, lastBay := 0 }

/-- A packet of connection 3 that was sent `n` times and is not acknowledged. -/
def txp0 (n : Nat) (due : Bool) : TxPkt :=
  { psn := 0, idx := 0, first := 0, frame := some (pkt0 0), sends := n, sentGc := 0, port := 0, acked := false, due, dueAt := 0 }

theorem witness_PacketsMessagesAndAcknowledgements_rest :
    let s := fun n => fab1 fun k => { k with rx := [rx0 n] }
    let r := fun n due => fab1 fun k => { k with msgs := [tx0], pkts := [txp0 n due] }
    ((s 0).conn 3).rx.find? (fun m => m.first == 0) = some (rx0 0) ∧
      (rx0 0).placing.find? (fun e => e.1 == 0 && e.2.1 == [7, 8]) = some (0, [7, 8], 0) ∧ (rx0 0).buf = some ⟨x0, 0, 0, 4096, 64⟩ ∧
      bitOf 4096 63 = false ∧ (s 0).windowFull = false ∧ (s 0).recvWaits (rx0 0) = false ∧ (s 0).nbQueued ((opBase x0 + 4096) / 512) 1 = false ∧
      (rx0 0).placed ≠ (rx0 0).n ∧ (rx0 1).placed = (rx0 1).n ∧
      (rx0 1).ids = [] ∧ ((s 1).conn 3).inval = none ∧ (fab0.conn 3).nack = 0 ∧
      ((fab1 fun k => { k with nack := 1 }).conn 3).nack ≠ 0 ∧
      (let late := fun q : TxPkt => q.psn == 0 && decide (q.sends ≠ 0) && !q.due && ((r 1 false).conn 3).wanted q
       (fab0.conn 3).pkts.find? late = none ∧ ((r 1 false).conn 3).pkts.find? late = some (txp0 1 false) ∧
         (txp0 1 false).sends ≤ (r 1 false).fld Reg.fabTimer Reg.fabTimer_RETRYMAX ∧
         (r 1 false).fld Reg.fabTimer Reg.fabTimer_RETRYMAX + 1 ≤ (txp0 256 false).sends) ∧
      ((r 1 true).conn 3).pkts.find? (fun q => q.psn == 0 && q.due) = some (txp0 1 true) ∧
      ((r 1 true).conn 3).wanted (txp0 1 true) = true ∧ (r 1 true).portNative (txp0 1 true).port = true ∧
      (r 1 true).fld (Reg.portTest 0) Reg.portTest_LOOP = 0 ∧
      (txp0 1 true).frame = some (pkt0 0) ∧ ((fab1 fun k => { k with state := 3 }).conn 3).state = 3 := by decide +kernel

theorem witness_PacketsMessagesAndAcknowledgements_window :
    ({ fab0 with pair := { fab0.pair with window := List.replicate 4096 (0, none, ⟨0, 0, 0, 0, 0, []⟩, 0) } } : State).windowFull = true := by
  decide +kernel

theorem witness_FabricTablesAreWrittenReadAndRevoked :
    let s2 := (fab0.setFld Reg.globalLic Reg.globalLic_TIER 2).setFld Reg.fabConndata0 Reg.fabConndata0_PORTS 16
    let reg := fun n => fab0.setRegn 65535 { state := n }
    let cli := fun f : ConnX → ConnX => fab0.updConn (4096 + 5) f
    lowestIdx 8 (fun p => bitOf 16 p && decide (s2.nPorts ≤ p)) = some 4 ∧
      s2.fld Reg.fabConndata0 Reg.fabConndata0_PORTS = 16 ∧
      lowestIdx 8 (fun p => bitOf (fab0.fld Reg.fabConndata0 Reg.fabConndata0_PORTS) p && decide (fab0.nPorts ≤ p)) = none ∧
      fab0.fld Reg.fabConndata0 Reg.fabConndata0_PEER ≤ 0x3FF ∧
      0x3FF < (fab0.setFld Reg.fabConndata0 Reg.fabConndata0_PEER 0x400).fld Reg.fabConndata0 Reg.fabConndata0_PEER ∧
      fab0.fld Reg.fabConndata0 Reg.fabConndata0_STATE = 0 ∧
      (fab0.setFld Reg.fabConndata0 Reg.fabConndata0_STATE 3).fld Reg.fabConndata0 Reg.fabConndata0_STATE = 3 ∧
      (List.range 3).all (fun n => ((reg n).regn 65535).state == n) = true ∧ (reg 2).openOf 65535 = [] ∧
      (let m := { rx0 0 with buf := none, hdr := [0, 0, 0, 0] }
       ((reg 2).updConn 3 fun k => { k with rx := [m] }).openOf 0 ≠ []) ∧
      (cli id).clientHeld (4096 + 5) = false ∧ (cli fun k => { k with used := 1 }).clientHeld (4096 + 5) = true ∧
      ((cli fun k => { k with used := 1 }).conn (4096 + 5)).pinned = false ∧
      ((cli fun k => { k with nack := 1 }).conn (4096 + 5)).pinned = true ∧
      ((cli fun k => { k with nack := 1 }).conn (4096 + 5)).inval = none ∧
      (List.replicate 256 (0 : BitVec 8)).length = 256 ∧ fab0.fab.fetching.contains (4096 + 5) = false ∧
      ({ fab0.fab with fetching := [4096 + 5] } : FabX).fetching.contains (4096 + 5) = true := by decide +kernel

/-- `fab0` with a message of connection 3, or traffic of the node's own, at the head of queue 65,535 of the scheduler of port 0, as
it was at the start of the cycle. -/
def sched0 (item : QItem) : State :=
  let s := (fab1 fun k => { k with txpsn := 1, msgs := [{ tx0 with queued := true }] }).enqueue 0 65535 ⟨item, 0, 0⟩
  { s with was := s.regs, fab := { s.fab with instsWas := (0, []) } }

theorem witness_SchedulersGrantRefillPoliceAndSample :
    (fab0.setFld Reg.globalLic Reg.globalLic_TIER 2).instUp 7 = false ∧ (List.range 10).all (fun i => fab0.instUp i) = true ∧
      fab0.instLink 1 = false ∧ (fab0.atStart.choose 0).isNone = true ∧
      [QItem.own (.pin "" true) 64, .msg 3 0, .mgmt 0 0 [0] 0 0 8].all (fun i =>
        let u := (sched0 i).passTo (((sched0 i).port 0).fibre.2 / 10 ^ 6)
        (u.atStart.choose 0).map (fun e => (e.1, e.2.1.item)) == some (65535, i) && u.selects 0
          && ((u.inst 0).sub 65535).msgs.head? == (u.atStart.choose 0).map (fun e => e.2.1)) = true ∧
      (sched0 (.msg 3 0)).fld (Reg.portTest 0) Reg.portTest_LOOP = 0 ∧
      (sched0 (.msg 3 0)).txMsg 3 0 = some { tx0 with queued := true } ∧
      fab0.fld Reg.sampleCtrl Reg.sampleCtrl_ENABLE = 0 ∧
      (fab0.setFld Reg.sampleCtrl Reg.sampleCtrl_ENABLE 1).fld Reg.sampleCtrl Reg.sampleCtrl_ENABLE = 1 ∧
      fab0.fab.walkEnd ≤ max fab0.ec (96 * (fab0.fab.sampleAt + max 128 (fab0.fld Reg.sampleCtrl Reg.sampleCtrl_INTERVAL))) ∧
      max fab0.ec (96 * (fab0.fab.sampleAt + max 128 (fab0.fld Reg.sampleCtrl Reg.sampleCtrl_INTERVAL))) <
        ({ fab0.fab with walkEnd := 2 ^ 40 } : FabX).walkEnd := by decide +kernel
/-! ## Pair, map and leases -/

/-- `lic0` as node 5, seeded, with these members (node, partner), all LIVE. -/
def map0 (ms : List (Nat × Nat)) : State :=
  let s := (lic0.setFld Reg.fabId Reg.fabId_NODE 5).setFld Reg.mapEpoch Reg.mapEpoch_SEEDED 1
  ms.foldl (fun u m => u.setMember m.1 (1, m.2)) s

/-- Nodes 5, 6 (its partner), 8, 9, 12 and 13. -/
def ring0 : State := map0 [(5, 6), (6, 5), (8, 9), (9, 8), (12, 13), (13, 12)]

/-- A mirrored operation awaited as number 7. -/
def mirr0 : Nat × Option Ea × MirrorIn × Nat := (7, none, ⟨0, 0, 0, 0, 0, [⟨stackBase 0, .clear false, [1]⟩]⟩, 0)

/-- Sets a field of PAIR.STATUS. -/
def ps (s : State) (f : Fld) (v : Nat) : State := s.setFld Reg.pairStatus f v

theorem witness_ThePairMirrorsAndResynchronises :
    let far := (ps ring0 Reg.pairStatus_LINK 0).setFld Reg.pairCtrl Reg.pairCtrl_FABPATH 0
    let gone := ps (ps far Reg.pairStatus_UNREACH 1) Reg.pairStatus_PARTNER 6
    mirr0.2.2.1.bay < 16 ∧ mirr0.2.2.1.unit ≤ 1 ∧ mirr0.2.2.1.pf < 2 ^ 18 ∧ mirr0.2.2.1.writes = [⟨stackBase 0, .clear false, [1]⟩] ∧ lic0.bayUp 0 = true ∧ lic0.stackUp 0 = true ∧
      lic0.asleep 0 = false ∧ State.reset.bayUp 0 = false ∧ State.reset.asleep 0 = false ∧
      (lic0.setFld Reg.pwrStatus Reg.pwrStatus_DEEP 1).bayUp 0 = true ∧ (lic0.setFld Reg.pwrStatus Reg.pwrStatus_DEEP 1).asleep 0 = true ∧
      lic0.pair.window.find? (fun w => w.1 == 7) = none ∧
      ({ lic0.pair with window := [mirr0] } : PairX).window.find? (fun w => w.1 == 7) = some mirr0 ∧
      lic0.boot.phase ≠ 2 ∧ ({ lic0.boot with phase := 2 } : BootX).phase = 2 ∧
      (ps lic0 Reg.pairStatus_LINK 2).fld Reg.pairStatus Reg.pairStatus_LINK ≠ 0 ∧
      far.fld Reg.pairStatus Reg.pairStatus_LINK = 0 ∧ far.pwr.parked = false ∧ far.pair.window = [] ∧
      far.fld Reg.pairStatus Reg.pairStatus_UNREACH = 0 ∧ far.fld Reg.pairCtrl Reg.pairCtrl_FABPATH = 0 ∧
      gone.fld Reg.pairStatus Reg.pairStatus_UNREACH = 1 ∧ gone.isLive = true ∧ gone.suspected 6 = false ∧ gone.node < 6 ∧ lic0.pair.groups = 0 ∧
      (List.range 16).all (fun b => (lic0.bay b).engine.isNone) = true ∧ gone.fld Reg.pairStatus Reg.pairStatus_PARTNER = 6 := by decide

theorem witness_ThePairMirrorsAndResynchronises_coordinators :
    let up := fun ms => ((map0 ms).passTo (96 * ((map0 ms).pair.unreachAt + (map0 ms).fld Reg.pairCtrl Reg.pairCtrl_PAIRHOLD)))
    (up [(5, 6), (6, 0xFFF)]).coordinators 6 = [5] ∧ (up []).coordinators 6 = [] := by decide +kernel

/-- A key for slot `slot`, owner 9, that the partner's root of trust installs. -/
def keyOp0 (slot : Nat) : MirrorIn := ⟨0, 0x11, 6, 0, 0, [⟨0, .none, natBytes 2 slot ++ natBytes 2 9 ++ List.replicate 96 1⟩]⟩

theorem witness_ThePairMirrorsAndResynchronises_keys :
    let s := (lic0.setFld Reg.rotStatus Reg.rotStatus_PAIRKEY 1)
    let u : State := { s with boot := { s.boot with phase := 2 } }
    (keyOp0 3).bay < 16 ∧ (keyOp0 3).unit = 6 ∧ (keyOp0 3).idx = 0x11 ∧ (keyOp0 3).pf < 2 ^ 18 ∧ u.boot.phase = 2 ∧
      u.fld Reg.rotStatus Reg.rotStatus_PAIRKEY = 1 ∧ (u.key 3).state = 0 ∧
      leAt ((keyOp0 3).writes.headD ⟨0, .none, []⟩).data 0 2 = 3 ∧ leAt ((keyOp0 0).writes.headD ⟨0, .none, []⟩).data 0 2 = 0 := by
  decide

theorem witness_ThePairMirrorsAndResynchronises_resync :
    let s := ps (ps ring0 Reg.pairStatus_LINK 2) Reg.pairStatus_PARTNER 6
    let a := (((s.setFld Reg.pairCtrl Reg.pairCtrl_AUDIT 1).setFld Reg.pairAudit Reg.pairAudit_RATE 1)).setFld Reg.pairCtrl
      Reg.pairCtrl_ENABLE 1
    (ps (ps ring0 Reg.pairStatus_LINK 0) Reg.pairStatus_UNREACH 1).pairShow.fld Reg.pairStatus Reg.pairStatus_UNREACH = 1 ∧
      a.pairShow.fld Reg.pairStatus Reg.pairStatus_UNREACH = 0 ∧ a.pairShow.fld Reg.pairStatus Reg.pairStatus_SOLO = 0 ∧
      a.pairShow.fld Reg.pairStatus Reg.pairStatus_RESYNC = 0 ∧ a.pairShow.pairBroken = false ∧ a.pairShow.mirrorOff = false ∧
      a.pairShow.keys.all (fun k => !k.2.pending) = true ∧
      (ps a Reg.pairStatus_RESYNC 1).fld Reg.pairStatus Reg.pairStatus_RESYNC = 1 ∧
      lic0.fld Reg.pairCtrl Reg.pairCtrl_AUDIT = 0 ∧ a.fld Reg.pairCtrl Reg.pairCtrl_AUDIT = 1 ∧
      a.fld Reg.pairAudit Reg.pairAudit_RATE ≠ 0 ∧ a.partnerAway = false ∧ a.mirrorOff = false ∧
      a.fld Reg.pairStatus Reg.pairStatus_RESYNC = 0 := by decide

/-- A commit record of epoch 1 that makes node 8 REMOVED. -/
def rec0 : Commit := ⟨1, true, [8 + 2 * 2 ^ 12]⟩

/-- `ring0` with something of the map changed. -/
def mapped (f : MapX → MapX) : State := { ring0 with map := f ring0.map }

theorem witness_EpochsAreSeededProposedAndInstalled :
    let run := ring0.setFld Reg.fabCtrl Reg.fabCtrl_MODE 1
    ring0.startUp = true ∧ run.startUp = false ∧
      (mapped fun m => { m with grace := [(1, 9)] }).map.grace.find? (fun x => x.1 == (1 : BitVec 32).toNat) = some (1, 9) ∧
      rec0.changes.length ≤ 16 ∧ rec0.target.toNat = (ring0.epoch + 1) % 2 ^ 32 ∧
      (⟨2, false, []⟩ : Commit).target.toNat ≠ (ring0.epoch + 1) % 2 ^ 32 ∧
      ring0.fld Reg.mapEpoch Reg.mapEpoch_SEEDED = 1 ∧ lic0.fld Reg.mapEpoch Reg.mapEpoch_SEEDED = 0 ∧
      (rec0.changes.map chgNode).Nodup ∧ rec0.changes.all (fun c => decide (chgNode c ≤ 0x3FF)) = true ∧ ring0.pair.window = [] ∧ ring0.fld Reg.rotStatus Reg.rotStatus_ARMED = 0 ∧
      ring0.isLive = true ∧ lic0.isLive = false ∧ ring0.map.accepted.find? (fun a => a.1 == 1) = none ∧
      (mapped fun m => { m with accepted := [(1, 8)] }).map.accepted.find? (fun a => a.1 == 1) = some (1, 8) ∧
      ring0.fld Reg.fabCtrl Reg.fabCtrl_MODE = 0 ∧ run.fld Reg.fabCtrl Reg.fabCtrl_MODE ≠ 0 := by decide

theorem witness_EpochsAreSeededProposedAndInstalled_propose :
    let p : Proposal := ⟨rec0, [5], 0⟩
    let s := mapped fun m => { m with proposal := some p }
    ring0.fld Reg.mapCtrl Reg.mapCtrl_NCHG ≤ 16 ∧
      16 < (ring0.setFld Reg.mapCtrl Reg.mapCtrl_NCHG 17).fld Reg.mapCtrl Reg.mapCtrl_NCHG ∧ ring0.map.proposal = none ∧
      ring0.quorum 1 = false ∧ s.map.proposal = some p ∧ p.accepts.contains 5 = true ∧ p.accepts.contains 8 = false ∧
      s.liveNodes.contains 8 = true ∧ s.liveNodes.contains 7 = false ∧ s.quorum (p.accepts.length + 1) = false ∧
      p.record.planned = true ∧ ring0.map.backoff = none ∧
      (mapped fun m => { m with backoff := some 3 }).map.backoff = some 3 ∧ ring0.map.decided = [] ∧
      ring0.map.commits.find? (fun c => c.1 == (1 : BitVec 32).toNat) = none ∧
      (mapped fun m => { m with commits := [(1, rec0)] }).map.commits.find? (fun c => c.1 == (1 : BitVec 32).toNat) = some (1, rec0) := by
  decide +kernel

theorem witness_WatchersHearSuspectAndDecide :
    let u := fun (s : State) n => s.passTo (96 * (SMap.get (fun _ => 0) s.map.heard n + s.fld Reg.fltTimer0 Reg.fltTimer0_SUSPECT))
    let sus := fun c => mapped fun m => { m with suspects := SMap.set (fun _ => 0) m.suspects 8 (1 + c) }
    let v := fun c => SMap.get (fun _ => 0) (sus c).map.suspects 8
    ring0.ringPeers ring0.node ≠ [] ∧ ring0.fld Reg.fltStatus Reg.fltStatus_ISOLATED = 0 ∧ ring0.watches 8 = true ∧
      ring0.watches 5 = false ∧ (ring0.member 8).1 = 1 ∧ ring0.suspected 8 = false ∧ (sus 5).suspected 8 = true ∧
      (u ring0 8).coordinators 8 = [5, 6, 9, 12, 13] ∧ (u ring0 9).coordinators 9 = [5, 6, 8, 12, 13] ∧
      (u ring0 13).coordinators 13 = [5, 6, 8, 9, 12].filter (fun n => n ∈ (u ring0 13).coordinators 13) ∧
      ring0.map.held.any (fun h => h.1 == 8 && h.2.1 == 9) = false ∧
      2 * ((ring0.watchSet 8).filter fun x => x == 9 || ring0.map.held.any fun h => h.1 == 8 && h.2.1 == x).length ≤
        (ring0.watchSet 8).length ∧
      v 5 ≠ 0 ∧ (v 5 - 1) % 4096 = (sus 5).node ∧ (sus 5).map.decided.any (fun c => chgNode c == 8) = false ∧
      (v 9 - 1) % 4096 ≠ (sus 9).node ∧
      (((sus 5).passTo (96 * ((v 5 - 1) / 4096 + 50000))).coordinators 8).filter (· != (v 5 - 1) % 4096) = [6, 9, 12, 13] := by
  decide +kernel

/-- `pf0` whose queue 1 is a lease queue of function 0 that holds one entry: `op` on line 1 of portfolio 0. -/
def lease0 (op : Nat) (ls : List LeaseX := []) : State :=
  let link : Word := BitVec.ofNat 64 (5 * 2 ^ Reg.hostLink_RATE0.lo)
  let s := { pf0 with host := { pf0.host with perst := [false, true] }, leases := ls
                      regs := SMap.set (fun _ => 0) pf0.regs Reg.hostLink link }
  let s := ((s.setFld (Reg.hqCfg 1) Reg.hqCfg_ENABLE 1).setFld (Reg.hqCfg 1)
    Reg.hqCfg_TYPE 1).setFld (Reg.hqCfg 1) Reg.hqCfg_CQLOG 4
  s.setHq 1 { buf := [[BitVec.ofNat 64 (op + 2 ^ 8), 0, 0, 0, 0, 0, 0, 0]] }

theorem witness_LeasesAreTakenWrittenFencedAndDropped :
    let mine : LeaseX := ⟨0, 1, 0, List.replicate 64 3, 0⟩
    let e := fun op : Nat => [BitVec.ofNat 64 (op + 2 ^ 8), (0 : Word), 0, 0, 0, 0, 0, 0]
    [1, 2, 3, 4, 5].all (fun op =>
      (((lease0 op).hqTake 1 1).map (·.2) == some (e op)) && leOp (e op) == op && !(lease0 op).asleep (lePf (e op) % 16)
        && ((lease0 op).hqPop 1).leCode (e op) == cDone
        && ((lease0 op).leMine 1 (e op) == none) && ((lease0 op [mine]).leMine 1 (e op) == some mine)) = true ∧
      (lease0 1).host.waits = [] ∧ ((lease0 1).hqPop 1).leaseOn 0 1 = none ∧
      ((lease0 1 [mine]).hqPop 1).leaseOn 0 1 = some mine ∧ mine.holder = (lease0 1).queueFunc 1 ∧
      ((lease0 1 [{ mine with holder := 1 }]).hqPop 1).leaseOn 0 1 = some { mine with holder := 1 } ∧
      ((lease0 1).setFld (Reg.bayStkStatus 0) Reg.bayStkStatus_READY 0).leCode (e 1) ≠ cDone := by decide +kernel

theorem witness_LeasesAreTakenWrittenFencedAndDropped_fence :
    let mine : LeaseX := ⟨0, 1, 0, List.replicate 64 3, 0⟩
    let u := ((lease0 3 [mine]).hqPop 1).renew 0
    (u.writeRecord none 0 none (patch (u.bytes (pfAddr 0) 512) (0x180 + 64) mine.staging)).1 = cDone ∧
      4096 ≤ (lease0 1 (List.replicate 4096 { mine with line := 0 })).leases.length ∧
      (lease0 1).leases.length < 4096 := by decide +kernel

theorem witness_SpareEaselsReplaceFailedOnes :
    let phys := lic0.physOf x0
    let left := fun s : State => (s.updBay 0 fun y => { y with failedPhys := y.failedPhys ||| 2 ^ phys }).idleSpares 0
    let worn := lic0.updBay 0 fun y => { y with failedPhys := 2 ^ 12 }
    let s := lic0.updEx x0 fun y => { y with switching := some (0, 12), resetDue := some 48000 }
    x0.ok = true ∧ x0.easel < lic0.easelsPerBay ∧ (lic0.ex x0).failed = false ∧ lic0.bayUp 0 = true ∧ left lic0 = [12] ∧
      left worn = [] ∧ (worn.ex x0).failed = false ∧ worn.bayUp 0 = true ∧ State.reset.bayUp 0 = false ∧
      (s.ex x0).switching = some (0, 12) ∧ (s.ex x0).resetDue = some 48000 := by decide

/-! ## Root of trust and power -/

/-- `lic0` whose root-of-trust image runs, with a request of a code running on channel 0. -/
def req0 (code len : Nat) : State :=
  { lic0 with boot := { lic0.boot with phase := 2 }, rot := { lic0.rot with running := some (0, code, len) } }

/-- A field of a register set. -/
def sf (s : State) (r : Nat) (f : Fld) (v : Nat) : State := s.setFld r f v

theorem witness_MailboxRequestsAreQueuedTakenAndAnswered :
    let st := Reg.rotMbxState 1
    let q := { req0 0 0 with rot := { (req0 0 0).rot with running := none, queue := [1] } }
    (List.range 4).all (fun n => (sf lic0 st Reg.rotMbxState_STATE n).fld st Reg.rotMbxState_STATE == n) = true ∧
      lic0.rot.queue = [] ∧ q.rot.queue = 1 :: [] ∧ q.boot.phase = 2 ∧ q.rot.running = none ∧ q.rot.stopped = false ∧
      q.takeCode 1 0x60 0 = cDone ∧ q.takeCode 0 0x60 0 = cShape ∧ q.takeCode 1 0x60 1 = cShape ∧
      { q with rot := { q.rot with stopped := true } }.takeCode 1 0x60 0 = cUnavailable ∧
      (req0 0x40 8).rot.running = some (0, 0x40, 8) ∧
      leAt ((req0 0x40 8).bytes (mbxBase 0) 8) 0 4 + (8 - 4) ≤ bankSize ∧
      bankSize < leAt (((req0 0x40 8).setBytes (mbxBase 0) (natBytes 4 (bankSize - 3))).bytes (mbxBase 0) 8) 0 4 + (8 - 4) := by
  decide +kernel

theorem witness_KeysAreInstalledGeneratedAndDestroyed :
    let talk := sf (sf (req0 0x12 4) Reg.rotStatus Reg.rotStatus_PAIRKEY 1) Reg.pairStatus Reg.pairStatus_UNREACH 0
    let gen := talk.setBytes (mbxBase 0) [9, 0, 7, 0]
    let bad := sf lic0 (Reg.bayRegion 15 15) Reg.bayRegion_VALID 1
    let d := lic0.setKey 65535 { state := 1, dying := some 4, pending := true }
    let hello : PairHello := ⟨true, 0, [0, 0, 3, 0, 0, 0], true, false⟩
    let meet := sf (sf (req0 0 0) Reg.pairStatus Reg.pairStatus_LINK 2) Reg.rotStatus Reg.rotStatus_RECOVERY 0
    talk.pairTalk = true ∧ (sf talk Reg.rotStatus Reg.rotStatus_PAIRKEY 0).pairTalk = false ∧
      leAt (gen.bytes (mbxBase 0) 4) 0 2 = 9 ∧ leAt (gen.bytes (mbxBase 0) 4) 2 2 = 7 ∧ (gen.key 9).state = 0 ∧
      leAt (talk.bytes (mbxBase 0) 4) 0 2 = 0 ∧ talk.confOk = true ∧
      (sf bad (Reg.bayRegion 15 15) Reg.bayRegion_CLEAR 1).confOk = false ∧ (lic0.key 65535).dying = none ∧
      (d.key 65535).dying = some 4 ∧ meet.boot.phase = 2 ∧ meet.recovery = false ∧ meet.rot.stopped = false ∧
      hello.attested = true ∧ meet.pathUp = true ∧ hello.tier = meet.fld Reg.globalLic Reg.globalLic_TIER ∧
      (1 : Nat) ≠ meet.fld Reg.globalLic Reg.globalLic_TIER ∧ meet.rot.svn.getD 2 0 < hello.svn.getD 2 0 ∧
      (meet.setKey 0 { state := 1 }).key 0 = { state := 1 } ∧ hello.sealed = true ∧ hello.sameKey = false ∧
      (meet.key 0).state = 1 ∧ ((meet.setKey 0 {}).key 0).state ≠ 1 := by decide +kernel

/-- `req0` with staged bank and epoch `e` in the request, the installed epoch being 0xFFFFFFF0. -/
def arm0 (e : Nat) : State :=
  (sf (sf (req0 0x42 4) Reg.rotStatus Reg.rotStatus_STAGED 1) Reg.mapEpoch Reg.mapEpoch_EPOCH 0xFFFFFFF0).setBytes (mbxBase 0)
    (natBytes 4 e)

theorem witness_AnEpochIsArmedAndDisarmed :
    (arm0 5).rot.running = some (0, 0x42, 4) ∧ leAt ((arm0 5).bytes (mbxBase 0) 4) 0 4 = 5 ∧
      (arm0 5).fld Reg.rotStatus Reg.rotStatus_STAGED = 1 ∧ (arm0 5).recovery = false ∧ (arm0 5).epoch = 0xFFFFFFF0 ∧
      (0xFFFFFFF0 + 21) % 2 ^ 32 = 5 ∧ (sf (arm0 5) Reg.rotStatus Reg.rotStatus_RECOVERY 1).recovery = true ∧
      (sf (arm0 5) Reg.rotStatus Reg.rotStatus_STAGED 0).fld Reg.rotStatus Reg.rotStatus_STAGED ≠ 1 ∧
      (req0 0x43 0).rot.running = some (0, 0x43, 0) ∧ run0.rot.running = none := by decide

/-- An epoch that is not newer: the installed one itself. -/
theorem witness_AnEpochIsArmedAndDisarmed_old :
    leAt ((arm0 0xFFFFFFF0).bytes (mbxBase 0) 4) 0 4 = 0xFFFFFFF0 ∧ newer 0xFFFFFFF0 0xFFFFFFF0 = false ∧ newer 5 0xFFFFFFF0 = true := by
  decide

/-- `req0` with an activation of epoch 3. -/
def act0 (complete : Bool) (sw : SwitchX := {}) : State :=
  let s := req0 0 0
  { s with rot := { s.rot with running := none, act := some ⟨3, 0, complete, sw, [], [8], [0, 0, 1, 0, 0, 0]⟩ } }

theorem witness_FirmwareLicencesAndTheWatchdog :
    let image : RotStart := ⟨true, false, true, true⟩
    let grace := { act0 false with map := { (act0 false).map with grace := [(3, 100)] } }
    let starts := { lic0 with boot := { lic0.boot with phase := 1 } }
    let third := { req0 0 0 with rot := { (req0 0 0).rot with wdog := 2 } }
    (req0 0x41 0).rot.running = some (0, 0x41, 0) ∧ (req0 0x50 1344).rot.running = some (0, 0x50, 1344) ∧
      (req0 0x50 1344).licCode ((req0 0x50 1344).bytes (mbxBase 0) 8) ≠ cDone ∧ (lic0.fld Reg.globalReady Reg.globalReady_LIC = 1) ∧
      run0.fld Reg.globalReady Reg.globalReady_LIC = 0 ∧ run0.rot.act = none ∧
      (act0 true).rot.act.map (·.complete) = some true ∧ (act0 false).rot.act.map (·.complete) = some false ∧
      (act0 false).switched {} = false ∧ (act0 false ⟨16, 8, 0⟩).switched ⟨16, 8, 0⟩ = true ∧
      grace.graceOpen 3 = true ∧ (act0 false).graceOpen 3 = false ∧ (act0 false).rot.queue = [] ∧ (act0 false).rot.running = none ∧
      (req0 0 0).boot.phase ≠ 0 ∧ (req0 0 0).rot.stopped = false ∧ (req0 0 0).recovery = false ∧ (1 : Nat) ≤ 2 ∧
      third.rot.wdog = 2 ∧ starts.boot.phase = 1 ∧ starts.rot.bank = 0 ∧ image.bankA = true ∧ starts.rot.plan = [] ∧
      starts.startBank { image with authentic := false } = none ∧ starts.startBank { image with bankA := false } = none := by
  decide +kernel

theorem witness_FirmwareLicencesAndTheWatchdog_start :
    let s := { lic0 with boot := { lic0.boot with phase := 1 } }
    s.boot.phase = 1 ∧ s.startBank ⟨true, true, true, true⟩ = some 0 := by decide +kernel

theorem witness_RefusedPowerRequestsAreRecorded :
    let full := { lic0 with host := { lic0.host with evBuf := List.replicate 512 [] } }
    lic0.fld Reg.pwrStatus Reg.pwrStatus_NSTATE ≠ 1 ∧ lic0.boot.phase ≠ 2 ∧ lic0.host.evBuf.length < 512 ∧
      512 ≤ full.host.evBuf.length ∧
      0 < (sf lic0 Reg.pwrFreq Reg.pwrFreq_FLOOR 1).fld Reg.pwrFreq Reg.pwrFreq_FLOOR ∧
      (3 : Nat) ≠ 0 ∧ 2 ≤ (sf lic0 (Reg.pwrStk 15) Reg.pwrStk_RNMIN 2).fld (Reg.pwrStk 15) Reg.pwrStk_RNMIN ∧
      (sf lic0 Reg.fabCtrl Reg.fabCtrl_MODE 1).fld Reg.fabCtrl Reg.fabCtrl_MODE = 1 := by decide +kernel

/-- `lic0` with bay 15 at rest, every easel of it off, in a power state. -/
def bay0 (n : Nat) : State := (lic0.setBayPwr 15 n).updBay 15 fun y => { y with wakeAt := some 3 }

theorem witness_EaselsBaysAndTheNodeChangePowerState :
    let idle := (lic0.setEst x0 stIdle).updEx x0 fun y => { y with gate := true }
    let rest := (List.range 12).foldl (fun u e => u.setEst ⟨15, e⟩ stOff) lic0
    let n := fun k => sf lic0 Reg.pwrStatus Reg.pwrStatus_NSTATE k
    ((idle.ex x0).gate && decide (idle.est x0 = stIdle) && idle.idleFor x0 && idle.quiet x0 && decide (x0.easel < idle.easelsPerBay))
        = true ∧
      (lic0.ex x0).gate = false ∧ (sf rest (Reg.pwrBay0 15) Reg.pwrBay0_DEEPEN 1).fld (Reg.pwrBay0 15) Reg.pwrBay0_DEEPEN = 1 ∧
      rest.bayUp 15 = true ∧ rest.bayPwr 15 = 0 ∧ rest.fld Reg.pwrStatus Reg.pwrStatus_RELOCK = 0 ∧
      (List.range 4).all (fun k => (bay0 k).bayPwr 15 == k && (bay0 k).fld Reg.pwrStatus Reg.pwrStatus_NSTATE == 0) = true ∧
      ((bay0 2).bay 15).wakeAt = some 3 ∧ (lic0.bay 15).wakeAt = none ∧
      (n 1).fld Reg.pwrStatus Reg.pwrStatus_NSTATE = 1 ∧ (n 1).fld Reg.pairStatus Reg.pairStatus_UNREACH = 0 ∧
      (n 1).flashBusy = false ∧ (req0 0 0).boot.phase = 2 ∧ (req0 0 0).fld Reg.fabCtrl Reg.fabCtrl_MODE = 0 ∧
      (n 2).fld Reg.pwrStatus Reg.pwrStatus_NSTATE = 2 ∧ (n 2).pwr.pairWake = false ∧ (n 2).pwr.wokenAt = none ∧
      ({ lic0.boot with phase := 3 } : BootX).phase = 3 := by decide +kernel

theorem witness_EaselsBaysAndTheNodeChangePowerState_rest :
    ((List.range 12).foldl (fun u e => (u.setEst ⟨15, e⟩ stOff)) (lic0.updStk 15 fun y => { y with readyAt := none })).bayQuiet 15 = true := by
  decide +kernel

theorem witness_EaselsBaysAndTheNodeChangePowerState_messages :
    (sf lic0 (Reg.pwrBay0 15) Reg.pwrBay0_MSGWAKE 0).fld (Reg.pwrBay0 15) Reg.pwrBay0_MSGWAKE = 0 ∧
      lic0.fld (Reg.pwrBay0 15) Reg.pwrBay0_MSGWAKE = 1 := by decide

/-- R482, R484: a second event of one source at a deep bay's crossing merges; a timer's shows in the expiry count, another in BAYOVR. -/
theorem test_crossing_merges :
    let w := fun src => sf (sf (bay0 1) (Reg.bayBind0 15 0) Reg.bayBind0_SOURCE src) (Reg.bayBind0 15 0) Reg.bayBind0_ENABLE 1
    let twice := fun src => ((w src).event 15 src 1).event 15 src 2
    ((twice 0x42).bay 15).incoming.map (·.src) = [.bind 0 1] ∧
      (twice 0x42).fld Reg.pwrXovr Reg.pwrXovr_BAYOVR = 2 ^ 15 ∧
      ((twice 0x48).bay 15).incoming.map (·.src) = [.bind 0 2] ∧
      (twice 0x48).fld Reg.pwrXovr Reg.pwrXovr_BAYOVR = 0 := by decide

theorem witness_EaselsBaysAndTheNodeChangePowerState_ports :
    let s := { port0 5 with pwr := { (port0 5).pwr with n1 := true } }
    let due := fun p => decide (s.portSt p = 5) && (s.port p).narrow != true && (true || false)
    (7 : Nat) < s.nPorts ∧ due 7 = true ∧ (List.range 7).all (fun q => !due q) = true ∧
      ((List.range 8).any fun p => (s.port p).narrow == true && decide (2 ≤ s.portSt p ∧ s.portSt p ≤ 4)) = false ∧
      s.fld Reg.pwrStatus Reg.pwrStatus_NSTATE < 2 := by decide

theorem witness_SupplyClocksAndAgeingAreMonitored :
    let high := List.replicate 32 4000000
    let low := List.replicate 32 0
    let dark := { lic0 with pwr := { lic0.pwr with flEn := false } }
    let p := fun (f : PwrX → PwrX) => { lic0 with pwr := f lic0.pwr }
    let brake := sf lic0 Reg.pwrStatus Reg.pwrStatus_BRAKE 1
    high.length = 32 ∧ lic0.boot.noCrystal = false ∧ lic0.boot.phase ≠ 4 ∧ decide (high.getD 0 0 < 700000) = false ∧
      decide (low.getD 0 0 < 700000) = true ∧ (p fun w => { w with gndLow := true }).pwr.gndLow = true ∧
      dark.railsBelow high 19 = [] ∧ dark.railsBelow high 18 = [] ∧ 2 ∈ dark.railsBelow low 18 ∧
      (dark.railsBelow (high.set 2 750000) 19 = [2] ∧ dark.railsBelow (high.set 2 750000) 18 = []) ∧
      (p fun w => { w with lowRails := [2], resetLow := [2] }).pwr.resetLow.contains 2 = true ∧
      lic0.fld Reg.pwrSupply Reg.pwrSupply_WARN = 0 ∧ lic0.recovered = false ∧
      ({ brake with pwr := { brake.pwr with good := 255 } } : State).recovered = true ∧ brake.pwr.longDone = false ∧
      lic0.binRefused 1 = false ∧ (1 : Nat) ≠ lic0.fld Reg.pwrFreq Reg.pwrFreq_BIN ∧ lic0.pwr.relock = none ∧
      (p fun w => { w with relock := some (128, 1) }).pwr.relock = some (128, 1) ∧
      (sf lic0 Reg.pwrStatus Reg.pwrStatus_RELOCK 1).fld Reg.pwrStatus Reg.pwrStatus_RELOCK = 1 ∧ (bay0 3).bayPwr 15 = 3 ∧
      (bay0 2).bayPwr 15 = 2 ∧ SMap.get (fun _ => 0) lic0.boot.pll 15 = 0 := by decide +kernel

theorem witness_SupplyClocksAndAgeingAreMonitored_ageing :
    [AgeReading.laser 7 7 100 false].all AgeReading.ok = true ∧ lic0.fld Reg.pwrAgeCtrl Reg.pwrAgeCtrl_ENABLE = 1 ∧
      (sf lic0 Reg.pwrAgeCtrl Reg.pwrAgeCtrl_ENABLE 0).fld Reg.pwrAgeCtrl Reg.pwrAgeCtrl_ENABLE = 0 ∧
      (lic0.pwr.avs.any fun a => a.1 == 2 + 15 && decide (a.2.2 + 250 < lic0.gc)) = false ∧
      lic0.fld (Reg.pwrBay1 15) Reg.pwrBay1_GB + 5 ≤ lic0.fld Reg.pwrAgeLimits Reg.pwrAgeLimits_GBMAX ∧
      max (lic0.fld (Reg.pwrStk 15) Reg.pwrStk_RNMIN) (bitsOf (lic0.stk 15).map 8 2 - 0) + 0 < 2 ∧
      max (lic0.fld (Reg.pwrStk 15) Reg.pwrStk_SNMIN) (bitsOf (lic0.stk 15).map 24 3) < 4 ∧
      bitOf (lic0.port 7).lit.1 7 = false ∧ bitOf ((lic0.updPort 7 fun y => { y with lit := (0x80, 0) }).port 7).lit.1 7 = true ∧
      lic0.fld (Reg.pwrLaser 7) Reg.pwrLaser_CEIL ≤ 100 ∧ lic0.fld (Reg.pwrLaser 7) Reg.pwrLaser_CEIL < 100 ∧
      (sf lic0 (Reg.pwrLaser 7) Reg.pwrLaser_CEIL 100).fld (Reg.pwrLaser 7) Reg.pwrLaser_CEIL = 100 ∧
      (lic0.pwr.avs.find? fun a => a.1 == 18) = none ∧
      ([(18, 900000, 3)] : List (Nat × Nat × Nat)).find? (fun a => a.1 == 18) = some (18, 900000, 3) := by decide +kernel

/-! ## Resets, host and node -/

/-- `lic0` whose bring-up stands at `ph`. -/
def boot0 (ph : Nat) (f : BootX → BootX := id) : State := { lic0 with boot := f { lic0.boot with phase := ph } }

theorem witness_ResetsDrainKeepAndBringUp :
    let r : ResetX := { scope := 1, unit := 15, f := 128, drained := false, lost := [] }
    let drains := boot0 2 fun y => { y with resets := [r] }
    let node := fun held hot => { boot0 0 fun y => { y with resets := [{ r with scope := 3 }], noCrystal := held } with
      pwr := { lic0.pwr with thermtrip := hot } }
    SMap.wf regReset State.reset.regs = true ∧ (boot0 2).boot.phase = 2 ∧ (boot0 2).boot.resets.any (·.covers 15) = false ∧
      drains.boot.resets.any (·.covers 15) = true ∧ drains.boot.resets.any (fun r => r.scope == 2 && r.unit == 3) = false ∧
      drains.boot.resets.find? (!·.drained) = some r ∧ r.scope ≠ 3 ∧ (boot0 2).boot.resets = [] ∧
      (node false false).boot.resets.find? (!·.drained) = some { r with scope := 3 } ∧ (node true false).boot.noCrystal = true ∧
      (node false false).boot.noCrystal = false ∧ (node false false).pwr.thermtrip = false ∧ (node false true).pwr.thermtrip = true ∧
      lic0.boot.phase = 0 ∧ lic0.boot.resets = [] ∧ lic0.boot.warmHeld = false ∧ lic0.boot.noCrystal = false ∧
      lic0.pwr.thermtrip = false ∧ (boot0 4).boot.phase = 4 ∧ lic0.pwr.enCore = true ∧
      lic0.fld Reg.globalReset Reg.globalReset_LASTCAUSE < 4 := by decide

theorem witness_ResetsDrainKeepAndBringUp_ready :
    let s := (boot0 2).setReady Reg.globalReady_BAY 15 false
    let k := (boot0 2).updStk 15 fun y => { y with trainFails := 1 }
    let rep : Repair := ⟨0, 0, 3, 12⟩
    s.licensed = true ∧ s.bayUp 15 = false ∧ SMap.get (fun _ => 0) s.boot.pll 15 < 2 ∧ s.boot.resets.find? (·.covers 15) = none ∧
      (boot0 2).bayUp 15 = true ∧ k.stackUp 15 = false ∧ (k.stk 15).trainFails < 2 ∧
      k.fld (Reg.bayStkStatus 15) Reg.bayStkStatus_SELFREF = 0 ∧ k.fld (Reg.bayStkStatus 15) Reg.bayStkStatus_TRIP = 0 ∧
      (boot0 2).stackUp 0 = true ∧ lic0.repairDue = [] ∧ { lic0 with repairDue := [rep] }.repairDue = rep :: [] := by decide

/-- `s` with the link of function 0 up at a rate, HOST.LINK written out. -/
def linked (s : State) (rate : Nat) (two : Nat := 0) : State :=
  { s with host := { s.host with perst := [false, true] }
           regs := SMap.set (fun _ => 0) s.regs Reg.hostLink
             (BitVec.ofNat 64 (rate * 2 ^ Reg.hostLink_RATE0.lo + 16 * 2 ^ Reg.hostLink_WIDTH0.lo + two * 2 ^ Reg.hostLink_BIF.lo)) }

/-- `pf0` linked, aperture 0 of function 0 of a kind and base, writes enabled. -/
def ap0 (kind base : Nat) : State :=
  let s := { linked pf0 5 with host := { (linked pf0 5).host with bar4 := [1, 1] } }
  ((sf s (Reg.hostAp0 0) Reg.hostAp0_KIND kind).setFld (Reg.hostAp0 0) Reg.hostAp0_WREN 1).setReg (Reg.hostAp1 0)
    (BitVec.ofNat 64 base)

theorem witness_HostLinksRegistersAndApertures :
    let up := linked lic0 5
    let ev := sf (sf up Reg.globalEvctrl Reg.globalEvctrl_ENABLE 1) Reg.globalEvctrl Reg.globalEvctrl_LOG 4
    let log := { ev with host := { ev.host with evBuf := [[1, 2, 3, 4]] } }
    up.hasFunc 0 = true ∧ up.hasFunc 1 = false ∧ (linked lic0 5 1).hasFunc 1 = true ∧ up.host.perst.getD 0 true = false ∧
      up.host.perst.getD 1 true = true ∧ (linked lic0 5 1).bif = true ∧ 16 ∈ [0, 4, 8, 16] ∧ lic0.boot.phase < 3 ∧
      (regAt 0x10).isSome = true ∧ regAt 0x7FF = none ∧ up.outOfTier Reg.globalLic = false ∧ Reg.globalLic ≠ Reg.globalEvbase ∧
      Reg.globalLic ≠ Reg.globalEvctrl ∧ (sf lic0 Reg.globalLic Reg.globalLic_TIER 2).outOfTier (Reg.portCtrl 7) = true ∧
      up.pathOk (.bar0 0) = true ∧ up.pathOk (.bar0 1) = false ∧ up.pathOk .i3c = true ∧ pathChannel .i3c = some 1 ∧
      (0x3803FF8 - 0x3800000) / 0x2000 = 1 ∧ 0x1000 ≤ (0x3803FF8 - 0x3800000) % 0x2000 ∧ 0x3803FF8 % 8 = 0 ∧
      log.fld Reg.globalEvctrl Reg.globalEvctrl_ENABLE = 1 ∧ log.linkUp 0 = true ∧ log.host.evBuf = [1, 2, 3, 4] :: [] ∧
      (log.fld Reg.globalEvprod Reg.globalEvprod_INDEX + 2 ^ 32 - log.fld Reg.globalEvcons Reg.globalEvcons_INDEX) % 2 ^ 32 < 16 ∧
      2 ^ log.fld Reg.globalEvctrl Reg.globalEvctrl_LOG = 16 ∧ log.fld Reg.globalEvctrl Reg.globalEvctrl_FUNC = 0 ∧
      up.host.evBuf = [] := by decide +kernel

theorem witness_HostLinksRegistersAndApertures_bar4 :
    let l := mkLoc 1 0 0
    let s := ap0 1 l
    let h := ap0 2 0
    let conf := sf (h.setBytes (pfAddr 0) (natBytes 8 7 ++ natBytes 8 (2 ^ 63))) Reg.rotStatus Reg.rotStatus_CONF 1
    s.pathOk (.bar0 0) = true ∧ s.host.bar4.getD 0 0 ≠ 0 ∧ 0 + 4096 ≤ 64 * s.apSize 0 ∧ 64 * s.apSize 0 < 64 * s.apSize 0 + 1 ∧
      s.linkUp 0 = true ∧ (ap0 1 l |> fun u => linked u 4).linkUp 0 = false ∧
      s.fld (Reg.hostAp0 0) Reg.hostAp0_KIND = 1 ∧ s.fld (Reg.hostAp1 0) Reg.hostAp1_BASE = l ∧ locTier l < 2 ∧
      s.locWaits l 8 false = false ∧ (sf s Reg.pwrStatus Reg.pwrStatus_RELOCK 1).locWaits l 8 false = true ∧
      s.fld (Reg.hostAp0 0) Reg.hostAp0_WREN = 1 ∧ (sf s (Reg.hostAp0 0) Reg.hostAp0_WREN 0).fld (Reg.hostAp0 0) Reg.hostAp0_WREN ≠ 1 ∧
      s.windowFull = false ∧ h.fld (Reg.hostAp0 0) Reg.hostAp0_KIND = 2 ∧
      h.handleWaits 0 0 (h.pf 0).classBytes 0 4096 false = false ∧
      (sf h Reg.pwrStatus Reg.pwrStatus_RELOCK 1).handleWaits 0 0 (h.pf 0).classBytes 0 4096 false = true ∧ conf.hidden 0 = true := by
  decide +kernel

/-- `lic0` linked, queue 2 enabled with a type, and with entries in its fetch buffer. -/
def hq0 (ty : Nat) (buf : List (List Word)) : State :=
  let c := Reg.hqCfg 2
  let s := sf (sf (linked lic0 5) c Reg.hqCfg_ENABLE 1) c Reg.hqCfg_TYPE ty
  (sf (sf (sf s c Reg.hqCfg_SQLOG 4) c Reg.hqCfg_CQLOG 15) c Reg.hqCfg_VECTOR 2).setHq 2 { buf }

theorem witness_HostQueuesFetchAndManageFrames :
    let c := Reg.hqCfg 2
    let e := fun len : Nat => [BitVec.ofNat 64 (7 + len * 8), (0 : Word), 0, 0, 0, 0, 0, 0]
    let s := hq0 0 []
    let eth := sf (port0 5) (Reg.portNeg 7) Reg.portNeg_MODEFRAMING 1
    (sf s c Reg.hqCfg_ENABLE 0).fld c Reg.hqCfg_ENABLE ≠ 1 ∧ s.fld c Reg.hqCfg_ENABLE = 1 ∧ s.fld c Reg.hqCfg_SQLOG = 4 ∧
      s.fld c Reg.hqCfg_CQLOG = 15 ∧ s.fld c Reg.hqCfg_VECTOR = 2 ∧ (sf s c Reg.hqCfg_SQLOG 3).fld c Reg.hqCfg_SQLOG < 4 ∧
      s.fld Reg.hostLink (linkRate (s.queueFunc 2)) = 5 ∧ s.hqRuns 2 = true ∧ lic0.fld c Reg.hqCfg_ENABLE = 0 ∧
      s.sqSize 2 = 16 ∧ (s.hq 2).tail = 0 ∧ (s.setHq 2 { tail := 1 }).nextFetch 0 = some 2 ∧ s.nextFetch 0 ≠ some 2 ∧
      [2, 3].all (fun ty => ((hq0 ty [e 60]).hqTake 2 ty).map (·.2) == some (e 60) && ((hq0 ty []).hqTake 2 ty).isNone) = true ∧
      mgLen (e 60) = 60 ∧ mgLen (e 9212) = 9212 ∧ mgLen (e 59) < 60 ∧ mgPort (e 60) = 7 ∧ eth.portEther 7 = true ∧
      lic0.portEther 7 = false ∧ 7 < eth.nPorts ∧ (sf eth Reg.globalLic Reg.globalLic_TIER 2).nPorts ≤ 7 ∧
      eth.fld (Reg.portTest 7) Reg.portTest_LOOP = 0 ∧ (sf eth (Reg.portTest 7) Reg.portTest_LOOP 2).portEther 7 = true := by decide +kernel

theorem witness_HostQueuesFetchAndManageFrames_reads :
    let rx := (hq0 3 []).setHq 2 { rx := [(2, 64, 100, 9)] }
    let rd : Nat → HostRead := fun k => ⟨k, 5⟩
    let wait := fun k => { lic0 with host := { lic0.host with reads := [(rd k, 10)], waits := [(5, 2, [0x1E0])] } }
    (lowestIdx 64 fun q => rx.hqRuns q && decide (rx.fld (Reg.hqCfg q) Reg.hqCfg_TYPE = 3) && !(rx.hq q).rx.isEmpty) = some 2 ∧
      (rx.hq 2).rx = (2, 64, 100, 9) :: [] ∧ ((wait 0).host.reads.any fun r => r.1 == rd 0) = true ∧
      (List.replicate 520 (0 : BitVec 8)).length = 520 ∧ (lic0.host.reads.any fun r => r.1 == rd 3) = false ∧
      [1, 2, 3, 4].all (fun k => ((wait k).host.reads.any fun r => r.1 == rd k)
        && ((wait k).host.reads.find? fun r => r.1 == rd k) == some (rd k, 10)
        && ((wait k).hqReadOver (rd k)).1 == some (2, [0x1E0])) = true ∧ mgLen [0x1E0] = 60 := by decide +kernel

theorem witness_EveryStepKeepsMemoryCanonical : Sys2Proof.Machine.Inv pf0 ∧ ∃ t, step pf0 = .next t :=
  ⟨by unfold Sys2Proof.Machine.Inv; decide +kernel, pf0.idle, by
    have h : pf0.pending = [] := by decide
    unfold step; rw [h]⟩

/-! ## Results that the spec works out -/

/-- The portfolio record of the spec's example session (02, "The portfolio record"): word 0x008 is 0x8000_0110_3336_E75F, TOKENS 120,000
and SHEETCOUNT 5,628. -/
theorem test_portfolio_record_of_the_example :
    let p := decodePf (natBytes 8 0 ++ natBytes 8 0x800001103336E75F ++ natBytes 8 0 ++ natBytes 8 0x1D4C0 ++ natBytes 8 0 ++ natBytes 8 5628)
    p.layers = 96 ∧ p.kv = 8 ∧ p.qper = 8 ∧ p.d = 128 ∧ p.kpal = 3 ∧ p.vpal = 3 ∧ p.cls = 3 ∧ p.tau = 16 ∧ p.mode = 1 ∧ p.tgt = 0 ∧
      p.valid = true ∧ p.tokens = 120000 ∧ ceilDiv (16 * p.count) 512 = 176 := by decide

/-- A wash with one body element (06, "Worked example: order and the last bit"). -/
def wash0 (m : Nat) : Wash := { blankWash with m, l := 0x3F800000, body := [0x3F800000] }

/-- w1 has M 0, w2 and w3 have M −24: glazed into a blank wash in the order w1, w2, w3 L and O end at 1. -/
theorem test_glaze_order_w1_w2_w3 :
    let g := glazeWash (glazeWash (glazeWash { blankWash with body := [0] } (wash0 0)) (wash0 0xC1C00000)) (wash0 0xC1C00000)
    g.m = 0 ∧ g.l = 0x3F800000 ∧ g.body = [0x3F800000] := by decide +kernel

/-- In the order w2, w3, w1 both end at 1 + 2^−23 (R211). -/
theorem test_glaze_order_w2_w3_w1 :
    let g := glazeWash (glazeWash (glazeWash { blankWash with body := [0] } (wash0 0xC1C00000)) (wash0 0xC1C00000)) (wash0 0)
    g.m = 0 ∧ g.l = 0x3F800001 ∧ g.body = [0x3F800001] := by decide +kernel

/-- An E2M1 6 under the scale 2^127 converts to +∞ (R164): code 0x6 holds E2M1 elements, code 7 is 6, scale byte 254 is 2^127. -/
theorem test_conversion_rounds_to_infinity : toFp32 .near (Fp.mul (e2m1.decode 7) (.fin false 1 127)) = 0x7F800000 := by decide

/-- Channel 37 of the after-reset map refreshes at positions 37 and 38; a read that arrives at frame cycle 3,500 is admitted at 3,744
(09, "Worked example"). -/
theorem test_read_waits_for_refresh :
    let s := lic0.updStk 3 fun y => { y with windows := [] }
    s.admitAt 3 (fixedWindows (s.stk 3).map 0 37) 37 none 10 3500 = 3744 ∧
      s.admitAt 3 (fixedWindows (s.stk 3).map 0 37) 37 none 10 (3552 - 95) = 3744 := by decide +kernel

/-- The copy of 4 units in bay 3 (09, "Worked example"): NN 4 and NBPOS 16, arrival 1,400. -/
def nbCopy3 : NbX :=
  { x := ⟨3, 0⟩, entry := 0, fn := 1, dst := mkLoc 1 3 256000, src := mkLoc 1 3 524288, units := 4, ty := 0, pattern := 0, arrival := 1400
    refusing := [], start := 1536, due := 0, result := 0 }

/-- Its window starts at 1,536; channels without refresh in the span end at 2,016, channels 15 to 20 at 2,208; a stroke of bank 9 is held
on channel 40 until 2,016, and nothing holds bank 4. -/
theorem test_near_bank_copy :
    nbWindowFrom 0x31001400000 (1400 + 24) = some 1536 ∧
      ((List.range 128).filter fun c => nbCopy3.endOn 0x31001400000 c != 2016) = [15, 16, 17, 18, 19, 20] ∧
      ((List.range 128).all fun c => nbCopy3.endOn 0x31001400000 c == 2016 || nbCopy3.endOn 0x31001400000 c == 2208) = true ∧
      nbCopy3.holds 9 = true ∧ nbCopy3.holds 0 = true ∧ nbCopy3.holds 4 = false := by decide +kernel

/-- The window starts and the operation's end stand in the state, and the held LD.LOC of channel 40, bank 9 is admitted at 2,016. -/
theorem test_near_bank_copy_runs :
    let s := { lic0 with ec := 1400 }.updStk 3 fun y => { y with map := 0x31001400000, nbQ := [{ nbCopy3 with start := 0 }] }
    (match exec (.nbWindowStart 3 []) (s.setFld (Reg.bayStkStatus 3) Reg.bayStkStatus_READY 1) with
     | .next t => t.ec == 1536 && ((t.stk 3).nbRun.map (·.due)) == some 2208
         && t.admitAt 3 (fixedWindows (t.stk 3).map 0 40) (9 * 256 + 40) none 10 1700 == 2016
     | _ => false) = true := by decide +kernel

/-- A bay rail with a set point of 0.765 V at 0.72 V lies below its warning level of 0.727 V and above its reset level of 0.689 V (18,
"Worked example: a dip on a bay rail"). -/
theorem test_dip_levels :
    let s := { lic0 with pwr := { lic0.pwr with flEn := false, setPoints := [(7, 765000)] } }
    let l := (List.replicate 32 4000000).set 7 720000
    s.railsBelow l 19 = [7] ∧ s.railsBelow l 18 = [] ∧ s.railsBelow (l.set 7 688000) 18 = [7] ∧ s.railsBelow (l.set 7 727000) 19 = [] := by
  decide

/-- A packet sent in ground cycle 5 is due by timeout in ground cycle 105 (11, "Worked example: a lost packet"). -/
theorem test_timeout_of_a_lost_packet :
    let s := fab1 fun k => { k with msgs := [tx0], pkts := [{ txp0 1 false with sentGc := 5 }] }
    packetsOf 16384 = 4 ∧ (match exec (.rtoExpiry 3 0) s with
      | .next t => t.gc == 105 && (t.conn 3).pkts.map (·.due) == [true]
      | _ => false) = true := by decide +kernel

/-- A step runs the front command on the state with the queue's rest. -/
theorem test_step_runs_the_front_command :
    step { State.reset with pending := [.mapSeed, .mapPlan] } = exec .mapSeed { State.reset with pending := [.mapPlan] } := rfl

/-- The registers reset as the map says: GLOBAL.READY 0, FAB.ID 0xFFF (R12, R513). -/
theorem test_registers_read : State.reset.regView Reg.globalReady = 0 ∧ (State.reset.regView Reg.fabId).toNat % 4096 = 0xFFF := by decide


end Sys2Proof.Tests
end

/-! # Frames

What the shared operations of the node leave as it was. A statement asks of one transition that the easel's registers, the memory, a
table or a field stand; the operations below a transition are many and each touches few parts of the state. `Touches K s t` says that
`t` differs from `s` in the parts `K` at most; there is one such fact per operation, and facts chain. -/

namespace Sys2Proof.Machine

-- One theorem after another, as in the tests: side by side their stacks ask for more memory than the check allows.
set_option Elab.async false

/-- The parts of the state the statements speak of; `clock` is touched by what could move the cycle counter back, and so by nothing
below. -/
inductive Part where
  | file | mem | ec | clock | regs | easels | bays | prog | timers | host | out | fab | conns | ports | regns | fetching | map | members | grace
  | commits | pair | cat | catc | rot
  deriving DecidableEq

/-- Two states agree in a part. -/
def Part.Same (s t : State) : Part → Prop
  | file => SameRegisters s t
  | mem => t.mem = s.mem
  | ec => t.ec = s.ec
  | clock => s.ec ≤ t.ec
  | regs => t.regs = s.regs
  | easels => t.easels = s.easels
  | bays => t.bays = s.bays
  | prog => ∀ b n, t.prog b n = s.prog b n
  | timers => ∀ b, (t.bay b).timerStart = (s.bay b).timerStart ∧ (t.bay b).timerCount = (s.bay b).timerCount
  | host => t.host = s.host
  | out => t.out = s.out
  | fab => t.fab = s.fab
  | conns => t.fab.conns = s.fab.conns
  | ports => t.fab.ports = s.fab.ports
  | regns => t.fab.regns = s.fab.regns
  | fetching => t.fab.fetching = s.fab.fetching
  | map => t.map = s.map
  | members => t.map.members = s.map.members
  | grace => t.map.grace = s.map.grace
  | commits => t.map.commits = s.map.commits
  | pair => t.pair = s.pair
  | cat => t.cat = s.cat
  | catc => t.catc = s.catc
  | rot => t.rot = s.rot

/-- One state differs from another in the parts of a list at most. -/
def Touches (K : List Part) (s t : State) : Prop := ∀ p, p ∉ K → p.Same s t

theorem Part.Same.refl (p : Part) (s : State) : p.Same s s := by
  cases p <;> simp [Part.Same, SameRegisters]

theorem Part.Same.trans {p : Part} {s t u : State} (h : p.Same s t) (h' : p.Same t u) : p.Same s u := by
  cases p with
  | clock => exact le_trans (show s.ec ≤ t.ec from h) h'
  | _ => simp_all [Part.Same, SameRegisters]

theorem SameRegisters.refl (s : State) : SameRegisters s s := ⟨rfl, rfl, rfl, rfl⟩

namespace Touches

variable {K L : List Part} {s t u : State}

theorem refl (K : List Part) (s : State) : Touches K s s := fun p _ => Part.Same.refl p s

theorem mono (h : Touches K s t) (hKL : K ⊆ L) : Touches L s t := fun p hp => h p fun hk => hp (hKL hk)

theorem trans (h : Touches K s t) (h' : Touches K t u) : Touches K s u := fun p hp => (h p hp).trans (h' p hp)

/-- Two facts in a row, in the parts of both. -/
theorem then_ (h : Touches K s t) (h' : Touches L t u) : Touches (K ++ L) s u :=
  (h.mono (List.subset_append_left K L)).trans (h'.mono (List.subset_append_right K L))

/-- A choice of two states, each within the same parts. -/
theorem ite {c : Prop} [Decidable c] (h : c → Touches K s t) (h' : ¬ c → Touches K s u) : Touches K s (if c then t else u) := by
  split
  · next hc => exact h hc
  · next hc => exact h' hc

/-- A choice of two results with a state, each within the same parts. -/
theorem ite_snd {α : Type} {c : Prop} [Decidable c] {p q : α × State} (h : c → Touches K s p.2) (h' : ¬ c → Touches K s q.2) :
    Touches K s (if c then p else q).2 := by
  split
  · next hc => exact h hc
  · next hc => exact h' hc

/-- A fold each of whose steps stays within the same parts. -/
theorem foldl {α : Type} {f : State → α → State} (hf : ∀ u a, Touches K u (f u a)) (l : List α) (s : State) :
    Touches K s (l.foldl f s) := by
  induction l generalizing s with
  | nil => exact refl K s
  | cons a l ih => exact (hf s a).trans (ih _)

theorem file (h : Touches K s t) (hp : Part.file ∉ K := by decide) : SameRegisters s t := h .file hp
theorem mem (h : Touches K s t) (hp : Part.mem ∉ K := by decide) : t.mem = s.mem := h .mem hp
theorem ec (h : Touches K s t) (hp : Part.ec ∉ K := by decide) : t.ec = s.ec := h .ec hp
theorem gc (h : Touches K s t) (hp : Part.ec ∉ K := by decide) : t.gc = s.gc := by rw [State.gc, h.ec hp, State.gc]
theorem le_ec (h : Touches K s t) (hp : Part.clock ∉ K := by decide) : s.ec ≤ t.ec := h .clock hp
theorem le_gc (h : Touches K s t) (hp : Part.clock ∉ K := by decide) : s.gc ≤ t.gc := Nat.div_le_div_right (h.le_ec hp)
theorem regs (h : Touches K s t) (hp : Part.regs ∉ K := by decide) : t.regs = s.regs := h .regs hp
theorem fld (h : Touches K s t) (o : Nat) (f : Fld) (hp : Part.regs ∉ K := by decide) : t.fld o f = s.fld o f := by
  rw [State.fld, State.reg, h.regs hp, State.fld, State.reg]
theorem ex (h : Touches K s t) (x : Ea) (hp : Part.easels ∉ K := by decide) : t.ex x = s.ex x := by
  rw [State.ex, show t.easels = s.easels from h .easels hp, State.ex]
theorem bay (h : Touches K s t) (b : Nat) (hp : Part.bays ∉ K := by decide) : t.bay b = s.bay b := by
  rw [State.bay, show t.bays = s.bays from h .bays hp, State.bay]
theorem prog (h : Touches K s t) (b n : Nat) (hp : Part.prog ∉ K := by decide) : t.prog b n = s.prog b n := h .prog hp b n
theorem timers (h : Touches K s t) (b : Nat) (hp : Part.timers ∉ K := by decide) :
    (t.bay b).timerStart = (s.bay b).timerStart ∧ (t.bay b).timerCount = (s.bay b).timerCount := h .timers hp b
theorem host (h : Touches K s t) (hp : Part.host ∉ K := by decide) : t.host = s.host := h .host hp
theorem out (h : Touches K s t) (hp : Part.out ∉ K := by decide) : t.out = s.out := h .out hp
theorem fab (h : Touches K s t) (hp : Part.fab ∉ K := by decide) : t.fab = s.fab := h .fab hp
theorem conn (h : Touches K s t) (c : Nat) (hp : Part.conns ∉ K := by decide) : t.conn c = s.conn c := by
  rw [State.conn, show t.fab.conns = s.fab.conns from h .conns hp, State.conn]
theorem port (h : Touches K s t) (q : Nat) (hp : Part.ports ∉ K := by decide) : t.port q = s.port q := by
  rw [State.port, show t.fab.ports = s.fab.ports from h .ports hp, State.port]
theorem regn (h : Touches K s t) (i : Nat) (hp : Part.regns ∉ K := by decide) : t.regn i = s.regn i := by
  rw [State.regn, show t.fab.regns = s.fab.regns from h .regns hp, State.regn]
theorem fetching (h : Touches K s t) (hp : Part.fetching ∉ K := by decide) : t.fab.fetching = s.fab.fetching := h .fetching hp
theorem map (h : Touches K s t) (hp : Part.map ∉ K := by decide) : t.map = s.map := h .map hp
theorem member (h : Touches K s t) (n : Nat) (hp : Part.members ∉ K := by decide) : t.member n = s.member n := by
  rw [State.member, show t.map.members = s.map.members from h .members hp, State.member]
theorem grace (h : Touches K s t) (hp : Part.grace ∉ K := by decide) : t.map.grace = s.map.grace := h .grace hp
theorem commits (h : Touches K s t) (hp : Part.commits ∉ K := by decide) : t.map.commits = s.map.commits := h .commits hp
theorem pair (h : Touches K s t) (hp : Part.pair ∉ K := by decide) : t.pair = s.pair := h .pair hp
theorem cat (h : Touches K s t) (hp : Part.cat ∉ K := by decide) : t.cat = s.cat := h .cat hp
theorem catc (h : Touches K s t) (hp : Part.catc ∉ K := by decide) : t.catc = s.catc := h .catc hp
theorem rot (h : Touches K s t) (hp : Part.rot ∉ K := by decide) : t.rot = s.rot := h .rot hp

end Touches

/-! ## Updates of the state -/

section Updates

variable (s : State)

theorem touches_setReg (o : Nat) (v : Word) : Touches [.regs] s (s.setReg o v) := by
  intro p hp
  cases p <;> simp [Part.Same, SameRegisters, State.prog, State.bay] at hp ⊢

theorem touches_setFld (o : Nat) (f : Fld) (n : Nat) : Touches [.regs] s (s.setFld o f n) := touches_setReg s _ _

theorem touches_bump (o : Nat) (f : Fld) : Touches [.regs] s (s.bump o f) := touches_setFld s _ _ _

theorem touches_count (o : Nat) (f : Fld) (n : Nat) : Touches [.regs] s (s.count o f n) := touches_setFld s _ _ _

theorem touches_setEx (x : Ea) (e : EaselX) : Touches [.easels] s (s.setEx x e) := by
  intro p hp
  cases p <;> simp [Part.Same, SameRegisters, State.prog, State.bay] at hp ⊢

theorem touches_updEx (x : Ea) (f : EaselX → EaselX) : Touches [.easels] s (s.updEx x f) := touches_setEx s _ _

/-- A bay read after one has been set. -/
theorem State.bay_setBay (b b' : Nat) (v : BayX) : (s.setBay b v).bay b' = if b' = b then v else s.bay b' := by
  simp [State.bay, State.setBay, SMap.get_set]

theorem State.bay_updBay (b b' : Nat) (f : BayX → BayX) :
    (s.updBay b f).bay b' = if b' = b then f (s.bay b) else s.bay b' := State.bay_setBay _ _ _ _

@[simp] theorem State.bay_updBay_same (b : Nat) (f : BayX → BayX) : (s.updBay b f).bay b = f (s.bay b) := by
  simp [State.bay_updBay]

/-- A bay changed in neither its program table nor its timers. -/
theorem touches_updBay (b : Nat) (f : BayX → BayX) (hp : (f (s.bay b)).prog = (s.bay b).prog := by rfl)
    (ht : (f (s.bay b)).timerStart = (s.bay b).timerStart ∧ (f (s.bay b)).timerCount = (s.bay b).timerCount := by exact ⟨rfl, rfl⟩) :
    Touches [.bays] s (s.updBay b f) := by
  intro p hK
  cases p with
  | prog =>
    intro b' n
    by_cases hb : b' = b
    · subst hb; simp [State.prog, hp]
    · simp [State.prog, State.bay_updBay, hb]
  | timers =>
    intro b'
    by_cases hb : b' = b
    · subst hb; simpa using ht
    · simp [State.bay_updBay, hb]
  | _ => simp [Part.Same, SameRegisters] at hK ⊢

theorem touches_setStk (b : Nat) (v : StackX) : Touches [] s (s.setStk b v) := by
  intro p hp
  cases p <;> simp [Part.Same, SameRegisters, State.prog, State.bay]

theorem touches_updStk (b : Nat) (f : StackX → StackX) : Touches [] s (s.updStk b f) := touches_setStk s _ _

theorem touches_setKey (k : Nat) (v : KeyX) : Touches [] s (s.setKey k v) := by
  intro p hp
  cases p <;> simp [Part.Same, SameRegisters, State.prog, State.bay]

theorem touches_setStamp (g : Nat) (q : Seal) : Touches [] s (s.setStamp g q) := by
  intro p hp
  cases p <;> simp [Part.Same, SameRegisters, State.prog, State.bay, State.setStamp]

theorem touches_setErrs (g n : Nat) : Touches [] s (s.setErrs g n) := by
  intro p hp
  cases p <;> simp [Part.Same, SameRegisters, State.prog, State.bay, State.setErrs]

theorem touches_draw : Touches [] s s.draw.2 := by
  intro p hp
  cases p <;> simp [Part.Same, SameRegisters, State.prog, State.bay, State.draw]

theorem touches_drawBytes (n : Nat) : Touches [] s (s.drawBytes n).2 := touches_draw s

theorem touches_repairNote (r : Repair) : Touches [] s (s.repairNote r) := by
  intro p hp
  cases p <;> simp [Part.Same, SameRegisters, State.prog, State.bay, State.repairNote]

theorem touches_emit (o : Out) : Touches [.out] s (s.emit o) := by
  intro p hp
  cases p <;> simp [Part.Same, SameRegisters, State.prog, State.bay] at hp ⊢

theorem touches_setBytes (a : Nat) (bs : List Byte) : Touches [.mem] s (s.setBytes a bs) := by
  intro p hp
  cases p <;> simp [Part.Same, SameRegisters, State.prog, State.bay] at hp ⊢

theorem touches_setG (x : Ea) (r : Nat) (v : Word) : Touches [.file] s (s.setG x r v) := by
  intro p hp
  cases p <;> simp [Part.Same, State.prog, State.bay] at hp ⊢

theorem touches_setHost (h : HostX) : Touches [.host] s { s with host := h } := by
  intro p hp
  cases p <;> simp [Part.Same, SameRegisters, State.prog, State.bay] at hp ⊢

theorem touches_setPair (h : PairX) : Touches [.pair] s { s with pair := h } := by
  intro p hp
  cases p <;> simp [Part.Same, SameRegisters, State.prog, State.bay] at hp ⊢

theorem touches_setCatc (h : CatX) : Touches [.catc] s { s with catc := h } := by
  intro p hp
  cases p <;> simp [Part.Same, SameRegisters, State.prog, State.bay] at hp ⊢

theorem touches_setRot (h : RotX) : Touches [.rot] s { s with rot := h } := by
  intro p hp
  cases p <;> simp [Part.Same, SameRegisters, State.prog, State.bay] at hp ⊢

theorem touches_setLeases (l : List LeaseX) : Touches [] s { s with leases := l } := by
  intro p hp
  cases p <;> simp [Part.Same, SameRegisters, State.prog, State.bay]

theorem touches_setLeaseWaits (l : List LeaseWait) : Touches [] s { s with leaseWaits := l } := by
  intro p hp
  cases p <;> simp [Part.Same, SameRegisters, State.prog, State.bay]

/-- A change of the fabric that leaves connections, ports, registrations and fetches. -/
theorem touches_setFab (h : FabX) (hc : h.conns = s.fab.conns := by rfl) (hp : h.ports = s.fab.ports := by rfl)
    (hr : h.regns = s.fab.regns := by rfl) (hf : h.fetching = s.fab.fetching := by rfl) : Touches [.fab] s { s with fab := h } := by
  intro p hK
  cases p <;> simp [Part.Same, SameRegisters, State.prog, State.bay, hc, hp, hr, hf] at hK ⊢

theorem touches_setConn (c : Nat) (k : ConnX) : Touches [.fab, .conns] s (s.setConn c k) := by
  intro p hp
  cases p <;> simp [Part.Same, SameRegisters, State.prog, State.bay, State.setConn] at hp ⊢

theorem touches_updConn (c : Nat) (f : ConnX → ConnX) : Touches [.fab, .conns] s (s.updConn c f) := touches_setConn s _ _

theorem touches_updPort (p : Nat) (f : PortX → PortX) : Touches [.fab, .ports] s (s.updPort p f) := by
  intro p hp
  cases p <;> simp [Part.Same, SameRegisters, State.prog, State.bay, State.updPort] at hp ⊢

theorem touches_setRegn (i : Nat) (r : RegnX) : Touches [.fab, .regns] s (s.setRegn i r) := by
  intro p hp
  cases p <;> simp [Part.Same, SameRegisters, State.prog, State.bay, State.setRegn] at hp ⊢

/-- A change of the map that leaves the members, the grace windows and the commit records. -/
theorem touches_setMap (h : MapX) (hm : h.members = s.map.members := by rfl) (hg : h.grace = s.map.grace := by rfl)
    (hc : h.commits = s.map.commits := by rfl) : Touches [.map] s { s with map := h } := by
  intro p hK
  cases p <;> simp [Part.Same, SameRegisters, State.prog, State.bay, hc, hm, hg] at hK ⊢

theorem touches_setMember (n : Nat) (v : Nat × Nat) : Touches [.map, .members] s (s.setMember n v) := by
  intro p hp
  cases p <;> simp [Part.Same, SameRegisters, State.prog, State.bay, State.setMember] at hp ⊢

end Updates

/-! ## Shared operations -/

section Operations

variable (s : State)

theorem touches_setEst (x : Ea) (n : Nat) : Touches [.regs, .bays] s (s.setEst x n) := by
  unfold State.setEst
  split
  · exact ((touches_updBay s _ _).then_ (touches_setFld _ _ _ _)).mono (by decide)
  · exact (touches_setFld s _ _ _).mono (by decide)

theorem touches_passTo (t : Nat) : Touches [.ec, .regs] s (s.passTo t) := by
  unfold State.passTo
  refine Touches.ite (fun ht => ?_) fun _ => Touches.refl _ s
  refine Touches.trans (t := { s with ec := t, was := s.regs }) ?_ (Touches.foldl (fun u x => ?_) _ _)
  · intro p hp
    cases p with
    | clock => exact le_of_lt ht
    | _ => simp [Part.Same, SameRegisters, State.prog, State.bay] at hp ⊢
  · exact Touches.ite (fun _ => (touches_setReg u _ _).mono (by decide)) fun _ => Touches.refl _ u

theorem touches_log (kind unit sub : Nat) (w2 w3 : Word) : Touches [.regs, .host] s (s.log kind unit sub w2 w3) := by
  unfold State.log
  refine Touches.ite (fun _ => ?_) fun _ => ?_
  · exact ((touches_setHost s _).then_ (touches_setFld _ _ _ _)).mono (by decide)
  · exact ((touches_setHost s _).then_ ((touches_bump _ _ _).then_ (touches_setFld _ _ _ _))).mono (by decide)

theorem touches_msix (f v : Nat) : Touches [.host, .out] s (s.msix f v) := by
  unfold State.msix
  exact Touches.ite (fun _ => (touches_setHost s _).mono (by decide)) fun _ => (touches_emit s _).mono (by decide)

theorem touches_setReady (f : Fld) (i : Nat) (v : Bool) : Touches [.regs, .host] s (s.setReady f i v) := by
  unfold State.setReady
  refine Touches.ite (fun _ => (touches_setFld s _ _ _).mono (by decide)) fun _ => ?_
  refine Touches.trans ?_ (touches_log _ _ _ _ _ _)
  exact Touches.ite (fun _ => (touches_setFld s _ _ _).mono (by decide))
    fun _ => ((touches_setFld s _ _ _).then_ (touches_setFld _ _ _ _)).mono (by decide)

/-! ### Events -/

theorem touches_fireOne (b n : Nat) (r : Word) : Touches [.regs, .bays] s (s.fireOne b n r) := by
  unfold State.fireOne
  exact Touches.ite (fun _ => ((touches_updBay s _ _).then_ (touches_setFld _ _ _ _)).mono (by decide))
    fun _ => (touches_updBay s _ _).mono (by decide)

theorem touches_fire (b source : Nat) (r : Word) (waiters : Nat) : Touches [.regs, .bays] s (s.fire b source r waiters) :=
  Touches.foldl (fun u n => Touches.ite (fun _ => touches_fireOne u b n r) fun _ => Touches.refl _ u) _ _

theorem touches_event (b source : Nat) (r : Word) : Touches [.regs, .bays, .host] s (s.event b source r) := by
  unfold State.event State.mergeEvent
  refine Touches.ite (fun _ => Touches.ite (fun _ => ?_) fun _ => ?_) fun _ => Touches.ite (fun _ => ?_) fun _ => ?_
  · exact (touches_updBay s _ _).mono (by decide)
  · exact (touches_setFld s _ _ _).mono (by decide)
  · exact (touches_log s _ _ _ _ _).mono (by decide)
  · exact (touches_fire s _ _ _ _).mono (by decide)

theorem touches_pairEvent (kind pf idx owner session : Nat) (bays : List Nat) :
    Touches [.regs, .bays, .host] s (s.pairEvent kind pf idx owner session bays) :=
  ((touches_log s _ _ _ _ _).then_ (Touches.foldl (fun u b => touches_event u b _ _) _ _)).mono (by decide)

end Operations

end Sys2Proof.Machine

/-! # Registers under the shared operations -/

namespace Sys2Proof.Machine

-- One theorem after another, as in the tests: side by side their stacks ask for more memory than the check allows.
set_option Elab.async false

/-! ## Time -/

/-- An offset that is no EASEL.RUNTIME, the registers that move with the clock (R108). -/
abbrev OffRuntime (o : Nat) : Prop := o < 0x100000 ∨ 0x1100000 ≤ o ∨ 0xC0000 ≤ o % 0x100000 ∨ o % 0x10000 ≠ 0x30

theorem mem_allEasels {x : Ea} (h : x ∈ allEasels) : x.bay < 16 ∧ x.easel < 12 := by
  simp only [allEasels, List.mem_map, List.mem_range] at h
  obtain ⟨k, hk, rfl⟩ := h
  constructor
  · show k / 12 < 16
    omega
  · show k % 12 < 12
    omega

/-- What a fold over units keeps, where each of its steps on a listed unit does. -/
theorem foldl_same {α β : Type} (P : State → β) {f : State → α → State} {l : List α} (hf : ∀ u, ∀ a ∈ l, P (f u a) = P u) (s : State) :
    P (l.foldl f s) = P s := by
  induction l generalizing s with
  | nil => rfl
  | cons a l ih => rw [List.foldl_cons, ih fun u b hb => hf u b (by simp [hb]), hf s a (by simp)]

variable (s : State)

/-- A register the passing of time leaves as it was. -/
theorem State.reg_passTo (t o : Nat) (ho : OffRuntime o) : (s.passTo t).reg o = s.reg o := by
  unfold State.passTo
  split
  · refine foldl_same (fun u => u.reg o) (fun u x hx => ?_) _
    obtain ⟨hb, he⟩ := mem_allEasels hx
    show State.reg (if _ then _ else u) o = u.reg o
    split
    · refine State.reg_setReg_ne u _ ?_
      unfold Reg.easelRuntime
      omega
    · rfl
  · rfl

theorem State.fld_passTo (t o : Nat) (f : Fld) (ho : OffRuntime o := by decide) :
    (s.passTo t).fld o f = s.fld o f := by
  rw [State.fld, s.reg_passTo t o ho, State.fld]

/-- The clock after time has passed. -/
theorem State.passTo_ec (t : Nat) : (s.passTo t).ec = max s.ec t := by
  unfold State.passTo
  split
  · rw [foldl_same (fun u => u.ec) (fun u x _ => ?_)]
    · show t = _
      omega
    · show State.ec (if _ then _ else u) = u.ec
      split <;> rfl
  · omega

/-- Time passes up to a ground cycle. -/
theorem State.le_gc_passTo (g : Nat) : g ≤ (s.passTo (96 * g)).gc := by
  rw [State.gc, State.passTo_ec]
  omega

@[simp] theorem State.bayUp_passTo (t b : Nat) : (s.passTo t).bayUp b = s.bayUp b := by
  rw [State.bayUp, s.fld_passTo t Reg.globalReady Reg.globalReady_BAY, State.bayUp]

/-! ## The event log and events -/

/-- The event log writes one register, GLOBAL.EVERR. -/
theorem State.reg_log (kind unit sub : Nat) (w2 w3 : Word) {o : Nat} (ho : o ≠ Reg.globalEverr) :
    (s.log kind unit sub w2 w3).reg o = s.reg o := by
  unfold State.log
  simp only
  split
  · rw [State.reg_setFld_ne _ _ _ ho]; rfl
  · rw [State.reg_setFld_ne _ _ _ ho, State.bump, State.reg_setFld_ne _ _ _ ho]; rfl

theorem State.fld_log (kind unit sub : Nat) (w2 w3 : Word) (o : Nat) (f : Fld) (ho : o ≠ Reg.globalEverr := by decide) :
    (s.log kind unit sub w2 w3).fld o f = s.fld o f := by
  rw [State.fld, s.reg_log kind unit sub w2 w3 ho, State.fld]

/-- An offset that no event in a bay writes: not GLOBAL.EVERR, PWR.XOVR or a binding of the bay. -/
abbrev OffEvents (b o : Nat) : Prop :=
  o ≠ Reg.globalEverr ∧ o ≠ Reg.pwrXovr ∧ (o < Reg.bayBind0 b 0 ∨ Reg.bayBind0 b 64 ≤ o)

theorem State.reg_event (b source : Nat) (r : Word) {o : Nat} (ho : OffEvents b o) : (s.event b source r).reg o = s.reg o := by
  obtain ⟨hlog, hxovr, hbind⟩ := ho
  unfold State.event State.mergeEvent
  split
  · split
    · rfl
    · exact State.reg_setFld_ne _ _ _ hxovr
  · split
    · exact State.reg_log _ _ _ _ _ _ hlog
    · unfold State.fire
      refine foldl_same (fun u => u.reg o) (fun u n hn => ?_) _
      have hn : n < 64 := by
        simp only [State.boundTo, List.mem_filter, List.mem_range] at hn
        exact hn.1
      show State.reg (if _ then _ else u) o = u.reg o
      split
      · unfold State.fireOne
        simp only
        split
        · refine State.reg_setFld_ne _ _ _ ?_
          unfold Reg.bayBind0 at *
          omega
        · rfl
      · rfl

theorem State.fld_event (b source : Nat) (r : Word) {o : Nat} (f : Fld) (ho : OffEvents b o) :
    (s.event b source r).fld o f = s.fld o f := by
  rw [State.fld, s.reg_event b source r ho, State.fld]

end Sys2Proof.Machine

/-! # Easels: the outstanding-operation table and the program counter -/

namespace Sys2Proof.Machine

-- One theorem after another, as in the tests: side by side their stacks ask for more memory than the check allows.
set_option Elab.async false

variable (s : State) (x : Ea)

theorem State.ex_setEx (y : Ea) (e : EaselX) : (s.setEx x e).ex y = if y.key = x.key then e else s.ex y := by
  simp [State.ex, State.setEx, SMap.get_set]

@[simp] theorem State.ex_setEx_same (e : EaselX) : (s.setEx x e).ex x = e := by simp [State.ex_setEx]

@[simp] theorem State.ex_updEx_same (f : EaselX → EaselX) : (s.updEx x f).ex x = f (s.ex x) := State.ex_setEx_same _ _ _

/-- The program counter moves past the instruction. -/
@[simp] theorem State.pc_advance (n : Nat) : (s.advance x n).pc x = (s.pc x + n) % 2 ^ 13 :=
  State.fld_setFld_same _ _ _ _ (by decide)

theorem touches_advance (n : Nat) : Touches [.regs] s (s.advance x n) := touches_setFld s _ _ _

/-- The entry an operation takes, as it joins the table. -/
def State.newEntry (s : State) (x : Ea) (n : Nat) (kind : OutKind) (rd off a b len after : Nat) : OutOp :=
  ⟨n, (s.ex x).opSeq, rd, kind, off, a, b, len, s.ec, s.ec + after, false⟩

/-- The table with a free entry takes an operation there. -/
theorem takeEntry_free {n : Nat} (h : freeEntry (s.ex x).outst = some n) (kind : OutKind) (rd off a b len after : Nat) :
    s.takeEntry x kind rd off a b len after = some (s.setEx x
      { s.ex x with opSeq := (s.ex x).opSeq + 1, outst := (s.ex x).outst ++ [s.newEntry x n kind rd off a b len after] }) := by
  unfold State.takeEntry
  simp only [h]
  rfl

/-- An asynchronous operation that finds a free entry: it stands in the table, the program counter is past it, and no register of the
easel or byte has changed. -/
theorem async_lands {n : Nat} (h : freeEntry (s.ex x).outst = some n) (kind : OutKind) (rd off a b len after : Nat) :
    ∃ t, (s.async x kind rd off a b len after).land s x 1 = t ∧
      (t.ex x).outst = (s.ex x).outst ++ [s.newEntry x n kind rd off a b len after] ∧ t.pc x = (s.pc x + 1) % 2 ^ 13 ∧
      SameRegisters s t ∧ t.mem = s.mem := by
  have hframe := fun e => (touches_setEx s x e).then_ (touches_advance (s.setEx x e) x 1)
  refine ⟨_, rfl, ?_⟩
  rw [State.async, takeEntry_free s x h]
  refine ⟨?_, State.pc_advance _ _ _, (hframe _).file, (hframe _).mem⟩
  rw [Res.land, (touches_advance _ x 1).ex, State.ex_setEx_same]

/-! ## Completion -/

@[simp] theorem State.gr_setG_same {r : Nat} (hr : r ≠ 0) (v : Word) : (s.setG x r v).gr x r = v := by
  simp [State.gr, State.setG, hr]

theorem touches_freeEnt (n : Nat) : Touches [.easels] s (s.freeEnt x n) := touches_updEx s _ _

theorem touches_settle : Touches [.regs, .bays] s (s.settle x) := by
  unfold State.settle
  split
  · exact Touches.ite (fun _ => touches_setEst s _ _) fun _ => Touches.refl _ s
  · exact Touches.refl _ s

theorem touches_finish (o : OutOp) (w : Word) : Touches [.file, .easels, .regs, .bays] s (s.finish x o w) :=
  ((touches_setG s _ _ _).then_ ((touches_freeEnt _ _ _).then_ (touches_settle _ _))).mono (by decide)

/-- The completion word stands in the status register of its operation (R118). -/
theorem State.gr_finish (o : OutOp) (w : Word) (hr : o.rd ≠ 0) : (s.finish x o w).gr x o.rd = w := by
  have h := (touches_settle ((s.setG x o.rd w).freeEnt x o.num) x).file.1
  rw [State.gr, State.finish, h, show State.g ((s.setG x o.rd w).freeEnt x o.num) = (s.setG x o.rd w).g from rfl]
  exact State.gr_setG_same s x hr w

/-- A freed entry is no longer in the table. -/
theorem State.entry_finish (o : OutOp) (w : Word) : (s.finish x o w).entry x o.num = none := by
  rw [State.entry, State.finish, (touches_settle _ x).ex, State.freeEnt, State.ex_updEx_same]
  simp

/-- A completion writes no register but EASEL.STATUS of its easel. -/
theorem State.reg_finish (o : OutOp) (w : Word) {a : Nat} (ha : a ≠ Reg.easelStatus x.bay x.easel) :
    (s.finish x o w).reg a = s.reg a := by
  have hg : State.reg ((s.setG x o.rd w).freeEnt x o.num) a = s.reg a := by
    unfold State.setG
    split <;> rfl
  unfold State.finish State.settle
  split
  · split
    · unfold State.setEst
      rw [State.reg_setFld_ne _ _ _ ha]
      split <;> exact hg
    · exact hg
  · exact hg

end Sys2Proof.Machine

/-! # Ports, their queues and GLOBAL.READY -/

namespace Sys2Proof.Machine

-- One theorem after another, as in the tests: side by side their stacks ask for more memory than the check allows.
set_option Elab.async false

/-! ## Bits of fields -/

theorem bitOf_eq_testBit (x i : Nat) : bitOf x i = x.testBit i := by
  rw [bitOf, Nat.testBit_eq_decide_div_mod_eq]

/-- A bit of a field is that bit of the register. -/
theorem bitOf_bitsOf (x lo w i : Nat) (hi : i < w) : bitOf (bitsOf x lo w) i = decide (bitsOf x (lo + i) 1 = 1) := by
  have h : bitsOf x (lo + i) 1 = x / 2 ^ (lo + i) % 2 := by rw [bitsOf, pow_one]
  rw [bitOf_eq_testBit, bitsOf, Nat.testBit_mod_two_pow, Nat.testBit_div_two_pow, h, Nat.testBit_eq_decide_div_mod_eq, Nat.add_comm i lo]
  simp [hi]

section

variable (s : State)

/-- A bit of a field read as a field of one bit. -/
theorem State.bitOf_fld (o : Nat) (f : Fld) {i : Nat} (hi : i < f.w) : bitOf (s.fld o f) i = decide (s.fld o ⟨f.lo + i, 1⟩ = 1) :=
  bitOf_bitsOf _ _ _ _ hi

/-! ## GLOBAL.READY -/

theorem State.reg_setReady (f : Fld) (i : Nat) (v : Bool) {o : Nat} (ho : o ≠ Reg.globalReady) (he : o ≠ Reg.globalEverr) :
    (s.setReady f i v).reg o = s.reg o := by
  unfold State.setReady
  simp only
  split
  · exact State.reg_setFld_ne _ _ _ ho
  · rw [State.reg_log _ _ _ _ _ _ he]
    split
    · exact State.reg_setFld_ne _ _ _ ho
    · rw [State.reg_setFld_ne _ _ _ ho, State.reg_setFld_ne _ _ _ ho]

theorem State.fld_setReady (f : Fld) (i : Nat) (v : Bool) {o : Nat} (g : Fld) (ho : o ≠ Reg.globalReady) (he : o ≠ Reg.globalEverr) :
    (s.setReady f i v).fld o g = s.fld o g := by
  rw [State.fld, s.reg_setReady f i v ho he, State.fld]

/-- The bit set or cleared, where it lies below DROPEV. -/
theorem State.ready_setReady (f : Fld) {i : Nat} (v : Bool) (hi : i < f.w) (hf : f.lo + f.w ≤ 63) :
    bitOf ((s.setReady f i v).fld Reg.globalReady f) i = v := by
  have hset : ∀ u : State, (u.setFld Reg.globalReady ⟨f.lo + i, 1⟩ (b2n v)).fld Reg.globalReady ⟨f.lo + i, 1⟩ = b2n v := fun u => by
    rw [State.fld_setFld_same _ _ _ _ (show f.lo + i + 1 ≤ 64 by omega)]
    cases v <;> rfl
  have hval : (s.setReady f i v).fld Reg.globalReady ⟨f.lo + i, 1⟩ = b2n v := by
    unfold State.setReady
    simp only
    split
    · exact hset s
    · rw [State.fld_log _ _ _ _ _ _ Reg.globalReady]
      split
      · exact hset s
      · rw [State.fld_setFld_apart _ _ _ _ _ (by decide) (Or.inr (show f.lo + i + 1 ≤ 63 by omega))]
        exact hset s
  rw [State.bitOf_fld _ _ _ hi, hval]
  cases v <;> rfl

/-! ## Queues -/

theorem touches_setInst (i : Nat) (k : InstX) : Touches [.fab, .regs] s (s.setInst i k) :=
  (touches_setFab s _).then_ (touches_setFld _ _ _ _)

theorem touches_enqueue (i q : Nat) (e : QEnt) : Touches [.fab, .regs] s (s.enqueue i q e) := touches_setInst s _ _

theorem touches_dropItems (i : Nat) (gone : QEnt → Bool) : Touches [.fab, .regs] s (s.dropItems i gone) := touches_setInst s _ _

theorem touches_dequeueMsg (i c first : Nat) : Touches [.fab, .regs] s (s.dequeueMsg i c first) := touches_dropItems s _ _

theorem touches_assignMsg (c first : Nat) : Touches [.fab, .conns] s (s.assignMsg c first) := by
  unfold State.assignMsg
  simp only
  split
  · exact touches_setConn s _ _
  · exact touches_setConn s _ _

theorem touches_reassign (c : Nat) : Touches [.fab, .conns, .regs] s (s.reassign c) := by
  refine Touches.foldl (fun u m => Touches.ite (fun _ => Touches.refl _ u) fun _ => ?_) _ _
  extract_lets u1 u2
  have hoff : Touches [.fab, .conns, .regs] u u1 := by
    dsimp only [u1]
    split
    · exact Touches.ite (fun _ => (touches_dequeueMsg u _ _ _).mono (by decide)) fun _ => Touches.refl _ u
    · exact Touches.refl _ u
  have hassign : Touches [.fab, .conns, .regs] u u2 := hoff.trans ((touches_assignMsg u1 c m.first).mono (by decide))
  split
  · exact Touches.ite (fun _ => hassign.trans ((touches_enqueue u2 _ _ _).mono (by decide))) fun _ => hassign
  · exact Touches.refl _ u

theorem touches_reassignAll (l : List Nat) : Touches [.fab, .conns, .regs] s (l.foldl (fun u c => u.reassign c) s) :=
  Touches.foldl (fun u c => touches_reassign u c) _ _

theorem touches_showNode : Touches [.regs] s s.showNode := by
  unfold State.showNode
  exact Touches.ite (fun _ => touches_setFld s _ _ _) fun _ => (touches_setFld s _ _ _).trans (touches_setFld _ _ _ _)

theorem touches_dueOn (p : Nat) : Touches [.fab, .conns] s (s.dueOn p) := Touches.foldl (fun u c => touches_updConn u c _) _ _

/-! ## The state of a port -/

theorem State.port_updPort (p q : Nat) (f : PortX → PortX) : (s.updPort p f).port q = if q = p then f (s.port p) else s.port q := by
  simp [State.port, State.updPort, SMap.get_set]

@[simp] theorem State.port_updPort_same (p : Nat) (f : PortX → PortX) : (s.updPort p f).port p = f (s.port p) := by
  simp [State.port_updPort]

@[simp] theorem State.fld_updPort (p o : Nat) (f : PortX → PortX) (g : Fld) : (s.updPort p f).fld o g = s.fld o g := rfl

theorem touches_setPortSt (p n : Nat) : Touches [.regs, .fab, .ports] s (s.setPortSt p n) :=
  (touches_setFld s _ _ _).then_ (touches_updPort _ _ _)

theorem State.portSt_setPortSt (p n : Nat) : (s.setPortSt p n).portSt p = n % 8 := State.fld_setFld_same _ _ _ _ (by decide)

theorem State.fld_setPortSt_ne (p n : Nat) {o : Nat} (f : Fld) (ho : o ≠ Reg.portStatus p) : (s.setPortSt p n).fld o f = s.fld o f :=
  State.fld_setFld_ne s _ _ _ ho

/-- A port after it has entered a state. -/
theorem State.port_setPortSt (p n : Nat) :
    (s.setPortSt p n).port p = { s.port p with since := s.gc, lit := s.lasers p n, bad := [] } := State.port_updPort_same _ _ _

end

end Sys2Proof.Machine

namespace Sys2Proof.Machine

-- One theorem after another, as in the tests: side by side their stacks ask for more memory than the check allows.
set_option Elab.async false

/-- The threshold of a stack after reset is the device's (R571). -/
theorem reset_thresh (b : Nat) (hb : b < 16) :
    State.reset.fld (Reg.bayStkTherm b) Reg.bayStkTherm_THRESH = Config.stackThresh b := by
  have hspec : ∀ b, b < 16 → (regAt (Reg.bayStkTherm b)).map (·.reset) = some 0 := by
    intro b hb
    interval_cases b <;> decide +kernel
  obtain ⟨r, hr, hr0⟩ := Option.map_eq_some_iff.1 (hspec b hb)
  have hsrc : resetSource (Reg.bayStkTherm b) = BitVec.ofNat 64 (Config.stackThresh b * 2 ^ 8) := by
    unfold resetSource Reg.bayStkTherm
    rw [if_pos (by omega), show (0x1E0010 + b * 0x100000 - 0x100000) / 0x100000 = b by omega,
      show (0x1E0010 + b * 0x100000 - 0x100000) % 0x100000 = 0xE0010 by omega]
    rfl
  have hreg : State.reset.reg (Reg.bayStkTherm b) = BitVec.ofNat 64 (Config.stackThresh b * 2 ^ 8) := by
    rw [State.reg, State.reset, SMap.get_nil, regReset, hr]
    simp [hr0, hsrc]
  have hlt : Config.stackThresh b < 96 := by unfold Config.stackThresh; omega
  rw [State.fld, hreg, bf, bitsOf, BitVec.toNat_ofNat]
  simp only [Reg.bayStkTherm_THRESH]
  omega

/-- No bit of GLOBAL.READY is set after reset (R512). -/
theorem reset_globalReady (f : Fld) : State.reset.fld Reg.globalReady f = 0 := by
  have h : regReset Reg.globalReady = 0 := by decide +kernel
  rw [State.fld, show State.reset.reg Reg.globalReady = regReset Reg.globalReady from rfl, h]
  simp [bf, bitsOf]

/-- Settles O58: each claim reads a field of the reset state; those about units read the register of each. -/
theorem whatResetLeaves : Obligations.WhatResetLeaves := by
  have hbay : ∀ b, b < 16 → State.reset.bayUp b = false ∧ State.reset.stackUp b = false := fun b hb => by
    refine ⟨by simp [State.bayUp, reset_globalReady, bitOf], ?_⟩
    interval_cases b <;> decide +kernel
  have hport : ∀ p, p < 8 → State.reset.portSt p = 0 := fun p hp => by interval_cases p <;> decide +kernel
  have hch : ∀ c, c < 32 → State.reset.chUp c = false := fun c hc => by interval_cases c <;> decide +kernel
  have hkey : ∀ k, k ≠ 0 → (State.reset.key k).state = 0 := fun k hk => by
    simp [State.key, SMap.get, State.reset, hk.symm]
  have hthresh : ∀ b, b < 16 → let th := State.reset.fld (Reg.bayStkTherm b) Reg.bayStkTherm_THRESH; 85 ≤ th ∧ th ≤ 95 := by
    intro b hb
    rw [reset_thresh b hb, Config.stackThresh]
    omega
  have hgr : ∀ x r, State.reset.gr x r = 0 := fun x r => by simp [State.gr, State.reset]
  have hmode : State.reset.startUp = true := by decide +kernel
  have hseeded : State.reset.fld Reg.mapEpoch Reg.mapEpoch_SEEDED = 0 := by decide +kernel
  have hnode : State.reset.node = 0xFFF := by decide +kernel
  exact ⟨rfl, by decide +kernel, hbay, hport, hch, reset_globalReady _, reset_globalReady _, reset_globalReady _, hmode, hseeded, hnode,
    hkey, rfl, rfl, fun o => rfl, hthresh, hgr, fun a => rfl⟩

end Sys2Proof.Machine

namespace Sys2Proof.Machine

-- One theorem after another, as in the tests: side by side their stacks ask for more memory than the check allows.
set_option Elab.async false

/-! ## Launches -/

/-- The launch taken first is one of those given, and none of them has precedence over it. -/
theorem firstLaunch_some {ls : List Launch} {l : Launch} (h : firstLaunch ls = some l) : l ∈ ls ∧ ∀ m ∈ ls, l.rank ≤ m.rank := by
  induction ls generalizing l with
  | nil => simp [firstLaunch] at h
  | cons a ls ih =>
    cases ha : firstLaunch ls with
    | none =>
      cases ls with
      | nil =>
        simp [firstLaunch] at h
        simp [h]
      | cons b ls =>
        exfalso
        simp only [firstLaunch] at ha
        split at ha
        · split at ha <;> simp at ha
        · simp at ha
    | some m =>
      obtain ⟨hm, hmin⟩ := ih ha
      simp only [firstLaunch, ha] at h
      split at h
      · next hlt =>
        cases h
        exact ⟨by simp [hm], by simpa using ⟨by omega, hmin⟩⟩
      · next hge =>
        cases h
        refine ⟨by simp, ?_⟩
        intro n hn
        rcases List.mem_cons.1 hn with rfl | hn
        · exact le_refl _
        · have := hmin n hn
          omega

/-- What the choice of the next launch comes to. -/
theorem nextLaunch_some {s : State} {b t0 : Nat} {l : Launch} (h : s.nextLaunch b = some (l, t0)) :
    l ∈ (s.bay b).incoming ∧ s.launchAt l ≤ t0 ∧ s.ec ≤ t0 ∧ (s.bay b).acceptAt ≤ t0 ∧
      ∀ m ∈ (s.bay b).incoming, s.launchAt m ≤ t0 → l.rank ≤ m.rank := by
  unfold State.nextLaunch at h
  cases hmin : ((s.bay b).incoming.map s.launchAt).min? with
  | none => simp [hmin] at h
  | some first =>
    simp only [hmin, Option.map_eq_some_iff, Prod.mk.injEq] at h
    obtain ⟨m, hm, rfl, rfl⟩ := h
    obtain ⟨hmem, hrank⟩ := firstLaunch_some hm
    simp only [List.mem_filter, decide_eq_true_eq] at hmem hrank
    exact ⟨hmem.1, hmem.2, by omega, by omega, fun n hn hat => hrank n ⟨hn, hat⟩⟩

/-- BAY.DISP.STATUS shows the length of the launch queue. -/
theorem dispStatus_qdepth (s : State) (b : Nat) :
    (s.dispStatus b).fld (Reg.bayDispStatus b) Reg.bayDispStatus_QDEPTH = (s.bay b).queue.length % 2 ^ Reg.bayDispStatus_QDEPTH.w := by
  unfold State.dispStatus
  rw [State.fld_setFld_apart _ _ _ _ _ (by decide) (by decide), State.fld_setFld_same _ _ _ _ (by decide)]

theorem dispStatus_bays (s : State) (b : Nat) : (s.dispStatus b).bays = s.bays := rfl

/-- A ready bay that is awake takes the launch `l` in at `t0`: what it does with it, in the state once it is off the incoming ones. -/
theorem launchAccept_takes {s u : State} {b t0 : Nat} {l : Launch} (hb : b < 16) (hn : s.nextLaunch b = some (l, t0))
    (hup : s.bayUp b = true) (has : s.asleep b = false)
    (hu : u = (s.passTo t0).updBay b fun y => { y with incoming := y.incoming.erase l, acceptAt := (s.passTo t0).ec + 4 }) :
    (u.launchCode b l ≠ cDone → exec (.launchAccept b) s = .next (u.refuseLaunch b l (u.launchCode b l))) ∧
    (u.launchCode b l = cDone → ∀ p, (if ((u.launchAnswer b l cDone).bay b).queue.isEmpty then (u.launchAnswer b l cDone).pick b l else none) = p →
      exec (.launchAccept b) s = .next (p.elim
        (((u.launchAnswer b l cDone).updBay b fun y => { y with queue := y.queue ++ [l] }).dispStatus b)
        fun es => es.foldl (fun t e => t.placeOn b l e) (u.launchAnswer b l cDone))) := by
  have hupu : u.bayUp b = true := by rw [hu]; exact (s.bayUp_passTo t0 b).trans hup
  refine ⟨fun hc => ?_, fun hc p hp => ?_⟩
  · show execLaunchAccept b s = _
    unfold execLaunchAccept
    rw [guarded_next _ _ (by simpa using hb)]
    simp only [hn, hup, has, Bool.and_false, Bool.false_eq_true, if_false, ← hu, hupu, if_true, if_pos hc]
  · show execLaunchAccept b s = _
    unfold execLaunchAccept
    rw [guarded_next _ _ (by simpa using hb)]
    simp only [hn, hup, has, Bool.and_false, Bool.false_eq_true, if_false, ← hu, hupu, if_true, hc, ne_eq, not_true, hp]
    cases p <;> rfl

/-- Settles O20: the choice of the launch by the precedence of R79, then the branches of the acceptance and of the placement. -/
theorem launchesAreTakenPlacedOrQueued : Obligations.LaunchesAreTakenPlacedOrQueued := by
  intro b s l hb
  refine ⟨fun t0 h => nextLaunch_some h, fun t0 hn hup has => ?_, fun q es hq hp => ?_⟩
  · intro u v
    obtain ⟨hrefused, htaken⟩ := launchAccept_takes (u := u) hb hn hup has rfl
    refine ⟨hrefused, fun hc hq es hp => ?_, fun hc hq => ?_⟩
    · exact htaken hc (some es) (by rw [if_pos (by simpa using hq), hp])
    · refine ⟨_, htaken hc none ?_, ?_, ?_⟩
      · rcases hq with hq | hq
        · rw [if_neg (by simpa using hq)]
        · rw [hq, ite_self]
      · simp [State.bay, dispStatus_bays, State.updBay, State.setBay, v]
      · simp [dispStatus_qdepth, v]
  · show execLaunchPlace b s = _
    unfold execLaunchPlace
    rw [guarded_next _ _ (by simpa using hb)]
    simp [hq, hp]

end Sys2Proof.Machine

namespace Sys2Proof.Machine

-- One theorem after another, as in the tests: side by side their stacks ask for more memory than the check allows.
set_option Elab.async false

/-! ## LAUNCH, DB.RING, DBPOP and RESUME -/

section

variable (x : Ea) (w : Word) (s : State)

/-- A pending result takes a place in its table; doorbells stand. -/
theorem touches_takePend (rd : Nat) (l : Option Nat) : Touches [.easels] s (s.takePend x rd l) := touches_updEx s _ _

theorem fifo_takePend (rd : Nat) (l : Option Nat) (b d : Nat) : (s.takePend x rd l).fifo b d = s.fifo b d := by
  rw [State.fifo, (touches_takePend x s rd l).bay, State.fifo]

/-- LAUNCH with a descriptor inside the operand store and a free entry. -/
theorem launch_lands (hr : runs (.launch x w) s = true) (hop : opCheck ((s.gr x (raOf w)).toNat : Int) 64 64 = none) {n : Nat}
    (hn : freeEntry (s.ex x).outst = some n) :
    let a := s.gr x (raOf w)
    let db := s.gr x (rbOf w)
    let bl := launchOf (.easel x n (if rbOf w = 0 then none else some (bf db 6 4, bf db 0 6))) (s.bytes (opBase x + a.toNat) 64)
    exec (.launch x w) s = .next (if s.tierMask < bl.2.mask then s.licTrap x 0x01 (bl.1 * 16 + s.outside bl.2.mask)
      else ((s.setEx x { s.ex x with opSeq := (s.ex x).opSeq + 1
                                     outst := (s.ex x).outst ++ [s.newEntry x n .launch (rdOf w) a.toNat bl.1 0 64
                                       (6 * hops x.bay bl.1 + 4)] }).updBay bl.1
          fun y => { y with incoming := y.incoming ++ [bl.2] }).advance x 1) := by
  intro a db bl
  rw [runs_next s x w _ _ (.launch x w) rfl rfl rfl hr]
  simp only [hop, hn, Option.getD_some, takeEntry_free s x hn]
  show Host.Outcome.next (Res.land s x 1 (if s.tierMask < bl.2.mask then _ else _)) = _
  split <;> rfl

end

/-- Settles O19: the issue lemmas of the four instructions, and the branches of a resume. -/
theorem launchInstructionsReachTheirUnit : Obligations.LaunchInstructionsReachTheirUnit := by
  intro x w s a db d y
  refine ⟨fun hr hop n hn => ?_, fun hr n hn => ?_, fun hr hfull => ?_, fun hr hfull => ?_, fun hr => ?_, fun hst => ?_,
    fun hns hnh => ?_⟩
  · intro bl
    have h := launch_lands x w s hr hop hn
    refine ⟨fun hm => ?_, fun hm => ⟨_, by rw [h, if_neg (by simpa using hm)], ?_, ?_, ?_⟩⟩
    · rw [h, if_pos hm]
    · rw [(touches_advance _ x 1).bay, State.bay_updBay_same]
      rfl
    · rw [(touches_advance _ x 1).ex, (touches_updBay _ _ _).ex, State.ex_setEx_same]
      simp
    · have hframe := fun e b f h h' => (touches_setEx s x e).then_ ((touches_updBay (s.setEx x e) b f h h').then_ (touches_advance _ x 1))
      exact ⟨(hframe _ _ _ rfl ⟨rfl, rfl⟩).file, (hframe _ _ _ rfl ⟨rfl, rfl⟩).mem⟩
  · obtain ⟨t, ht, hout, hpc, hreg, hmem⟩ := async_lands s x hn .ring 0 0 (bf a 0 10) (bf db 0 32) 0 (6 * hops x.bay (bf a 0 4) + 4)
    exact ⟨t, by rw [runs_next s x w _ _ (.dbRing x w) rfl rfl rfl hr, ← ht], hout, hpc, hreg, hmem⟩
  · rw [runs_next s x w _ _ (.dbpop x w) rfl rfl rfl hr]
    simp only [hfull, if_true]
    rfl
  · intro u
    refine ⟨fun r q hq => ?_, fun hq => ?_⟩ <;> rw [runs_next s x w _ _ (.dbpop x w) rfl rfl rfl hr] <;>
      simp only [hfull, Bool.false_eq_true, if_false, fifo_takePend, d, a] at hq ⊢ <;> rw [hq] <;> rfl
  · refine ⟨fun hy => ?_, fun hy n hn => ?_⟩
    · rw [runs_next s x w _ _ (.resume x w) rfl rfl rfl hr]
      rw [if_pos hy]
      rfl
    · obtain ⟨t, ht, hout, hpc, hreg, hmem⟩ := async_lands s x hn .resume (rdOf w) 0 (y.bay * 16 + y.easel) 0 0 (6 * hops x.bay y.bay + 4)
      refine ⟨t, ?_, hout, hpc, hreg, hmem⟩
      rw [runs_next s x w _ _ (.resume x w) rfl rfl rfl hr, if_neg (by simpa using hy), ← ht]
  · rw [State.resumeEasel, if_neg (by simp [hst]), if_pos hst]
  · rw [State.resumeEasel, if_neg hnh, if_neg hns]

end Sys2Proof.Machine

namespace Sys2Proof.Machine

-- One theorem after another, as in the tests: side by side their stacks ask for more memory than the check allows.
set_option Elab.async false

/-! ## Catalogue accesses -/

section

variable (x : Ea) (w : Word) (s : State)

/-- An access is scheduled at least 48 cycles on (R57). -/
theorem le_catCycle (n : Nat) (shadow : Bool) : s.ec + 48 ≤ s.catCycle n shadow := by
  have hfold : ∀ (l : List CatAcc) (c : Nat), c ≤ l.foldl (fun c a =>
      if a.n / s.perSlice = n / s.perSlice ∧ a.shadow = shadow then max c (a.due + 2) else c) c := by
    intro l
    induction l with
    | nil => intro c; exact le_refl c
    | cons a l ih =>
      intro c
      refine le_trans ?_ (ih _)
      dsimp only
      split <;> omega
  exact hfold _ _

/-- The access an instruction schedules. -/
def State.catAcc (s : State) (x : Ea) (w : Word) (write : Bool) (e : Nat) : CatAcc :=
  { x, entry := e, write, shadow := fnOf w == 1, n := bf (s.gr x (rbOf w)) 0 22, off := (s.gr x (raOf w)).toNat
    image := BitVec.ofNat 256 (bytesNat (s.bytes (opBase x + (s.gr x (raOf w)).toNat) 32))
    due := s.catCycle (bf (s.gr x (rbOf w)) 0 22) (fnOf w == 1) }

/-- An access whose operand passes its checks and that finds a free entry is scheduled, and nothing else of the node changes. -/
theorem catAccess_schedules {c : Instr} {opc n : Nat} {write : Bool}
    (hi : c.issued = some (x, w, { sh := shR .g .g .g .z, legal := decide (fnOf w ≤ 1) })) (hw : c.wf = (x.ok && opcIs w opc))
    (he : exec c s = catAccess opc write x w s) (hop : opCheck ((s.gr x (raOf w)).toNat : Int) 32 32 = none)
    (hn : freeEntry (s.ex x).outst = some n) (hr : runs c s = true) :
    ∃ t a, exec c s = .next t ∧ t.catc.pendAcc = s.catc.pendAcc ++ [a] ∧ a = s.catAcc x w write n ∧ s.ec + 48 ≤ a.due ∧
      SameRegisters s t ∧ t.mem = s.mem ∧ t.cat = s.cat := by
  have hframe := fun e h =>
    ((touches_setEx s x e).then_ (touches_setCatc (s.setEx x e) h)).then_ (touches_advance { s.setEx x e with catc := h } x 1)
  have hexec := runs_next s x w _ _ c hi hw he hr
  simp only [hop, hn, takeEntry_free s x hn] at hexec
  exact ⟨_, _, hexec, rfl, rfl, le_catCycle s _ _, (hframe _ _).file, (hframe _ _).mem, (hframe _ _).cat⟩

end

/-! ## An access in its cycle -/

section

variable (s : State)

theorem touches_setCat (k n : Nat) (v : BitVec 256) : Touches [.cat, .catc] s (s.setCat k n v) := by
  intro p hp
  unfold State.setCat
  cases p <;> simp [Part.Same, SameRegisters, State.prog, State.bay] at hp ⊢ <;> split <;> simp

theorem pendAcc_setCat (k n : Nat) (v : BitVec 256) : (s.setCat k n v).catc.pendAcc = s.catc.pendAcc := by
  unfold State.setCat
  simp only
  split <;> rfl

theorem touches_liveWrite (n : Nat) (v : BitVec 256) : Touches [.cat, .catc, .regs] s (s.liveWrite n v) := by
  have h := touches_setCat s s.liveBank n v
  have h' := (h.then_ (touches_count _ Reg.catLivewr Reg.catLivewr_COUNT 1))
  unfold State.liveWrite
  refine Touches.ite (fun _ => h.mono (by decide)) fun _ => Touches.ite (fun _ => ?_) fun _ => ?_
  · exact (h'.then_ ((touches_setCatc _ _).then_ (touches_setReg _ _ _))).mono (by decide)
  · exact (h'.then_ (touches_setFld _ _ _ _)).mono (by decide)

theorem pendAcc_liveWrite (n : Nat) (v : BitVec 256) : (s.liveWrite n v).catc.pendAcc = s.catc.pendAcc := by
  have h := pendAcc_setCat s s.liveBank n v
  unfold State.liveWrite
  simp only
  split
  · exact h
  · split <;> exact h

/-- The state in the cycle of the access, which is taken off the schedule. -/
def State.catTaken (s : State) (i : Nat) (a : CatAcc) : State :=
  { s.passTo a.due with catc := { (s.passTo a.due).catc with pendAcc := (s.passTo a.due).catc.pendAcc.eraseIdx i } }

/-- The bank of an access (R57). -/
def State.catBank (s : State) (a : CatAcc) : Nat := if a.shadow then 1 - s.liveBank else s.liveBank

/-- What the access does to the banks, or the licence event. -/
def State.catEffect (s : State) (a : CatAcc) : State :=
  if s.catCode a = cLicence then s.logLic 0xFF 0x03 a.n
  else if s.catCode a ≠ cDone ∨ a.write = false then s
  else if a.shadow then s.setCat (s.catBank a) a.n a.image
  else s.liveWrite a.n a.image

/-- The state in which the completion word lands. -/
def State.catLanding (s : State) (a : CatAcc) : State :=
  if s.catCode a = cLicence then s.catEffect a
  else (s.catEffect a).passTo (a.due + 12 * hops a.x.bay (a.n / (s.catEffect a).perSlice))

theorem touches_catTaken (i : Nat) (a : CatAcc) : Touches [.ec, .regs, .catc] s (s.catTaken i a) :=
  (touches_passTo s _).then_ (touches_setCatc _ _)

theorem touches_catEffect (a : CatAcc) : Touches [.regs, .host, .cat, .catc] s (s.catEffect a) := by
  unfold State.catEffect
  refine Touches.ite (fun _ => (touches_log s _ _ _ _ _).mono (by decide)) fun _ =>
    Touches.ite (fun _ => Touches.refl _ s) fun _ => Touches.ite (fun _ => ?_) fun _ => ?_
  · exact (touches_setCat s _ _ _).mono (by decide)
  · exact (touches_liveWrite s _ _).mono (by decide)

theorem touches_catLanding (a : CatAcc) : Touches [.regs, .host, .cat, .catc, .ec] s (s.catLanding a) := by
  unfold State.catLanding
  exact Touches.ite (fun _ => (touches_catEffect s a).mono (by decide))
    fun _ => ((touches_catEffect s a).then_ (touches_passTo _ _)).mono (by decide)

/-- A refused access leaves the banks (R60, R63). -/
theorem touches_catLanding_refused (a : CatAcc) (hc : s.catCode a ≠ cDone) : Touches [.regs, .host, .ec] s (s.catLanding a) := by
  have h : Touches [.regs, .host] s (s.catEffect a) := by
    unfold State.catEffect
    rw [if_pos (Or.inl hc)]
    exact Touches.ite (fun _ => touches_log s _ _ _ _ _) fun _ => Touches.refl _ s
  unfold State.catLanding
  exact Touches.ite (fun _ => h.mono (by decide)) fun _ => (h.then_ (touches_passTo _ _)).mono (by decide)

/-- An access that is done has its effect before its completion word lands. -/
theorem touches_catLanding_done (a : CatAcc) (hc : s.catCode a = cDone) : Touches [.ec, .regs] (s.catEffect a) (s.catLanding a) := by
  unfold State.catLanding
  rw [if_neg (by simp [hc])]
  exact touches_passTo _ _

theorem catEffect_read (a : CatAcc) (hc : s.catCode a = cDone) (hw : a.write = false) : s.catEffect a = s := by
  rw [State.catEffect, if_neg (by simp [hc]), if_pos (Or.inr hw)]

theorem catEffect_shadow (a : CatAcc) (hc : s.catCode a = cDone) (hw : a.write = true) (hs : a.shadow = true) :
    s.catEffect a = s.setCat (1 - s.liveBank) a.n a.image := by
  rw [State.catEffect, if_neg (by simp [hc]), if_neg (by simp [hc, hw]), if_pos hs, State.catBank, if_pos hs]

theorem pendAcc_catLanding (a : CatAcc) : (s.catLanding a).catc.pendAcc = s.catc.pendAcc := by
  have h : (s.catEffect a).catc.pendAcc = s.catc.pendAcc := by
    unfold State.catEffect
    split
    · rw [show (s.logLic 0xFF 0x03 a.n).catc = s.catc from (touches_log s _ _ _ _ _).catc]
    · split
      · rfl
      · split
        · exact pendAcc_setCat s _ _ _
        · exact pendAcc_liveWrite s _ _
  unfold State.catLanding
  split
  · exact h
  · rw [(touches_passTo _ _).catc, h]

/-- The state once the completion word has landed. -/
def State.catCompleted (s : State) (a : CatAcc) : State :=
  match (s.catLanding a).entry a.x a.entry with
  | some o =>
    if o.kind = .catWr ∨ o.kind = .catRd then
      (if s.catCode a = cDone ∧ a.write = false then
        (s.catLanding a).setBytes (opBase a.x + a.off) (natBytes 32 (s.catEnt (s.catBank a) a.n).toNat)
      else s.catLanding a).finish a.x o (compWord (s.catCode a) 0 0)
    else s.catLanding a
  | none => s.catLanding a

theorem catAccessCommit_next {i : Nat} {a : CatAcc} (ha : s.catc.pendAcc[i]? = some a) :
    exec (.catAccessCommit i) s = .next ((s.catTaken i a).catCompleted a) := by
  show execCatAccessCommit i s = _
  unfold execCatAccessCommit
  rw [guarded_next _ _ rfl, ha]
  rfl

/-- The entry of an access stands in the table until its completion word lands. -/
theorem entry_catLanding (a : CatAcc) (x : Ea) (n : Nat) : (s.catLanding a).entry x n = s.entry x n := by
  rw [State.entry, (touches_catLanding s a).ex, State.entry]

theorem catCompleted_some {a : CatAcc} {o : OutOp} (ho : s.entry a.x a.entry = some o) (hk : o.kind = .catWr ∨ o.kind = .catRd) :
    s.catCompleted a = (if s.catCode a = cDone ∧ a.write = false then
        (s.catLanding a).setBytes (opBase a.x + a.off) (natBytes 32 (s.catEnt (s.catBank a) a.n).toNat)
      else s.catLanding a).finish a.x o (compWord (s.catCode a) 0 0) := by
  rw [State.catCompleted, entry_catLanding, ho]
  exact if_pos hk

/-! ### What a read of a bank shows -/

/-- An entry as a bank shows it, with all ones in CARE on LVC48-S (R12), is shown so again. -/
theorem catShow_idem (v : BitVec 256) : s.catShow (s.catShow v) = s.catShow v := by
  unfold State.catShow
  split
  · have hlt := putBits_lt v.toNat 80 80 (2 ^ 80 - 1) 256 v.isLt (by decide)
    rw [BitVec.toNat_ofNat, Nat.mod_eq_of_lt hlt, putBits_split, putBits_split]
    congr 1
    omega
  · rfl

theorem fill_setCat (k n : Nat) (v : BitVec 256) (hf : s.catc.fill = none) : (s.setCat k n v).catc.fill = none := by
  unfold State.setCat
  simp [State.unfilled, hf]

/-- An entry read with no copy or clear under way. -/
theorem catEnt_filled (k n : Nat) (hf : s.catc.fill = none) : s.catEnt k n = s.catShow (SMap.get (fun _ => 0) s.cat (catIdx k n)) := by
  have hun : s.unfilled k n = none := by simp [State.unfilled, hf]
  rw [State.catEnt, hun]

/-- An entry in the store after it has been written, with no copy or clear under way. -/
theorem cat_setCat_same (k n : Nat) (v : BitVec 256) (hf : s.catc.fill = none) :
    SMap.get (fun _ => 0) (s.setCat k n v).cat (catIdx k n) = s.catShow (BitVec.ofNat 256 (bitsOf v.toNat 0 220)) := by
  have hun : s.unfilled k n = none := by simp [State.unfilled, hf]
  unfold State.setCat
  simp only [hun, SMap.get_set, if_true]

/-! ### What completes -/

theorem perSlice_passTo (t : Nat) : (s.passTo t).perSlice = s.perSlice := by
  rw [State.perSlice, s.fld_passTo t Reg.globalLic Reg.globalLic_TIER, State.perSlice]

theorem liveBank_passTo (t : Nat) : (s.passTo t).liveBank = s.liveBank := s.fld_passTo t Reg.catStatus Reg.catStatus_LIVEBANK

theorem perSlice_finish (x : Ea) (o : OutOp) (w : Word) : (s.finish x o w).perSlice = s.perSlice := by
  have h : (s.finish x o w).reg Reg.globalLic = s.reg Reg.globalLic :=
    s.reg_finish x o w (by unfold Reg.globalLic Reg.easelStatus; omega)
  rw [State.perSlice, State.fld, h, State.perSlice, State.fld]

/-- The state before the entry frees: a read that is done has its bytes in the operand store. -/
def State.catPlaced (s : State) (a : CatAcc) : State :=
  if s.catCode a = cDone ∧ a.write = false then
    (s.catLanding a).setBytes (opBase a.x + a.off) (natBytes 32 (s.catEnt (s.catBank a) a.n).toNat)
  else s.catLanding a

theorem touches_catPlaced (a : CatAcc) : Touches [.mem] (s.catLanding a) (s.catPlaced a) := by
  unfold State.catPlaced
  exact Touches.ite (fun _ => touches_setBytes _ _ _) fun _ => Touches.refl _ _

theorem catPlaced_not_read {a : CatAcc} (h : ¬ (s.catCode a = cDone ∧ a.write = false)) : s.catPlaced a = s.catLanding a := if_neg h

theorem length_natBytes (n x : Nat) : (natBytes n x).length = n := by
  induction n generalizing x with
  | zero => rfl
  | succ n ih => simp [natBytes, ih]

/-- A refused access leaves the banks and the bytes (R60, R63). -/
theorem catPlaced_refused {a : CatAcc} (hc : s.catCode a ≠ cDone) : Touches [.regs, .host, .ec] s (s.catPlaced a) := by
  rw [catPlaced_not_read s fun h => hc h.1]
  exact touches_catLanding_refused s a hc

/-- A write of the shadow bank that is done writes its entry there (R63). -/
theorem catPlaced_shadow {a : CatAcc} (hc : s.catCode a = cDone) (hw : a.write = true) (hs : a.shadow = true) :
    Touches [.ec, .regs] (s.setCat (1 - s.liveBank) a.n a.image) (s.catPlaced a) ∧ (s.catPlaced a).perSlice = s.perSlice := by
  have heffect := catEffect_shadow s a hc hw hs
  have hland := touches_catLanding_done s a hc
  rw [catPlaced_not_read s (by simp [hw]), ← heffect]
  refine ⟨hland, ?_⟩
  rw [State.catLanding, if_neg (by simp [hc]), perSlice_passTo, heffect]
  unfold State.setCat
  simp only
  split <;> rfl

/-- A read that is done places the entry (R69). -/
theorem catPlaced_read {a : CatAcc} (hc : s.catCode a = cDone) (hw : a.write = false) :
    (s.catPlaced a).cat = s.cat ∧
    (s.catPlaced a).bytes (opBase a.x + a.off) 32 = natBytes 32 (s.catEnt (s.catBank a) a.n).toNat ∧
    SameMemoryOutside s (s.catPlaced a) (opBase a.x + a.off) 32 := by
  have hland := touches_catLanding_done s a hc
  rw [catEffect_read s a hc hw] at hland
  have hlen := length_natBytes 32 (s.catEnt (s.catBank a) a.n).toNat
  rw [State.catPlaced, if_pos ⟨hc, hw⟩]
  refine ⟨(hland.then_ (touches_setBytes _ _ _)).cat, ?_, fun b hb => ?_⟩
  · have h := State.bytes_setBytes_same (s.catLanding a) (opBase a.x + a.off) (natBytes 32 (s.catEnt (s.catBank a) a.n).toNat)
    rwa [hlen] at h
  · rw [State.byte_setBytes_outside _ (by rwa [hlen]), State.byte, hland.mem, State.byte]

end

/-- The completion of an access whose entry stands in the table. -/
theorem catAccessCommit_completes {s : State} {i : Nat} {a : CatAcc} {o : OutOp} (ha : s.catc.pendAcc[i]? = some a)
    (ho : s.entry a.x a.entry = some o) (hk : o.kind = .catWr ∨ o.kind = .catRd) :
    exec (.catAccessCommit i) s =
      .next (((s.catTaken i a).catPlaced a).finish a.x o (compWord ((s.passTo a.due).catCode a) 0 0)) := by
  have ho' : (s.catTaken i a).entry a.x a.entry = some o := by
    rw [State.entry, (touches_catTaken s i a).ex]
    exact ho
  rw [catAccessCommit_next s ha, catCompleted_some _ ho' hk]
  rfl

/-- Settles O17: the two issues by one lemma, and the completion through the state in which the completion word lands. -/
theorem catalogueEntriesAreAccessedInTheirCycle : Obligations.CatalogueEntriesAreAccessedInTheirCycle := by
  refine ⟨fun x w s n hop hn => ⟨fun hr => ?_, fun hr => ?_⟩, fun i s a o ha ho hk hrd => ?_⟩
  · obtain ⟨t, a, ht, hpend, rfl, hdue, hreg, hmem, hcat⟩ := catAccess_schedules x w s (write := true) rfl rfl rfl hop hn hr
    exact ⟨t, _, ht, hpend, rfl, rfl, rfl, rfl, rfl, rfl, hdue, hreg, hmem, hcat⟩
  · obtain ⟨t, a, ht, hpend, rfl, hdue, hreg, hmem, hcat⟩ := catAccess_schedules x w s (write := false) rfl rfl rfl hop hn hr
    exact ⟨t, _, ht, hpend, rfl, rfl, rfl, rfl, rfl, rfl, hdue, hreg, hmem, hcat⟩
  · have htaken := touches_catTaken s i a
    have hlive : (s.catTaken i a).liveBank = s.liveBank := liveBank_passTo s _
    have hslice : (s.catTaken i a).perSlice = s.perSlice := perSlice_passTo s _
    have hbyte : ∀ b, (s.catTaken i a).byte b = s.byte b := fun b => by rw [State.byte, htaken.mem, State.byte]
    have hnum : o.num = a.entry := by simpa using List.find?_some ho
    have hfin := touches_finish ((s.catTaken i a).catPlaced a) a.x o (compWord ((s.passTo a.due).catCode a) 0 0)
    refine ⟨_, catAccessCommit_completes ha ho hk, State.gr_finish _ _ _ _ hrd, hnum ▸ State.entry_finish _ _ _ _, ?_,
      fun hc => ?_, fun hc hw hs hf => ?_, fun hc hw => ?_⟩
    · rw [hfin.catc, (touches_catPlaced _ a).catc, pendAcc_catLanding]
      simp [State.catTaken, (touches_passTo s a.due).catc]
    · have h := htaken.then_ ((catPlaced_refused (s.catTaken i a) hc).then_ hfin)
      exact ⟨h.cat, h.mem⟩
    · obtain ⟨hset, hps⟩ := catPlaced_shadow (s.catTaken i a) hc hw hs
      have hf' : (s.catTaken i a).catc.fill = none := (congrArg CatX.fill (touches_passTo s a.due).catc).trans hf
      rw [catEnt_filled _ _ _ (by rw [hfin.catc, hset.catc]; exact fill_setCat _ _ _ _ hf'), hfin.cat, hset.cat, hlive,
        cat_setCat_same _ _ _ _ hf']
      have hshow : ∀ v, State.catShow (((s.catTaken i a).catPlaced a).finish a.x o (compWord ((s.passTo a.due).catCode a) 0 0)) v =
          (s.catTaken i a).catShow v := fun v => by rw [State.catShow, perSlice_finish, hps, State.catShow]
      refine ⟨?_, (htaken.then_ ((touches_setCat _ _ _ _).then_ (hset.then_ hfin))).mem⟩
      rw [hshow, catShow_idem, State.catShow, hslice, BitVec.toNat_ofNat, Nat.mod_eq_of_lt]
      · exact (apply_ite _ _ _ _).symm
      · exact lt_of_lt_of_le (Nat.mod_lt _ (by decide)) (by decide)
    · obtain ⟨hcat, hread, hout⟩ := catPlaced_read (s.catTaken i a) hc hw
      refine ⟨hfin.cat.trans (hcat.trans htaken.cat), ?_, fun b hb => ?_⟩
      · rw [State.bytes, hfin.mem, ← State.bytes, hread, State.catBank, hlive]
        rfl
      · rw [State.byte, hfin.mem, ← State.byte, hout b hb, hbyte]

end Sys2Proof.Machine

namespace Sys2Proof.Machine

-- One theorem after another, as in the tests: side by side their stacks ask for more memory than the check allows.
set_option Elab.async false

/-! ## The state and the exception registers of an easel -/

section

variable (s : State) (x : Ea)

theorem State.reg_setEst_ne (n : Nat) {o : Nat} (ho : o ≠ Reg.easelStatus x.bay x.easel) : (s.setEst x n).reg o = s.reg o := by
  unfold State.setEst
  rw [State.reg_setFld_ne _ _ _ ho]
  split <;> rfl

theorem State.fld_setEst_ne (n : Nat) {o : Nat} (f : Fld) (ho : o ≠ Reg.easelStatus x.bay x.easel) : (s.setEst x n).fld o f = s.fld o f := by
  rw [State.fld, s.reg_setEst_ne x n ho, State.fld]

@[simp] theorem State.est_setEst (n : Nat) : (s.setEst x n).est x = n % 8 := State.fld_setFld_same _ _ _ _ (by decide)

theorem State.pc_setEst (n : Nat) : (s.setEst x n).pc x = s.pc x :=
  s.fld_setEst_ne x n Reg.easelPc_PC (by unfold Reg.easelPc Reg.easelStatus; omega)

theorem touches_setExc (code epc precise double info loc : Nat) : Touches [.regs] s (s.setExc x code epc precise double info loc) :=
  (touches_setReg s _ _).trans (touches_setReg _ _ _)

/-- The exception registers do not hold the program counter. -/
theorem State.pc_setExc (code epc precise double info loc : Nat) : (s.setExc x code epc precise double info loc).pc x = s.pc x := by
  unfold State.setExc State.pc
  rw [State.fld_setReg_ne _ _ _ (by unfold Reg.easelPc Reg.easelExcaddr; omega),
    State.fld_setReg_ne _ _ _ (by unfold Reg.easelPc Reg.easelExc; omega)]

/-- EASEL.EXC after an exception has been written to it. -/
theorem State.exc_setExc (code epc precise double info loc : Nat) (f : Fld) :
    (s.setExc x code epc precise double info loc).fld (Reg.easelExc x.bay x.easel) f =
      bf (BitVec.ofNat 64 (code % 256 + epc % 2 ^ 13 * 2 ^ 8 + precise % 2 * 2 ^ 21 + double % 2 * 2 ^ 22 + info % 2 ^ 32 * 2 ^ 32))
        f.lo f.w := by
  unfold State.setExc
  rw [State.fld_setReg_ne _ _ _ (by unfold Reg.easelExc Reg.easelExcaddr; omega), State.fld_setReg_same]

/-! ## A stop and a restart -/

theorem touches_stopNow : Touches [.easels, .regs, .bays] s (s.stopNow x) :=
  ((touches_updEx s x _).then_ ((touches_setExc _ x _ _ _ _ _ _).then_ ((touches_setEst _ x _).then_ (touches_setFld _ _ _ _)))).mono
    (by decide)

/-- A register of the easel other than EASEL.CTRL, after the stop. -/
theorem State.fld_stopNow (o : Nat) (f : Fld) (ho : o ≠ Reg.easelCtrl x.bay x.easel) :
    (s.stopNow x).fld o f = ((s.setExc x 0 (s.pc x) 1 0 0 0).setEst x stStopped).fld o f := by
  unfold State.stopNow
  rw [State.fld_setFld_ne _ _ _ _ ho, State.fld, State.fld]
  unfold State.setEst
  simp only [State.reg_setFld]
  rfl

theorem State.est_stopNow : (s.stopNow x).est x = stStopped := by
  rw [State.est, s.fld_stopNow x _ _ (by unfold Reg.easelStatus Reg.easelCtrl; omega), ← State.est, State.est_setEst]
  rfl

theorem State.pc_stopNow : (s.stopNow x).pc x = s.pc x := by
  rw [State.pc, s.fld_stopNow x _ _ (by unfold Reg.easelPc Reg.easelCtrl; omega), ← State.pc, State.pc_setEst, State.pc_setExc]

/-- A stop on request is precise and has code 0x00 (R101). -/
theorem State.exc_stopNow : (s.stopNow x).fld (Reg.easelExc x.bay x.easel) Reg.easelExc_CODE = 0 ∧
    (s.stopNow x).fld (Reg.easelExc x.bay x.easel) Reg.easelExc_PRECISE = 1 := by
  have h := fun f => (s.fld_stopNow x (Reg.easelExc x.bay x.easel) f (by unfold Reg.easelExc Reg.easelCtrl; omega)).trans
    ((State.fld_setEst_ne _ x stStopped f (by unfold Reg.easelExc Reg.easelStatus; omega)).trans (s.exc_setExc x 0 (s.pc x) 1 0 0 0 f))
  refine ⟨(h _).trans ?_, (h _).trans ?_⟩
  · simp only [Reg.easelExc_CODE, bf, bitsOf, BitVec.toNat_ofNat]
    omega
  · simp only [Reg.easelExc_PRECISE, bf, bitsOf, BitVec.toNat_ofNat]
    omega

theorem State.stop_stopNow : (s.stopNow x).fld (Reg.easelCtrl x.bay x.easel) Reg.easelCtrl_STOP = 0 :=
  State.fld_setFld_same _ _ _ _ (by decide)

theorem touches_restart : Touches [.easels, .regs, .bays] s (s.restart x) := by
  unfold State.restart
  exact Touches.ite (fun _ => ((touches_setEst s x _).then_ (touches_updEx _ x _)).mono (by decide))
    fun _ => ((touches_setEst s x _).then_ (touches_updEx _ x _)).mono (by decide)

theorem State.regs_restart : (s.restart x).regs = (s.setEst x stRunning).regs := by
  unfold State.restart
  simp only
  split <;> rfl

theorem State.est_restart : (s.restart x).est x = stRunning := by
  rw [State.est, State.fld, State.reg, State.regs_restart]
  exact s.est_setEst x stRunning

theorem State.pc_restart : (s.restart x).pc x = s.pc x := by
  rw [State.pc, State.fld, State.reg, State.regs_restart]
  exact s.pc_setEst x stRunning

/-- A restarted easel stands at no fence and no wait. -/
theorem State.ex_restart : ((s.restart x).ex x).fence = none ∧ ((s.restart x).ex x).wait = none := by
  unfold State.restart
  simp only
  split <;> simp

/-! ## An easel reset -/

/-- Where a row of the easels' block is found. -/
theorem index_easelRow {b e k m o : Nat} (hb : b < 16) (he : e < 12) (hm : m ≤ k) (hk : k < 0x10000)
    (ho : o = 0x100000 + k + b * 0x100000 + e * 0x10000) (rw ro w1c act st rs : Nat) :
    ((⟨0x100000 + m, 16, 0x100000, 12, 0x10000, rw, ro, w1c, act, st, rs⟩ : RegSpec).index o).isSome = decide (k = m) := by
  have hi : (o - (0x100000 + m)) / 0x100000 = b := by omega
  have hr : (o - (0x100000 + m)) % 0x100000 = k - m + e * 0x10000 := by omega
  have hj : (k - m + e * 0x10000) / 0x10000 = e := by omega
  have hz : (k - m + e * 0x10000) % 0x10000 = k - m := by omega
  rw [RegSpec.index, if_neg (show ¬ o < 0x100000 + m by omega)]
  simp only [hi, hr, hj, hz, hb, he, and_true, show ¬ (16 = 1) by decide, show ¬ (12 = 1) by decide, if_false]
  by_cases h : k = m
  · simp [h]
  · rw [if_neg (by omega)]
    simp [h]

/-- The row of EASEL.STATUS or EASEL.PC: what stands before it in the table lies elsewhere. -/
theorem regAt_easel {b e k o : Nat} (hb : b < 16) (he : e < 12) (hk : k = 8 ∨ k = 0x10)
    (ho : o = 0x100000 + k + b * 0x100000 + e * 0x10000) : ∃ r, regAt o = some r ∧ r.reset = 0 := by
  have hlow : ∀ r ∈ Reg.regTable.take 9, ¬ (r.index o).isSome = true := by
    intro r hr
    have hbase : ∀ r ∈ Reg.regTable.take 9, 0x2200000 ≤ r.base := by decide
    have := hbase r hr
    rw [RegSpec.index, if_pos (by omega)]
    decide
  have hrow : ∀ m, m ≤ k → ∀ rw ro w1c act st rs, ((⟨0x100000 + m, 16, 0x100000, 12, 0x10000, rw, ro, w1c, act, st, rs⟩ : RegSpec).index
      o).isSome = decide (k = m) := fun m hm => index_easelRow hb he hm (by omega) ho
  rw [regAt, ← List.take_append_drop 9 Reg.regTable, List.find?_append, List.find?_eq_none.2 hlow, Option.none_or]
  show ∃ r, List.find? _ (⟨0x100000 + 0, 16, 0x100000, 12, 0x10000, _, _, _, _, _, _⟩ ::
    ⟨0x100000 + 8, 16, 0x100000, 12, 0x10000, _, _, _, _, _, _⟩ :: ⟨0x100000 + 0x10, 16, 0x100000, 12, 0x10000, _, _, _, _, _, _⟩ ::
      Reg.regTable.drop 12) = some r ∧ r.reset = 0
  rcases hk with rfl | rfl
  · rw [List.find?_cons_of_neg (by rw [hrow 0 (by decide)]; decide), List.find?_cons_of_pos (by rw [hrow 8 (by decide)]; decide)]
    exact ⟨_, rfl, rfl⟩
  · rw [List.find?_cons_of_neg (by rw [hrow 0 (by decide)]; decide), List.find?_cons_of_neg (by rw [hrow 8 (by decide)]; decide),
      List.find?_cons_of_pos (by rw [hrow 0x10 (by decide)]; decide)]
    exact ⟨_, rfl, rfl⟩

/-- What EASEL.STATUS and EASEL.PC hold after reset comes from their source. -/
theorem regReset_easelRow {b e k o : Nat} (hb : b < 16) (he : e < 12) (hk : k = 8 ∨ k = 0x10)
    (ho : o = 0x100000 + k + b * 0x100000 + e * 0x10000) :
    regReset o = if k = 8 then BitVec.ofNat 64 ((k + e * 0x10000) / 0x10000 * 2 ^ 25) else 0 := by
  obtain ⟨r, hr, h0⟩ := regAt_easel hb he hk ho
  have hoff : (o - 0x100000) % 0x100000 = k + e * 0x10000 := by omega
  have hin : 0x100000 ≤ o ∧ o < 0x1100000 := by omega
  have hval : regReset o = resetSource o := by simp [regReset, hr, h0]
  rw [hval, resetSource, if_pos hin, hoff]
  rcases hk with rfl | rfl
  · rw [if_pos (by omega), if_pos rfl]
  · rw [if_neg (by omega), if_neg (by omega), if_neg (by omega), if_neg (by decide)]

/-- The values EASEL.STATUS.STATE and EASEL.PC have after reset (R108). -/
theorem regReset_easel (h : x.ok = true) : bf (regReset (Reg.easelStatus x.bay x.easel)) 0 3 = 0 ∧
    bf (regReset (Reg.easelPc x.bay x.easel)) 0 13 = 0 := by
  simp only [Ea.ok, Bool.and_eq_true, decide_eq_true_eq] at h
  obtain ⟨hb, he⟩ := h
  refine ⟨?_, ?_⟩
  · rw [regReset_easelRow hb he (Or.inl rfl) (by unfold Reg.easelStatus; omega), if_pos rfl, bf, bitsOf, BitVec.toNat_ofNat]
    omega
  · rw [regReset_easelRow hb he (Or.inr rfl) (by unfold Reg.easelPc; omega), if_neg (by decide)]
    rfl

/-- The register block of an easel after its reset (R519). -/
theorem State.resetEaselBlock_idle (h : x.ok = true) : (s.resetEaselBlock x).est x = stIdle ∧ (s.resetEaselBlock x).pc x = 0 := by
  obtain ⟨hst, hpc⟩ := regReset_easel x h
  have hcl : ∀ o f, Reg.easelCtrl x.bay x.easel ≤ o → o < Reg.easelCtrl x.bay x.easel + 0x10000 →
      State.fld { s with regs := SMap.clear s.regs (Reg.easelCtrl x.bay x.easel) (Reg.easelCtrl x.bay x.easel + 0x10000) } o f =
        bf (regReset o) f.lo f.w := fun o f hlo hhi => by
    rw [State.fld, State.reg, SMap.get_clear, if_pos ⟨hlo, hhi⟩]
  unfold State.resetEaselBlock
  refine ⟨?_, ?_⟩
  · rw [State.est, State.fld_setFld_apart _ _ _ _ _ (by decide) (by decide),
      hcl _ _ (by unfold Reg.easelCtrl Reg.easelStatus; omega) (by unfold Reg.easelCtrl Reg.easelStatus; omega)]
    exact hst
  · rw [State.pc, State.fld_setFld_ne _ _ _ _ (by unfold Reg.easelPc Reg.easelStatus; omega),
      hcl _ _ (by unfold Reg.easelCtrl Reg.easelPc; omega) (by unfold Reg.easelCtrl Reg.easelPc; omega)]
    exact hpc

theorem State.fld_dispStatus_ne (b : Nat) {o : Nat} (f : Fld) (ho : o ≠ Reg.bayDispStatus b) : (s.dispStatus b).fld o f = s.fld o f := by
  unfold State.dispStatus
  simp only
  rw [State.fld_setFld_ne _ _ _ _ ho, State.fld_setFld_ne _ _ _ _ ho]

/-- An easel after its reset: idle at program counter 0, with no program, from `due` on. -/
theorem State.resetEasel_idle (due : Nat) (h : x.ok = true) : (s.resetEasel x due).est x = stIdle ∧ (s.resetEasel x due).pc x = 0 ∧
    ((s.resetEasel x due).ex x).imgLen = 0 ∧ ((s.resetEasel x due).ex x).src = none ∧ ((s.resetEasel x due).ex x).outst = [] ∧
    ((s.resetEasel x due).ex x).resetDue = some due := by
  have hlt : x.easel < 12 := by simp [Ea.ok] at h; exact h.2
  unfold State.resetEasel
  simp only
  generalize (((s.cutRun x).drainStores x).cutLane x).orphan x = u
  obtain ⟨hst, hpc⟩ := u.resetEaselBlock_idle x h
  refine ⟨?_, ?_, ?_⟩
  · rw [State.est, State.fld_dispStatus_ne _ _ _ (by unfold Reg.easelStatus Reg.bayDispStatus; omega)]
    exact hst
  · rw [State.pc, State.fld_dispStatus_ne _ _ _ (by unfold Reg.easelPc Reg.bayDispStatus; omega)]
    exact hpc
  · have hex : ∀ u v : State, v.easels = u.easels → ((v.loseRegs x).dispStatus x.bay).ex x = u.ex x := fun u v huv => by
      rw [State.ex, State.ex, ← huv]
      rfl
    rw [hex _ _ rfl, State.ex_setEx_same]
    exact ⟨rfl, rfl, rfl, rfl⟩

end

/-! ## Reads by location -/

section

variable (s : State)

theorem touches_stackEvent (b : Nat) : Touches [.regs, .host] s (s.stackEvent b) := touches_log s _ _ _ _ _

theorem touches_wantRemap (b k : Nat) : Touches [.regs, .host] s (s.wantRemap b k) := by
  unfold State.wantRemap
  refine Touches.ite (fun _ => Touches.refl _ s) fun _ => Touches.ite (fun _ => Touches.refl _ s) fun _ => Touches.ite (fun _ => ?_) fun _ => ?_
  · exact ((touches_setFld s _ _ _).then_ (touches_stackEvent _ b)).mono (by decide)
  · exact (touches_setStk s b _).mono (by decide)

theorem touches_corrected (b addr : Nat) : Touches [.regs, .host] s (s.corrected b addr) := by
  have h := fun f => (((touches_bump s (Reg.bayStkEcc b) Reg.bayStkEcc_CORR).then_ (touches_setFld _ (Reg.bayStkEcc b) Reg.bayStkEcc_CORREV 1)).then_
    (touches_updStk _ b f)).mono (L := [.regs, .host]) (by decide)
  unfold State.corrected
  exact Touches.ite (fun _ => (h _).trans (touches_wantRemap _ b _)) fun _ => h _

theorem touches_uncorrectable (b addr src : Nat) (det : Bool) : Touches [.regs, .host] s (s.uncorrectable b addr src det) := by
  unfold State.uncorrectable
  refine Touches.trans (t := State.stackEvent (((s.bump (Reg.bayStkEcc b) Reg.bayStkEcc_UNCORR).setFld (Reg.bayStkEcc b)
    Reg.bayStkEcc_UNCEV 1).setReg (Reg.bayStkErrloc b) (BitVec.ofNat 64 (addr % 2 ^ 28 + src % 4 * 2 ^ 28))) b) ?_ ?_
  · exact ((touches_bump s _ _).then_ ((touches_setFld _ _ _ _).then_ ((touches_setReg _ _ _).then_ (touches_stackEvent _ b)))).mono (by decide)
  · refine Touches.ite (fun _ => Touches.ite (fun _ => Touches.refl _ _) fun _ => ?_) fun _ => touches_wantRemap _ b _
    exact ((touches_setStk _ b _).then_ ((touches_setFld _ _ _ _).then_ (touches_repairNote _ _))).mono (by decide)

theorem touches_check (g : Nat) (want : Seal) (src : Nat) : Touches [.regs, .host] s (s.check g want src).2 := by
  unfold State.check
  split
  · exact Touches.refl _ s
  · next b hstk =>
    have hdraw : Touches [.regs, .host] s (if (if (s.regionAt b (g % 2 ^ 55)).2 then 7 else 5) < s.errsAt g then s.draw else (0, s)).2 :=
      Touches.ite_snd (fun _ => (touches_draw s).mono (by decide)) fun _ => Touches.refl _ s
    dsimp only
    generalize (if (if (s.regionAt b (g % 2 ^ 55)).2 = true then 7 else 5) < s.errsAt g then s.draw else (0, s)) = d at hdraw ⊢
    refine Touches.ite_snd (fun _ => (touches_setFld s _ _ _).mono (by decide)) fun _ =>
      Touches.ite_snd (fun _ => hdraw.trans (touches_uncorrectable _ b _ src _)) fun _ => hdraw.trans (Touches.ite_snd (fun _ => ?_) fun _ => ?_)
    · exact Touches.ite (fun _ => Touches.refl _ _) fun _ => touches_corrected _ b _
    · refine Touches.trans (t := if s.errsAt g = 0 ∨ (s.regionAt b (g % 2 ^ 55)).2 ∨ 2 < s.errsAt g then d.2 else d.2.corrected b (g % 2 ^ 55))
        (Touches.ite (fun _ => Touches.refl _ _) fun _ => touches_corrected _ b _) ?_
      exact ((touches_bump _ _ _).then_ (touches_setFld _ _ _ _)).mono (by decide)

theorem touches_readSeg (l i lo n : Nat) : Touches [.regs, .host] s (s.readSeg l i lo n).2 := by
  unfold State.readSeg
  simp only
  split
  · split
    · exact (touches_drawBytes s n).mono (by decide)
    · exact Touches.refl _ s
  · exact touches_check s _ _ _

theorem touches_readLoc (l : Nat) (segs : List (Nat × Nat × Nat)) : Touches [.regs, .host] s (s.readLoc l segs).2 := by
  induction segs generalizing s with
  | nil => exact Touches.refl _ s
  | cons seg r ih =>
    obtain ⟨i, lo, n⟩ := seg
    exact (touches_readSeg s l i lo n).trans (ih _)

theorem touches_imageBytes (e : BitVec 128) : Touches [.regs, .host] s (s.imageBytes e).2 := by
  unfold State.imageBytes
  simp only
  split
  · exact touches_readLoc s _ _
  · exact Touches.refl _ s

end

/-! ## The clauses -/

section

variable {s : State}

/-- An entry committed with its staged word 1, where confidential mode lets it (R76, R77). -/
def State.commitProg (s : State) (b n w0 : Nat) (e : BitVec 128) : State :=
  if s.conf && !s.rot.digests.contains (Config.sha256 (s.imageBytes e).1) then
    (s.imageBytes e).2.setFld (Reg.bayDispErr b) Reg.bayDispErr_ATTEST 1
  else (s.setReg (Reg.bayProg0 b n) (BitVec.ofNat 64 w0)).updBay b fun y => { y with prog := SMap.set (fun _ => 0) y.prog n e }

theorem bayProgCommit_next {b n : Nat} (v : Word) (hb : b < 16) (hn : n < 64) {w0 : Nat} (hw : w0 = bf v 0 61 + bf v 63 1 * 2 ^ 63)
    {e : BitVec 128} (he : e = BitVec.ofNat 128 (w0 + (s.reg (Reg.bayProg1 b n)).toNat * 2 ^ 64)) :
    exec (.bayProgCommit b n v) s = .next (s.commitProg b n w0 e) := by
  show execBayProgCommit b n v s = _
  unfold execBayProgCommit State.commitProg
  rw [guarded_next _ _ (by simp [hb, hn])]
  refine congrArg Host.Outcome.next ?_
  extract_lets w0' e'
  have hw' : w0 = w0' := hw
  have he' : e = e' := by rw [he, hw']
  clear_value e' w0'
  subst hw' he'
  obtain ⟨bs, s1⟩ := s.imageBytes e
  rfl

/-- An entry after its commit. -/
theorem commitProg_commits (b n w0 : Nat) (e : BitVec 128)
    (h : s.conf = false ∨ s.rot.digests.contains (Config.sha256 (s.imageBytes e).1) = true) :
    (s.commitProg b n w0 e).prog b n = e ∧ (s.commitProg b n w0 e).reg (Reg.bayProg0 b n) = BitVec.ofNat 64 w0 ∧
      SameRegisters s (s.commitProg b n w0 e) ∧ (s.commitProg b n w0 e).mem = s.mem := by
  have hcond : (s.conf && !s.rot.digests.contains (Config.sha256 (s.imageBytes e).1)) = false := by
    rcases h with h | h
    · rw [h, Bool.false_and]
    · rw [h, Bool.not_true, Bool.and_false]
  rw [State.commitProg, if_neg (by rw [hcond]; decide)]
  exact ⟨by simp [State.prog], State.reg_setReg_same _ _ _, ⟨rfl, rfl, rfl, rfl⟩, rfl⟩

/-- A commit that confidential mode refuses (R77). -/
theorem commitProg_refuses (b n w0 : Nat) (e : BitVec 128) (hconf : s.conf = true)
    (h : s.rot.digests.contains (Config.sha256 (s.imageBytes e).1) = false) :
    (s.commitProg b n w0 e).prog b n = s.prog b n ∧ (s.commitProg b n w0 e).fld (Reg.bayDispErr b) Reg.bayDispErr_ATTEST = 1 := by
  have hread := (touches_imageBytes s e).then_ (touches_setFld (s.imageBytes e).2 (Reg.bayDispErr b) Reg.bayDispErr_ATTEST 1)
  rw [State.commitProg, if_pos (by rw [hconf, h]; rfl)]
  exact ⟨hread.prog b n, State.fld_setFld_same _ _ _ _ (by decide)⟩

/-- An easel outside the tier ignores its control register (R3). -/
theorem easelCtrl_ignored {x : Ea} (hx : x.ok = true) (hout : s.easelsPerBay ≤ x.easel) : exec (.easelCtrlStop x) s = .next s ∧
    exec (.easelCtrlResume x) s = .next s ∧ exec (.easelCtrlReset x) s = .next s := by
  have hin : s.inTier x = false := by simp [State.inTier, hout]
  refine ⟨?_, ?_, ?_⟩
  · show execEaselCtrlStop x s = _
    unfold execEaselCtrlStop
    simp [guarded_next, hx, hin]
  · show execEaselCtrlResume x s = _
    unfold execEaselCtrlResume
    simp [guarded_next, hx, hin]
  · show execEaselCtrlReset x s = _
    unfold execEaselCtrlReset
    simp [guarded_next, hx, hin]

end

/-! ## Timers -/

section

variable (s : State) (b d : Nat)

/-- The ground cycle at which a timer reaches its period. -/
def State.timerAt (s : State) (b d : Nat) : Nat :=
  SMap.get (fun _ => 0) (s.bay b).timerStart d + s.fld (Reg.bayTimer b d) Reg.bayTimer_PERIOD

/-- A timer that has reached its period restarts from there and counts its expiry. -/
def State.timerTurn (s : State) (b d t : Nat) : State :=
  s.updBay b fun y => { y with
    timerStart := SMap.set (fun _ => 0) y.timerStart d t
    timerCount := SMap.set (fun _ => 0) y.timerCount d ((SMap.get (fun _ => 0) (s.bay b).timerCount d + 1) % 2 ^ 32) }

/-- A timer that is not periodic ends with its period. -/
def State.timerEnd (s : State) (b d : Nat) : State :=
  if s.fld (Reg.bayTimer b d) Reg.bayTimer_PERIODIC = 1 then s else s.setFld (Reg.bayTimer b d) Reg.bayTimer_ENABLE 0

theorem bayTimerExpiry_next {s : State} {b d : Nat} (hb : b < 16) (hd : d < 8)
    (hen : s.fld (Reg.bayTimer b d) Reg.bayTimer_ENABLE = 1) (hp : s.fld (Reg.bayTimer b d) Reg.bayTimer_PERIOD ≠ 0) :
    ∃ r, exec (.bayTimerExpiry b d) s = .next
      (State.event (((s.passTo (96 * s.timerAt b d)).timerTurn b d (s.timerAt b d)).timerEnd b d) b (0x48 + d) r) := by
  refine ⟨BitVec.ofNat 64 (d + (SMap.get (fun _ => 0) ((s.passTo (96 * s.timerAt b d)).bay b).timerCount d + 1) % 2 ^ 32 * 2 ^ 32), ?_⟩
  show execBayTimerExpiry b d s = _
  unfold execBayTimerExpiry
  rw [guarded_next _ _ (by simp [hb, hd])]
  exact congrArg Host.Outcome.next (if_neg (by simp [hen, hp]))

theorem touches_timerTurn (t : Nat) : Touches [.bays, .timers] s (s.timerTurn b d t) := by
  intro p hp
  unfold State.timerTurn
  cases p with
  | prog =>
    intro b' n
    simp only [State.prog, State.bay_updBay]
    split
    · next h => rw [h]
    · rfl
  | _ => simp [Part.Same, SameRegisters] at hp ⊢

theorem touches_timerEnd : Touches [.regs] s (s.timerEnd b d) := by
  unfold State.timerEnd
  exact Touches.ite (fun _ => Touches.refl _ s) fun _ => touches_setFld s _ _ _

/-- ENABLE stays with PERIODIC alone. -/
theorem timerEnd_enable (hen : s.fld (Reg.bayTimer b d) Reg.bayTimer_ENABLE = 1) :
    (s.timerEnd b d).fld (Reg.bayTimer b d) Reg.bayTimer_ENABLE = s.fld (Reg.bayTimer b d) Reg.bayTimer_PERIODIC := by
  have hlt := s.fld_lt (Reg.bayTimer b d) Reg.bayTimer_PERIODIC
  unfold State.timerEnd
  split
  · next h => rw [hen, h]
  · next h =>
    rw [State.fld_setFld_same _ _ _ _ (by decide)]
    change _ < 2 ^ 1 at hlt
    show 0 % 2 ^ 1 = _
    omega

end

/-- Settles O24: one lemma for each operation, and its frame for what it leaves. -/
theorem programTableAndEaselControl : Obligations.ProgramTableAndEaselControl := by
  intro s
  refine ⟨fun b n v hb hn => ⟨?_, fun h => ⟨_, bayProgCommit_next v hb hn rfl rfl, commitProg_commits b n _ _ h⟩,
      fun hc h => ⟨_, bayProgCommit_next v hb hn rfl rfl, commitProg_refuses b n _ _ hc h⟩⟩,
    fun x hx hout => easelCtrl_ignored hx hout, fun x hx hin => ?_, ?_⟩
  · show execBayProgUpperWrite b n v s = _
    unfold execBayProgUpperWrite
    rw [guarded_next _ _ (by simp [hb, hn])]
  · have htier : s.inTier x = true := by simp [State.inTier, hin]
    refine ⟨fun hst hrun hfence => ⟨s.stopNow x, ?_, s.est_stopNow x, s.pc_stopNow x, (s.exc_stopNow x).1, (s.exc_stopNow x).2,
      s.stop_stopNow x, (touches_stopNow s x).file, (touches_stopNow s x).mem⟩, fun hst => ?_, fun hst => ⟨s.restart x, ?_,
      s.est_restart x, s.pc_restart x, (s.ex_restart x).1, (s.ex_restart x).2, (touches_restart s x).file, (touches_restart s x).mem⟩,
      fun hf hsw => ⟨s.resetEasel x (s.ec + 512), ?_, s.resetEasel_idle x _ hx⟩, fun hsrc hlim hst => ?_⟩
    · show execEaselCtrlStop x s = _
      unfold execEaselCtrlStop
      simp [guarded_next, hx, htier, hst, hrun, hfence]
    · show execEaselCtrlStop x s = _
      unfold execEaselCtrlStop
      simp [guarded_next, hx, htier, hst]
    · show execEaselCtrlResume x s = _
      unfold execEaselCtrlResume
      simp [guarded_next, hx, htier, hst]
    · show execEaselCtrlReset x s = _
      unfold execEaselCtrlReset
      simp [guarded_next, hx, htier, hf, hsw]
    · show execRunLimitExpiry x s = _
      unfold execRunLimitExpiry
      rw [guarded_next _ _ hx]
      simp [Option.isSome_iff_ne_none.1 hsrc, hlim, hst]
  · intro b d hb hd hen hp
    obtain ⟨r, hexec⟩ := bayTimerExpiry_next hb hd hen hp
    have hpass := touches_passTo s (96 * s.timerAt b d)
    have htimer : ∀ f, ((s.passTo (96 * s.timerAt b d)).timerTurn b d (s.timerAt b d)).fld (Reg.bayTimer b d) f =
        s.fld (Reg.bayTimer b d) f := fun f => s.fld_passTo _ _ f (by unfold Reg.bayTimer; omega)
    have hlast := (touches_timerEnd ((s.passTo (96 * s.timerAt b d)).timerTurn b d (s.timerAt b d)) b d).then_
      (touches_event _ b (0x48 + d) r)
    have hall := hpass.then_ ((touches_timerTurn _ b d _).then_ hlast)
    obtain ⟨hstart, hcount⟩ := hlast.timers b
    refine ⟨_, hexec, hall.file, hall.mem, ?_, ?_, ?_⟩
    · rw [hstart, State.timerTurn, State.bay_updBay_same, SMap.get_set, if_pos rfl]
      rfl
    · rw [hcount, State.timerTurn, State.bay_updBay_same, SMap.get_set, if_pos rfl, hpass.bay]
    · rw [State.fld_event _ _ _ _ _ (by unfold OffEvents Reg.bayTimer Reg.bayBind0 Reg.globalEverr Reg.pwrXovr; omega),
        timerEnd_enable _ _ _ ((htimer _).trans hen), htimer]

end Sys2Proof.Machine

namespace Sys2Proof.Machine

-- One theorem after another, as in the tests: side by side their stacks ask for more memory than the check allows.
set_option Elab.async false

/-! ## A port that leaves UP -/

section

variable (s : State) (p : Nat)

/-- A port that has left UP, before its messages move (R349, R379). -/
def State.portDropped (s : State) (p : Nat) : State :=
  (((((s.bump (Reg.portEvt p) Reg.portEvt_DOWNS).setFld (Reg.portEvt p) Reg.portEvt_DOWNEV 1).setFld (Reg.portNeg p)
    Reg.portNeg_MODELANES 0).setPortSt p 2).setReady Reg.globalReady_PORT p false).dueOn p

/-- The messages find new ports, and PWR.STATUS shows the ports (R379, R490). -/
def State.resettled (s : State) : State := (s.nodeConns.foldl (fun v c => v.reassign c) s).showNode

theorem leaveUp_up (h : s.portSt p = 5) : s.leaveUp p = (s.portDropped p).resettled := if_pos h

theorem leaveUp_not_up (h : s.portSt p ≠ 5) : s.leaveUp p = s := if_neg h

theorem touches_portDropped : Touches [.regs, .host, .fab, .conns, .ports] s (s.portDropped p) :=
  ((touches_bump s _ _).then_ ((touches_setFld _ _ _ _).then_ ((touches_setFld _ _ _ _).then_ ((touches_setPortSt _ p 2).then_
    ((touches_setReady _ _ _ _).then_ (touches_dueOn _ p)))))).mono (by decide)

theorem touches_resettled : Touches [.fab, .conns, .regs] s s.resettled :=
  ((touches_reassignAll s _).then_ (touches_showNode _)).mono (by decide)

theorem touches_leaveUp : Touches [.regs, .host, .fab, .conns, .ports] s (s.leaveUp p) := by
  by_cases h : s.portSt p = 5
  · rw [leaveUp_up s p h]
    exact ((touches_portDropped s p).then_ (touches_resettled _)).mono (by decide)
  · rw [leaveUp_not_up s p h]
    exact Touches.refl _ s

/-- A register of the port that neither the messages nor GLOBAL.READY touch. -/
theorem fld_portDropped {o : Nat} (f : Fld) (ho : 0x2000000 ≤ o) : (s.portDropped p).fld o f =
    ((((s.bump (Reg.portEvt p) Reg.portEvt_DOWNS).setFld (Reg.portEvt p) Reg.portEvt_DOWNEV 1).setFld (Reg.portNeg p)
      Reg.portNeg_MODELANES 0).setPortSt p 2).fld o f := by
  rw [State.portDropped, (touches_dueOn _ p).fld, State.fld_setReady _ _ _ _ _ (by unfold Reg.globalReady; omega)
    (by unfold Reg.globalEverr; omega)]

theorem portSt_portDropped : (s.portDropped p).portSt p = 2 := by
  rw [State.portSt, fld_portDropped s p _ (by unfold Reg.portStatus; omega)]
  exact State.portSt_setPortSt _ p 2

theorem modeLanes_portDropped : (s.portDropped p).fld (Reg.portNeg p) Reg.portNeg_MODELANES = 0 := by
  rw [fld_portDropped s p _ (by unfold Reg.portNeg; omega),
    State.fld_setPortSt_ne _ _ _ _ (by unfold Reg.portNeg Reg.portStatus; omega), State.fld_setFld_same _ _ _ _ (by decide)]
  rfl

theorem downEv_portDropped : (s.portDropped p).fld (Reg.portEvt p) Reg.portEvt_DOWNEV = 1 := by
  rw [fld_portDropped s p _ (by unfold Reg.portEvt; omega),
    State.fld_setPortSt_ne _ _ _ _ (by unfold Reg.portEvt Reg.portStatus; omega),
    State.fld_setFld_ne _ _ _ _ (by unfold Reg.portEvt Reg.portNeg; omega), State.fld_setFld_same _ _ _ _ (by decide)]
  rfl

theorem satInc_lt {w n : Nat} (hn : n < 2 ^ w) : satInc w n < 2 ^ w := by
  unfold satInc
  split <;> omega

theorem downs_portDropped : (s.portDropped p).fld (Reg.portEvt p) Reg.portEvt_DOWNS =
    satInc 32 (s.fld (Reg.portEvt p) Reg.portEvt_DOWNS) := by
  rw [fld_portDropped s p _ (by unfold Reg.portEvt; omega),
    State.fld_setPortSt_ne _ _ _ _ (by unfold Reg.portEvt Reg.portStatus; omega),
    State.fld_setFld_ne _ _ _ _ (by unfold Reg.portEvt Reg.portNeg; omega),
    State.fld_setFld_apart _ _ _ _ _ (by decide) (by decide), State.bump, State.fld_setFld_same _ _ _ _ (by decide),
    Nat.mod_eq_of_lt (satInc_lt (State.fld_lt _ _ _))]
  rfl

theorem ready_portDropped (hp : p < 8) : bitOf ((s.portDropped p).fld Reg.globalReady Reg.globalReady_PORT) p = false := by
  rw [State.portDropped, (touches_dueOn _ p).fld]
  exact State.ready_setReady _ _ _ hp (by decide)

/-- Whether its ferrule is seated is no part of a port's negotiation. -/
theorem unseated_leaveUp : ((s.leaveUp p).port p).unseated = (s.port p).unseated := by
  by_cases h : s.portSt p = 5
  · rw [leaveUp_up s p h, (touches_resettled _).port, State.portDropped, (touches_dueOn _ p).port, (touches_setReady _ _ _ _).port,
      State.port_setPortSt]
    rfl
  · rw [leaveUp_not_up s p h]

/-! ## The port commands -/

theorem onPort_out {f : State → State} (hp : p < 8) (hout : s.nPorts ≤ p) : onPort p s f = .next s := by
  rw [onPort, guarded_next _ _ (by simp [hp]), if_neg (by omega)]

theorem onPort_in {f : State → State} (hp : p < 8) (hin : p < s.nPorts) : onPort p s f = .next (f s) := by
  rw [onPort, guarded_next _ _ (by simp [hp]), if_pos hin]

theorem portEnable_next (on : Bool) (hp : p < 8) (hin : p < s.nPorts) : exec (.portEnable p on) s =
    .next (if on then (s.setFld (Reg.portCtrl p) Reg.portCtrl_ENABLE (b2n on)).portLight p
      else (s.setFld (Reg.portCtrl p) Reg.portCtrl_ENABLE (b2n on)).portOff p) := by
  show execPortEnable p on s = _
  exact onPort_in s p hp hin

theorem portReneg_next (hp : p < 8) (hin : p < s.nPorts) : exec (.portReneg p) s = .next (s.leaveUp p) := by
  show execPortReneg p s = _
  exact onPort_in s p hp hin

theorem portDown_next (hp : p < 8) (hin : p < s.nPorts) : exec (.portDown p) s = .next (s.leaveUp p) := by
  show execPortDown p s = _
  exact onPort_in s p hp hin

theorem portSignalDetect_next (hp : p < 8) (hin : p < s.nPorts) : exec (.portSignalDetect p) s =
    .next (if s.portSt p = 1 ∧ !(s.port p).unseated then s.setPortSt p 2 else s) := by
  show execPortSignalDetect p s = _
  exact onPort_in s p hp hin

theorem portExchangeTimeout_next (hp : p < 8) (hin : p < s.nPorts) : exec (.portExchangeTimeout p) s =
    .next (if s.portSt p = 3 then (s.passTo (96 * ((s.port p).since + 250))).setPortSt p 2 else s) := by
  show execPortExchangeTimeout p s = _
  exact onPort_in s p hp hin

/-- A port outside the tier ignores its commands (R3). -/
theorem port_ignored (hp : p < 8) (hout : s.nPorts ≤ p) (on : Bool) : exec (.portEnable p on) s = .next s ∧
    exec (.portReneg p) s = .next s ∧ exec (.portSignalDetect p) s = .next s ∧ exec (.portDown p) s = .next s := by
  refine ⟨?_, ?_, ?_, ?_⟩
  · show execPortEnable p on s = _
    exact onPort_out s p hp hout
  · show execPortReneg p s = _
    exact onPort_out s p hp hout
  · show execPortSignalDetect p s = _
    exact onPort_out s p hp hout
  · show execPortDown p s = _
    exact onPort_out s p hp hout

theorem le_gc_passTo_then {L : List Part} {t : State} {g : Nat} (h : Touches L (s.passTo (96 * g)) t) (hL : Part.ec ∉ L := by decide) :
    g ≤ t.gc := by
  rw [h.gc hL]
  exact s.le_gc_passTo g

/-! ### PORT_ENABLE -/

/-- An enabled port that is OFF lights its lanes. -/
theorem portLight_lights (hst : s.portSt p = 0) (hlic : s.fld Reg.globalReady Reg.globalReady_LIC = 1) (hin : p < s.nPorts) :
    (s.setFld (Reg.portCtrl p) Reg.portCtrl_ENABLE 1).portLight p = (s.setFld (Reg.portCtrl p) Reg.portCtrl_ENABLE 1).setPortSt p 1 := by
  refine if_pos ⟨?_, State.fld_setFld_same _ _ _ _ (by decide), ?_, ?_⟩
  · rw [State.portSt, State.fld_setFld_ne _ _ _ _ (by unfold Reg.portStatus Reg.portCtrl; omega)]
    exact hst
  · rw [State.fld_setFld_ne _ _ _ _ (by unfold Reg.globalReady Reg.portCtrl; omega)]
    exact hlic
  · rw [State.nPorts, State.fld_setFld_ne _ _ _ _ (by unfold Reg.globalLic Reg.portCtrl; omega)]
    exact hin

theorem touches_portOff : Touches [.regs, .host, .fab, .conns, .ports] s (s.portOff p) :=
  ((touches_leaveUp s p).then_ ((touches_setPortSt _ p 0).then_ ((touches_setFld _ _ _ _).then_ (touches_updPort _ p _)))).mono (by decide)

theorem portSt_portOff : (s.portOff p).portSt p = 0 := by
  rw [State.portOff, State.portSt, State.fld_updPort, State.fld_setFld_ne _ _ _ _ (by unfold Reg.portEvt Reg.portStatus; omega)]
  exact State.portSt_setPortSt _ p 0

theorem nfecDrop_portOff : (s.portOff p).fld (Reg.portEvt p) Reg.portEvt_NFECDROP = 0 := by
  rw [State.portOff, State.fld_updPort, State.fld_setFld_same _ _ _ _ (by decide)]
  rfl

/-! ### PORT_TRAIN_DONE -/

/-- A port whose lanes are locked sends its page (R347, R349). -/
def State.portOffers (s : State) (p page : Nat) : State :=
  ((s.updPort p fun y => { y with offer := page }).setPortSt p 3).emit (.page p (BitVec.ofNat 64 page))

theorem touches_portOffers (page : Nat) : Touches [.regs, .fab, .ports, .out] s (s.portOffers p page) :=
  ((touches_updPort s p _).then_ ((touches_setPortSt _ p 3).then_ (touches_emit _ _))).mono (by decide)

theorem portOffers_offers (page : Nat) : (s.portOffers p page).portSt p = 3 ∧
    ((s.portOffers p page).port p).locked = (s.port p).locked ∧ ((s.portOffers p page).port p).offer = page ∧
    (s.portOffers p page).out = s.out ++ [Out.page p (BitVec.ofNat 64 page)] := by
  have hport : (s.portOffers p page).port p = ((s.updPort p fun y => { y with offer := page }).setPortSt p 3).port p :=
    (touches_emit _ _).port p
  refine ⟨State.portSt_setPortSt _ p 3, ?_, ?_, rfl⟩
  · rw [hport, State.port_setPortSt, State.port_updPort_same]
  · rw [hport, State.port_setPortSt, State.port_updPort_same]

theorem portTrainDone_next {m : Nat} (hp : p < 8) (hin : p < s.nPorts) (hm : m < 256) (hst : s.portSt p = 2) :
    exec (.portTrainDone p m) s = .next (if m &&& s.lanesOk p = 0 then (s.passTo (96 * ((s.port p).since + 12500))).setPortSt p 1
      else
        ((s.passTo (96 * ((s.port p).since + 250))).updPort p fun y => { y with locked := m &&& s.lanesOk p }).portOffers p
          (((s.passTo (96 * ((s.port p).since + 250))).updPort p fun y => { y with locked := m &&& s.lanesOk p }).capPage p)) := by
  show execPortTrainDone p m s = _
  unfold execPortTrainDone
  rw [guarded_next _ _ (by simp [hp, hm])]
  exact congrArg Host.Outcome.next (if_neg (by rintro (h | h); exacts [h hst, by omega]))

/-! ### CAPABILITY_PAGE_RECEIVED -/

/-- PORT.STATUS shows the partner's page (R347). -/
def State.pageShown (s : State) (p v good : Nat) : State :=
  (((s.setFld (Reg.portStatus p) Reg.portStatus_PEERSW (bitsOf v 11 1)).setFld (Reg.portStatus p) Reg.portStatus_PEER (bitsOf v 12 12)).setFld
    (Reg.portStatus p) Reg.portStatus_PEERPORT (bitsOf v 24 3)).setFld (Reg.portStatus p) Reg.portStatus_GOOD good

theorem touches_pageShown (v good : Nat) : Touches [.regs] s (s.pageShown p v good) :=
  (touches_setFld s _ _ _).trans ((touches_setFld _ _ _ _).trans ((touches_setFld _ _ _ _).trans (touches_setFld _ _ _ _)))

theorem pageShown_shows (v good : Nat) : (s.pageShown p v good).fld (Reg.portStatus p) Reg.portStatus_PEER = bitsOf v 12 12 ∧
    (s.pageShown p v good).fld (Reg.portStatus p) Reg.portStatus_PEERPORT = bitsOf v 24 3 ∧
    (s.pageShown p v good).fld (Reg.portStatus p) Reg.portStatus_GOOD = good % 2 ^ 8 ∧ (s.pageShown p v good).portSt p = s.portSt p := by
  unfold State.pageShown State.portSt
  refine ⟨?_, ?_, State.fld_setFld_same _ _ _ _ (by decide), ?_⟩
  · rw [State.fld_setFld_apart _ _ _ _ _ (by decide) (by decide), State.fld_setFld_apart _ _ _ _ _ (by decide) (by decide),
      State.fld_setFld_same _ _ _ _ (by decide)]
    exact Nat.mod_eq_of_lt (Nat.mod_lt _ (by decide))
  · rw [State.fld_setFld_apart _ _ _ _ _ (by decide) (by decide), State.fld_setFld_same _ _ _ _ (by decide)]
    exact Nat.mod_eq_of_lt (Nat.mod_lt _ (by decide))
  · rw [State.fld_setFld_apart _ _ _ _ _ (by decide) (by decide), State.fld_setFld_apart _ _ _ _ _ (by decide) (by decide),
      State.fld_setFld_apart _ _ _ _ _ (by decide) (by decide), State.fld_setFld_apart _ _ _ _ _ (by decide) (by decide)]

/-- The mode a port has chosen, as it enters SETTLE (R348, R349). -/
def State.portSettles (s : State) (p : Nat) (c : Nat × Nat × Nat × Nat × Nat) : State :=
  (s.updPort p fun y => { y with chosen := some c }).setPortSt p 4

theorem touches_portSettles (c : Nat × Nat × Nat × Nat × Nat) : Touches [.regs, .fab, .ports] s (s.portSettles p c) :=
  ((touches_updPort s p _).then_ (touches_setPortSt _ p 4)).mono (by decide)

/-- A field of PORT.STATUS other than STATE is as it was in a new state. -/
theorem fld_portSettles (c : Nat × Nat × Nat × Nat × Nat) (f : Fld) (hf : 3 ≤ f.lo) :
    (s.portSettles p c).fld (Reg.portStatus p) f = s.fld (Reg.portStatus p) f :=
  State.fld_setFld_apart _ _ _ _ _ (by decide) (Or.inl hf)

theorem portSettles_chosen (c : Nat × Nat × Nat × Nat × Nat) : (s.portSettles p c).portSt p = 4 ∧
    ((s.portSettles p c).port p).chosen = some c := by
  refine ⟨State.portSt_setPortSt _ p 4, ?_⟩
  rw [State.portSettles, State.port_setPortSt]
  simp

/-- The lanes good on both sides, by the own offer and the partner's page. -/
def State.pageGood (s : State) (p v : Nat) : Nat := bitsOf (s.port p).offer 28 8 &&& bitsOf v 28 8

/-- The framings both offer. -/
def State.pageFramings (s : State) (p v : Nat) : Nat := bitsOf (s.port p).offer 9 2 &&& bitsOf v 9 2

/-- The mode both allow (R348). -/
def State.pageMode (s : State) (p v : Nat) : Option (Nat × Nat) :=
  bestMode (bitsOf (s.port p).offer 0 4 &&& bitsOf v 0 4) (bitsOf (s.port p).offer 4 3 &&& bitsOf v 4 3) (s.pageGood p v)

/-- Whether native FEC is chosen: the native framing, and native FEC on both sides. -/
def State.pageNative (s : State) (p v : Nat) : Bool :=
  bitOf (s.pageFramings p v) 0 && bitOf (bitsOf (s.port p).offer 7 2 &&& bitsOf v 7 2) 0

section

variable {s : State} {p : Nat} (hp : p < 8) (hin : p < s.nPorts) (hst : s.portSt p = 3)
include hp hin hst

/-- With no common framing, or no common mode, the port stays in EXCHANGE. -/
theorem capabilityPageReceived_stays {page : Word} (h : s.pageFramings p page.toNat = 0 ∨ s.pageMode p page.toNat = none) :
    exec (.capabilityPageReceived p page) s = .next (s.pageShown p page.toNat (s.pageGood p page.toNat)) := by
  show execCapabilityPageReceived p page s = _
  unfold execCapabilityPageReceived
  rw [onPort_in s p hp hin, if_neg (by simpa using hst)]
  refine congrArg Host.Outcome.next ?_
  by_cases hf : s.pageFramings p page.toNat = 0
  · exact if_pos hf
  · refine (if_neg hf).trans ?_
    have hm := h.resolve_left hf
    unfold State.pageMode State.pageGood at hm
    rw [hm]
    rfl

theorem capabilityPageReceived_settles {page : Word} {n r : Nat} (hf : s.pageFramings p page.toNat ≠ 0)
    (hm : s.pageMode p page.toNat = some (n, r)) :
    exec (.capabilityPageReceived p page) s = .next ((s.pageShown p page.toNat (s.pageGood p page.toNat)).portSettles p
      (n, r, if s.pageNative p page.toNat then 0 else 1, if bitOf (s.pageFramings p page.toNat) 0 then 0 else 1,
        lowLanes (s.pageGood p page.toNat) (2 ^ n))) := by
  show execCapabilityPageReceived p page s = _
  unfold execCapabilityPageReceived
  rw [onPort_in s p hp hin, if_neg (by simpa using hst)]
  refine congrArg Host.Outcome.next ((if_neg hf).trans ?_)
  have hm' := hm
  unfold State.pageMode State.pageGood at hm'
  rw [hm']
  have hnat : (decide ((if bitOf (s.pageFramings p page.toNat) 0 then 0 else 1) = 0) && bitOf (bitsOf (s.port p).offer 7 2 &&& bitsOf page.toNat 7 2) 0) =
      s.pageNative p page.toNat := by
    rw [State.pageNative]
    cases bitOf (s.pageFramings p page.toNat) 0 <;> rfl
  rw [← hnat]
  rfl

end

/-! ### PORT_SETTLE_CHECK -/

/-- A port that is UP in the mode chosen, before its messages move (R349, R513). -/
def State.portUp (s : State) (p n r fec fr : Nat) : State :=
  (((((s.setFld (Reg.portNeg p) Reg.portNeg_MODELANES (2 ^ n)).setFld (Reg.portNeg p) Reg.portNeg_MODERATE r).setFld (Reg.portNeg p)
    Reg.portNeg_MODEFEC fec).setFld (Reg.portNeg p) Reg.portNeg_MODEFRAMING fr).setPortSt p 5).setReady Reg.globalReady_PORT p true

theorem touches_portUp (n r fec fr : Nat) : Touches [.regs, .host, .fab, .ports] s (s.portUp p n r fec fr) :=
  ((touches_setFld s _ _ _).then_ ((touches_setFld _ _ _ _).then_ ((touches_setFld _ _ _ _).then_ ((touches_setFld _ _ _ _).then_
    ((touches_setPortSt _ p 5).then_ (touches_setReady _ _ _ _)))))).mono (by decide)

theorem portUp_up (n r fec fr : Nat) (hp : p < 8) : (s.portUp p n r fec fr).portSt p = 5 ∧
    (s.portUp p n r fec fr).fld (Reg.portNeg p) Reg.portNeg_MODELANES = 2 ^ n % 16 ∧
    (s.portUp p n r fec fr).fld (Reg.portNeg p) Reg.portNeg_MODERATE = r % 4 ∧
    (s.portUp p n r fec fr).fld (Reg.portNeg p) Reg.portNeg_MODEFEC = fec % 2 ∧
    (s.portUp p n r fec fr).fld (Reg.portNeg p) Reg.portNeg_MODEFRAMING = fr % 2 ∧
    bitOf ((s.portUp p n r fec fr).fld Reg.globalReady Reg.globalReady_PORT) p = true := by
  have hneg : ∀ (u : State) f, ((u.setPortSt p 5).setReady Reg.globalReady_PORT p true).fld (Reg.portNeg p) f = u.fld (Reg.portNeg p) f :=
    fun u f => by
      rw [State.fld_setReady _ _ _ _ _ (by unfold Reg.portNeg Reg.globalReady; omega) (by unfold Reg.portNeg Reg.globalEverr; omega),
        State.fld_setPortSt_ne _ _ _ _ (by unfold Reg.portNeg Reg.portStatus; omega)]
  refine ⟨?_, ?_, ?_, ?_, ?_, State.ready_setReady _ _ _ hp (by decide)⟩
  · rw [State.portUp, State.portSt, State.fld_setReady _ _ _ _ _ (by unfold Reg.portStatus Reg.globalReady; omega)
      (by unfold Reg.portStatus Reg.globalEverr; omega)]
    exact State.portSt_setPortSt _ p 5
  · rw [State.portUp, hneg, State.fld_setFld_apart _ _ _ _ _ (by decide) (by decide),
      State.fld_setFld_apart _ _ _ _ _ (by decide) (by decide), State.fld_setFld_apart _ _ _ _ _ (by decide) (by decide)]
    exact State.fld_setFld_same _ _ _ _ (by decide)
  · rw [State.portUp, hneg, State.fld_setFld_apart _ _ _ _ _ (by decide) (by decide),
      State.fld_setFld_apart _ _ _ _ _ (by decide) (by decide)]
    exact State.fld_setFld_same _ _ _ _ (by decide)
  · rw [State.portUp, hneg, State.fld_setFld_apart _ _ _ _ _ (by decide) (by decide)]
    exact State.fld_setFld_same _ _ _ _ (by decide)
  · rw [State.portUp, hneg]
    exact State.fld_setFld_same _ _ _ _ (by decide)

theorem touches_settleFails (mask used : Nat) : Touches [.regs, .fab, .ports] s (s.settleFails p mask used) :=
  ((touches_setFld s _ _ _).then_ ((touches_updPort _ p _).then_ (touches_setPortSt _ p 2))).mono (by decide)

/-- A settle check that fails: the port trains again without the lanes that failed. -/
theorem settleFails_trains (mask used : Nat) : (s.settleFails p mask used).portSt p = 2 ∧
    ((s.settleFails p mask used).port p).dropped = (s.port p).dropped ||| (mask &&& used) := by
  refine ⟨State.portSt_setPortSt _ p 2, ?_⟩
  rw [State.settleFails, State.port_setPortSt, State.port_updPort_same]
  rfl

end

/-! ## The settle check and the whole -/

section

variable {s : State} {p : Nat} (hp : p < 8) (hin : p < s.nPorts)
include hp hin

theorem portSettleCheck_next (hst : s.portSt p = 4) {n r fec fr used : Nat} (hc : (s.port p).chosen = some (n, r, fec, fr, used)) :
    (∀ worst, exec (.portSettleCheck p (.checked worst)) s = .next
      (if fec = 0 ∧ s.fld (Reg.portNeg p) Reg.portNeg_NFECMAX < worst then
        (s.setFld (Reg.portEvt p) Reg.portEvt_NFECDROP 1).setPortSt p 2
      else ((s.passTo (96 * ((s.port p).since + 1000))).portUp p n r fec fr).resettled)) ∧
    (∀ m, exec (.portSettleCheck p (.uncorrectable m)) s = .next (s.settleFails p m used)) ∧
    (∀ m, exec (.portSettleCheck p (.noLock m)) s = .next ((s.passTo (96 * ((s.port p).since + 25000))).settleFails p m used)) := by
  refine ⟨fun worst => ?_, fun m => ?_, fun m => ?_⟩
  · show execPortSettleCheck p _ s = _
    unfold execPortSettleCheck
    rw [onPort_in s p hp hin, if_neg (by simpa using hst), hc]
    rfl
  · show execPortSettleCheck p _ s = _
    unfold execPortSettleCheck
    rw [onPort_in s p hp hin, if_neg (by simpa using hst), hc]
  · show execPortSettleCheck p _ s = _
    unfold execPortSettleCheck
    rw [onPort_in s p hp hin, if_neg (by simpa using hst), hc]

/-- The states an UP port takes on its way down (R349, R379). -/
theorem upPort_leaves (hst : s.portSt p = 5) : ∃ u, u.portSt p = 2 ∧ u.fld (Reg.portNeg p) Reg.portNeg_MODELANES = 0 ∧
    u.fld (Reg.portEvt p) Reg.portEvt_DOWNS = satInc 32 (s.fld (Reg.portEvt p) Reg.portEvt_DOWNS) ∧
    u.fld (Reg.portEvt p) Reg.portEvt_DOWNEV = 1 ∧ bitOf (u.fld Reg.globalReady Reg.globalReady_PORT) p = false ∧
    SameRegisters s u ∧ u.mem = s.mem ∧
    exec (.portReneg p) s = .next ((u.nodeConns.foldl (fun v c => v.reassign c) u).showNode) ∧
    exec (.portDown p) s = exec (.portReneg p) s := by
  have htouch := touches_portDropped s p
  have hreneg : exec (.portReneg p) s = .next (s.leaveUp p) := portReneg_next s p hp hin
  refine ⟨s.portDropped p, portSt_portDropped s p, modeLanes_portDropped s p, downs_portDropped s p, downEv_portDropped s p,
    ready_portDropped s p hp, htouch.file, htouch.mem, ?_, (portDown_next s p hp hin).trans hreneg.symm⟩
  rw [hreneg, leaveUp_up s p hst]
  rfl

end

/-- A page received in EXCHANGE (R347 to R349). -/
theorem page_received {s : State} {p : Nat} (hp : p < 8) (hin : p < s.nPorts) (hst : s.portSt p = 3) (page : Word) :
    ∃ t, exec (.capabilityPageReceived p page) s = .next t ∧ SameRegisters s t ∧ t.mem = s.mem ∧
      t.fld (Reg.portStatus p) Reg.portStatus_PEER = bitsOf page.toNat 12 12 ∧
      t.fld (Reg.portStatus p) Reg.portStatus_PEERPORT = bitsOf page.toNat 24 3 ∧
      t.fld (Reg.portStatus p) Reg.portStatus_GOOD = s.pageGood p page.toNat % 2 ^ 8 ∧
      t.portSt p = (if s.pageFramings p page.toNat = 0 ∨ s.pageMode p page.toNat = none then 3 else 4) ∧
      (∀ n r, s.pageFramings p page.toNat ≠ 0 → s.pageMode p page.toNat = some (n, r) →
        (t.port p).chosen = some (n, r, if s.pageNative p page.toNat then 0 else 1,
          if bitOf (s.pageFramings p page.toNat) 0 then 0 else 1, lowLanes (s.pageGood p page.toNat) (2 ^ n))) := by
  obtain ⟨hpeer, hpport, hgood, hst'⟩ := pageShown_shows s p page.toNat (s.pageGood p page.toNat)
  have htouch := touches_pageShown s p page.toNat (s.pageGood p page.toNat)
  by_cases h : s.pageFramings p page.toNat = 0 ∨ s.pageMode p page.toNat = none
  · refine ⟨_, capabilityPageReceived_stays hp hin hst h, htouch.file, htouch.mem, hpeer, hpport, hgood, ?_, fun n r hf hm => ?_⟩
    · rw [if_pos h, hst', hst]
    · rw [hm] at h
      exact absurd h (by simp [hf])
  · rw [not_or] at h
    obtain ⟨⟨n, r⟩, hm⟩ := Option.ne_none_iff_exists'.1 h.2
    have htouch' := fun c => htouch.then_ (touches_portSettles _ p c)
    refine ⟨_, capabilityPageReceived_settles hp hin hst h.1 hm, (htouch' _).file, (htouch' _).mem, ?_, ?_, ?_, ?_, fun n' r' _ hm' => ?_⟩
    · rw [fld_portSettles _ _ _ _ (by decide), hpeer]
    · rw [fld_portSettles _ _ _ _ (by decide), hpport]
    · rw [fld_portSettles _ _ _ _ (by decide), hgood]
    · rw [(portSettles_chosen _ p _).1, if_neg (by simp [h.1, hm])]
    · obtain ⟨rfl, rfl⟩ := Prod.mk.inj (Option.some.inj (hm.symm.trans hm'))
      exact (portSettles_chosen _ p _).2

/-- Training that ends (R347, R349). -/
theorem training_done {s : State} {p m : Nat} (hp : p < 8) (hin : p < s.nPorts) (hm : m < 256) (hst : s.portSt p = 2) :
    ∃ t, exec (.portTrainDone p m) s = .next t ∧ SameRegisters s t ∧ t.mem = s.mem ∧
      (s.port p).since + (if m &&& s.lanesOk p = 0 then 12500 else 250) ≤ t.gc ∧
      t.portSt p = (if m &&& s.lanesOk p = 0 then 1 else 3) ∧
      (m &&& s.lanesOk p ≠ 0 → (t.port p).locked = m &&& s.lanesOk p ∧
        let u := (s.passTo (96 * ((s.port p).since + 250))).updPort p fun y => { y with locked := m &&& s.lanesOk p }
        (t.port p).offer = u.capPage p ∧ t.out = s.out ++ [Out.page p (BitVec.ofNat 64 (u.capPage p))]) := by
  refine ⟨_, portTrainDone_next s p hp hin hm hst, ?_⟩
  by_cases hl : m &&& s.lanesOk p = 0
  · rw [if_pos hl, if_pos hl, if_pos hl]
    have htouch := (touches_passTo s (96 * ((s.port p).since + 12500))).then_ (touches_setPortSt _ p 1)
    exact ⟨htouch.file, htouch.mem, le_gc_passTo_then s (touches_setPortSt _ p 1), State.portSt_setPortSt _ p 1, fun h => absurd hl h⟩
  · rw [if_neg hl, if_neg hl, if_neg hl]
    generalize hu : (s.passTo (96 * ((s.port p).since + 250))).updPort p (fun y => { y with locked := m &&& s.lanesOk p }) = u
    have hlock : (u.port p).locked = m &&& s.lanesOk p := by rw [← hu, State.port_updPort_same]
    have hupd : Touches [.fab, .ports] (s.passTo (96 * ((s.port p).since + 250))) u := hu ▸ touches_updPort _ p _
    have hpass := (touches_passTo s (96 * ((s.port p).since + 250))).then_ hupd
    have hoff := touches_portOffers u p (u.capPage p)
    obtain ⟨hst', hlocked, hoffer, hout⟩ := portOffers_offers u p (u.capPage p)
    refine ⟨(hpass.then_ hoff).file, (hpass.then_ hoff).mem, le_gc_passTo_then s (hupd.then_ hoff), hst', fun _ => ⟨?_, hoffer, ?_⟩⟩
    · rw [hlocked, hlock]
    · rw [hout, hpass.out]

/-- Outside its state a command does nothing. -/
theorem port_stands {s : State} {p : Nat} (hp : p < 8) (hin : p < s.nPorts) :
    (s.portSt p ≠ 5 → exec (.portReneg p) s = .next s ∧ exec (.portDown p) s = .next s) ∧
    (s.portSt p ≠ 1 ∨ (s.port p).unseated = true → exec (.portSignalDetect p) s = .next s) ∧
    (∀ m, m < 256 → s.portSt p ≠ 2 → exec (.portTrainDone p m) s = .next s) ∧
    (∀ page, s.portSt p ≠ 3 → exec (.capabilityPageReceived p page) s = .next s) ∧
    (s.portSt p ≠ 3 → exec (.portExchangeTimeout p) s = .next s) ∧
    (∀ r, s.portSt p ≠ 4 → exec (.portSettleCheck p r) s = .next s) := by
  refine ⟨fun h => ⟨?_, ?_⟩, fun h => ?_, fun m hm h => ?_, fun page h => ?_, fun h => ?_, fun r h => ?_⟩
  · rw [portReneg_next s p hp hin, leaveUp_not_up s p h]
  · rw [portDown_next s p hp hin, leaveUp_not_up s p h]
  · rw [portSignalDetect_next s p hp hin, if_neg]
    rintro ⟨h1, hun⟩
    rcases h with h | h
    · exact h h1
    · simp [h] at hun
  · show execPortTrainDone p m s = _
    unfold execPortTrainDone
    rw [guarded_next _ _ (by simp [hp, hm]), if_pos (Or.inl h)]
  · show execCapabilityPageReceived p page s = _
    unfold execCapabilityPageReceived
    rw [onPort_in s p hp hin, if_pos h]
  · rw [portExchangeTimeout_next s p hp hin, if_neg h]
  · show execPortSettleCheck p r s = _
    unfold execPortSettleCheck
    rw [onPort_in s p hp hin, if_pos h]

/-- The end of a settle check (R349, R399). -/
theorem settle_checked {s : State} {p : Nat} (hp : p < 8) (hin : p < s.nPorts) {n r fec fr used : Nat} (hst : s.portSt p = 4)
    (hc : (s.port p).chosen = some (n, r, fec, fr, used)) :
    (∀ worst, ¬(fec = 0 ∧ s.fld (Reg.portNeg p) Reg.portNeg_NFECMAX < worst) → ∃ u, (s.port p).since + 1000 ≤ u.gc ∧ u.portSt p = 5 ∧
      u.fld (Reg.portNeg p) Reg.portNeg_MODELANES = 2 ^ n % 16 ∧ u.fld (Reg.portNeg p) Reg.portNeg_MODERATE = r % 4 ∧
      u.fld (Reg.portNeg p) Reg.portNeg_MODEFEC = fec % 2 ∧ u.fld (Reg.portNeg p) Reg.portNeg_MODEFRAMING = fr % 2 ∧
      bitOf (u.fld Reg.globalReady Reg.globalReady_PORT) p = true ∧ SameRegisters s u ∧ u.mem = s.mem ∧
      exec (.portSettleCheck p (.checked worst)) s = .next ((u.nodeConns.foldl (fun v c => v.reassign c) u).showNode)) ∧
    (∀ worst, fec = 0 → s.fld (Reg.portNeg p) Reg.portNeg_NFECMAX < worst →
      ∃ t, exec (.portSettleCheck p (.checked worst)) s = .next t ∧ t.portSt p = 2 ∧
      t.fld (Reg.portEvt p) Reg.portEvt_NFECDROP = 1 ∧ SameRegisters s t ∧ t.mem = s.mem) ∧
    (∀ m, ∃ t v, exec (.portSettleCheck p (.uncorrectable m)) s = .next t ∧ exec (.portSettleCheck p (.noLock m)) s = .next v ∧
      (s.port p).since + 25000 ≤ v.gc ∧ t.portSt p = 2 ∧ v.portSt p = 2 ∧
      (t.port p).dropped = (s.port p).dropped ||| (m &&& used) ∧ (v.port p).dropped = (t.port p).dropped ∧
      SameRegisters s t ∧ t.mem = s.mem ∧ SameRegisters s v ∧ v.mem = s.mem) := by
  obtain ⟨hchecked, hunc, hlock⟩ := portSettleCheck_next hp hin hst hc
  refine ⟨fun worst hw => ?_, fun worst hf hw => ?_, fun m => ?_⟩
  · have hup := touches_portUp (s.passTo (96 * ((s.port p).since + 1000))) p n r fec fr
    have htouch := (touches_passTo s _).then_ hup
    obtain ⟨h5, hlanes, hrate, hfec, hfr, hready⟩ := portUp_up (s.passTo (96 * ((s.port p).since + 1000))) p n r fec fr hp
    refine ⟨_, le_gc_passTo_then s hup, h5, hlanes, hrate, hfec, hfr, hready, htouch.file, htouch.mem, ?_⟩
    rw [hchecked, if_neg hw]
    rfl
  · have htouch := (touches_setFld s (Reg.portEvt p) Reg.portEvt_NFECDROP 1).then_ (touches_setPortSt _ p 2)
    refine ⟨_, (hchecked worst).trans (congrArg Host.Outcome.next (if_pos ⟨hf, hw⟩)), State.portSt_setPortSt _ p 2, ?_, htouch.file, htouch.mem⟩
    rw [State.fld_setPortSt_ne _ _ _ _ (by unfold Reg.portEvt Reg.portStatus; omega), State.fld_setFld_same _ _ _ _ (by decide)]
    rfl
  · have htouch := touches_settleFails s p m used
    have hfails := touches_settleFails (s.passTo (96 * ((s.port p).since + 25000))) p m used
    have hlater := (touches_passTo s (96 * ((s.port p).since + 25000))).then_ hfails
    refine ⟨_, _, hunc m, hlock m, le_gc_passTo_then s hfails, (settleFails_trains s p m used).1, (settleFails_trains _ p m used).1,
      (settleFails_trains s p m used).2, ?_, htouch.file, htouch.mem, hlater.file, hlater.mem⟩
    rw [(settleFails_trains _ p m used).2, (settleFails_trains s p m used).2, (touches_passTo s _).port]

/-- A ferrule seated or removed (R566). -/
theorem ferrule_changed {s : State} {p : Nat} (hp : p < 8) :
    (∃ t, exec (.ferruleChange p true) s = .next t ∧ t.portSt p = s.portSt p ∧ (t.port p).unseated = false ∧ SameRegisters s t ∧
      t.mem = s.mem) ∧
    (s.portSt p = 0 → ∃ t, exec (.ferruleChange p false) s = .next t ∧ t.portSt p = 0 ∧ (t.port p).unseated = true ∧
      (t.port p).lit = (0, 0) ∧ SameRegisters s t ∧ t.mem = s.mem) ∧
    (s.portSt p ≠ 0 → ∃ t, exec (.ferruleChange p false) s = .next t ∧ t.portSt p = 1 ∧ (t.port p).unseated = true ∧
      SameRegisters s t ∧ t.mem = s.mem) := by
  have hnext : ∀ seated, exec (.ferruleChange p seated) s = .next
      (if !seated && s.portSt p != 0 then ((s.updPort p fun y => { y with unseated := !seated }).leaveUp p).setPortSt p 1
        else (s.updPort p fun y => { y with unseated := !seated }).updPort p fun y =>
          { y with lit := (s.updPort p fun y => { y with unseated := !seated }).lasers p (s.portSt p) }) := fun seated => by
    show execFerruleChange p seated s = _
    unfold execFerruleChange
    rw [guarded_next _ _ (by simp [hp])]
  refine ⟨⟨_, hnext true, rfl, ?_, ⟨rfl, rfl, rfl, rfl⟩, rfl⟩, fun hst => ⟨_, (hnext false).trans (congrArg Host.Outcome.next
    (if_neg (by simp [hst]))), hst, ?_, ?_, ⟨rfl, rfl, rfl, rfl⟩, rfl⟩, fun hst => ?_⟩
  · rw [if_neg (by simp), State.port_updPort_same, State.port_updPort_same]
    rfl
  · rw [State.port_updPort_same, State.port_updPort_same]
    rfl
  · rw [State.port_updPort_same, hst]
    rfl
  · have hleave := (touches_updPort s p fun y => { y with unseated := !false }).then_ ((touches_leaveUp _ p).then_ (touches_setPortSt _ p 1))
    refine ⟨_, (hnext false).trans (congrArg Host.Outcome.next (if_pos (by simpa using hst))), State.portSt_setPortSt _ p 1, ?_,
      hleave.file, hleave.mem⟩
    rw [State.port_setPortSt]
    show (State.port _ p).unseated = true
    rw [unseated_leaveUp, State.port_updPort_same]
    rfl

/-- Settles O37: one lemma for each command, through the state of the port before its messages move. -/
theorem portsNegotiateComeUpAndGoDown : Obligations.PortsNegotiateComeUpAndGoDown := by
  intro p s hp st neg
  refine ⟨port_ignored s p hp, fun hin => ?_, ferrule_changed hp⟩
  obtain ⟨hdown, hdetect, htrain, hpage, htime, hsettle⟩ := port_stands hp hin
  refine ⟨fun hst hlic => ?_, ?_, hdown, fun hst => upPort_leaves hp hin hst, fun hst hun => ?_, hdetect,
      htrain, fun m hm hst => training_done hp hin hm hst, fun page => ⟨hpage page, fun hst => page_received hp hin hst page⟩,
      htime, fun hst => ?_, fun hst r => hsettle r hst, fun n r fec fr used hst hc => settle_checked hp hin hst hc⟩
  · have htouch := (touches_setFld s (Reg.portCtrl p) Reg.portCtrl_ENABLE 1).then_ (touches_setPortSt _ p 1)
    refine ⟨_, (portEnable_next s p true hp hin).trans (congrArg Host.Outcome.next (portLight_lights s p hst hlic hin)),
      State.portSt_setPortSt _ p 1, ?_, htouch.file, htouch.mem⟩
    rw [State.fld_setPortSt_ne _ _ _ _ (by unfold Reg.portCtrl Reg.portStatus; omega), State.fld_setFld_same _ _ _ _ (by decide)]
    rfl
  · have htouch := (touches_setFld s (Reg.portCtrl p) Reg.portCtrl_ENABLE 0).then_ (touches_portOff _ p)
    exact ⟨_, portEnable_next s p false hp hin, portSt_portOff _ p, nfecDrop_portOff _ p, htouch.file, htouch.mem⟩
  · have htouch := touches_setPortSt s p 2
    exact ⟨_, (portSignalDetect_next s p hp hin).trans (congrArg Host.Outcome.next (if_pos ⟨hst, by simp [hun]⟩)),
      State.portSt_setPortSt s p 2, htouch.file, htouch.mem⟩
  · have htouch := touches_setPortSt (s.passTo (96 * ((s.port p).since + 250))) p 2
    have hall := (touches_passTo s _).then_ htouch
    exact ⟨_, (portExchangeTimeout_next s p hp hin).trans (congrArg Host.Outcome.next (if_pos hst)), State.portSt_setPortSt _ p 2,
      le_gc_passTo_then s htouch, hall.file, hall.mem⟩

end Sys2Proof.Machine

/-! # The fabric transport -/

namespace Sys2Proof.Machine

-- One theorem after another, as in the tests: side by side their stacks ask for more memory than the check allows.
set_option Elab.async false

section

variable (s : State)

/-! ## Frames of the shared operations -/

theorem touches_fabShow : Touches [.regs] s s.fabShow :=
  (touches_setFld s _ _ _).trans ((touches_setFld _ _ _ _).trans (touches_setFld _ _ _ _))

theorem touches_fabEvent (c : Nat) : Touches [.regs, .host] s (s.fabEvent c) := touches_log s _ _ _ _ _

theorem touches_putFrame (p : Nat) (f : Frame) (first : Nat) : Touches [.fab, .ports, .out] s (s.putFrame p f first) := by
  unfold State.putFrame
  exact Touches.ite (fun _ => (touches_updPort s p _).mono (by decide)) fun _ => (touches_emit s _).mono (by decide)

theorem touches_hdrOut (p : Nat) (f : Frame) : Touches [.fab, .ports, .out] s (s.hdrOut p f) := touches_putFrame s _ _ _

theorem touches_sendHdr (c port type w1 w2 w3 : Nat) : Touches [.fab, .ports, .out] s (s.sendHdr c port type w1 w2 w3) := by
  unfold State.sendHdr
  extract_lets k
  split
  · exact Touches.ite (fun _ => touches_hdrOut s _ _) fun _ => Touches.refl _ s
  · exact Touches.refl _ s

theorem touches_sendComplete (c port first code count detail : Nat) :
    Touches [.fab, .ports, .out] s (s.sendComplete c port first code count detail) := touches_sendHdr s _ _ _ _ _ _

theorem touches_sendCtl (dest kind w2 : Nat) (chg : List Nat) : Touches [.fab, .ports, .out] s (s.sendCtl dest kind w2 chg) := by
  unfold State.sendCtl
  split
  · exact Touches.ite (fun _ => touches_hdrOut s _ _) fun _ => Touches.refl _ s
  · exact Touches.refl _ s

theorem touches_finishAt (x : Ea) (entry seq w : Nat) : Touches [.file, .easels, .regs, .bays] s (s.finishAt x entry seq w) := by
  unfold State.finishAt
  split
  · exact touches_finish s x _ _
  · exact Touches.refl _ s

theorem touches_undefine (spans : List (Nat × Nat)) : Touches [.mem] s (s.undefine spans) :=
  Touches.foldl (fun u p => (touches_drawBytes u p.2).mono (by decide) |>.trans (touches_setBytes _ _ _)) _ _

theorem touches_enqueueOwn (i svc q bytes : Nat) (o : Out) : Touches [.fab, .regs] s (s.enqueueOwn i svc q bytes o) := touches_enqueue s _ _ _

theorem touches_policed (p : Nat) (f : Frame) (at_ : Nat) : Touches [.fab] s (s.policed p f at_) := touches_setFab s _

/-! ## Connections -/

theorem State.conn_setConn (c d : Nat) (k : ConnX) : (s.setConn c k).conn d = if d = c then k else s.conn d := by
  simp [State.conn, State.setConn, SMap.get_set]

@[simp] theorem State.conn_setConn_same (c : Nat) (k : ConnX) : (s.setConn c k).conn c = k := by simp [State.conn_setConn]

@[simp] theorem State.conn_updConn_same (c : Nat) (f : ConnX → ConnX) : (s.updConn c f).conn c = f (s.conn c) :=
  State.conn_setConn_same _ _ _

/-! ## Registrations -/

@[simp] theorem State.regn_setRegn_same (i : Nat) (r : RegnX) : (s.setRegn i r).regn i = r := by
  simp [State.regn, State.setRegn]

end

end Sys2Proof.Machine

namespace Sys2Proof.Machine

-- One theorem after another, as in the tests: side by side their stacks ask for more memory than the check allows.
set_option Elab.async false

/-! ## A connection that is closed or resynchronised -/

section

variable (s : State) (c : Nat)

/-- What follows once a connection's messages and packets are given up leaves the connections. -/
theorem touches_abortTx_rest :
    Touches [.fab, .file, .easels, .regs, .bays] (s.updConn c fun k => { k with msgs := [], pkts := [] }) (s.abortTx c) := by
  unfold State.abortTx
  extract_lets ms s1
  refine Touches.trans (Touches.foldl (fun u m => ?_) _ _) ((touches_fabShow _).mono (by decide))
  extract_lets u1
  have hu1 : Touches [.fab, .file, .easels, .regs, .bays] u u1 := by
    dsimp only [u1]
    split
    · exact Touches.ite (fun _ => (touches_dequeueMsg u _ _ _).mono (by decide)) fun _ => Touches.refl _ u
    · exact Touches.refl _ u
  exact Touches.ite (fun _ => hu1) fun _ => hu1.trans ((touches_finishAt u1 _ _ _ _).mono (by decide))

/-- All a connection sends is given up: it holds no message and no packet, and else stands (R364). -/
theorem conn_abortTx : (s.abortTx c).conn c = { s.conn c with msgs := [], pkts := [] } := by
  rw [(touches_abortTx_rest s c).conn, State.conn_updConn_same]

theorem touches_abortTx : Touches [.fab, .conns, .file, .easels, .regs, .bays] s (s.abortTx c) :=
  ((touches_updConn s c _).then_ (touches_abortTx_rest s c)).mono (by decide)

/-- What follows once an open message has left its connection leaves the connections (R370). -/
theorem touches_cutMsg_rest (m : RxMsg) (code : Nat) (tell : Bool) :
    Touches [.mem, .file, .easels, .regs, .bays, .fab, .ports, .out] (s.updConn c fun k =>
      { k with rx := k.rx.filter (·.first != m.first)
               done := k.done ++ [{ first := m.first, code, count := 0, detail := 0, left := m.n - m.seen.length }] })
      (s.cutMsg c m code tell) := by
  unfold State.cutMsg
  extract_lets s1 s2
  have hs2 : Touches [.mem, .file, .easels, .regs, .bays, .fab, .ports, .out] s1 s2 := by
    dsimp only [s2]
    split
    · exact (touches_finishAt s1 _ _ _ _).mono (by decide)
    · exact Touches.refl _ s1
  refine ((touches_undefine _ _).mono (by decide)).trans (hs2.trans (Touches.trans ?_ ((touches_fabShow _).mono (by decide))))
  exact Touches.ite (fun _ => (touches_sendComplete s2 _ _ _ _ _ _).mono (by decide)) fun _ => Touches.refl _ s2

theorem conn_cutMsg (m : RxMsg) (code : Nat) (tell : Bool) : (s.cutMsg c m code tell).conn c = { s.conn c with
    rx := (s.conn c).rx.filter (·.first != m.first)
    done := (s.conn c).done ++ [{ first := m.first, code, count := 0, detail := 0, left := m.n - m.seen.length }] } := by
  rw [(touches_cutMsg_rest s c m code tell).conn, State.conn_updConn_same]

theorem touches_cutMsg (m : RxMsg) (code : Nat) (tell : Bool) :
    Touches [.mem, .file, .easels, .regs, .bays, .fab, .ports, .out, .conns] s (s.cutMsg c m code tell) :=
  ((touches_updConn s c _).then_ (touches_cutMsg_rest s c m code tell)).mono (by decide)

/-- A connection stands but for what it receives. -/
def ConnX.SameSent (k k' : ConnX) : Prop :=
  k'.peer = k.peer ∧ k'.peerconn = k.peerconn ∧ k'.ports = k.ports ∧ k'.txpsn = k.txpsn ∧ k'.state = k.state ∧ k'.msgs = k.msgs ∧
    k'.pkts = k.pkts

/-- Open messages cut leave their connection, one after another. -/
theorem conn_cutMsgs (code : Nat) (l : List RxMsg) (s : State) :
    ((l.foldl (fun u m => u.cutMsg c m code false) s).conn c).rx = (s.conn c).rx.filter (fun r => l.all fun m => r.first != m.first) ∧
    (s.conn c).SameSent ((l.foldl (fun u m => u.cutMsg c m code false) s).conn c) := by
  induction l generalizing s with
  | nil => simp [ConnX.SameSent]
  | cons m l ih =>
    obtain ⟨hrx, hsent⟩ := ih (s.cutMsg c m code false)
    rw [conn_cutMsg] at hrx hsent
    refine ⟨?_, hsent⟩
    rw [List.foldl_cons, hrx, List.filter_filter]
    refine List.filter_congr fun r _ => ?_
    rw [List.all_cons, Bool.and_comm]

/-- All a connection receives is given up (R365). -/
theorem conn_abortRx : ((s.abortRx c).conn c).rx = [] ∧ (s.conn c).SameSent ((s.abortRx c).conn c) := by
  obtain ⟨hrx, hsent⟩ := conn_cutMsgs c cUnavailable (s.conn c).rx s
  unfold State.abortRx
  rw [State.conn_updConn_same]
  refine ⟨?_, hsent⟩
  show ((List.foldl _ s _).conn c).rx = []
  rw [hrx, List.filter_eq_nil_iff]
  intro r hr hall
  simpa using List.all_eq_true.1 hall r hr

/-! ## A connection entry written -/

/-- The entry as CONNDATA gives it (R378). -/
def State.connLoaded (s : State) (c : Nat) : State :=
  (s.setFld Reg.fabConnop Reg.fabConnop_CONN c).updConn c fun k =>
    { k with peer := s.fld Reg.fabConndata0 Reg.fabConndata0_PEER, peerconn := s.fld Reg.fabConndata0 Reg.fabConndata0_PEERCONN
             ports := s.fld Reg.fabConndata0 Reg.fabConndata0_PORTS }

theorem touches_connLoaded : Touches [.regs, .fab, .conns] s (s.connLoaded c) :=
  (touches_setFld s _ _ _).then_ (touches_updConn _ c _)

theorem conn_connLoaded : (s.connLoaded c).conn c =
    { s.conn c with peer := s.fld Reg.fabConndata0 Reg.fabConndata0_PEER, peerconn := s.fld Reg.fabConndata0 Reg.fabConndata0_PEERCONN,
                    ports := s.fld Reg.fabConndata0 Reg.fabConndata0_PORTS } := State.conn_updConn_same _ _ _

/-- A connection entry written with a state (R365): 0 closes it, 3 starts its resynchronisation. -/
def State.connWritten (s : State) (c st : Nat) : State :=
  if st = 0 then ((s.abortTx c).abortRx c).updConn c fun k => { k with state := 0 }
  else if st = 3 then (s.abortTx c).updConn c fun k => { k with state := 3 }
  else s

theorem connWritten_writes (st : Nat) : let t := s.connWritten c st
    (t.conn c).peer = (s.conn c).peer ∧ (t.conn c).peerconn = (s.conn c).peerconn ∧ (t.conn c).ports = (s.conn c).ports ∧
    (t.conn c).txpsn = (s.conn c).txpsn ∧ (t.conn c).state = (if st = 0 ∨ st = 3 then st else (s.conn c).state) ∧
    (st = 0 ∨ st = 3 → (t.conn c).msgs = [] ∧ (t.conn c).pkts = []) ∧ (st = 0 → (t.conn c).rx = []) ∧ (st ≠ 0 → t.mem = s.mem) := by
  intro t
  have htx := conn_abortTx s c
  by_cases h0 : st = 0
  · obtain ⟨hrx, hpeer, hpc, hports, htxpsn, -, hmsgs, hpkts⟩ := conn_abortRx (s.abortTx c) c
    rw [htx] at hpeer hpc hports htxpsn hmsgs hpkts
    have ht : t.conn c = { ((s.abortTx c).abortRx c).conn c with state := 0 } := by
      rw [show t = _ from if_pos h0, State.conn_updConn_same]
    rw [ht, if_pos (Or.inl h0)]
    exact ⟨hpeer, hpc, hports, htxpsn, h0.symm, fun _ => ⟨hmsgs, hpkts⟩, fun _ => hrx, fun h => absurd h0 h⟩
  · by_cases h3 : st = 3
    · have ht : t = (s.abortTx c).updConn c fun k => { k with state := 3 } := (if_neg h0).trans (if_pos h3)
      have hmem := ((touches_abortTx s c).then_ (touches_updConn _ c fun k => { k with state := 3 })).mem
      rw [ht, State.conn_updConn_same, htx, if_pos (Or.inr h3)]
      exact ⟨rfl, rfl, rfl, rfl, h3.symm, fun _ => ⟨rfl, rfl⟩, fun h => absurd h h0, fun _ => hmem⟩
    · rw [show t = s from (if_neg h0).trans (if_neg h3), if_neg (by tauto)]
      exact ⟨rfl, rfl, rfl, rfl, rfl, fun h => absurd h (by tauto), fun h => absurd h h0, fun _ => rfl⟩

/-- The lowest port of CONNDATA's mask that lies outside the tier (R3). -/
def State.connOutside (s : State) : Option Nat :=
  lowestIdx 8 fun p => bitOf (s.fld Reg.fabConndata0 Reg.fabConndata0_PORTS) p && decide (s.nPorts ≤ p)

/-- What FAB_CONNOP_WRITE comes to: refused for a port outside the tier or for its peer, or the entry written. -/
theorem fabConnopWrite_next (hc : c < 4096) :
    (∀ p, s.connOutside = some p → exec (.fabConnopWrite c) s = .next ((s.setFld Reg.fabConnop Reg.fabConnop_CONN c).logLic 0xFF 0x02 p)) ∧
    (s.connOutside = none → 0x3FF < s.fld Reg.fabConndata0 Reg.fabConndata0_PEER →
      exec (.fabConnopWrite c) s = .next (s.setFld Reg.fabConnop Reg.fabConnop_CONN c)) ∧
    (s.connOutside = none → s.fld Reg.fabConndata0 Reg.fabConndata0_PEER ≤ 0x3FF →
      exec (.fabConnopWrite c) s = .next ((s.connLoaded c).connWritten c (s.fld Reg.fabConndata0 Reg.fabConndata0_STATE))) := by
  have hexec : exec (.fabConnopWrite c) s = execFabConnopWrite c s := rfl
  unfold execFabConnopWrite at hexec
  rw [guarded_next _ _ (by simpa using hc)] at hexec
  refine ⟨fun p hp => ?_, fun hp hpeer => ?_, fun hp hpeer => ?_⟩ <;> unfold State.connOutside at hp <;> rw [hexec]
  · simp only [hp]
  · simp only [hp, if_pos hpeer]
  · simp only [hp, if_neg (not_lt.2 hpeer)]
    rfl

/-- The entries read back (R378). -/
theorem fabConnopRead_reads (hc : c < 4096) : ∃ t, exec (.fabConnopRead c) s = .next t ∧ t.fab = s.fab ∧ SameRegisters s t ∧ t.mem = s.mem ∧
    t.reg Reg.fabConndata0 = BitVec.ofNat 64 ((s.conn c).state + (s.conn c).peer * 2 ^ 3 + (s.conn c).peerconn * 2 ^ 15 + (s.conn c).ports * 2 ^ 27) ∧
    t.reg Reg.fabConndata1 = BitVec.ofNat 64 ((s.conn c).txpsn + (s.conn c).rxcum * 2 ^ 16 + (s.conn c).retx * 2 ^ 32) := by
  refine ⟨_, (show execFabConnopRead c s = _ from guarded_next _ _ (by simpa using hc)), rfl, ⟨rfl, rfl, rfl, rfl⟩, rfl, ?_, ?_⟩
  · rw [State.reg_setReg_ne _ _ (by decide), State.reg_setReg_same]
  · rw [State.reg_setReg_same]

end

/-! ## Registrations -/

section

variable {s : State} {i : Nat} (hi : i < 65536)

theorem regn_freeRegn (s : State) (i : Nat) : ((s.freeRegn i).regn i).state = 0 := by
  rw [State.freeRegn, (touches_setFld _ _ _ _).regn, State.regn_setRegn_same]

theorem revdone_freeRegn (s : State) (i : Nat) : (s.freeRegn i).fld Reg.fabRegop Reg.fabRegop_REVDONE = 1 :=
  State.fld_setFld_same _ _ _ _ (by decide)

theorem touches_freeRegn (s : State) (i : Nat) : Touches [.fab, .regns, .regs] s (s.freeRegn i) :=
  (touches_setRegn s i _).then_ (touches_setFld _ _ _ _)

include hi

/-- A free registration is loaded; one in use sets REGREF (R368). -/
theorem fabRegopWrite_loads :
    ((s.regn i).state ≠ 0 → ∃ t, exec (.fabRegopWrite i) s = .next t ∧ t.fab = s.fab ∧ t.fld Reg.fabRegop Reg.fabRegop_REGREF = 1 ∧
      SameRegisters s t ∧ t.mem = s.mem) ∧
    ((s.regn i).state = 0 → ∃ t, exec (.fabRegopWrite i) s = .next t ∧ SameRegisters s t ∧ t.mem = s.mem ∧
      (t.regn i).state = 1 ∧ (t.regn i).kind = s.fld Reg.fabRegdata0 Reg.fabRegdata0_KIND ∧
      (t.regn i).keytag = s.fld Reg.fabRegdata0 Reg.fabRegdata0_KEYTAG ∧ (t.regn i).len = s.fld Reg.fabRegdata0 Reg.fabRegdata0_LEN ∧
      (t.regn i).base = (s.reg Reg.fabRegdata1).toNat ∧ (t.regn i).owner = s.fld Reg.fabRegdata2 Reg.fabRegdata2_OWNER ∧
      (t.regn i).cconn = s.fld Reg.fabRegdata2 Reg.fabRegdata2_CCONN ∧ (t.regn i).gen = (s.regn i).gen) := by
  have hexec : exec (.fabRegopWrite i) s = execFabRegopWrite i s := rfl
  unfold execFabRegopWrite at hexec
  rw [guarded_next _ _ (by simpa using hi)] at hexec
  refine ⟨fun hst => ⟨_, hexec.trans (congrArg Host.Outcome.next (if_pos hst)), rfl, State.fld_setFld_same _ _ _ _ (by decide),
    ⟨rfl, rfl, rfl, rfl⟩, rfl⟩, fun hst => ⟨_, hexec.trans (congrArg Host.Outcome.next (if_neg (not_not.2 hst))), ⟨rfl, rfl, rfl, rfl⟩, rfl, ?_⟩⟩
  rw [State.regn_setRegn_same]
  exact ⟨rfl, rfl, rfl, rfl, rfl, rfl, rfl, rfl⟩

/-- The registers that read a registration back (R378). -/
theorem fabRegopRead_reads : ∃ t, exec (.fabRegopRead i) s = .next t ∧ t.fab = s.fab ∧ SameRegisters s t ∧ t.mem = s.mem ∧
    t.reg Reg.fabRegdata0 = BitVec.ofNat 64 ((s.regn i).state + (s.regn i).kind * 4 + (s.regn i).client * 8 +
      (s.regn i).keytag * 2 ^ 8 + (s.regn i).gen * 2 ^ 16 + (s.regn i).len * 2 ^ 32) ∧
    t.reg Reg.fabRegdata1 = BitVec.ofNat 64 (s.regn i).base ∧
    t.reg Reg.fabRegdata2 = BitVec.ofNat 64 ((s.regn i).owner + (s.regn i).cconn * 2 ^ 16) := by
  refine ⟨_, (show execFabRegopRead i s = _ from guarded_next _ _ (by simpa using hi)), rfl, ⟨rfl, rfl, rfl, rfl⟩, rfl, ?_, ?_, ?_⟩
  · rw [State.reg_setReg_ne _ _ (by decide), State.reg_setReg_ne _ _ (by decide), State.reg_setReg_same]
  · rw [State.reg_setReg_ne _ _ (by decide), State.reg_setReg_same]
  · rw [State.reg_setReg_same]

/-- A valid registration's generation advances; any other stands (R368, R369). -/
theorem fabRegopRevoke_revokes :
    ((s.regn i).state = 1 → ∃ t, exec (.fabRegopRevoke i) s = .next t ∧
      t.regn i = { s.regn i with state := 2, gen := ((s.regn i).gen + 1) % 65536, start := s.gc } ∧ SameRegisters s t ∧ t.mem = s.mem) ∧
    ((s.regn i).state ≠ 1 → ∃ t, exec (.fabRegopRevoke i) s = .next t ∧ t.fab = s.fab ∧ SameRegisters s t ∧ t.mem = s.mem) := by
  have hexec : exec (.fabRegopRevoke i) s = execFabRegopRevoke i s := rfl
  unfold execFabRegopRevoke at hexec
  rw [guarded_next _ _ (by simpa using hi)] at hexec
  exact ⟨fun hst => ⟨_, hexec.trans (congrArg Host.Outcome.next (if_pos hst)), State.regn_setRegn_same _ _ _, ⟨rfl, rfl, rfl, rfl⟩, rfl⟩,
    fun hst => ⟨_, hexec.trans (congrArg Host.Outcome.next (if_neg hst)), rfl, ⟨rfl, rfl, rfl, rfl⟩, rfl⟩⟩

/-- A revoked registration without open messages becomes free (R369). -/
theorem revokeDrained_frees :
    ((s.regn i).state = 2 → s.openOf i = [] → ∃ t, exec (.revokeDrained i) s = .next t ∧ (t.regn i).state = 0 ∧
      t.fld Reg.fabRegop Reg.fabRegop_REVDONE = 1 ∧ SameRegisters s t ∧ t.mem = s.mem) ∧
    ((s.regn i).state ≠ 2 ∨ s.openOf i ≠ [] → exec (.revokeDrained i) s = .next s) := by
  have hexec : exec (.revokeDrained i) s = execRevokeDrained i s := rfl
  unfold execRevokeDrained at hexec
  rw [guarded_next _ _ (by simpa using hi)] at hexec
  have hlog := touches_log (s.freeRegn i) 0x0C 0xFF i ((s.freeRegn i).reg Reg.fabErr) 0
  have htouch := (touches_freeRegn s i).then_ hlog
  refine ⟨fun hst ho => ⟨_, hexec.trans (congrArg Host.Outcome.next (if_pos ⟨hst, ho⟩)), ?_, ?_, htouch.file, htouch.mem⟩,
    fun h => hexec.trans (congrArg Host.Outcome.next (if_neg (by tauto)))⟩
  · rw [hlog.regn, regn_freeRegn]
  · rw [State.fld_log _ _ _ _ _ _ Reg.fabRegop, revdone_freeRegn]

/-- At the end of REVDRAIN what is open is cut, and the registration is free (R368, R370). -/
theorem revdrainExpiry_frees :
    ((s.regn i).state = 2 → ∃ t, exec (.revdrainExpiry i) s = .next t ∧ (t.regn i).state = 0 ∧ t.fld Reg.fabRegop Reg.fabRegop_REVDONE = 1 ∧
      (s.regn i).start + s.fld Reg.fabTimer Reg.fabTimer_REVDRAIN ≤ t.gc) ∧
    ((s.regn i).state ≠ 2 → exec (.revdrainExpiry i) s = .next s) := by
  have hexec : exec (.revdrainExpiry i) s = execRevdrainExpiry i s := rfl
  unfold execRevdrainExpiry at hexec
  rw [guarded_next _ _ (by simpa using hi)] at hexec
  refine ⟨fun hst => ⟨_, hexec.trans (congrArg Host.Outcome.next (if_neg (not_not.2 hst))), regn_freeRegn _ i, revdone_freeRegn _ i,
    le_gc_passTo_then s (L := [.mem, .file, .easels, .regs, .bays, .fab, .ports, .out, .conns, .host, .regns]) ?_⟩,
    fun hst => hexec.trans (congrArg Host.Outcome.next (if_pos hst))⟩
  refine Touches.trans (Touches.foldl (fun u e => ?_) _ _) ((touches_freeRegn _ i).mono (by decide))
  exact ((touches_cutMsg u e.1 e.2 cRevoked true).then_ ((touches_setFld _ _ _ _).then_ (touches_fabEvent _ e.1))).mono (by decide)

end

/-! ## Client records -/

/-- A key set to what an unlisted one reads as is in no entry of the map. -/
theorem SMap.any_set_default {α : Type} [DecidableEq α] (d : Nat → α) (m : SMap α) (k : Nat) : (SMap.set d m k (d k)).any (·.1 == k) = false := by
  simp only [SMap.set, SMap.setRange, SMap.entries, if_true, List.append_nil, List.any_append, List.length_singleton, Bool.or_eq_false_iff,
    List.any_eq_false, List.mem_filter, decide_eq_true_eq, beq_iff_eq]
  exact ⟨fun e he => by omega, fun e he => by omega⟩

section

variable (s : State) (c : Nat)

theorem touches_dropClient : Touches [.fab, .conns, .regs] s (s.dropClient c) :=
  ((touches_enqueueOwn s _ _ _ _ _).then_ ((touches_setConn _ _ _).then_ (touches_fabShow _))).mono (by decide)

theorem clientHeld_dropClient : (s.dropClient c).clientHeld c = false := by
  unfold State.dropClient State.clientHeld
  rw [(touches_fabShow _).fab]
  exact SMap.any_set_default (fun _ => ({} : ConnX)) _ c

/-- The command is shown in FAB.CLIOP. -/
def State.invalShown (s : State) (c : Nat) : State :=
  (s.setFld Reg.fabCliop Reg.fabCliop_CONN c).setFld Reg.fabCliop Reg.fabCliop_INVAL 1

theorem touches_invalShown : Touches [.regs] s (s.invalShown c) := (touches_setFld s _ _ _).trans (touches_setFld _ _ _ _)

end

/-- What the command comes to; `w` is where it waits for a pinned record. -/
theorem fabCliopInval_next (s : State) {c : Nat} (hc : c < 2 ^ 20) : ∃ w,
    ((s.conn (4096 + c)).inval = none → w = (s.invalShown c).updConn (4096 + c) fun k => { k with inval := some s.gc }) ∧
    exec (.fabCliopInval c) s = .next (if !s.clientHeld (4096 + c) then (s.invalShown c).setFld Reg.fabCliop Reg.fabCliop_INVAL 0
      else if !(s.conn (4096 + c)).pinned then ((s.invalShown c).dropClient (4096 + c)).setFld Reg.fabCliop Reg.fabCliop_INVAL 0
      else w) := by
  have hexec : exec (.fabCliopInval c) s = execFabCliopInval c s := rfl
  unfold execFabCliopInval at hexec
  rw [guarded_next _ _ (decide_eq_true hc)] at hexec
  refine ⟨_, fun hi => ?_, hexec⟩
  have hinv : ((s.invalShown c).conn (4096 + c)).inval = none := hi
  rw [State.invalShown] at hinv
  rw [hinv]
  rfl

/-- An invalidation of a record (R374). -/
theorem fabCliopInval_invalidates {s : State} {c : Nat} (hc : c < 2 ^ 20) :
    (s.clientHeld (4096 + c) = false → ∃ t, exec (.fabCliopInval c) s = .next t ∧ t.fab = s.fab ∧
      t.fld Reg.fabCliop Reg.fabCliop_INVAL = 0 ∧ SameRegisters s t ∧ t.mem = s.mem) ∧
    (s.clientHeld (4096 + c) = true → (s.conn (4096 + c)).pinned = false → ∃ t, exec (.fabCliopInval c) s = .next t ∧
      t.clientHeld (4096 + c) = false ∧ t.fld Reg.fabCliop Reg.fabCliop_INVAL = 0 ∧ SameRegisters s t ∧ t.mem = s.mem) ∧
    (s.clientHeld (4096 + c) = true → (s.conn (4096 + c)).pinned = true → (s.conn (4096 + c)).inval = none →
      ∃ t, exec (.fabCliopInval c) s = .next t ∧ t.conn (4096 + c) = { s.conn (4096 + c) with inval := some s.gc } ∧
        t.fld Reg.fabCliop Reg.fabCliop_INVAL = 1 ∧ SameRegisters s t ∧ t.mem = s.mem) := by
  obtain ⟨w, hw, hexec⟩ := fabCliopInval_next s hc
  refine ⟨fun h => ?_, fun h hpin => ?_, fun h hpin hinv => ?_⟩
  · simp only [h, Bool.not_false, if_true] at hexec
    exact ⟨_, hexec, rfl, State.fld_setFld_same _ _ _ _ (by decide), ⟨rfl, rfl, rfl, rfl⟩, rfl⟩
  · simp only [h, hpin, Bool.not_true, Bool.not_false, if_true, Bool.false_eq_true, if_false] at hexec
    have hdrop := (touches_invalShown s c).then_ ((touches_dropClient (s.invalShown c) (4096 + c)).then_
      (touches_setFld _ Reg.fabCliop Reg.fabCliop_INVAL 0))
    refine ⟨_, hexec, ?_, State.fld_setFld_same _ _ _ _ (by decide), hdrop.file, hdrop.mem⟩
    rw [State.clientHeld, (touches_setFld _ _ _ _).fab, ← State.clientHeld]
    exact clientHeld_dropClient (s.invalShown c) (4096 + c)
  · simp only [h, hpin, Bool.not_true, Bool.false_eq_true, if_false, hw hinv] at hexec
    refine ⟨_, hexec, State.conn_updConn_same _ _ _, ?_, ⟨rfl, rfl, rfl, rfl⟩, rfl⟩
    rw [(touches_updConn _ _ _).fld]
    exact State.fld_setFld_same _ _ _ _ (by decide)

/-- The packets of a port that waited for a record go on (R373). -/
theorem touches_missGoes (p : Nat) (go : List (Frame × Nat)) (s : State) : Touches [.fab, .regs] s (go.foldl (fun v e =>
    if v.connTakes e.1 then v.policed p e.1 e.2 else v.bump (Reg.portDrop p) Reg.portDrop_NOTME) s) :=
  Touches.foldl (fun v e => Touches.ite (fun _ => (touches_policed v p e.1 e.2).mono (by decide))
    fun _ => (touches_bump v _ _).mono (by decide)) _ _

/-- The state in which a record has come and is no longer fetched. -/
def State.recordCame (s : State) (c : Nat) : State :=
  { s with fab := { s.fab with fetching := s.fab.fetching.filter (· != 4096 + c), uses := s.fab.uses + 1 }
           host := { s.host with reads := s.host.reads.filter fun r => r.1 != (⟨1, c⟩ : HostRead) } }

/-- What the command comes to once the record is fetched: it is held, and only ports and queues follow. -/
theorem clientRecordFetched_next (s : State) {c : Nat} {rec : List (BitVec 8)} (hc : c < 2 ^ 20) (hrec : rec.length = 256) : ∃ k w,
    k.record = rec ∧ Touches [.fab, .ports, .regs] ((s.recordCame c).setConn (4096 + c) k) w ∧
    exec (.clientRecordFetched c rec) s = .next (if !s.fab.fetching.contains (4096 + c) then s else w) := by
  have hexec : exec (.clientRecordFetched c rec) s = execClientRecordFetched c rec s := rfl
  unfold execClientRecordFetched at hexec
  rw [guarded_next _ _ (by rw [decide_eq_true hc, hrec]; rfl)] at hexec
  refine ⟨{ state := b2n (Config.cliOpen rec), peer := Config.cliPeer rec % 4096, peerconn := Config.cliPeerConn rec % 2 ^ 20
            rxcum := Config.cliRxcum rec % 65536, record := rec, used := s.fab.uses + 1 }, _, rfl, ?_, hexec⟩
  refine Touches.trans ((touches_fabShow _).mono (by decide)) (Touches.foldl (fun u p => ?_) _ _)
  split
  exact ((touches_updPort u p _).then_ (touches_missGoes p _ _)).mono (by decide)

/-- A record that has come is held, and no longer fetched (R373). -/
theorem clientRecordFetched_holds {s : State} {c : Nat} {rec : List (BitVec 8)} (hc : c < 2 ^ 20) (hrec : rec.length = 256) :
    (s.fab.fetching.contains (4096 + c) = false → exec (.clientRecordFetched c rec) s = .next s) ∧
    (s.fab.fetching.contains (4096 + c) = true → ∃ t, exec (.clientRecordFetched c rec) s = .next t ∧
      (t.conn (4096 + c)).record = rec ∧ t.fab.fetching = s.fab.fetching.filter (· != 4096 + c) ∧ SameRegisters s t ∧
      t.mem = s.mem) := by
  obtain ⟨k, w, hk, htouch, hexec⟩ := clientRecordFetched_next s hc hrec
  refine ⟨fun h => ?_, fun h => ?_⟩
  · simpa only [h, Bool.not_false, if_true] using hexec
  · simp only [h, Bool.not_true, Bool.false_eq_true, if_false] at hexec
    refine ⟨w, hexec, ?_, htouch.fetching, htouch.file, htouch.mem⟩
    rw [htouch.conn, State.conn_setConn_same, hk]

/-! ## The node identifier -/

/-- GLOBAL.READY.FABID and the identifier (R378, R513). -/
theorem fabIdWrite_writes (v : Nat) (s : State) :
    (0x3FF < v → exec (.fabIdWrite v) s = .next (s.setFld Reg.fabErr Reg.fabErr_IDBAD 1)) ∧
    (v ≤ 0x3FF → ∃ t, exec (.fabIdWrite v) s = .next t ∧ t.node = v ∧
      t.fld Reg.globalReady Reg.globalReady_FABID = 1 ∧ SameRegisters s t ∧ t.mem = s.mem) := by
  have hexec : exec (.fabIdWrite v) s = execFabIdWrite v s := rfl
  unfold execFabIdWrite at hexec
  refine ⟨fun h => by rw [hexec, if_pos h], fun h => ?_⟩
  rw [if_neg (not_lt.2 h)] at hexec
  have htouch := (touches_setFld s Reg.fabId Reg.fabId_NODE v).then_ (touches_setReady _ Reg.globalReady_FABID 0 true)
  refine ⟨_, hexec, ?_, ?_, htouch.file, htouch.mem⟩
  · rw [State.node, State.fld_setReady _ _ _ _ _ (by decide) (by decide), State.fld_setFld_same _ _ _ _ (by decide),
      Nat.mod_eq_of_lt (lt_of_le_of_lt h (by decide))]
  · have hready := State.ready_setReady (s.setFld Reg.fabId Reg.fabId_NODE v) Reg.globalReady_FABID (i := 0) true (by decide) (by decide)
    rw [State.bitOf_fld _ _ _ (by decide), decide_eq_true_eq] at hready
    exact hready

/-- Settles O41: the writes, reads and revocations of the four kinds of entry, each by its lemma. -/
theorem fabricTablesAreWrittenReadAndRevoked : Obligations.FabricTablesAreWrittenReadAndRevoked := by
  refine ⟨fun c s hc => ?_, fun i s hi => ?_, fun c s hc => ?_, fun v s => fabIdWrite_writes v s⟩
  · intro k st ports
    obtain ⟨hout, hpeer, hwrite⟩ := fabConnopWrite_next s c hc
    refine ⟨hout, hpeer, fun ho hp => ⟨_, hwrite ho hp, ?_⟩, fabConnopRead_reads s c hc⟩
    obtain ⟨h1, h2, h3, h4, h5, h6, h7, h8⟩ := connWritten_writes (s.connLoaded c) c st
    rw [conn_connLoaded] at h1 h2 h3 h4 h5
    exact ⟨h1, h2, h3, h4, h5, h6, h7, fun h => (h8 h).trans (touches_connLoaded s c).mem⟩
  · intro r
    obtain ⟨hused, hload⟩ := fabRegopWrite_loads hi (s := s)
    obtain ⟨hrev, hnot⟩ := fabRegopRevoke_revokes hi (s := s)
    obtain ⟨hdrained, hopen⟩ := revokeDrained_frees hi (s := s)
    obtain ⟨hexp, hstand⟩ := revdrainExpiry_frees hi (s := s)
    exact ⟨hused, hload, fabRegopRead_reads hi, hrev, hnot, hdrained, hopen, hexp, hstand⟩
  · obtain ⟨hnot, hdrop, hwait⟩ := fabCliopInval_invalidates hc (s := s)
    exact ⟨hnot, hdrop, hwait, fun rec hrec => clientRecordFetched_holds hc hrec⟩

end Sys2Proof.Machine

/-! # Mirrored operations, portfolio writes and records of the map -/

namespace Sys2Proof.Machine

-- One theorem after another, as in the tests: side by side their stacks ask for more memory than the check allows.
set_option Elab.async false

section

variable (s : State)

/-! ## Changes of the pair and the map by name -/

theorem touches_setLogLen (b n : Nat) :
    Touches [.pair] s { s with pair := { s.pair with logLen := SMap.set (fun _ => 0) s.pair.logLen b n } } := touches_setPair s _

theorem touches_setAct (a : Option ActX) : Touches [.rot] s { s with rot := { s.rot with act := a } } := touches_setRot s _

/-! ## The mirror -/

theorem touches_pairSend (svc pf bytes : Nat) (o : Out) : Touches [.fab, .regs] s (s.pairSend svc pf bytes o) := by
  unfold State.pairSend
  refine Touches.ite (fun _ => touches_enqueueOwn s _ _ _ _ _) fun _ => ?_
  split
  · exact touches_enqueueOwn s _ _ _ _ _
  · exact touches_enqueueOwn s _ _ _ _ _

theorem touches_logUnit (b : Nat) (e : LogEntry) : Touches [.mem, .regs, .bays, .host, .pair] s (s.logUnit b e) := by
  unfold State.logUnit
  refine Touches.ite (fun _ => ?_) fun _ => Touches.ite (fun _ => Touches.refl _ s) fun _ => ?_
  · exact ((touches_setBytes s _ _).then_ ((touches_setStamp _ _ _).then_
      ((touches_setLogLen _ _ _).then_ (touches_setFld _ _ _ _)))).mono (by decide)
  · exact ((touches_setFld s _ _ _).then_ ((touches_setFld _ _ _ _).then_ (touches_pairEvent _ _ _ _ _ _ _))).mono (by decide)

theorem touches_logOp (op : MirrorIn) : Touches [.mem, .regs, .bays, .host, .pair] s (s.logOp op) := touches_logUnit s _ _

theorem touches_mirrorOp (iss : Option Ea) (op : MirrorIn) (svc : Nat) :
    Touches [.mem, .regs, .bays, .host, .fab, .pair] s (s.mirrorOp iss op svc) := by
  unfold State.mirrorOp
  refine Touches.ite (fun _ => Touches.refl _ s) fun _ => Touches.ite (fun _ => (touches_logOp s op).mono (by decide)) fun _ => ?_
  exact ((touches_setPair s _).then_ ((touches_setFld _ _ _ _).then_ (touches_pairSend _ _ _ _ _))).mono (by decide)

/-! ## The page buffer -/

theorem touches_takeWindow (b addr arrival : Nat) (ret : Option Nat) : Touches [.ec, .regs] s (s.takeWindow b addr arrival ret) := by
  unfold State.takeWindow
  extract_lets a s1 live s2
  have h : Touches [.ec, .regs] s s2 := (touches_passTo s _).trans ((touches_updStk s1 _ _).mono (by decide))
  split
  · refine h.trans fun p hp => ?_
    cases p <;> simp [Part.Same, SameRegisters, State.prog, State.bay, State.meshTake]
  · exact h

theorem touches_quieten (b : Nat) : Touches [.bays] s (s.quieten b) := touches_updBay s _ _

theorem touches_pbFree (b addr : Nat) : Touches [.bays, .regs] s (s.pbFree b addr) := by
  unfold State.pbFree
  extract_lets pb
  have h : Touches [.bays] s (if pb.isEmpty then s.quieten b else s) := Touches.ite (fun _ => touches_quieten s b) fun _ => Touches.refl _ s
  exact (h.then_ ((touches_updStk _ _ _).then_ (touches_setFld _ _ _ _))).mono (by decide)

theorem touches_admitOne (b : Nat) (a : Access) : Touches [.ec, .regs, .bays] s (s.admitOne b a) := by
  have h := touches_takeWindow s b a.addr a.arrival (accessRet a b)
  exact Touches.ite (fun _ => (h.then_ (touches_pbFree _ _ _)).mono (by decide)) fun _ => h.mono (by decide)

theorem touches_writeBackFirst (b : Nat) : Touches [.ec, .regs, .bays] s (s.writeBackFirst b) := by
  unfold State.writeBackFirst
  split
  · exact touches_admitOne s _ _
  · exact Touches.refl _ s

theorem touches_pbAdd (b addr : Nat) : Touches [.ec, .regs, .bays] s (s.pbAdd b addr) := by
  unfold State.pbAdd
  refine Touches.ite (fun _ => Touches.refl _ s) fun _ => ?_
  extract_lets s1 pb
  have h : Touches [.ec, .regs, .bays] s s1 := Touches.ite (fun _ => touches_writeBackFirst s b) fun _ => Touches.refl _ s
  exact (h.then_ ((touches_updStk _ _ _).then_ (touches_setFld _ _ _ _))).mono (by decide)

theorem touches_putStroke (g : Nat) (bs : List Byte) (q : Seal) : Touches [.mem, .ec, .regs, .bays] s (s.putStroke g bs q) := by
  unfold State.putStroke
  extract_lets s1
  have h : Touches [.mem] s s1 := ((touches_setBytes s _ _).then_ ((touches_setStamp _ _ _).then_ (touches_setErrs _ _ _))).mono (by decide)
  split
  · exact (h.then_ (touches_pbAdd _ _ _)).mono (by decide)
  · exact h.mono (by decide)

/-! ## Portfolio writes -/

theorem touches_checkSlot (slot : Nat) : Touches [.regs, .host] s (s.checkSlot slot) := by
  unfold State.checkSlot
  refine Touches.ite (fun _ => Touches.refl _ s) fun _ => Touches.ite (fun _ => (touches_setKey s _ _).mono (by decide)) fun _ => ?_
  exact ((touches_setKey s _ _).then_ ((touches_setFld _ _ _ _).then_ (touches_log _ _ _ _ _ _))).mono (by decide)

theorem touches_loadSlot (b slot : Nat) : Touches [.bays] s (s.loadSlot b slot) :=
  Touches.ite (fun _ => Touches.refl _ s) fun _ => touches_updBay s _ _

theorem touches_trimSlots (b : Nat) : Touches [.bays] s (s.trimSlots b) := touches_updBay s _ _

theorem touches_freeLease (pf line : Nat) : Touches [.regs] s (s.freeLease pf line) :=
  ((touches_setLeases s _).then_ (touches_setFld _ _ _ _)).mono (by decide)

theorem touches_expireLease (pf line : Nat) : Touches [.regs, .bays, .host] s (s.expireLease pf line) :=
  ((touches_freeLease s pf line).then_ ((touches_bump _ _ _).then_ ((touches_setFld _ _ _ _).then_
    ((touches_setFld _ _ _ _).then_ (touches_pairEvent _ _ _ _ _ _ _))))).mono (by decide)

theorem touches_expireLeases (pf : Nat) (l : List LeaseX) :
    Touches [.regs, .bays, .host] s (l.foldl (fun u l => u.expireLease pf l.line) s) := Touches.foldl (fun u _ => touches_expireLease u _ _) _ _

theorem touches_writeRecord (iss : Option Ea) (n : Nat) (expect : Option Nat) (new : List Byte) :
    Touches [.mem, .ec, .regs, .bays, .host, .fab, .pair] s (s.writeRecord iss n expect new).2 := by
  unfold State.writeRecord
  extract_lets old new p a st q s0 bs s1 s2 s3 s4
  have h0 : Touches [.regs, .host] s s0 := Touches.ite (fun _ => touches_checkSlot s _) fun _ => Touches.refl _ s
  have h1 : Touches [.mem, .ec, .regs, .bays, .host] s s1 := (h0.then_ (touches_putStroke s0 _ _ _)).mono (by decide)
  have h2 : Touches [.bays] s1 s2 := Touches.ite (fun _ => touches_loadSlot s1 _ _) fun _ => Touches.refl _ s1
  have h3 : Touches [.bays] s2 s3 := Touches.ite (fun _ => touches_trimSlots s2 _) fun _ => Touches.refl _ s2
  have h4 : Touches [.regs, .bays, .host] s3 s4 := Touches.ite (fun _ => touches_expireLeases s3 _ _) fun _ => Touches.refl _ s3
  have hrefuse : Touches [.mem, .ec, .regs, .bays, .host, .fab, .pair] s s0 := h0.mono (by decide)
  refine Touches.ite_snd (fun _ => hrefuse) fun _ => Touches.ite_snd (fun _ => hrefuse) fun _ =>
    Touches.ite_snd (fun _ => hrefuse) fun _ => ?_
  exact (h1.then_ (h2.then_ (h3.then_ (h4.then_ (touches_mirrorOp s4 _ _ _))))).mono (by decide)

theorem touches_handAway (f : FwdX) : Touches [.mem, .ec, .regs, .bays, .host, .fab, .pair] s (s.handAway f) := by
  unfold State.handAway
  exact Touches.ite (fun _ => touches_writeRecord s _ _ _ _) fun _ => Touches.refl _ s

/-! ## Firmware at an epoch -/

theorem touches_showSvn : Touches [.regs] s s.showSvn := Touches.foldl (fun u _ => touches_setFld u _ _ _) _ _

theorem touches_raiseSvn (l : List Nat) : Touches [.rot, .regs] s (s.raiseSvn l) := (touches_setRot s _).then_ (touches_showSvn _)

theorem touches_fwFinish (a : ActX) : Touches [.rot, .regs] s (s.fwFinish a) := by
  unfold State.fwFinish
  exact ((touches_setRot s _).then_ (touches_raiseSvn _ _)).mono (by decide)

theorem touches_fwStart (epoch : Nat) : Touches [.rot, .regs] s (s.fwStart epoch) := by
  unfold State.fwStart
  refine Touches.ite (fun _ => Touches.refl _ s) fun _ => ?_
  exact ((touches_setFld s _ _ _).then_ ((touches_setFld _ _ _ _).then_ (touches_setAct _ _))).mono (by decide)

/-! ## Host completions -/

theorem touches_setHq (q : Nat) (k : HqX) : Touches [.host] s (s.setHq q k) := touches_setHost s _

theorem touches_hostPost (k tag code bay easel status port : Nat) :
    Touches [.out, .regs, .host] s (s.hostPost k tag code bay easel status port) := by
  unfold State.hostPost
  refine Touches.ite (fun _ => ?_) fun _ => Touches.refl _ s
  extract_lets st tail phase w0 w1 addr s1 wrap s2 s3
  have h2 : Touches [.out, .regs] s s2 := (touches_emit s _).then_ (touches_setFld _ _ _ _)
  have h3 : Touches [.regs] s2 s3 := Touches.ite (fun _ => touches_setFld s2 _ _ _) fun _ => Touches.refl _ s2
  refine Touches.ite (fun _ => (h2.then_ h3).mono (by decide)) fun _ => ?_
  exact (h2.then_ (h3.then_ ((touches_setHq _ _ _).then_ (touches_msix _ _ _)))).mono (by decide)

theorem touches_settleLeases : Touches [.out, .regs, .host] s s.settleLeases :=
  ((touches_setLeaseWaits s _).then_ (Touches.foldl (fun u w => touches_hostPost u _ _ _ _ _ _ _) _ _)).mono (by decide)

/-! ## Alone and together -/

theorem touches_logWindow : Touches [.mem, .regs, .bays, .host, .fab, .pair] s s.logWindow := by
  unfold State.logWindow
  have h : Touches [.mem, .regs, .bays, .host, .fab, .pair] s (s.pair.window.foldl (fun u w => u.logOp w.2.2.1) (s.dropMirrors 8)) :=
    ((touches_dropItems s 8 _).then_ (Touches.foldl (fun u w => touches_logOp u _) _ _)).mono (by decide)
  exact (h.then_ ((touches_setPair _ _).then_ (touches_setFld _ _ _ _))).mono (by decide)

theorem touches_enterSolo : Touches [.mem, .regs, .bays, .host, .fab, .pair, .out] s s.enterSolo := by
  unfold State.enterSolo
  refine Touches.ite (fun _ => Touches.refl _ s) fun _ => ?_
  exact ((touches_logWindow s).then_ ((touches_setFld _ _ _ _).then_ ((touches_setPair _ _).then_ ((touches_setFld _ _ _ _).then_
    ((touches_pairEvent _ _ _ _ _ _ _).then_ (touches_settleLeases _)))))).mono (by decide)

theorem touches_leaveSolo : Touches [.regs, .pair] s s.leaveSolo := by
  unfold State.leaveSolo
  exact Touches.ite (fun _ => Touches.refl _ s) fun _ => (touches_setFld s _ _ _).then_ (touches_setPair _ _)

/-! ## The map -/

theorem touches_showPartner : Touches [.regs] s s.showPartner := touches_setFld s _ _ _

theorem touches_activateForwards : Touches [.map] s s.activateForwards := touches_setMap s _

theorem touches_rewatch (was : List Nat) : Touches [.map] s (s.rewatch was) := touches_setMap s _

theorem touches_setFwd (i : Nat) (f : FwdX) : Touches [.map] s (s.setFwd i f) := touches_setMap s _

theorem touches_applyChange (c : Nat) : Touches [.map, .members] s (s.applyChange c) :=
  Touches.ite (fun _ => Touches.refl _ s) fun _ => touches_setMember s _ _

theorem touches_pairUp (l : List Nat) : Touches [.map, .members] s (s.pairUp l) := by
  induction s, l using State.pairUp.induct with
  | case1 s a b r ih => exact ((touches_setMember s _ _).trans (touches_setMember _ _ _)).trans ih
  | case2 l s h =>
    unfold State.pairUp
    split
    · next a b r => exact absurd rfl (h a b r)
    · exact Touches.refl _ s

theorem touches_newStates : Touches [.mem, .regs, .bays, .host, .fab, .pair, .out] s s.newStates := by
  unfold State.newStates
  extract_lets me partner s1
  have h1 : Touches [.regs] s s1 := Touches.ite (fun _ => touches_setFld s _ _ _) fun _ => Touches.refl _ s
  refine Touches.ite (fun _ => (h1.then_ (touches_enterSolo s1)).mono (by decide)) fun _ =>
    Touches.ite (fun _ => (h1.then_ (touches_leaveSolo s1)).mono (by decide)) fun _ => h1.mono (by decide)

theorem touches_settleProposal (r : Commit) : Touches [.map, .regs] s (s.settleProposal r) := by
  unfold State.settleProposal
  split
  · exact Touches.refl _ s
  · next p _ =>
    refine Touches.ite (fun _ => Touches.refl _ s) fun _ => ?_
    extract_lets m s1 own s2
    have h2 : Touches [.map, .regs] s s2 := (touches_setMap s _).then_ (Touches.ite (fun _ => Touches.refl _ s1) fun _ => touches_setFld s1 _ _ _)
    exact Touches.ite (fun _ => h2.trans ((touches_setFld s2 _ _ _).mono (by decide))) fun _ => h2

theorem touches_sendRecord (dest kind : Nat) (r : Commit) : Touches [.fab, .ports, .out] s (s.sendRecord dest kind r) := touches_sendCtl s _ _ _ _

end

end Sys2Proof.Machine

/-! # The map: seeding, its tables and its grace windows -/

namespace Sys2Proof.Machine

-- One theorem after another, as in the tests: side by side their stacks ask for more memory than the check allows.
set_option Elab.async false

/-! ## Reading the tables back -/

theorem State.member_setMember (s : State) (n m : Nat) (v : Nat × Nat) :
    (s.setMember n v).member m = if m = n then v else s.member m := by
  simp [State.member, State.setMember, SMap.get_set]

@[simp] theorem State.member_setMember_same (s : State) (n : Nat) (v : Nat × Nat) : (s.setMember n v).member n = v := by
  simp [State.member_setMember]

@[simp] theorem State.fwd_setFwd_same (s : State) (i : Nat) (f : FwdX) : (s.setFwd i f).fwd i = f := by
  simp [State.fwd, State.setFwd]

theorem Touches.fwd {K : List Part} {s t : State} (h : Touches K s t) (i : Nat) (hp : Part.map ∉ K := by decide) : t.fwd i = s.fwd i := by
  rw [State.fwd, h.map hp, State.fwd]

/-! ## Words of a list of bytes -/

theorem bytesNat_natBytes (n x : Nat) : bytesNat (natBytes n x) = x % 256 ^ n := by
  induction n generalizing x with
  | zero => simp [natBytes, bytesNat, Nat.mod_one]
  | succ n ih =>
    rw [natBytes, bytesNat, ih, BitVec.toNat_ofNat, pow_succ' 256 n, Nat.mod_mul]

theorem wordAt_natBytes_first (x : Nat) (bs : List Byte) : wordAt (natBytes 8 x ++ bs) 0 = x % 2 ^ 64 := by
  rw [wordAt, leAt, Nat.mul_zero, List.drop_zero, List.take_left' (length_natBytes 8 x), bytesNat_natBytes]
  rfl

theorem wordAt_natBytes_next (x i : Nat) (bs : List Byte) : wordAt (natBytes 8 x ++ bs) (i + 1) = wordAt bs i := by
  rw [wordAt, leAt, Nat.mul_succ, Nat.add_comm, ← List.drop_drop, List.drop_left' (length_natBytes 8 x), wordAt, leAt]

/-- The three words of a forward entry (R434). -/
theorem wordAt_fwdBytes (f : FwdX) :
    wordAt (fwdBytes f) 0 = f.owner % 2 ^ 16 + f.session % 2 ^ 32 * 2 ^ 16 + f.hint % 2 ^ 12 * 2 ^ 48 + b2n f.valid * 2 ^ 60 ∧
    wordAt (fwdBytes f) 2 = f.act % 2 ^ 32 := by
  have hv : b2n f.valid ≤ 1 := by cases f.valid <;> decide
  have hw2 : wordAt (fwdBytes f) 2 = f.act % 2 ^ 32 % 2 ^ 64 := by
    rw [fwdBytes, List.append_assoc, wordAt_natBytes_next, wordAt_natBytes_next,
      ← List.append_nil (natBytes 8 (f.act % 2 ^ 32)), wordAt_natBytes_first]
  refine ⟨?_, ?_⟩
  · rw [fwdBytes, List.append_assoc, wordAt_natBytes_first]
    omega
  · omega

/-! ## Seeding (R421) -/

/-- The state in which the epoch counts as installed. -/
def State.epochSeeded (s : State) : State :=
  ((s.setFld Reg.mapEpoch Reg.mapEpoch_EPOCH (s.fld Reg.mapSeedepoch Reg.mapSeedepoch_EPOCH)).setFld Reg.mapEpoch
    Reg.mapEpoch_SEEDED 1).setFld Reg.mapEpoch Reg.mapEpoch_BEHIND 0

theorem touches_epochSeeded (s : State) : Touches [.regs] s s.epochSeeded :=
  (touches_setFld s _ _ _).trans ((touches_setFld _ _ _ _).trans (touches_setFld _ _ _ _))

theorem fld_epochSeeded (s : State) :
    s.epochSeeded.fld Reg.mapEpoch Reg.mapEpoch_EPOCH = s.fld Reg.mapSeedepoch Reg.mapSeedepoch_EPOCH ∧
    s.epochSeeded.fld Reg.mapEpoch Reg.mapEpoch_SEEDED = 1 ∧ s.epochSeeded.fld Reg.mapEpoch Reg.mapEpoch_BEHIND = 0 := by
  unfold State.epochSeeded
  refine ⟨?_, ?_, State.fld_setFld_same _ _ _ _ (by decide)⟩
  · rw [State.fld_setFld_apart _ _ _ _ _ (by decide) (by decide), State.fld_setFld_apart _ _ _ _ _ (by decide) (by decide),
      State.fld_setFld_same _ _ _ _ (by decide)]
    exact Nat.mod_eq_of_lt (State.fld_lt _ _ _)
  · rw [State.fld_setFld_apart _ _ _ _ _ (by decide) (by decide), State.fld_setFld_same _ _ _ _ (by decide)]
    rfl

/-- Outside start-up mode MAP.CTRL.SEED has no effect; in it the epoch of MAP.SEEDEPOCH is installed. -/
theorem mapSeed_seeds (s : State) :
    (s.startUp = false → exec .mapSeed s = .next s) ∧
    (s.startUp = true → ∃ t, exec .mapSeed s = .next t ∧ t.epoch = s.fld Reg.mapSeedepoch Reg.mapSeedepoch_EPOCH ∧
      t.fld Reg.mapEpoch Reg.mapEpoch_SEEDED = 1 ∧ t.fld Reg.mapEpoch Reg.mapEpoch_BEHIND = 0 ∧
      t.fld Reg.globalReady Reg.globalReady_EPOCH = 1 ∧ SameRegisters s t ∧ t.mem = s.mem) := by
  have hexec : exec .mapSeed s = execMapSeed s := rfl
  unfold execMapSeed at hexec
  refine ⟨fun h => by rw [hexec, h]; rfl, fun h => ?_⟩
  rw [h, if_neg (by decide)] at hexec
  obtain ⟨hepoch, hseeded, hbehind⟩ := fld_epochSeeded s
  have hlast := (touches_activateForwards (s.epochSeeded.showPartner.setReady Reg.globalReady_EPOCH 0 true)).trans (touches_rewatch _ [])
  have htouch := (touches_epochSeeded s).then_ ((touches_showPartner _).then_
    ((touches_setReady _ Reg.globalReady_EPOCH 0 true).then_ hlast))
  have hfld : ∀ f, (s.epochSeeded.showPartner.setReady Reg.globalReady_EPOCH 0 true).fld Reg.mapEpoch f =
      s.epochSeeded.fld Reg.mapEpoch f := fun f => by
    rw [State.fld_setReady _ _ _ _ _ (by decide) (by decide), State.showPartner, State.fld_setFld_ne _ _ _ _ (by decide)]
  have hready := State.ready_setReady s.epochSeeded.showPartner Reg.globalReady_EPOCH (i := 0) true (by decide) (by decide)
  rw [State.bitOf_fld _ _ _ (by decide), decide_eq_true_eq] at hready
  refine ⟨(s.epochSeeded.showPartner.setReady Reg.globalReady_EPOCH 0 true).activateForwards.rewatch [], hexec, ?_, ?_, ?_, ?_,
    htouch.file, htouch.mem⟩
  · rw [State.epoch, hlast.fld, hfld, hepoch]
  · rw [hlast.fld, hfld, hseeded]
  · rw [hlast.fld, hfld, hbehind]
  · rw [hlast.fld]
    exact hready

/-! ## The membership table -/

theorem mapMemberopWrite_writes {n : Nat} (s : State) (hn : n < 1024) :
    ∃ t, exec (.mapMemberopWrite n) s = .next t ∧ SameRegisters s t ∧ t.mem = s.mem ∧
      t.member n = (if s.startUp = true ∧ (s.fld Reg.mapMemberdata Reg.mapMemberdata_PARTNER ≤ 0x3FF ∨
          s.fld Reg.mapMemberdata Reg.mapMemberdata_PARTNER = 0xFFF) then
        (s.fld Reg.mapMemberdata Reg.mapMemberdata_STATE, s.fld Reg.mapMemberdata Reg.mapMemberdata_PARTNER) else s.member n) := by
  have hexec : exec (.mapMemberopWrite n) s = execMapMemberopWrite n s := rfl
  unfold execMapMemberopWrite at hexec
  rw [guarded_next _ _ (decide_eq_true hn)] at hexec
  refine ⟨_, hexec, ?_⟩
  extract_lets s1 pn d s2
  have h1 : Touches [.regs] s s1 := touches_setFld s _ _ _
  have h2 : Touches [.map, .members] s1 s2 := touches_setMember s1 _ _
  have h3 : Touches [.regs] s2 (if n = s2.node then s2.showPartner else s2) :=
    Touches.ite (fun _ => touches_showPartner s2) fun _ => Touches.refl _ s2
  have hwritten : s2.member n = (s.fld d Reg.mapMemberdata_STATE, s.fld d Reg.mapMemberdata_PARTNER) := by
    rw [State.member_setMember_same, State.fld_setFld_ne _ _ _ _ (by decide), State.fld_setFld_ne _ _ _ _ (by decide)]
  have hcond : (s.startUp && (decide (pn ≤ 0x3FF) || pn == 0xFFF)) = true ↔ s.startUp = true ∧ (pn ≤ 0x3FF ∨ pn = 0xFFF) := by simp
  by_cases h : s.startUp = true ∧ (pn ≤ 0x3FF ∨ pn = 0xFFF)
  · have htouch := h1.then_ (h2.then_ h3)
    rw [if_pos (hcond.2 h), if_pos h]
    exact ⟨htouch.file, htouch.mem, (h3.member n).trans hwritten⟩
  · rw [if_neg (mt hcond.1 h), if_neg h]
    exact ⟨h1.file, h1.mem, h1.member n⟩

theorem mapMemberopRead_reads {n : Nat} (s : State) (hn : n < 1024) :
    ∃ t, exec (.mapMemberopRead n) s = .next t ∧ t.map = s.map ∧ SameRegisters s t ∧ t.mem = s.mem ∧
      t.fld Reg.mapMemberdata Reg.mapMemberdata_STATE = (s.member n).1 % 4 ∧
      t.fld Reg.mapMemberdata Reg.mapMemberdata_PARTNER = (s.member n).2 % 4096 := by
  have hexec : exec (.mapMemberopRead n) s = execMapMemberopRead n s := rfl
  unfold execMapMemberopRead at hexec
  rw [guarded_next _ _ (decide_eq_true hn)] at hexec
  have htouch := (touches_setFld s Reg.mapMemberop Reg.mapMemberop_NODE n).trans
    ((touches_setFld _ Reg.mapMemberdata Reg.mapMemberdata_STATE (s.member n).1).trans
      (touches_setFld _ Reg.mapMemberdata Reg.mapMemberdata_PARTNER (s.member n).2))
  refine ⟨_, hexec, htouch.map, htouch.file, htouch.mem, ?_, State.fld_setFld_same _ _ _ _ (by decide)⟩
  exact (State.fld_setFld_apart _ _ _ _ _ (by decide) (by decide)).trans (State.fld_setFld_same _ _ _ _ (by decide))

/-! ## The forward table -/

theorem mapFwdopWrite_writes {i : Nat} (s : State) (hi : i < 16384) :
    ∃ t, exec (.mapFwdopWrite i) s = .next t ∧ SameRegisters s t ∧
      t.fwd i = s.fwdOf (s.reg Reg.mapFwddata0).toNat (s.reg Reg.mapFwddata1).toNat (s.reg Reg.mapFwddata2).toNat := by
  have hexec : exec (.mapFwdopWrite i) s = execMapFwdopWrite i s := rfl
  unfold execMapFwdopWrite at hexec
  rw [guarded_next _ _ (decide_eq_true hi)] at hexec
  refine ⟨_, hexec, ?_⟩
  extract_lets f s1 p
  have h1 : Touches [.regs, .map] s s1 := (touches_setFld s _ _ _).then_ (touches_setFwd _ _ _)
  have h2 := touches_mirrorOp s1 none
    { pf := f.pf, idx := i, unit := 4, seq := p.seq, bay := p.home, writes := [⟨0, .none, fwdBytes f⟩] } 2
  exact ⟨(h1.then_ h2).file, (h2.fwd i).trans (State.fwd_setFwd_same _ _ _)⟩

theorem mapFwdopRead_reads {i : Nat} (s : State) (hi : i < 16384) :
    ∃ t, exec (.mapFwdopRead i) s = .next t ∧ t.map = s.map ∧ SameRegisters s t ∧ t.mem = s.mem ∧
      t.fld Reg.mapFwddata0 Reg.mapFwddata0_OWNER = (s.fwd i).owner % 65536 ∧
      t.fld Reg.mapFwddata0 Reg.mapFwddata0_ACTIVE = b2n (s.fwd i).active ∧
      t.fld Reg.mapFwddata2 Reg.mapFwddata2_ACT = (s.fwd i).act % 2 ^ 32 := by
  have hexec : exec (.mapFwdopRead i) s = execMapFwdopRead i s := rfl
  unfold execMapFwdopRead at hexec
  rw [guarded_next _ _ (decide_eq_true hi)] at hexec
  refine ⟨_, hexec, ?_⟩
  extract_lets f bs s1
  obtain ⟨hw0, hw2⟩ := wordAt_fwdBytes f
  have h1 := (touches_setFld s Reg.mapFwdop Reg.mapFwdop_INDEX i).trans (touches_setReg _ Reg.mapFwddata0
    (BitVec.ofNat 64 (wordAt bs 0 + b2n f.active * 2 ^ 61)))
  have htouch := h1.trans ((touches_setReg s1 Reg.mapFwddata1 (BitVec.ofNat 64 (wordAt bs 1))).trans
    (touches_setReg _ Reg.mapFwddata2 (BitVec.ofNat 64 (wordAt bs 2))))
  have hv : b2n f.valid ≤ 1 := by cases f.valid <;> decide
  have ha : b2n f.active ≤ 1 := by cases f.active <;> decide
  refine ⟨htouch.map, htouch.file, htouch.mem, ?_, ?_, ?_⟩
  · rw [State.fld_setReg_ne _ _ _ (by decide), State.fld_setReg_ne _ _ _ (by decide), State.fld_setReg_same, hw0, bf, BitVec.toNat_ofNat]
    simp only [bitsOf, Reg.mapFwddata0_OWNER]
    show _ = f.owner % 65536
    omega
  · rw [State.fld_setReg_ne _ _ _ (by decide), State.fld_setReg_ne _ _ _ (by decide), State.fld_setReg_same, hw0, bf, BitVec.toNat_ofNat]
    simp only [bitsOf, Reg.mapFwddata0_ACTIVE]
    show _ = b2n f.active
    omega
  · rw [State.fld_setReg_same, hw2, bf, BitVec.toNat_ofNat]
    simp only [bitsOf, Reg.mapFwddata2_ACT]
    show _ = f.act % 2 ^ 32
    omega

/-! ## Grace windows (R416) -/

theorem touches_setGrace (s : State) (g : List (Nat × Nat)) : Touches [.map, .grace] s { s with map := { s.map with grace := g } } := by
  intro p hp
  cases p <;> simp [Part.Same, SameRegisters, State.prog, State.bay] at hp ⊢

/-- The window of an epoch closed. -/
def State.graceClosed (s : State) (e : Nat) : State := { s with map := { s.map with grace := s.map.grace.filter (·.1 != e) } }

/-- The portfolios of an epoch's forward entries handed away. -/
def State.handedAway (s : State) (e : Nat) : State :=
  (s.map.fwd.filter fun f => f.2.valid && f.2.active && f.2.act == e).foldl (fun u f => u.handAway f.2) s

/-- A completed activation at an epoch is over. -/
def State.activationOver (s : State) (e : Nat) : State :=
  match s.rot.act with
  | some a => if a.complete && a.epoch == e then s.fwFinish a else s
  | none => s

theorem touches_handedAway (s : State) (e : Nat) : Touches [.mem, .ec, .regs, .bays, .host, .fab, .pair] s (s.handedAway e) := by
  unfold State.handedAway
  refine Touches.foldl (fun u f => ?_) _ _
  exact touches_handAway u f.2

theorem touches_activationOver (s : State) (e : Nat) : Touches [.rot, .regs] s (s.activationOver e) := by
  unfold State.activationOver
  split
  · exact Touches.ite (fun _ => touches_fwFinish s _) fun _ => Touches.refl _ s
  · exact Touches.refl _ s

theorem graceClose_closes (e : BitVec 32) (s : State) :
    (∀ g, s.map.grace.find? (fun x => x.1 == e.toNat) = some g → ∃ t, exec (.graceClose e) s = .next t ∧
      t.map.grace = s.map.grace.filter (fun x => x.1 != e.toNat) ∧ g.2 ≤ t.gc ∧ SameRegisters s t) ∧
    (s.map.grace.find? (fun x => x.1 == e.toNat) = none → exec (.graceClose e) s = .next s) := by
  have hexec : exec (.graceClose e) s = execGraceClose e s := rfl
  unfold execGraceClose at hexec
  refine ⟨fun g hg => ?_, fun hg => by simp only [hg] at hexec; exact hexec⟩
  simp only [hg] at hexec
  have hopen := touches_passTo s (96 * g.2)
  have hclosed := touches_setGrace (s.passTo (96 * g.2)) ((s.passTo (96 * g.2)).map.grace.filter (·.1 != e.toNat))
  have hend := (touches_handedAway ((s.passTo (96 * g.2)).graceClosed e.toNat) e.toNat).then_ (touches_activationOver _ e.toNat)
  refine ⟨(((s.passTo (96 * g.2)).graceClosed e.toNat).handedAway e.toNat).activationOver e.toNat, hexec, ?_, ?_, ?_⟩
  · exact hend.grace.trans (congrArg _ hopen.grace)
  · exact (s.le_gc_passTo g.2).trans (hclosed.then_ hend).le_gc
  · exact (hopen.then_ (hclosed.then_ hend)).file

end Sys2Proof.Machine

/-! # The map: an epoch installed -/

namespace Sys2Proof.Machine

-- One theorem after another, as in the tests: side by side their stacks ask for more memory than the check allows.
set_option Elab.async false

/-! ## The membership table under a record (R414, R415, R432) -/

theorem member_applyChange_ne (s : State) (c : Nat) {n : Nat} (h : n ≠ chgNode c) : (s.applyChange c).member n = s.member n := by
  unfold State.applyChange
  split
  · rfl
  · rw [State.member_setMember, if_neg h]

theorem member_applyChange_same (s : State) {c : Nat} (h : chgNode c ≤ 0x3FF) : ((s.applyChange c).member (chgNode c)).1 = chgState c := by
  rw [State.applyChange, if_neg (not_lt.2 h), State.member_setMember_same]

theorem member_applyChanges_ne (l : List Nat) (s : State) {n : Nat} (h : n ∉ l.map chgNode) :
    (l.foldl (fun u c => u.applyChange c) s).member n = s.member n := by
  induction l generalizing s with
  | nil => rfl
  | cons d l ih =>
    rw [List.map_cons, List.mem_cons, not_or] at h
    rw [List.foldl_cons, ih _ h.2, member_applyChange_ne s d h.1]

/-- Each change of a record whose changes name each node once is in the table. -/
theorem member_applyChanges (l : List Nat) (s : State) (hl : (l.map chgNode).Nodup) {c : Nat} (hc : c ∈ l) (h : chgNode c ≤ 0x3FF) :
    ((l.foldl (fun u c => u.applyChange c) s).member (chgNode c)).1 = chgState c := by
  induction l generalizing s with
  | nil => cases hc
  | cons d l ih =>
    rw [List.map_cons, List.nodup_cons] at hl
    rw [List.foldl_cons]
    rcases List.mem_cons.1 hc with rfl | hc
    · rw [member_applyChanges_ne l _ hl.1, member_applyChange_same s h]
    · exact ih _ hl.2 hc

/-- Pairing two nodes keeps the STATE of every node. -/
theorem member_pairUp (s : State) (l : List Nat) (n : Nat) : ((s.pairUp l).member n).1 = (s.member n).1 := by
  induction s, l using State.pairUp.induct with
  | case1 s a b r ih =>
    rw [State.pairUp, ih, State.member_setMember, State.member_setMember]
    split
    · next h => rw [h]
    · split
      · next h => rw [h]
      · rfl
  | case2 l s h =>
    unfold State.pairUp
    split
    · next a b r => exact absurd rfl (h a b r)
    · rfl

/-! ## The steps of an installation -/

namespace State

variable (s : State)

/-- The membership table after a record. -/
def tabled (r : Commit) : State :=
  let s1 := r.changes.foldl (fun u c => u.applyChange c) s
  s1.pairUp ((r.changes.filter fun c => chgState c == 1 && decide (0x3FF < (s1.member (chgNode c)).2)).map chgNode)

/-- The epoch shown, and told to every bay. -/
def announced (e : Nat) : State :=
  allBays.foldl (fun u b => u.event b 0x42 (BitVec.ofNat 64 e)) (s.setFld Reg.mapEpoch Reg.mapEpoch_EPOCH e).showPartner

/-- The grace window opened and the record kept. -/
def recorded (r : Commit) : State :=
  let e := r.target.toNat
  let gone := fun (n : Nat) => (s.member n).1 != 1
  { s with map := { s.map with
      grace := s.map.grace ++ [(e, s.gc + s.fld Reg.mapCtrl Reg.mapCtrl_GRACE)]
      commits := (s.map.commits ++ [(e, r)]).drop (s.map.commits.length - 63)
      accepted := s.map.accepted.filter fun a => newer a.1 e
      suspects := s.map.suspects.filter fun x => !gone x.1
      held := s.map.held.filter fun h => !gone h.1
      decided := s.map.decided.filter fun c => !gone (chgNode c) } }

/-- What an epoch brings with it: forward entries, proposals, the pair, an armed activation, what is watched. -/
def followed (r : Commit) (was : List Nat) : State :=
  (((s.activateForwards.settleProposal r).newStates).fwStart r.target.toNat).rewatch was

/-- What is still undecided is proposed later. -/
def backedOff : State :=
  if s.map.decided.isEmpty || s.map.proposal.isSome then s
  else { s with map := { s.map with backoff := some (s.map.backoff.getD (s.gc + 1000 * (s.node % 16))) } }

theorem install_eq {r : Commit} (hseed : s.fld Reg.mapEpoch Reg.mapEpoch_SEEDED = 1) (he : r.target.toNat = (s.epoch + 1) % 2 ^ 32) :
    s.install r = ((((s.tabled r).announced r.target.toNat).recorded r).followed r s.watching).backedOff := by
  unfold install
  exact if_neg (by simp [hseed, he])

end State

section

variable (s : State)

theorem touches_tabled (r : Commit) : Touches [.map, .members] s (s.tabled r) :=
  (Touches.foldl (fun u c => touches_applyChange u c) _ s).trans (touches_pairUp _ _)

theorem touches_announced (e : Nat) : Touches [.regs, .bays, .host] s (s.announced e) :=
  ((touches_setFld s _ _ _).then_ ((touches_showPartner _).then_ (Touches.foldl (fun u b => touches_event u b _ _) _ _))).mono (by decide)

theorem touches_recorded (r : Commit) : Touches [.map, .grace, .commits] s (s.recorded r) := by
  intro p hp
  cases p <;> simp [Part.Same, SameRegisters, State.prog, State.bay, State.recorded] at hp ⊢

theorem touches_followed (r : Commit) (was : List Nat) :
    Touches [.mem, .regs, .bays, .host, .fab, .pair, .out, .map, .rot] s (s.followed r was) :=
  ((touches_activateForwards s).then_ ((touches_settleProposal _ r).then_ ((touches_newStates _).then_
    ((touches_fwStart _ _).then_ (touches_rewatch _ was))))).mono (by decide)

theorem touches_backedOff : Touches [.map] s s.backedOff := Touches.ite (fun _ => Touches.refl _ s) fun _ => touches_setMap s _

/-! ## Registers that an installation leaves -/

/-- An offset above the fabric's registers and below those of the host queues, and not PWR.XOVR. -/
abbrev OffBays (o : Nat) : Prop := 0x2410000 ≤ o ∧ o < 0x4000000 ∧ o ≠ Reg.pwrXovr

theorem OffBays.offEvents {o b : Nat} (ho : OffBays o) (hb : b < 16) : OffEvents b o := by
  obtain ⟨hlo, hhi, hx⟩ := ho
  refine ⟨?_, hx, Or.inr ?_⟩
  · unfold Reg.globalEverr
    omega
  · unfold Reg.bayBind0
    omega

theorem OffBays.ne_everr {o : Nat} (ho : OffBays o) : o ≠ Reg.globalEverr := (ho.offEvents (b := 0) (by decide)).1

/-- An event in every bay. -/
theorem reg_events (source : Nat) (r : Word) {o : Nat} (ho : OffBays o) :
    (allBays.foldl (fun u b => u.event b source r) s).reg o = s.reg o :=
  foldl_same (fun u => u.reg o) (fun u b hb => u.reg_event b source r (ho.offEvents (List.mem_range.1 hb))) s

theorem reg_pairNote (kind : Nat) {o : Nat} (ho : OffBays o) : (s.pairNote kind).reg o = s.reg o := by
  rw [State.pairNote, State.pairEvent, reg_events _ _ _ ho, State.reg_log _ _ _ _ _ _ ho.ne_everr]

theorem reg_announced (e : Nat) {o : Nat} (ho : OffBays o) (hp : o ≠ Reg.pairStatus) :
    (s.announced e).reg o = (s.setFld Reg.mapEpoch Reg.mapEpoch_EPOCH e).reg o := by
  rw [State.announced, reg_events _ _ _ ho, State.showPartner, State.reg_setFld_ne _ _ _ hp]

theorem reg_settleProposal (r : Commit) {o : Nat} (hf : o ≠ Reg.fltStatus) (hm : o ≠ Reg.mapCtrl) :
    (s.settleProposal r).reg o = s.reg o := by
  unfold State.settleProposal
  split
  · rfl
  · split
    · rfl
    · extract_lets m s1 own s2
      have h2 : s2.reg o = s.reg o := by
        dsimp only [s2]
        split
        · rfl
        · exact State.reg_setFld_ne s1 _ _ hf
      split
      · rw [State.reg_setFld_ne _ _ _ hm, h2]
      · exact h2

theorem reg_hostPost (k tag code bay easel status port : Nat) {o : Nat} (ho : o < 0x4000000) :
    (s.hostPost k tag code bay easel status port).reg o = s.reg o := by
  unfold State.hostPost
  extract_lets q f cfg st tail phase w0 w1 addr s1 wrap s2 s3 y
  split
  · have hst : o ≠ st := by
      dsimp only [st, Reg.hqStatus]
      omega
    have h2 : s2.reg o = s.reg o := State.reg_setFld_ne s1 _ _ hst
    have h3 : s3.reg o = s.reg o := by
      dsimp only [s3]
      split
      · rw [State.reg_setFld_ne _ _ _ hst, h2]
      · exact h2
    split
    · exact h3
    · rw [State.reg, ((touches_setHq s3 _ _).then_ (touches_msix _ _ _)).regs, ← State.reg, h3]
  · rfl

theorem reg_settleLeases {o : Nat} (ho : o < 0x4000000) : s.settleLeases.reg o = s.reg o :=
  foldl_same (fun u => u.reg o) (fun u _ _ => reg_hostPost u _ _ _ _ _ _ _ ho) _

theorem reg_dropItems (i : Nat) (gone : QEnt → Bool) {o : Nat} (ho : o ≠ Reg.schedStatus i) : (s.dropItems i gone).reg o = s.reg o :=
  State.reg_setFld_ne _ _ _ ho

/-- SOLO entered with no mirrored operation outstanding. -/
theorem reg_enterSolo {o : Nat} (hw : s.pair.window = []) (ho : OffBays o) (hp : o ≠ Reg.pairStatus) (hs : o ≠ Reg.schedStatus 8) :
    s.enterSolo.reg o = s.reg o := by
  have hlog : s.logWindow.reg o = s.reg o := by
    rw [State.logWindow, hw, List.foldl_nil, State.reg_setFld_ne _ _ _ hp, State.reg, (touches_setPair _ _).regs, ← State.reg]
    exact reg_dropItems s 8 _ hs
  unfold State.enterSolo
  split
  · rfl
  · rw [reg_settleLeases _ ho.2.1, reg_pairNote _ _ ho, State.reg_setFld_ne _ _ _ hp, State.reg, (touches_setPair _ _).regs, ← State.reg,
      State.reg_setFld_ne _ _ _ hp, hlog]

theorem reg_leaveSolo {o : Nat} (hp : o ≠ Reg.pairStatus) : s.leaveSolo.reg o = s.reg o := by
  unfold State.leaveSolo
  split
  · rfl
  · exact State.reg_setFld_ne _ _ _ hp

theorem reg_newStates {o : Nat} (hw : s.pair.window = []) (ho : OffBays o) (hp : o ≠ Reg.pairStatus) (hs : o ≠ Reg.schedStatus 8)
    (hf : o ≠ Reg.fabCtrl) : s.newStates.reg o = s.reg o := by
  unfold State.newStates
  extract_lets me partner s1
  have h1 : s1.reg o = s.reg o := by
    dsimp only [s1]
    split
    · exact State.reg_setFld_ne s _ _ hf
    · rfl
  have hw1 : s1.pair.window = [] := by
    dsimp only [s1]
    split
    · exact hw
    · exact hw
  split
  · rw [reg_enterSolo s1 hw1 ho hp hs, h1]
  · split
    · rw [reg_leaveSolo s1 hp, h1]
    · exact h1

theorem fwStart_unarmed (e : Nat) (h : s.fld Reg.rotStatus Reg.rotStatus_ARMED = 0) : s.fwStart e = s := if_pos (Or.inl h)

/-- What an epoch brings with it leaves MAP.EPOCH, where nothing is outstanding and no activation armed. -/
theorem epoch_followed (r : Commit) (was : List Nat) (hw : s.pair.window = []) (ha : s.fld Reg.rotStatus Reg.rotStatus_ARMED = 0) :
    (s.followed r was).epoch = s.epoch := by
  have hfirst := (touches_activateForwards s).then_ (touches_settleProposal _ r)
  have hreg : ∀ o, OffBays o → o ≠ Reg.pairStatus → o ≠ Reg.schedStatus 8 → o ≠ Reg.fabCtrl → o ≠ Reg.fltStatus → o ≠ Reg.mapCtrl →
      (s.activateForwards.settleProposal r).newStates.reg o = s.reg o := fun o ho hp hs hf hl hm => by
    rw [reg_newStates _ (by rw [hfirst.pair, hw]) ho hp hs hf, reg_settleProposal _ _ hl hm]
    rfl
  have harm : (s.activateForwards.settleProposal r).newStates.fld Reg.rotStatus Reg.rotStatus_ARMED = 0 := by
    rw [State.fld, hreg _ (by decide) (by decide) (by decide) (by decide) (by decide) (by decide)]
    exact ha
  rw [State.followed, fwStart_unarmed _ _ harm, State.epoch, (touches_rewatch _ was).fld, State.fld,
    hreg _ (by decide) (by decide) (by decide) (by decide) (by decide) (by decide), State.epoch, State.fld]

end

/-! ## EPOCH_INSTALL (R415) -/

theorem commits_recorded (s : State) (r : Commit) : (r.target.toNat, r) ∈ (s.recorded r).map.commits := by
  show _ ∈ (s.map.commits ++ [(r.target.toNat, r)]).drop (s.map.commits.length - 63)
  rw [List.drop_append_of_le_length (Nat.sub_le _ _)]
  exact List.mem_append_right _ (List.mem_singleton_self _)

/-- A record of the next epoch is installed (R415). -/
theorem install_installs {r : Commit} {s : State} (hseed : s.fld Reg.mapEpoch Reg.mapEpoch_SEEDED = 1)
    (he : r.target.toNat = (s.epoch + 1) % 2 ^ 32) :
    SameRegisters s (s.install r) ∧ (r.target.toNat, r) ∈ (s.install r).map.commits ∧
    (r.target.toNat, s.gc + s.fld Reg.mapCtrl Reg.mapCtrl_GRACE) ∈ (s.install r).map.grace ∧
    ((r.changes.map chgNode).Nodup → ∀ c, c ∈ r.changes → chgNode c ≤ 0x3FF → ((s.install r).member (chgNode c)).1 = chgState c) ∧
    (s.pair.window = [] → s.fld Reg.rotStatus Reg.rotStatus_ARMED = 0 → (s.install r).epoch = r.target.toNat) := by
  rw [State.install_eq s hseed he]
  have htab := touches_tabled s r
  have hann := touches_announced (s.tabled r) r.target.toNat
  have hrec := touches_recorded ((s.tabled r).announced r.target.toNat) r
  have hlast := (touches_followed (((s.tabled r).announced r.target.toNat).recorded r) r s.watching).then_ (touches_backedOff _)
  refine ⟨(htab.then_ (hann.then_ (hrec.then_ hlast))).file, ?_, ?_, fun hl c hc h => ?_, fun hw ha => ?_⟩
  · rw [hlast.commits]
    exact commits_recorded _ r
  · rw [hlast.grace]
    have hctrl : ((s.tabled r).announced r.target.toNat).fld Reg.mapCtrl Reg.mapCtrl_GRACE = s.fld Reg.mapCtrl Reg.mapCtrl_GRACE := by
      rw [State.fld, reg_announced _ _ (by decide) (by decide), State.reg_setFld_ne _ _ _ (by decide), ← State.fld, htab.fld]
    have hgc : ((s.tabled r).announced r.target.toNat).gc = s.gc := hann.gc.trans htab.gc
    rw [← hctrl, ← hgc]
    exact List.mem_append_right _ (List.mem_singleton_self _)
  · rw [(hrec.then_ hlast).member, hann.member, State.tabled, member_pairUp]
    exact member_applyChanges r.changes s hl hc h
  · have hann' : ∀ o f, OffBays o → o ≠ Reg.pairStatus → (((s.tabled r).announced r.target.toNat).recorded r).fld o f =
        ((s.tabled r).setFld Reg.mapEpoch Reg.mapEpoch_EPOCH r.target.toNat).fld o f := fun o f ho hp => by
      rw [hrec.fld, State.fld, reg_announced _ _ ho hp, State.fld]
    rw [State.epoch, (touches_backedOff _).fld, ← State.epoch, epoch_followed, State.epoch, hann' _ _ (by decide) (by decide),
      State.fld_setFld_same _ _ _ _ (by decide)]
    · exact Nat.mod_eq_of_lt r.target.isLt
    · rw [hrec.pair, hann.pair, htab.pair, hw]
    · rw [hann' _ _ (by decide) (by decide), State.fld_setFld_ne _ _ _ _ (by decide), htab.fld, ha]

theorem epochInstall_exec {r : Commit} (s : State) (hr : r.changes.length ≤ 16) : exec (.epochInstall r) s = .next (s.install r) := by
  show execEpochInstall r s = _
  exact guarded_next _ _ (decide_eq_true hr)

theorem install_other {r : Commit} {s : State}
    (h : s.fld Reg.mapEpoch Reg.mapEpoch_SEEDED = 0 ∨ r.target.toNat ≠ (s.epoch + 1) % 2 ^ 32) : s.install r = s := if_pos h

end Sys2Proof.Machine

/-! # The map: proposals -/

namespace Sys2Proof.Machine

-- One theorem after another, as in the tests: side by side their stacks ask for more memory than the check allows.
set_option Elab.async false

/-! ## Records that come (R421, R425, R426) -/

theorem proposeReceive_answers {p : Nat} {r : Commit} (s : State) (hr : r.changes.length ≤ 16) (hp : p < 1024) :
    (s.isLive = false ∨ (∃ c, c ∈ r.changes ∧ 0x3FF < chgNode c) → exec (.proposeReceive p r) s = .next s) ∧
    (s.isLive = true → (∀ c, c ∈ r.changes → chgNode c ≤ 0x3FF) → r.target.toNat = (s.epoch + 1) % 2 ^ 32 →
      (s.map.accepted.find? (fun a => a.1 == r.target.toNat) = none → ∃ t, exec (.proposeReceive p r) s = .next t ∧
        t.map = { s.map with accepted := s.map.accepted ++ [(r.target.toNat, p)] } ∧ t.regs = s.regs ∧
        SameRegisters s t ∧ t.mem = s.mem) ∧
      (∀ a, s.map.accepted.find? (fun a => a.1 == r.target.toNat) = some a → ∃ t, exec (.proposeReceive p r) s = .next t ∧
        t.map = s.map ∧ t.regs = s.regs ∧ SameRegisters s t ∧ t.mem = s.mem)) := by
  have hexec : exec (.proposeReceive p r) s = execProposeReceive p r s := rfl
  unfold execProposeReceive at hexec
  rw [guarded_next _ _ (by simp [hp, hr])] at hexec
  refine ⟨fun h => ?_, fun hlive hnodes he => ?_⟩
  · have hc : (!s.isLive || r.changes.any fun c => decide (0x3FF < chgNode c)) = true := by simpa using h
    simpa only [hc, if_true] using hexec
  · have hc : (!s.isLive || r.changes.any fun c => decide (0x3FF < chgNode c)) = false := by
      simpa [hlive] using hnodes
    simp only [hc, he, Bool.false_eq_true, if_false, ne_eq, not_true] at hexec
    rw [he]
    refine ⟨fun hnone => ?_, fun a hsome => ?_⟩
    · simp only [hnone] at hexec
      have htouch := (touches_setMap s { s.map with accepted := s.map.accepted ++ [((s.epoch + 1) % 2 ^ 32, p)] }).then_
        (touches_sendCtl _ p 4 ((s.epoch + 1) % 2 ^ 32) [])
      exact ⟨_, hexec, (touches_sendCtl _ _ _ _ _).map, htouch.regs, htouch.file, htouch.mem⟩
    · simp only [hsome] at hexec
      have htouch : Touches [.fab, .ports, .out] s (if a.2 = p then s.sendCtl p 4 ((s.epoch + 1) % 2 ^ 32) []
          else s.sendCtl p 6 ((s.epoch + 1) % 2 ^ 32 + a.2 % 2 ^ 12 * 2 ^ 32) []) :=
        Touches.ite (fun _ => touches_sendCtl s _ _ _ _) fun _ => touches_sendCtl s _ _ _ _
      exact ⟨_, hexec, htouch.map, htouch.regs, htouch.file, htouch.mem⟩

theorem commitReceive_next {p : Nat} {r : Commit} (s : State) (hr : r.changes.length ≤ 16) (hp : p < 1024) :
    (s.fld Reg.mapEpoch Reg.mapEpoch_SEEDED = 0 → exec (.commitReceive p r) s = .next s) ∧
    (s.fld Reg.mapEpoch Reg.mapEpoch_SEEDED = 1 →
      (r.target.toNat = (s.epoch + 1) % 2 ^ 32 → exec (.commitReceive p r) s = exec (.epochInstall r) s) ∧
      (r.target.toNat ≠ (s.epoch + 1) % 2 ^ 32 → s.fld Reg.fabCtrl Reg.fabCtrl_MODE = 0 →
        exec (.commitReceive p r) s = .next (s.setFld Reg.mapEpoch Reg.mapEpoch_BEHIND 1)) ∧
      (r.target.toNat ≠ (s.epoch + 1) % 2 ^ 32 → s.fld Reg.fabCtrl Reg.fabCtrl_MODE ≠ 0 →
        exec (.commitReceive p r) s = .next (s.fetchUpTo p r.target.toNat))) := by
  have hexec : exec (.commitReceive p r) s = execCommitReceive p r s := rfl
  unfold execCommitReceive at hexec
  rw [guarded_next _ _ (by simp [hp, hr])] at hexec
  refine ⟨fun h => hexec.trans (congrArg Host.Outcome.next (if_pos h)), fun h => ?_⟩
  have hseed : ¬ s.fld Reg.mapEpoch Reg.mapEpoch_SEEDED = 0 := by omega
  simp only [if_neg hseed] at hexec
  refine ⟨fun he => ?_, fun he hm => ?_, fun he hm => ?_⟩
  · rw [epochInstall_exec s hr, hexec, if_pos he]
  · rw [hexec, if_neg he, if_pos hm]
  · rw [hexec, if_neg he, if_neg hm]

theorem fetchReceive_answers {n : Nat} (target : BitVec 32) (s : State) (hn : n < 1024) :
    (s.map.commits.find? (fun c => c.1 == target.toNat) = none → exec (.fetchReceive n target) s = .next s) ∧
    (∀ c, s.map.commits.find? (fun c => c.1 == target.toNat) = some c →
      exec (.fetchReceive n target) s = .next (s.sendRecord n 5 c.2)) := by
  have hexec : exec (.fetchReceive n target) s = execFetchReceive n target s := rfl
  unfold execFetchReceive at hexec
  rw [guarded_next _ _ (decide_eq_true hn)] at hexec
  refine ⟨fun h => ?_, fun c h => ?_⟩
  · simpa only [h] using hexec
  · simpa only [h] using hexec

/-! ## A majority -/

theorem quorum_le {s : State} {m n : Nat} (h : s.quorum n = false) (hmn : m ≤ n) : s.quorum m = false := by
  simp only [State.quorum, decide_eq_false_iff_not] at h ⊢
  omega

theorem Touches.quorum {K : List Part} {s t : State} (h : Touches K s t) (n : Nat) (hp : Part.members ∉ K := by decide) :
    t.quorum n = s.quorum n := by
  rw [State.quorum, State.liveNodes, show t.map.members = s.map.members from h .members hp, State.quorum, State.liveNodes]

/-- A proposal without its majority waits. -/
theorem commitIfQuorum_waits {s : State} {p : Proposal} (hp : s.map.proposal = some p) (hq : s.quorum p.accepts.length = false) :
    s.commitIfQuorum = s := by
  simp only [State.commitIfQuorum, hp, hq, Bool.false_eq_true, if_false]

/-! ## A plan (R420) -/

/-- The changes that MAP.PLAN holds. -/
def State.planChanges (s : State) : List Nat :=
  (List.range (s.fld Reg.mapCtrl Reg.mapCtrl_NCHG)).map fun i => bf (s.reg (Reg.mapPlan (i / 4))) (16 * (i % 4)) 14

/-- A plan that cannot be proposed. -/
def State.planFails (s : State) : Prop :=
  16 < s.fld Reg.mapCtrl Reg.mapCtrl_NCHG ∨ s.map.proposal.isSome = true ∨ s.isLive = false ∨ ∃ c, c ∈ s.planChanges ∧ 0x3FF < chgNode c

theorem mapPlan_next (s : State) :
    (s.planFails → exec .mapPlan s = .next (s.setFld Reg.mapCtrl Reg.mapCtrl_PLANFAIL 1)) ∧
    (¬ s.planFails → exec .mapPlan s = .next (s.propose true (s.planChanges ++ s.map.decided))) := by
  have hexec : exec .mapPlan s = execMapPlan s := rfl
  unfold execMapPlan at hexec
  have hc : (16 < s.fld Reg.mapCtrl Reg.mapCtrl_NCHG ∨ s.map.proposal.isSome ∨ !s.isLive ∨
      s.planChanges.any fun c => decide (0x3FF < chgNode c)) ↔ s.planFails := by
    simp [State.planFails]
  exact ⟨fun h => hexec.trans (congrArg Host.Outcome.next (if_pos (hc.2 h))),
    fun h => hexec.trans (congrArg Host.Outcome.next (if_neg (mt hc.1 h)))⟩

/-- A proposal of a node that is not a majority by itself waits for acceptances (R425). -/
theorem propose_proposes (s : State) (planned : Bool) (changes : List Nat) (hq : s.quorum 1 = false) :
    ∃ p, (s.propose planned changes).map.proposal = some p ∧ p.record.target = BitVec.ofNat 32 ((s.epoch + 1) % 2 ^ 32) ∧
      p.record.planned = planned ∧ p.record.changes = changes.take 16 ∧ (s.propose planned changes).map.plan = planned ∧
      Touches [.fab, .ports, .out, .map] s (s.propose planned changes) := by
  unfold State.propose
  extract_lets e r mine m s1
  have h1 : Touches [.map] s s1 := touches_setMap s _
  have h2 : Touches [.fab, .ports, .out] s1 ((s1.liveNodes.filter (· != s.node)).foldl (fun u n => u.sendRecord n 3 r) s1) :=
    Touches.foldl (fun u n => touches_sendRecord u n 3 r) _ _
  have hwait : State.commitIfQuorum ((s1.liveNodes.filter (· != s.node)).foldl (fun u n => u.sendRecord n 3 r) s1) =
      (s1.liveNodes.filter (· != s.node)).foldl (fun u n => u.sendRecord n 3 r) s1 := by
    refine commitIfQuorum_waits (p := { record := r, accepts := if mine then [s.node] else [], at_ := s.gc }) (by rw [h2.map]) ?_
    rw [(h1.then_ h2).quorum]
    refine quorum_le hq ?_
    show (if mine then [s.node] else []).length ≤ 1
    split
    · exact le_refl _
    · exact Nat.zero_le _
  rw [hwait, h2.map]
  exact ⟨_, rfl, rfl, rfl, rfl, rfl, (h1.then_ h2).mono (by decide)⟩

theorem mapPlan_proposes (s : State) (hn : s.fld Reg.mapCtrl Reg.mapCtrl_NCHG ≤ 16) (hp : s.map.proposal = none) (hl : s.isLive = true)
    (hq : s.quorum 1 = false) (hc : ∀ c, c ∈ s.planChanges → chgNode c ≤ 0x3FF) :
    ∃ t p, exec .mapPlan s = .next t ∧ t.map.proposal = some p ∧ p.record.target = BitVec.ofNat 32 ((s.epoch + 1) % 2 ^ 32) ∧
      p.record.planned = true ∧ p.record.changes = (s.planChanges ++ s.map.decided).take 16 ∧ t.map.plan = true ∧ t.regs = s.regs ∧
      SameRegisters s t ∧ t.mem = s.mem := by
  have hfails : ¬ s.planFails := by
    rintro (h | h | h | ⟨c, h, h'⟩)
    · omega
    · simp [hp] at h
    · simp [hl] at h
    · exact absurd (hc c h) (not_le.2 h')
  obtain ⟨p, hprop, htarget, hplanned, hchanges, hplan, htouch⟩ := propose_proposes s true (s.planChanges ++ s.map.decided) hq
  exact ⟨_, p, (mapPlan_next s).2 hfails, hprop, htarget, hplanned, hchanges, hplan, htouch.regs, htouch.file, htouch.mem⟩

/-! ## Acceptances and aborts (R425) -/

theorem acceptReceive_none {n : Nat} (target : BitVec 32) {s : State} (hn : n < 1024) (hp : s.map.proposal = none) :
    exec (.acceptReceive n target) s = .next s := by
  have hexec : exec (.acceptReceive n target) s = execAcceptReceive n target s := rfl
  unfold execAcceptReceive at hexec
  rw [guarded_next _ _ (decide_eq_true hn)] at hexec
  simpa only [hp] using hexec

theorem acceptReceive_counts {n : Nat} {p : Proposal} {s : State} (hn : n < 1024) (hp : s.map.proposal = some p) :
    (p.accepts.contains n = true ∨ s.liveNodes.contains n = false → exec (.acceptReceive n p.record.target) s = .next s) ∧
    (p.accepts.contains n = false → s.liveNodes.contains n = true → s.quorum (p.accepts.length + 1) = false →
      exec (.acceptReceive n p.record.target) s =
        .next { s with map := { s.map with proposal := some { p with accepts := p.accepts ++ [n] } } }) := by
  have hexec : exec (.acceptReceive n p.record.target) s = execAcceptReceive n p.record.target s := rfl
  unfold execAcceptReceive at hexec
  rw [guarded_next _ _ (decide_eq_true hn)] at hexec
  simp only [hp] at hexec
  refine ⟨fun h => ?_, fun ha hl hq => ?_⟩
  · rw [if_pos (Or.inr (by simpa using h))] at hexec
    exact hexec
  · rw [if_neg (by rw [ha, hl]; simp)] at hexec
    rw [hexec, commitIfQuorum_waits (p := { p with accepts := p.accepts ++ [n] }) rfl]
    rw [List.length_append]
    exact hq

theorem abortReceive_next {n a : Nat} {s : State} (hn : n < 1024) (ha : a < 4096) :
    (∀ target, s.map.proposal = none → exec (.abortReceive n target a) s =
      .next { s with map := { s.map with accepted := s.map.accepted.filter fun x => x != (target.toNat, n) } }) ∧
    (∀ p, s.map.proposal = some p → exec (.abortReceive n p.record.target a) s =
      .next (s.setFld Reg.fltStatus Reg.fltStatus_COLLEV 1)) := by
  have hexec : ∀ target, exec (.abortReceive n target a) s = execAbortReceive n target a s := fun _ => rfl
  unfold execAbortReceive at hexec
  refine ⟨fun target hp => ?_, fun p hp => ?_⟩
  · have h := hexec target
    rw [guarded_next _ _ (by simp [hn, ha])] at h
    simpa only [hp] using h
  · have h := hexec p.record.target
    rw [guarded_next _ _ (by simp [hn, ha])] at h
    simpa only [hp, if_true] using h

/-! ## Time (R425) -/

/-- The proposal of a state given up. -/
def State.givenUp (s : State) (e : Nat) : State :=
  { s with map := { s.map with proposal := none, plan := false, backoff := some (s.gc + 1000 * (s.node % 16))
                               accepted := s.map.accepted.filter fun a => a != (e, s.node) } }

/-- The state in which the ABORT frames of a proposal are sent. -/
def State.abortSent (s : State) (e : Nat) : State :=
  (s.liveNodes.filter (· != s.node)).foldl (fun u n => u.sendCtl n 6 (e + s.node % 2 ^ 12 * 2 ^ 32) []) s

theorem touches_abortSent (s : State) (e : Nat) : Touches [.fab, .ports, .out] s (s.abortSent e) :=
  Touches.foldl (fun u n => touches_sendCtl u n _ _ _) _ _

/-- FLT.STATUS.COLLEV, and MAP.CTRL.PLANFAIL for a plan. -/
def State.collision (s : State) (planned : Bool) : State :=
  if planned then (s.setFld Reg.fltStatus Reg.fltStatus_COLLEV 1).setFld Reg.mapCtrl Reg.mapCtrl_PLANFAIL 1
  else s.setFld Reg.fltStatus Reg.fltStatus_COLLEV 1

theorem touches_collision (s : State) (planned : Bool) : Touches [.regs] s (s.collision planned) :=
  Touches.ite (fun _ => (touches_setFld s _ _ _).trans (touches_setFld _ _ _ _)) fun _ => touches_setFld s _ _ _

theorem fld_collision (s : State) (planned : Bool) : (s.collision planned).fld Reg.fltStatus Reg.fltStatus_COLLEV = 1 ∧
    (planned = true → (s.collision planned).fld Reg.mapCtrl Reg.mapCtrl_PLANFAIL = 1) := by
  have hcoll : (s.setFld Reg.fltStatus Reg.fltStatus_COLLEV 1).fld Reg.fltStatus Reg.fltStatus_COLLEV = 1 :=
    State.fld_setFld_same _ _ _ _ (by decide)
  unfold State.collision
  refine ⟨?_, fun h => ?_⟩
  · split
    · rw [State.fld_setFld_ne _ _ _ _ (by decide), hcoll]
    · exact hcoll
  · rw [if_pos h]
    exact State.fld_setFld_same _ _ _ _ (by decide)

theorem accwaitExpiry_backsOff (s : State) :
    (s.map.proposal = none → exec .accwaitExpiry s = .next s) ∧
    (∀ p, s.map.proposal = some p → ∃ t, exec .accwaitExpiry s = .next t ∧ t.map.proposal = none ∧ t.map.plan = false ∧
      t.map.backoff = some (t.gc + 1000 * (s.node % 16)) ∧ t.fld Reg.fltStatus Reg.fltStatus_COLLEV = 1 ∧
      (p.record.planned = true → t.fld Reg.mapCtrl Reg.mapCtrl_PLANFAIL = 1) ∧ SameRegisters s t ∧ t.mem = s.mem) := by
  have hexec : exec .accwaitExpiry s = execAccwaitExpiry s := rfl
  unfold execAccwaitExpiry at hexec
  refine ⟨fun hp => by simpa only [hp] using hexec, fun p hp => ?_⟩
  simp only [hp] at hexec
  have hwait : Touches [.ec, .regs] s (s.passTo (96 * (p.at_ + s.fld Reg.fltTimer1 Reg.fltTimer1_ACCWAIT))) := touches_passTo s _
  have hnode : (s.passTo (96 * (p.at_ + s.fld Reg.fltTimer1 Reg.fltTimer1_ACCWAIT))).node = s.node := by
    rw [State.node, State.fld_passTo _ _ Reg.fabId Reg.fabId_NODE, State.node]
  generalize s.passTo (96 * (p.at_ + s.fld Reg.fltTimer1 Reg.fltTimer1_ACCWAIT)) = u at hexec hwait hnode
  have hup : Touches [.map] u (u.givenUp p.record.target.toNat) := touches_setMap u _
  have hend := (touches_abortSent (u.givenUp p.record.target.toNat) p.record.target.toNat).then_ (touches_collision _ p.record.planned)
  have htouch := hwait.then_ (hup.then_ hend)
  obtain ⟨hcoll, hplan⟩ := fld_collision ((u.givenUp p.record.target.toNat).abortSent p.record.target.toNat) p.record.planned
  refine ⟨((u.givenUp p.record.target.toNat).abortSent p.record.target.toNat).collision p.record.planned, hexec, ?_, ?_, ?_, hcoll, hplan,
    htouch.file, htouch.mem⟩
  · rw [hend.map]
    rfl
  · rw [hend.map]
    rfl
  · rw [hend.map, (hup.then_ hend).gc, ← hnode]
    rfl

theorem reproposeTimerExpiry_ends (s : State) :
    (s.map.backoff = none → exec .reproposeTimerExpiry s = .next s) ∧
    (∀ g, s.map.backoff = some g → s.map.decided = [] → ∃ t, exec .reproposeTimerExpiry s = .next t ∧ t.map.backoff = none ∧
      g ≤ t.gc ∧ SameRegisters s t ∧ t.mem = s.mem) := by
  have hexec : exec .reproposeTimerExpiry s = execReproposeTimerExpiry s := rfl
  unfold execReproposeTimerExpiry at hexec
  refine ⟨fun hb => by simpa only [hb] using hexec, fun g hb hd => ?_⟩
  simp only [hb] at hexec
  have hpass := touches_passTo s (96 * g)
  have hmap := touches_setMap (s.passTo (96 * g)) { (s.passTo (96 * g)).map with backoff := none }
  have hnothing : State.proposeDecided { s.passTo (96 * g) with map := { (s.passTo (96 * g)).map with backoff := none } } =
      { s.passTo (96 * g) with map := { (s.passTo (96 * g)).map with backoff := none } } := by
    refine if_pos ?_
    show (_ || (s.passTo (96 * g)).map.decided.isEmpty || _) = true
    rw [hpass.map, hd]
    simp
  rw [hnothing] at hexec
  exact ⟨_, hexec, rfl, s.le_gc_passTo g, (hpass.then_ hmap).file, (hpass.then_ hmap).mem⟩

/-! ## Every clause of the map -/

/-- Settles O44: the tables and the windows by what their steps touch, an installation by the steps it is cut into, proposals by their
counts of acceptances. -/
theorem epochsAreSeededProposedAndInstalled : Obligations.EpochsAreSeededProposedAndInstalled := by
  refine ⟨fun s => ?_, fun r s hr => ?_, fun s => ?_⟩
  · obtain ⟨hnot, hseed⟩ := mapSeed_seeds s
    refine ⟨hnot, hseed, fun n hn => ⟨mapMemberopWrite_writes s hn, mapMemberopRead_reads s hn⟩,
      fun i hi => ⟨mapFwdopWrite_writes s hi, mapFwdopRead_reads s hi⟩, fun e g hg => (graceClose_closes e s).1 g hg,
      fun e hg => (graceClose_closes e s).2 hg⟩
  · refine ⟨fun h => by rw [epochInstall_exec s hr, install_other h], fun hseed he => ⟨_, epochInstall_exec s hr, install_installs hseed he⟩,
      fun p hp => ?_⟩
    obtain ⟨hnot, hprop⟩ := proposeReceive_answers s hr hp
    obtain ⟨hunseeded, hcommit⟩ := commitReceive_next s hr hp
    exact ⟨hnot, hprop, hunseeded, hcommit⟩
  · intro chg
    obtain ⟨hnone, hback⟩ := accwaitExpiry_backsOff s
    obtain ⟨hnoTimer, htimer⟩ := reproposeTimerExpiry_ends s
    exact ⟨(mapPlan_next s).1, mapPlan_proposes s, fun n target hn hp => acceptReceive_none target hn hp,
      fun n p hn hp => acceptReceive_counts hn hp, fun n target a hn ha hp => (abortReceive_next hn ha).1 target hp,
      fun n p a hn ha hp => (abortReceive_next hn ha).2 p hp, hnone, hback, hnoTimer, htimer,
      fun n target hn hf => (fetchReceive_answers target s hn).1 hf, fun n target c hn hf => (fetchReceive_answers target s hn).2 c hf⟩

end Sys2Proof.Machine

/-! # The host interface: its links -/

namespace Sys2Proof.Machine

-- One theorem after another, as in the tests: side by side their stacks ask for more memory than the check allows.
set_option Elab.async false

/-- What a fold over units sets for one of them, where the steps of the others keep it. -/
theorem foldl_sets {α β : Type} (P : State → β) {f : State → α → State} {l : List α} {a : α} {c : β} (hset : ∀ u, P (f u a) = c)
    (hkeep : ∀ u, ∀ b ∈ l, b ≠ a → P (f u b) = P u) (ha : a ∈ l) (s : State) : P (l.foldl f s) = c := by
  induction l generalizing s with
  | nil => cases ha
  | cons b l ih =>
    rw [List.foldl_cons]
    by_cases h : a ∈ l
    · exact ih (fun u d hd => hkeep u d (List.mem_cons_of_mem b hd)) h _
    · obtain rfl : a = b := (List.mem_cons.1 ha).resolve_right h
      rw [foldl_same P (fun u d hd => hkeep u d (List.mem_cons_of_mem a hd) fun hda => h (hda ▸ hd)), hset]

theorem getD_putAt_same {α : Type} {l : List α} {i : Nat} (x d : α) (hi : i < l.length) : (putAt l i x).getD i d = x := by
  have hlen : (l.take i).length = i := List.length_take_of_le (le_of_lt hi)
  rw [putAt, patch, List.getD_eq_getElem?_getD, List.getElem?_take_of_lt hi, List.append_assoc, List.getElem?_append_right (le_of_eq hlen),
    hlen, Nat.sub_self]
  rfl

section

variable (s : State)

/-! ## Fetches of client records and queues that are cut -/

theorem touches_setFetching (l : List Nat) : Touches [.fab, .fetching] s { s with fab := { s.fab with fetching := l } } := by
  intro p hp
  cases p <;> simp [Part.Same, SameRegisters, State.prog, State.bay] at hp ⊢

theorem touches_recordLost (c : Nat) : Touches [.fab, .fetching, .ports, .regs, .host] s (s.recordLost c) :=
  ((touches_setFetching s _).then_ ((Touches.foldl (fun u p => touches_updPort u p _) _ _).then_ (touches_fabEvent _ _))).mono (by decide)

/-- The part of a failed fetch before its event. -/
def State.recordGone (s : State) (conn : Nat) : State :=
  (List.range 8).foldl (fun u p => u.updPort p fun y => { y with miss := y.miss.filter fun e => frConn e.1 != 4096 + conn })
    { s with fab := { s.fab with fetching := s.fab.fetching.filter (· != 4096 + conn) } }

theorem touches_recordGone (c : Nat) : Touches [.fab, .fetching, .ports] s (s.recordGone c) :=
  ((touches_setFetching s _).then_ (Touches.foldl (fun u p => touches_updPort u p _) _ _)).mono (by decide)

theorem reg_recordLost (c : Nat) {o : Nat} (ho : o ≠ Reg.globalEverr) : (s.recordLost c).reg o = s.reg o := by
  show ((s.recordGone c).fabEvent c).reg o = s.reg o
  rw [State.fabEvent, State.reg_log _ _ _ _ _ _ ho, State.reg, (touches_recordGone s c).regs, State.reg]

theorem touches_endFetches : Touches [.fab, .fetching, .ports, .regs, .host] s s.endFetches :=
  Touches.foldl (fun u _ => ((touches_setHost u _).then_ (touches_recordLost _ _)).mono (by decide)) _ _

theorem reg_endFetches {o : Nat} (ho : o ≠ Reg.globalEverr) : s.endFetches.reg o = s.reg o := by
  unfold State.endFetches
  refine foldl_same (fun u => u.reg o) (fun u r _ => ?_) s
  rw [reg_recordLost _ _ ho, State.reg, (touches_setHost u _).regs, State.reg]

theorem touches_hqCut (q : Nat) : Touches [.host] s (s.hqCut q) := touches_setHq s _ _

/-! ## A link set (R531, R532) -/

/-- The rate and the width of a link, and LOWRATE. -/
def State.linkShown (s : State) (f rate width : Nat) : State :=
  let l := Reg.hostLink
  let s1 := (s.setFld l (linkRate f) rate).setFld l (linkWidth f) (if rate = 0 then 0 else width)
  let low := fun g => decide (1 ≤ s1.fld l (linkRate g) ∧ s1.fld l (linkRate g) ≤ 4)
  s1.setFld l Reg.hostLink_LOWRATE (b2n (low 0 || low 1))

/-- What a link that goes down leaves undone. -/
def State.linkLost (s : State) (f : Nat) (queues : List Nat) : State :=
  let s3 := queues.foldl (fun u q => u.hqCut q) (s.setFld Reg.hostErr Reg.hostErr_DOWNEV 1)
  if f = 0 then s3.endFetches else s3

theorem setLink_eq (f rate width : Nat) : s.setLink f rate width =
    if rate = 0 ∧ s.fld Reg.hostLink (linkRate f) ≠ 0 then (s.linkShown f rate width).linkLost f (s.funcQueues f)
    else s.linkShown f rate width := rfl

theorem touches_linkShown (f rate width : Nat) : Touches [.regs] s (s.linkShown f rate width) :=
  (touches_setFld s _ _ _).trans ((touches_setFld _ _ _ _).trans (touches_setFld _ _ _ _))

theorem touches_linkLost (f : Nat) (queues : List Nat) : Touches [.fab, .fetching, .ports, .regs, .host] s (s.linkLost f queues) := by
  unfold State.linkLost
  extract_lets s3
  have h3 : Touches [.fab, .fetching, .ports, .regs, .host] s s3 :=
    ((touches_setFld s _ _ _).then_ (Touches.foldl (fun u q => touches_hqCut u q) _ _)).mono (by decide)
  exact Touches.ite (fun _ => h3.trans (touches_endFetches s3)) fun _ => h3

theorem reg_linkLost (f : Nat) (queues : List Nat) {o : Nat} (ho : o ≠ Reg.globalEverr) :
    (s.linkLost f queues).reg o = (s.setFld Reg.hostErr Reg.hostErr_DOWNEV 1).reg o := by
  unfold State.linkLost
  extract_lets s3
  have h3 : s3.reg o = (s.setFld Reg.hostErr Reg.hostErr_DOWNEV 1).reg o :=
    foldl_same (fun u => u.reg o) (f := fun u q => u.hqCut q) (fun _ _ _ => rfl) _
  split
  · rw [reg_endFetches s3 ho, h3]
  · exact h3

theorem touches_setLink (f rate width : Nat) : Touches [.fab, .fetching, .ports, .regs, .host] s (s.setLink f rate width) := by
  have h := touches_linkShown s f rate width
  rw [setLink_eq]
  exact Touches.ite (fun _ => (h.then_ (touches_linkLost _ _ _)).mono (by decide)) fun _ => h.mono (by decide)

theorem fldLink_setLink (f rate width : Nat) (g : Fld) :
    (s.setLink f rate width).fld Reg.hostLink g = (s.linkShown f rate width).fld Reg.hostLink g := by
  rw [setLink_eq]
  split
  · rw [State.fld, reg_linkLost _ _ _ (by decide), State.reg_setFld_ne _ _ _ (by decide), State.fld]
  · rfl

theorem downev_setLink {f rate : Nat} (width : Nat) (hr : rate = 0) (hwas : s.fld Reg.hostLink (linkRate f) ≠ 0) :
    (s.setLink f rate width).fld Reg.hostErr Reg.hostErr_DOWNEV = 1 := by
  rw [setLink_eq, if_pos ⟨hr, hwas⟩, State.fld, reg_linkLost _ _ _ (by decide), ← State.fld]
  exact State.fld_setFld_same _ _ _ _ (by decide)

/-- The rate fields lie apart from the others of HOST.LINK. -/
theorem linkRate_apart (f : Nat) : (linkRate f).lo + (linkRate f).w ≤ 64 ∧ (linkRate f).w = 3 ∧
    ((linkWidth f).lo + (linkWidth f).w ≤ (linkRate f).lo ∨ (linkRate f).lo + (linkRate f).w ≤ (linkWidth f).lo) ∧
    (Reg.hostLink_LOWRATE.lo + Reg.hostLink_LOWRATE.w ≤ (linkRate f).lo ∨ (linkRate f).lo + (linkRate f).w ≤ Reg.hostLink_LOWRATE.lo) := by
  unfold linkRate linkWidth
  split <;> decide

theorem linkWidth_apart (f : Nat) : (linkWidth f).lo + (linkWidth f).w ≤ 64 ∧ (linkWidth f).w = 5 ∧
    (Reg.hostLink_LOWRATE.lo + Reg.hostLink_LOWRATE.w ≤ (linkWidth f).lo ∨
      (linkWidth f).lo + (linkWidth f).w ≤ Reg.hostLink_LOWRATE.lo) := by
  unfold linkWidth
  split <;> decide

/-- HOST.LINK of a link just set. -/
theorem linkShown_shows (f : Nat) {rate width : Nat} (hr : rate < 8) (hw : width < 32) :
    (s.linkShown f rate width).fld Reg.hostLink (linkRate f) = rate ∧
    (s.linkShown f rate width).fld Reg.hostLink (linkWidth f) = (if rate = 0 then 0 else width) ∧
    ((s.linkShown f rate width).fld Reg.hostLink Reg.hostLink_LOWRATE = 1 ↔
      ∃ g, g < 2 ∧ 1 ≤ (s.linkShown f rate width).fld Reg.hostLink (linkRate g) ∧
        (s.linkShown f rate width).fld Reg.hostLink (linkRate g) ≤ 4) := by
  obtain ⟨hrate, hrw, hrapart, -⟩ := linkRate_apart f
  obtain ⟨hwidth, hww, hwapart⟩ := linkWidth_apart f
  unfold State.linkShown
  extract_lets l s1 low
  have hlow : ∀ g, (s1.setFld l Reg.hostLink_LOWRATE (b2n (low 0 || low 1))).fld l (linkRate g) = s1.fld l (linkRate g) := fun g =>
    State.fld_setFld_apart _ _ _ _ _ (by decide) (linkRate_apart g).2.2.2
  refine ⟨?_, ?_, ?_⟩
  · rw [hlow, State.fld_setFld_apart _ _ _ _ _ hwidth hrapart, State.fld_setFld_same _ _ _ _ hrate, hrw]
    exact Nat.mod_eq_of_lt hr
  · rw [State.fld_setFld_apart _ _ _ _ _ (by decide) hwapart, State.fld_setFld_same _ _ _ _ hwidth, hww]
    split
    · rfl
    · exact Nat.mod_eq_of_lt hw
  · simp only [show ∀ g, State.fld _ Reg.hostLink (linkRate g) = _ from hlow]
    rw [State.fld_setFld_same _ _ _ _ (by decide)]
    have hbit : b2n (low 0 || low 1) % 2 ^ Reg.hostLink_LOWRATE.w = 1 ↔ low 0 = true ∨ low 1 = true := by
      rw [← Bool.or_eq_true]
      cases low 0 || low 1 <;> decide
    rw [hbit]
    constructor
    · rintro (h | h)
      · exact ⟨0, by decide, of_decide_eq_true h⟩
      · exact ⟨1, by decide, of_decide_eq_true h⟩
    · rintro ⟨g, hg, h⟩
      obtain rfl | rfl : g = 0 ∨ g = 1 := by omega
      · exact Or.inl (decide_eq_true h)
      · exact Or.inr (decide_eq_true h)

theorem setLink_shows (f : Nat) {rate width : Nat} (hr : rate < 8) (hw : width ∈ [0, 4, 8, 16]) :
    (s.setLink f rate width).fld Reg.hostLink (linkRate f) = rate ∧
    (s.setLink f rate width).fld Reg.hostLink (linkWidth f) = (if rate = 0 then 0 else width) ∧
    ((s.setLink f rate width).fld Reg.hostLink Reg.hostLink_LOWRATE = 1 ↔
      ∃ g, g < 2 ∧ 1 ≤ (s.setLink f rate width).fld Reg.hostLink (linkRate g) ∧
        (s.setLink f rate width).fld Reg.hostLink (linkRate g) ≤ 4) ∧
    (rate = 0 → s.fld Reg.hostLink (linkRate f) ≠ 0 → (s.setLink f rate width).fld Reg.hostErr Reg.hostErr_DOWNEV = 1) ∧
    SameRegisters s (s.setLink f rate width) ∧ (s.setLink f rate width).mem = s.mem := by
  have hw' : width < 32 := by
    simp only [List.mem_cons, List.not_mem_nil, or_false] at hw
    omega
  obtain ⟨hrate, hwidth, hlow⟩ := linkShown_shows s f hr hw'
  simp only [fldLink_setLink]
  exact ⟨hrate, hwidth, hlow, downev_setLink s width, (touches_setLink s f rate width).file, (touches_setLink s f rate width).mem⟩

/-- HOST_LINK_CHANGE (R530, R531). -/
theorem hostLinkChange_next {f rate width : Nat} (hf : f < 2) (hr : rate < 8) (hw : width ∈ [0, 4, 8, 16]) :
    ((¬ s.hasFunc f = true ∨ s.host.perst.getD f true = true ∨ (s.bif = true ∧ 8 < width) ∨ (rate ≠ 0 ∧ width = 0) ∨ 3 ≤ s.boot.phase) →
      exec (.hostLinkChange f rate width) s = .next s) ∧
    (¬ (¬ s.hasFunc f = true ∨ s.host.perst.getD f true = true ∨ (s.bif = true ∧ 8 < width) ∨ (rate ≠ 0 ∧ width = 0) ∨ 3 ≤ s.boot.phase) →
      exec (.hostLinkChange f rate width) s = .next (s.setLink f rate width)) := by
  have hexec : exec (.hostLinkChange f rate width) s = execHostLinkChange f rate width s := rfl
  unfold execHostLinkChange at hexec
  rw [guarded_next _ _ (by simp only [decide_eq_true hf, decide_eq_true hr, Bool.true_and]; exact List.contains_iff_mem.2 hw)] at hexec
  have hc : (!s.hasFunc f || s.host.perst.getD f true || (s.bif && decide (8 < width)) || (decide (rate ≠ 0) && decide (width = 0))
      || decide (3 ≤ s.boot.phase)) = true ↔
      (¬ s.hasFunc f = true ∨ s.host.perst.getD f true = true ∨ (s.bif = true ∧ 8 < width) ∨ (rate ≠ 0 ∧ width = 0) ∨ 3 ≤ s.boot.phase) := by
    simp [or_assoc]
  exact ⟨fun h => hexec.trans (congrArg Host.Outcome.next (if_pos (hc.2 h))),
    fun h => hexec.trans (congrArg Host.Outcome.next (if_neg (mt hc.1 h)))⟩

/-! ## PERST_N (R532, R534) -/

theorem Touches.hq {K : List Part} {s t : State} (h : Touches K s t) (q : Nat) (hp : Part.host ∉ K := by decide) : t.hq q = s.hq q := by
  rw [State.hq, h.host hp, State.hq]

/-- The registers of a queue as after reset, and what it holds dropped. -/
def State.queueReset (s : State) (q : Nat) : State :=
  [Reg.hqSqbase q, Reg.hqCqbase q, Reg.hqCfg q, Reg.hqStatus q].foldl (fun v o => v.setReg o (regReset o))
    ((s.dropReads q).setHq q { gen := (s.hq q).gen + 1 })

/-- The registers of an aperture cleared. -/
def State.apertureReset (s : State) (n : Nat) : State := (s.setReg (Reg.hostAp0 n) 0).setReg (Reg.hostAp1 n) 0

theorem touches_queueReset (q : Nat) : Touches [.host, .regs] s (s.queueReset q) :=
  ((touches_setHost s _).trans (touches_setHq _ _ _)).then_ (Touches.foldl (fun v o => touches_setReg v o _) _ _)

theorem touches_apertureReset (n : Nat) : Touches [.regs] s (s.apertureReset n) := (touches_setReg s _ _).trans (touches_setReg _ _ _)

theorem reg_queueReset (q o : Nat) : (s.queueReset q).reg o =
    if o = Reg.hqSqbase q ∨ o = Reg.hqCqbase q ∨ o = Reg.hqCfg q ∨ o = Reg.hqStatus q then regReset o else s.reg o := by
  simp only [State.queueReset, List.foldl_cons, List.foldl_nil, State.reg_setReg]
  by_cases h : o = Reg.hqSqbase q ∨ o = Reg.hqCqbase q ∨ o = Reg.hqCfg q ∨ o = Reg.hqStatus q
  · rw [if_pos h]
    rcases h with rfl | rfl | rfl | rfl <;> simp [Reg.hqSqbase, Reg.hqCqbase, Reg.hqCfg, Reg.hqStatus]
  · rw [if_neg h]
    simp only [not_or] at h
    obtain ⟨hsq, hcq, hcfg, hst⟩ := h
    rw [if_neg hst, if_neg hcfg, if_neg hcq, if_neg hsq]
    rfl

theorem host_queueReset (q : Nat) : (s.queueReset q).host = ((s.dropReads q).setHq q { gen := (s.hq q).gen + 1 }).host := by
  unfold State.queueReset
  exact (Touches.foldl (fun v o => touches_setReg v o (regReset o)) _ _).host

theorem hq_queueReset (q r : Nat) : (s.queueReset q).hq r = if r = q then { gen := (s.hq q).gen + 1 } else s.hq r := by
  rw [State.hq, host_queueReset]
  simp [State.setHq, State.dropReads, State.hq, SMap.get_set]

theorem reg_apertureReset (n o : Nat) : (s.apertureReset n).reg o =
    if o = Reg.hostAp0 n ∨ o = Reg.hostAp1 n then 0 else s.reg o := by
  rw [State.apertureReset, State.reg_setReg, State.reg_setReg]
  by_cases h1 : o = Reg.hostAp1 n
  · simp [h1]
  · by_cases h0 : o = Reg.hostAp0 n
    · simp [h0]
    · simp [h0, h1]

/-- Every queue of a list and every aperture as after reset. -/
def State.functionReset (s : State) (queues : List Nat) : State :=
  (List.range 64).foldl (fun u n => u.apertureReset n) (queues.foldl (fun u q => u.queueReset q) s)

theorem touches_apertures : Touches [.regs] s ((List.range 64).foldl (fun u n => u.apertureReset n) s) :=
  Touches.foldl (fun u n => touches_apertureReset u n) _ _

theorem touches_functionReset (queues : List Nat) : Touches [.host, .regs] s (s.functionReset queues) :=
  ((Touches.foldl (fun u q => touches_queueReset u q) _ s).then_ (touches_apertures _)).mono (by decide)

theorem reg_functionReset_aperture (queues : List Nat) {n : Nat} (hn : n < 64) :
    (s.functionReset queues).reg (Reg.hostAp0 n) = 0 ∧ (s.functionReset queues).reg (Reg.hostAp1 n) = 0 := by
  have hne : ∀ m, m ≠ n → ∀ o, o = Reg.hostAp0 n ∨ o = Reg.hostAp1 n → ¬ (o = Reg.hostAp0 m ∨ o = Reg.hostAp1 m) := by
    intro m hm o ho
    unfold Reg.hostAp0 Reg.hostAp1 at *
    omega
  refine ⟨foldl_sets (fun u => u.reg (Reg.hostAp0 n)) (fun u => ?_) (fun u m _ hm => ?_) (List.mem_range.2 hn) _,
    foldl_sets (fun u => u.reg (Reg.hostAp1 n)) (fun u => ?_) (fun u m _ hm => ?_) (List.mem_range.2 hn) _⟩
  · rw [reg_apertureReset, if_pos (Or.inl rfl)]
  · rw [reg_apertureReset, if_neg (hne m hm _ (Or.inl rfl))]
  · rw [reg_apertureReset, if_pos (Or.inr rfl)]
  · rw [reg_apertureReset, if_neg (hne m hm _ (Or.inr rfl))]

theorem functionReset_queue (queues : List Nat) {q : Nat} (hq : q ∈ queues) :
    (s.functionReset queues).reg (Reg.hqCfg q) = regReset (Reg.hqCfg q) ∧
    (s.functionReset queues).reg (Reg.hqStatus q) = regReset (Reg.hqStatus q) ∧ ((s.functionReset queues).hq q).buf = [] := by
  have hap : ∀ (u : State) o, 0x4000000 ≤ o → ((List.range 64).foldl (fun u n => u.apertureReset n) u).reg o = u.reg o := fun u o ho => by
    refine foldl_same (fun u => u.reg o) (fun u n hn => ?_) u
    rw [reg_apertureReset, if_neg]
    have := List.mem_range.1 hn
    unfold Reg.hostAp0 Reg.hostAp1
    omega
  have hcfg : ∀ u, (State.queueReset u q).reg (Reg.hqCfg q) = regReset (Reg.hqCfg q) := fun u => by rw [reg_queueReset, if_pos (by simp)]
  have hst : ∀ u, (State.queueReset u q).reg (Reg.hqStatus q) = regReset (Reg.hqStatus q) := fun u => by rw [reg_queueReset, if_pos (by simp)]
  have hne : ∀ r, r ≠ q → ∀ o, o = Reg.hqCfg q ∨ o = Reg.hqStatus q →
      ¬ (o = Reg.hqSqbase r ∨ o = Reg.hqCqbase r ∨ o = Reg.hqCfg r ∨ o = Reg.hqStatus r) := by
    intro r hr o ho
    unfold Reg.hqSqbase Reg.hqCqbase Reg.hqCfg Reg.hqStatus at *
    omega
  refine ⟨?_, ?_, ?_⟩
  · rw [State.functionReset, hap _ _ (by unfold Reg.hqCfg; omega)]
    exact foldl_sets (fun u => u.reg (Reg.hqCfg q)) hcfg
      (fun u r _ hr => by rw [reg_queueReset, if_neg (hne r hr _ (Or.inl rfl))]) hq _
  · rw [State.functionReset, hap _ _ (by unfold Reg.hqStatus; omega)]
    exact foldl_sets (fun u => u.reg (Reg.hqStatus q)) hst
      (fun u r _ hr => by rw [reg_queueReset, if_neg (hne r hr _ (Or.inr rfl))]) hq _
  · rw [State.functionReset, (touches_apertures _).hq]
    exact foldl_sets (fun u => (u.hq q).buf) (fun u => by rw [hq_queueReset, if_pos rfl])
      (fun u r _ hr => by rw [hq_queueReset, if_neg (Ne.symm hr)]) hq _

/-- Queues and apertures reset leave the pins and the sizes of the functions. -/
theorem host_functionReset (queues : List Nat) :
    (s.functionReset queues).host.perst = s.host.perst ∧ (s.functionReset queues).host.bar4 = s.host.bar4 := by
  rw [State.functionReset, (touches_apertures _).host]
  refine ⟨foldl_same (fun u => u.host.perst) (fun u q _ => ?_) s, foldl_same (fun u => u.host.bar4) (fun u q _ => ?_) s⟩
  · rw [host_queueReset]
    rfl
  · rw [host_queueReset]
    rfl

/-- PERST_N of a function as it stands. -/
def State.pinned (s : State) (f : Nat) (a : Bool) : State := { s with host := { s.host with perst := putAt s.host.perst f a } }

/-- The size of a function's BAR4 in force. -/
def State.sized (s : State) (f size : Nat) : State := { s with host := { s.host with bar4 := putAt s.host.bar4 f size } }

theorem perst_sized (f size : Nat) : (s.sized f size).host.perst = s.host.perst := rfl

theorem bar4_sized (f size : Nat) : (s.sized f size).host.bar4 = putAt s.host.bar4 f size := rfl

theorem hq_sized (f size q : Nat) : (s.sized f size).hq q = s.hq q := rfl

theorem bar4_pinned (f : Nat) (a : Bool) : (s.pinned f a).host.bar4 = s.host.bar4 := rfl

theorem perstChange_next {f : Nat} (hf : f < 2) (a : Bool) :
    (¬ s.hasFunc f = true → exec (.perstChange f a) s = .next (s.pinned f a)) ∧
    (s.hasFunc f = true → a = true → exec (.perstChange f a) s = .next ((s.pinned f a).setLink f 0 0)) ∧
    (s.hasFunc f = true → a = false → s.host.perst.getD f true = false → exec (.perstChange f a) s = .next s) ∧
    (s.hasFunc f = true → a = false → s.host.perst.getD f true = true → ∃ n, exec (.perstChange f a) s = .next
      ((((s.pinned f a).functionReset ((s.pinned f a).funcQueues f)).sized f (s.fld Reg.hostCfg Reg.hostCfg_BAR4SIZE)).setFld
        Reg.hostCfg Reg.hostCfg_BAR4PEND n)) := by
  have hexec : exec (.perstChange f a) s = execPerstChange f a s := rfl
  unfold execPerstChange at hexec
  rw [guarded_next _ _ (decide_eq_true hf)] at hexec
  refine ⟨fun h => ?_, fun h ha => ?_, fun h ha hp => ?_, fun h ha hp => ?_⟩
  · rw [Bool.not_eq_true] at h
    rw [h, if_pos (by decide)] at hexec
    exact hexec
  · rw [h, if_neg (by decide), if_pos ha] at hexec
    exact hexec
  · rw [h, ha, if_neg (by decide), if_neg (by decide), hp, if_pos (by decide)] at hexec
    rw [ha]
    exact hexec
  · rw [h, ha, if_neg (by decide), if_neg (by decide), hp, if_neg (by decide)] at hexec
    rw [ha]
    exact ⟨_, hexec⟩

/-- A function that comes out of PERST_N. -/
theorem perstChange_resets {f : Nat} (hf : f < 2) {a : Bool} (h : s.hasFunc f = true) (ha : a = false)
    (hp : s.host.perst.getD f true = true) : ∃ t, exec (.perstChange f a) s = .next t ∧
      t.host.perst = (s.pinned f a).host.perst ∧ SameRegisters s t ∧ t.mem = s.mem ∧
      (f < s.host.bar4.length → t.host.bar4.getD f 0 = s.fld Reg.hostCfg Reg.hostCfg_BAR4SIZE) ∧
      (∀ n, n < 64 → t.reg (Reg.hostAp0 n) = 0 ∧ t.reg (Reg.hostAp1 n) = 0) ∧
      ∀ q, q < 64 → s.queueFunc q = f → t.reg (Reg.hqCfg q) = regReset (Reg.hqCfg q) ∧
        t.reg (Reg.hqStatus q) = regReset (Reg.hqStatus q) ∧ (t.hq q).buf = [] := by
  obtain ⟨n, hexec⟩ := (perstChange_next s hf a).2.2.2 h ha hp
  generalize hqs : (s.pinned f a).funcQueues f = queues at hexec
  have hpin : Touches [.host] s (s.pinned f a) := touches_setHost s _
  have hreset := touches_functionReset (s.pinned f a) queues
  have hsize : Touches [.host] ((s.pinned f a).functionReset queues) (((s.pinned f a).functionReset queues).sized f
    (s.fld Reg.hostCfg Reg.hostCfg_BAR4SIZE)) := touches_setHost _ _
  have hpend := touches_setFld (((s.pinned f a).functionReset queues).sized f (s.fld Reg.hostCfg Reg.hostCfg_BAR4SIZE))
    Reg.hostCfg Reg.hostCfg_BAR4PEND n
  have htouch := hpin.then_ (hreset.then_ (hsize.then_ hpend))
  obtain ⟨hperst, hbar4⟩ := host_functionReset (s.pinned f a) queues
  have hreg : ∀ o, o ≠ Reg.hostCfg → ((((s.pinned f a).functionReset queues).sized f (s.fld Reg.hostCfg Reg.hostCfg_BAR4SIZE)).setFld
      Reg.hostCfg Reg.hostCfg_BAR4PEND n).reg o = ((s.pinned f a).functionReset queues).reg o := fun o ho => by
    rw [State.reg_setFld_ne _ _ _ ho, State.reg, hsize.regs, State.reg]
  refine ⟨_, hexec, ?_, htouch.file, htouch.mem, fun hlen => ?_, fun m hm => ?_, fun q hq hqf => ?_⟩
  · rw [hpend.host, perst_sized, hperst]
  · rw [hpend.host, bar4_sized, hbar4, bar4_pinned]
    exact getD_putAt_same _ _ hlen
  · rw [hreg _ (by unfold Reg.hostAp0 Reg.hostCfg; omega), hreg _ (by unfold Reg.hostAp1 Reg.hostCfg; omega)]
    exact reg_functionReset_aperture _ _ hm
  · have hmem : q ∈ queues := by
      rw [← hqs]
      exact List.mem_filter.2 ⟨List.mem_range.2 hq, beq_iff_eq.2 hqf⟩
    rw [hreg _ (by unfold Reg.hqCfg Reg.hostCfg; omega), hreg _ (by unfold Reg.hqStatus Reg.hostCfg; omega), hpend.hq, hq_sized]
    exact functionReset_queue _ _ hmem

end

end Sys2Proof.Machine

/-! # The host interface: register writes and the event ring -/

namespace Sys2Proof.Machine

-- One theorem after another, as in the tests: side by side their stacks ask for more memory than the check allows.
set_option Elab.async false

/-! ## A register written (R9, R12, R537, R551) -/

/-- A bit of a register after a write: stored, cleared or left. -/
theorem getLsbD_regWrite (r : RegSpec) (was old v half : BitVec 64) (i : Nat) :
    (regWrite r was old v half).getLsbD i =
      ((if (BitVec.ofNat 64 r.rw).getLsbD i && (half.getLsbD i && !(BitVec.ofNat 64 (ownBits r)).getLsbD i) then v.getLsbD i
        else old.getLsbD i) &&
        !(v.getLsbD i && (BitVec.ofNat 64 r.w1c).getLsbD i && (half.getLsbD i && !(BitVec.ofNat 64 (ownBits r)).getLsbD i) &&
          was.getLsbD i)) := by
  rcases Nat.lt_or_ge i 64 with hi | hi
  · simp only [regWrite, BitVec.getLsbD_and, BitVec.getLsbD_or, BitVec.getLsbD_not, hi, decide_true, Bool.true_and]
    cases (BitVec.ofNat 64 r.rw).getLsbD i && (half.getLsbD i && !(BitVec.ofNat 64 (ownBits r)).getLsbD i) <;> simp
  · have hout : ∀ w : BitVec 64, w.getLsbD i = false := fun w => BitVec.getLsbD_of_ge w i hi
    simp [hout]

section

variable (s : State)

theorem writeReg_none {off : Nat} (v half : Word) (h : regAt off = none) : s.writeReg off v half = s := by
  simp only [State.writeReg, h]

theorem writeReg_ignored {off : Nat} {r : RegSpec} (v half : Word) (h : regAt off = some r)
    (hi : s.outOfTier off = true ∨ (s.fld Reg.globalEvctrl Reg.globalEvctrl_ENABLE = 1 ∧ off = Reg.globalEvbase)) :
    s.writeReg off v half = s := by
  simp only [State.writeReg, h]
  refine if_pos ?_
  rcases hi with ht | ⟨hon, hoff⟩
  · simp [ht]
  · simp [hon, hoff]

theorem writeReg_writes {off : Nat} {r : RegSpec} (v half : Word) (h : regAt off = some r) (ht : s.outOfTier off = false)
    (hb : off ≠ Reg.globalEvbase) (hc : off ≠ Reg.globalEvctrl) :
    s.writeReg off v half = (s.setReg off (regWrite r (SMap.get regReset s.was off)
      (if off = Reg.flashCfg then BitVec.ofNat 64 s.flashAll.next else s.reg off) v half)).regEffect (s.reg off) (v &&& half) off := by
  have hbase : (off == Reg.globalEvbase) = false := beq_false_of_ne hb
  have hctrl : (off == Reg.globalEvctrl) = false := beq_false_of_ne hc
  simp only [State.writeReg, h, ht, hbase, hctrl, Bool.and_false, Bool.or_self, Bool.false_eq_true, if_false]

/-! ## REGISTER_WRITE (R443, R535) -/

/-- Whether a path names a function there is room for. -/
def pathKnown : RegPath → Prop
  | .bar0 f => f < 2
  | _ => True

/-- An access of another size or alignment: counted where it comes through BAR0 (R535). -/
def State.wrongSize (s : State) : RegPath → State
  | .bar0 _ => s.badLogged
  | _ => s

/-- The effect of a write that can arrive, by its form and its place. -/
theorem registerWrite_next {p : RegPath} {off size : Nat} {v : BitVec 64} (hoff : off < 0x4010000)
    (hp : pathKnown p) :
    (s.pathOk p = false → exec (.registerWrite p off size v) s = .next s) ∧
    (s.pathOk p = true → ¬ ((size = 4 ∨ size = 8) ∧ off % size = 0) →
      exec (.registerWrite p off size v) s = .next (s.wrongSize p)) ∧
    (s.pathOk p = true → ((size = 4 ∨ size = 8) ∧ off % size = 0) → (0x3800000 ≤ off ∧ off < 0x3804000) →
      (pathChannel p ≠ some ((off - 0x3800000) / 0x2000) → exec (.registerWrite p off size v) s = .next s) ∧
      (pathChannel p = some ((off - 0x3800000) / 0x2000) → 0x1000 ≤ (off - 0x3800000) % 0x2000 →
        exec (.registerWrite p off size v) s =
          .next (s.writeBytes (mbxBase ((off - 0x3800000) / 0x2000) + ((off - 0x3800000) % 0x2000 - 0x1000)) size v))) ∧
    (s.pathOk p = true → ((size = 4 ∨ size = 8) ∧ off % size = 0) → ¬ (0x3800000 ≤ off ∧ off < 0x3804000) →
      ¬ (0x8000 ≤ off ∧ off < 0x8800) →
      exec (.registerWrite p off size v) s = .next (match s.bar2Offset p off with
        | none => s
        | some o =>
          if size = 8 then s.writeReg (o - o % 8) v (BitVec.allOnes 64)
          else s.writeReg (o - o % 8) (BitVec.ofNat 64 (v.toNat % 2 ^ 32 * 2 ^ (8 * (o % 8))))
            (BitVec.ofNat 64 ((2 ^ 32 - 1) * 2 ^ (8 * (o % 8)))))) := by
  have hexec : exec (.registerWrite p off size v) s = execRegisterWrite p off size v s := rfl
  unfold execRegisterWrite at hexec
  rw [guarded_next _ _ (by
    rw [decide_eq_true hoff]
    cases p with
    | bar0 f => exact decide_eq_true hp
    | i3c => rfl
    | easel => rfl)] at hexec
  have hform : ((size = 4 ∨ size = 8) ∧ off % size = 0) → ¬ ((size ≠ 4 ∧ size ≠ 8) ∨ off % size ≠ 0) := by omega
  refine ⟨fun h => ?_, fun h hf => ?_, fun h hf hm => ?_, fun h hf hm hx => ?_⟩
  · rw [hexec, h]
    rfl
  · rw [h, if_neg (by decide), if_pos (by omega)] at hexec
    rw [hexec]
    cases p <;> rfl
  · rw [h, if_neg (by decide), if_neg (hform hf), if_neg (by omega), if_pos hm] at hexec
    refine ⟨fun hc => ?_, fun hc hr => ?_⟩
    · rw [hexec]
      exact congrArg Host.Outcome.next (if_pos hc)
    · rw [hexec]
      exact congrArg Host.Outcome.next ((if_neg (not_not.2 hc)).trans (if_pos hr))
  · rw [h, if_neg (by decide), if_neg (hform hf), if_neg hx, if_neg hm] at hexec
    rw [hexec]
    cases s.bar2Offset p off with
    | none => rfl
    | some o =>
      by_cases h8 : size = 8
      · simp only [h8, if_true]
      · simp only [h8, if_false]

theorem writeBytes_writes (a size : Nat) (v : Word) : (s.writeBytes a size v).bytes a size = natBytes size v.toNat ∧
    SameMemoryOutside s (s.writeBytes a size v) a size ∧ (s.writeBytes a size v).regs = s.regs ∧
    SameRegisters s (s.writeBytes a size v) := by
  have htouch := touches_setBytes s a (natBytes size v.toNat)
  have hlen := length_natBytes size v.toNat
  refine ⟨?_, fun b hb => ?_, htouch.regs, htouch.file⟩
  · have h := State.bytes_setBytes_same s a (natBytes size v.toNat)
    rwa [hlen] at h
  · exact State.byte_setBytes_outside s (by rwa [hlen])

/-! ## Refused accesses (R535, R547) -/

theorem touches_badLogged : Touches [.regs, .host] s s.badLogged :=
  ((touches_bump s _ _).then_ ((touches_setFld _ _ _ _).then_ (touches_log _ _ _ _ _ _))).mono (by decide)

theorem badLogged_counts : s.badLogged.fld Reg.hostErr Reg.hostErr_BADACC = satInc 16 (s.fld Reg.hostErr Reg.hostErr_BADACC) ∧
    s.badLogged.fld Reg.hostErr Reg.hostErr_BADACCEV = 1 := by
  unfold State.badLogged
  refine ⟨?_, ?_⟩
  · rw [State.fld_log _ _ _ _ _ _ Reg.hostErr, State.fld_setFld_apart _ _ _ _ _ (by decide) (by decide), State.bump,
      State.fld_setFld_same _ _ _ _ (by decide)]
    exact Nat.mod_eq_of_lt (satInc_lt (State.fld_lt _ _ _))
  · rw [State.fld_log _ _ _ _ _ _ Reg.hostErr]
    exact State.fld_setFld_same _ _ _ _ (by decide)

/-! ## EVENT_RECORD_PLACE (R540, R545) -/

theorem msix_keeps (f v : Nat) : (s.msix f v).host.evBuf = s.host.evBuf ∧ s.out ⊆ (s.msix f v).out := by
  unfold State.msix
  split
  · exact ⟨rfl, List.Subset.refl _⟩
  · exact ⟨rfl, List.subset_append_left _ _⟩

/-- Whether the host ring has room for an event record (R540). -/
def State.ringRoom (s : State) : Prop :=
  s.fld Reg.globalEvctrl Reg.globalEvctrl_ENABLE = 1 ∧ s.hasFunc (s.fld Reg.globalEvctrl Reg.globalEvctrl_FUNC) = true ∧
    s.linkUp (s.fld Reg.globalEvctrl Reg.globalEvctrl_FUNC) = true ∧
    (s.fld Reg.globalEvprod Reg.globalEvprod_INDEX + 2 ^ 32 - s.fld Reg.globalEvcons Reg.globalEvcons_INDEX) % 2 ^ 32 <
      2 ^ s.fld Reg.globalEvctrl Reg.globalEvctrl_LOG

/-- The state in which the oldest event record has been written to the host ring. -/
def State.recordPlacedInRing (s : State) (r : List Word) (rs : List (List Word)) : State :=
  let prod := s.fld Reg.globalEvprod Reg.globalEvprod_INDEX
  let s1 := State.emit { s with host := { s.host with evBuf := rs, evOut := true } }
    (.hostWrite (s.fld Reg.globalEvctrl Reg.globalEvctrl_FUNC)
      (s.fld Reg.globalEvbase Reg.globalEvbase_HBASE * 4096 + 32 * (prod % 2 ^ s.fld Reg.globalEvctrl Reg.globalEvctrl_LOG))
      (r.flatMap fun w => natBytes 8 w.toNat))
  (s1.setFld Reg.globalEvprod Reg.globalEvprod_INDEX (prod + 1)).setFld Reg.globalEverr Reg.globalEverr_DEPTH rs.length

theorem touches_recordPlacedInRing (r : List Word) (rs : List (List Word)) : Touches [.host, .out, .regs] s (s.recordPlacedInRing r rs) :=
  ((touches_setHost s _).then_ ((touches_emit _ _).then_ ((touches_setFld _ _ _ _).then_ (touches_setFld _ _ _ _)))).mono (by decide)

theorem recordPlacedInRing_places (r : List Word) (rs : List (List Word)) :
    (s.recordPlacedInRing r rs).host.evBuf = rs ∧
    (s.recordPlacedInRing r rs).fld Reg.globalEvprod Reg.globalEvprod_INDEX =
      (s.fld Reg.globalEvprod Reg.globalEvprod_INDEX + 1) % 2 ^ 32 ∧
    (s.recordPlacedInRing r rs).fld Reg.globalEverr Reg.globalEverr_DEPTH = rs.length % 1024 ∧
    Out.hostWrite (s.fld Reg.globalEvctrl Reg.globalEvctrl_FUNC) (s.fld Reg.globalEvbase Reg.globalEvbase_HBASE * 4096 +
      32 * (s.fld Reg.globalEvprod Reg.globalEvprod_INDEX % 2 ^ s.fld Reg.globalEvctrl Reg.globalEvctrl_LOG))
      (r.flatMap fun w => natBytes 8 w.toNat) ∈ (s.recordPlacedInRing r rs).out := by
  unfold State.recordPlacedInRing
  refine ⟨rfl, ?_, State.fld_setFld_same _ _ _ _ (by decide), List.mem_append_right _ (List.mem_singleton_self _)⟩
  rw [State.fld_setFld_ne _ _ _ _ (by decide), State.fld_setFld_same _ _ _ _ (by decide)]
  rfl

theorem eventRecordPlace_places :
    (s.host.evBuf = [] ∨ ¬ s.ringRoom → exec .eventRecordPlace s = .next s) ∧
    (∀ r rs, s.host.evBuf = r :: rs → s.ringRoom → exec .eventRecordPlace s = .next
      (if s.host.evOut then s.recordPlacedInRing r rs
        else (s.recordPlacedInRing r rs).msix (s.fld Reg.globalEvctrl Reg.globalEvctrl_FUNC) 0)) := by
  have hexec : exec .eventRecordPlace s = execEventRecordPlace s := rfl
  unfold execEventRecordPlace at hexec
  refine ⟨fun h => ?_, fun r rs hb hr => ?_⟩
  · cases hb : s.host.evBuf with
    | nil => simpa only [hb] using hexec
    | cons r rs =>
      have hr : ¬ s.ringRoom := h.resolve_left (by rw [hb]; exact List.cons_ne_nil _ _)
      simp only [hb] at hexec
      exact hexec.trans (congrArg Host.Outcome.next (if_neg hr))
  · simp only [hb] at hexec
    exact hexec.trans (congrArg Host.Outcome.next (if_pos hr))

/-- A record placed leaves the buffer and stands in the host ring. -/
theorem eventRecordPlace_writes {r : List Word} {rs : List (List Word)} (hb : s.host.evBuf = r :: rs) (hr : s.ringRoom) :
    ∃ t, exec .eventRecordPlace s = .next t ∧ t.host.evBuf = rs ∧
      t.fld Reg.globalEvprod Reg.globalEvprod_INDEX = (s.fld Reg.globalEvprod Reg.globalEvprod_INDEX + 1) % 2 ^ 32 ∧
      t.fld Reg.globalEverr Reg.globalEverr_DEPTH = rs.length % 1024 ∧
      Out.hostWrite (s.fld Reg.globalEvctrl Reg.globalEvctrl_FUNC) (s.fld Reg.globalEvbase Reg.globalEvbase_HBASE * 4096 +
        32 * (s.fld Reg.globalEvprod Reg.globalEvprod_INDEX % 2 ^ s.fld Reg.globalEvctrl Reg.globalEvctrl_LOG))
        (r.flatMap fun w => natBytes 8 w.toNat) ∈ t.out ∧ SameRegisters s t ∧ t.mem = s.mem := by
  have hexec := (eventRecordPlace_places s).2 r rs hb hr
  have htouch := touches_recordPlacedInRing s r rs
  obtain ⟨hbuf, hprod, hdepth, hout⟩ := recordPlacedInRing_places s r rs
  generalize s.recordPlacedInRing r rs = u at hexec htouch hbuf hprod hdepth hout
  by_cases ho : s.host.evOut = true
  · rw [if_pos ho] at hexec
    exact ⟨u, hexec, hbuf, hprod, hdepth, hout, htouch.file, htouch.mem⟩
  · rw [if_neg ho] at hexec
    obtain ⟨hkeep, hsub⟩ := msix_keeps u (s.fld Reg.globalEvctrl Reg.globalEvctrl_FUNC) 0
    have hmsix := touches_msix u (s.fld Reg.globalEvctrl Reg.globalEvctrl_FUNC) 0
    exact ⟨_, hexec, hkeep.trans hbuf, (hmsix.fld _ _).trans hprod, (hmsix.fld _ _).trans hdepth, hsub hout,
      (htouch.then_ hmsix).file, (htouch.then_ hmsix).mem⟩

end

end Sys2Proof.Machine

/-! # The host interface: BAR4 -/

namespace Sys2Proof.Machine

-- One theorem after another, as in the tests: side by side their stacks ask for more memory than the check allows.
set_option Elab.async false

/-! ## What an access names (R546) -/

namespace State

variable (s : State) (f off : Nat)

/-- The byte of its aperture an access starts at. -/
def apByte : Nat := off % s.apSize f

/-- HOST.AP1.BASE of the aperture an access names. -/
def apBase : Nat := s.fld (Reg.hostAp1 (off / s.apSize f)) Reg.hostAp1_BASE

/-- HOST.AP0.KIND of it. -/
def apKind : Nat := s.fld (Reg.hostAp0 (off / s.apSize f)) Reg.hostAp0_KIND

/-- The portfolio of a handle aperture. -/
def apPf : Nat := bitsOf (s.apBase f off) 0 18

/-- The first sheet of a handle aperture. -/
def apIdx : Nat := bitsOf (s.apBase f off) 18 32

/-- The location an access reaches. -/
def apAt : Nat := s.apBase f off % 2 ^ 48 + s.apByte f off / 512

/-- Whether an access goes by a location of its aperture's tier and bay. -/
def apByLoc : Prop :=
  s.apKind f off = 1 ∧ locTier (s.apBase f off) < 2 ∧ locTier (s.apAt f off) = locTier (s.apBase f off) ∧
    locBay (s.apAt f off) = locBay (s.apBase f off)

/-- Whether an access of `m` bytes arrives at an aperture. -/
def apReach (m : Nat) : Prop := s.pathOk (.bar0 f) = true ∧ s.host.bar4.getD f 0 ≠ 0 ∧ off + m ≤ 64 * s.apSize f

/-- Whether an access by handle waits. -/
def apHandleWaits (m : Nat) (write : Bool) : Bool :=
  s.handleWaits (s.apPf f off) (s.apIdx f off) (s.pf (s.apPf f off)).classBytes (s.apByte f off) m write

/-- Whether an access by location waits. -/
def apLocWaits (m : Nat) (write : Bool) : Bool := s.locWaits (s.apAt f off) (segs (s.apByte f off % 512) m).length write

/-- The answer to a read. -/
def bar4Answered (r : Option (List Byte) × State) : State := (if r.1.isSome then r.2 else r.2.badLogged).emit (.bar4Data f r.1)

/-- What a write leaves. -/
def bar4Ended (r : Bool × State) : State := if r.1 then r.2 else r.2.badLogged

end State

section

variable (s : State) (f off : Nat) (part : PartnerCopies)

theorem apByLoc_iff : (decide (s.apKind f off = 1) && decide (locTier (s.apBase f off) < 2) &&
    decide (locTier (s.apAt f off) = locTier (s.apBase f off) ∧ locBay (s.apAt f off) = locBay (s.apBase f off))) = true ↔
      s.apByLoc f off := by
  simp [State.apByLoc, and_assoc]

/-- How an access is answered, by the kind of its aperture: it waits, goes by location, goes by handle, or is refused. -/
theorem aperture_cases {α β : Type} {loc : Bool} {L K : Prop} [Decidable K] (hloc : loc = true ↔ L) (hLK : L → ¬ K) (lw hw : Bool)
    (wait : β) (g : α → β) (a b c : α) :
    let out := if (loc && lw) = true then wait else if K ∧ hw = true then wait else g (if loc then a else if K then b else c)
    (L → lw = true → out = wait) ∧ (L → lw = false → out = g a) ∧ (K → hw = true → out = wait) ∧ (K → hw = false → out = g b) ∧
      (¬ L → ¬ K → out = g c) := by
  intro out
  dsimp only [out]
  by_cases hL : L
  · rw [hloc.2 hL]
    refine ⟨fun _ h => if_pos (by rw [h]; rfl), fun _ h => ?_, fun hk => absurd hk (hLK hL), fun hk => absurd hk (hLK hL),
      fun h => absurd hL h⟩
    rw [if_neg (by rw [h]; decide), if_neg fun hc => hLK hL hc.1, if_pos rfl]
  · have hl : loc = false := Bool.eq_false_iff.2 (mt hloc.1 hL)
    rw [hl]
    simp only [hL, Bool.false_and, Bool.false_eq_true, if_false, false_implies, true_and, not_false_eq_true, true_implies]
    exact ⟨fun hk hh => if_pos ⟨hk, hh⟩, fun hk hh => by simp [hk, hh], fun hk => by simp [hk]⟩

/-! ## BAR4_READ (R531, R546 to R548) -/

/-- What a read that arrives with the link up comes to. -/
theorem bar4Read_next {len : Nat} (hf : f < 2) (h1 : 1 ≤ len) (h2 : len ≤ 4096) :
    (¬ s.apReach f off len → exec (.bar4Read f off len part) s = .next s) ∧
    (s.apReach f off len → s.linkUp f = false → exec (.bar4Read f off len part) s = .next (s.emit (.bar4Data f none))) ∧
    (s.apReach f off len → s.linkUp f = true →
      (s.apByLoc f off → s.apLocWaits f off len false = true → exec (.bar4Read f off len part) s = .next s) ∧
      (s.apByLoc f off → s.apLocWaits f off len false = false → exec (.bar4Read f off len part) s =
        .next (State.bar4Answered f (s.apRead f (s.apAt f off) (s.apByte f off % 512) len))) ∧
      (s.apKind f off = 2 → s.apHandleWaits f off len false = true → exec (.bar4Read f off len part) s = .next s) ∧
      (s.apKind f off = 2 → s.apHandleWaits f off len false = false → exec (.bar4Read f off len part) s =
        .next (State.bar4Answered f (s.apReadH (s.apPf f off) (s.apIdx f off) (s.apByte f off) len part))) ∧
      (¬ s.apByLoc f off → s.apKind f off ≠ 2 → exec (.bar4Read f off len part) s = .next (State.bar4Answered f (none, s)))) := by
  have hexec : exec (.bar4Read f off len part) s = execBar4Read f off len part s := rfl
  unfold execBar4Read at hexec
  rw [guarded_next _ _ (by rw [decide_eq_true hf, decide_eq_true h1, decide_eq_true h2]; rfl)] at hexec
  have hreach : (!s.pathOk (.bar0 f) || decide (s.host.bar4.getD f 0 = 0) || decide (64 * s.apSize f < off + len)) = true ↔
      ¬ s.apReach f off len := by
    simp only [State.apReach, Bool.or_eq_true, Bool.not_eq_true', decide_eq_true_eq]
    cases s.pathOk (.bar0 f) with
    | false => simp
    | true =>
      simp
      omega
  refine ⟨fun h => ?_, fun h hl => ?_, fun h hl => ?_⟩
  · exact hexec.trans (congrArg Host.Outcome.next (if_pos (hreach.2 h)))
  · have hl' : (!s.linkUp f) = true := by rw [hl]; rfl
    exact hexec.trans (congrArg Host.Outcome.next ((if_neg fun hc => hreach.1 hc h).trans (if_pos hl')))
  · have hl' : ¬ (!s.linkUp f) = true := by rw [hl]; decide
    have hloc := apByLoc_iff s f off
    generalize hb : (decide (s.apKind f off = 1) && decide (locTier (s.apBase f off) < 2) &&
      decide (locTier (s.apAt f off) = locTier (s.apBase f off) ∧ locBay (s.apAt f off) = locBay (s.apBase f off))) = loc at hloc
    have hnext : exec (.bar4Read f off len part) s = .next (
        if (loc && s.apLocWaits f off len false) = true then s
        else if s.apKind f off = 2 ∧ s.apHandleWaits f off len false then s
        else State.bar4Answered f (if loc then s.apRead f (s.apAt f off) (s.apByte f off % 512) len
          else if s.apKind f off = 2 then s.apReadH (s.apPf f off) (s.apIdx f off) (s.apByte f off) len part else (none, s))) := by
      subst hb
      exact hexec.trans (congrArg Host.Outcome.next ((if_neg fun hc => hreach.1 hc h).trans (if_neg hl')))
    rw [hnext]
    have hkind : s.apByLoc f off → s.apKind f off ≠ 2 := fun hl h2 => absurd (hl.1.symm.trans h2) (by decide)
    obtain ⟨hlw, hlg, hhw, hhg, hno⟩ := aperture_cases hloc hkind (s.apLocWaits f off len false) (s.apHandleWaits f off len false) s
      (State.bar4Answered f) (s.apRead f (s.apAt f off) (s.apByte f off % 512) len)
      (s.apReadH (s.apPf f off) (s.apIdx f off) (s.apByte f off) len part) (none, s)
    exact ⟨fun hl hw => congrArg _ (hlw hl hw), fun hl hw => congrArg _ (hlg hl hw), fun hk hw => congrArg _ (hhw hk hw),
      fun hk hw => congrArg _ (hhg hk hw), fun hl hk => congrArg _ (hno hl hk)⟩

/-- Data hidden from the host read as all ones (R462). -/
theorem apReadH_hidden {n : Nat} (idx x len : Nat) (hh : s.hidden n = true) (hc : s.pfCode n (s.pf n) = cDone)
    (hr : s.stackReads (s.pf n).home s.ec = true) : s.apReadH n idx x len part = (some (List.replicate len 0xFF), s) :=
  (if_neg (by rw [hc, hr]; simp)).trans (if_pos hh)

/-! ## BAR4_WRITE (R405, R462, R531, R546 to R548) -/

/-- What a write comes to. -/
theorem bar4Write_next {data : List (BitVec 8)} (hf : f < 2) (h1 : 1 ≤ data.length) (h2 : data.length ≤ 4096) :
    (¬ (s.apReach f off data.length ∧ s.linkUp f = true) → exec (.bar4Write f off data part) s = .next s) ∧
    (s.apReach f off data.length ∧ s.linkUp f = true → ¬ s.fld (Reg.hostAp0 (off / s.apSize f)) Reg.hostAp0_WREN = 1 →
      exec (.bar4Write f off data part) s = .next (State.bar4Ended (false, s))) ∧
    (s.apReach f off data.length ∧ s.linkUp f = true → s.fld (Reg.hostAp0 (off / s.apSize f)) Reg.hostAp0_WREN = 1 →
      (s.windowFull = true → exec (.bar4Write f off data part) s = .next s) ∧
      (s.windowFull = false →
        (s.apByLoc f off → s.apLocWaits f off data.length true = true → exec (.bar4Write f off data part) s = .next s) ∧
        (s.apByLoc f off → s.apLocWaits f off data.length true = false → exec (.bar4Write f off data part) s =
          .next (State.bar4Ended (s.apWrite f (s.apAt f off) (s.apByte f off % 512) data part))) ∧
        (s.apKind f off = 2 → s.apHandleWaits f off data.length true = true → exec (.bar4Write f off data part) s = .next s) ∧
        (s.apKind f off = 2 → s.apHandleWaits f off data.length true = false → exec (.bar4Write f off data part) s =
          .next (State.bar4Ended (s.apWriteH (s.apPf f off) (s.apIdx f off) (s.apByte f off) data part))) ∧
        (¬ s.apByLoc f off → s.apKind f off ≠ 2 → exec (.bar4Write f off data part) s = .next (State.bar4Ended (false, s))))) := by
  have hexec : exec (.bar4Write f off data part) s = execBar4Write f off data part s := rfl
  unfold execBar4Write at hexec
  rw [guarded_next _ _ (by rw [decide_eq_true hf, decide_eq_true h1, decide_eq_true h2]; rfl)] at hexec
  have hgo : (!s.pathOk (.bar0 f) || decide (s.host.bar4.getD f 0 = 0) || decide (64 * s.apSize f < off + data.length) || !s.linkUp f) = true ↔
      ¬ (s.apReach f off data.length ∧ s.linkUp f = true) := by
    simp only [State.apReach, Bool.or_eq_true, Bool.not_eq_true', decide_eq_true_eq]
    cases s.pathOk (.bar0 f) with
    | false => simp
    | true =>
      cases s.linkUp f with
      | false => simp
      | true =>
        simp
        omega
  refine ⟨fun h => ?_, fun h hw => ?_, fun h hw => ?_⟩
  · exact hexec.trans (congrArg Host.Outcome.next (if_pos (hgo.2 h)))
  · have hw0 : s.fld (Reg.hostAp0 (off / s.apSize f)) Reg.hostAp0_WREN = 0 := by
      have := State.fld_lt s (Reg.hostAp0 (off / s.apSize f)) Reg.hostAp0_WREN
      simp only [Reg.hostAp0_WREN, pow_one] at this hw ⊢
      omega
    exact hexec.trans (congrArg Host.Outcome.next ((if_neg fun hc => hgo.1 hc h).trans (if_pos hw0)))
  · have hw0 : ¬ s.fld (Reg.hostAp0 (off / s.apSize f)) Reg.hostAp0_WREN = 0 := by rw [hw]; decide
    have hloc := apByLoc_iff s f off
    generalize hb : (decide (s.apKind f off = 1) && decide (locTier (s.apBase f off) < 2) &&
      decide (locTier (s.apAt f off) = locTier (s.apBase f off) ∧ locBay (s.apAt f off) = locBay (s.apBase f off))) = loc at hloc
    have hnext : exec (.bar4Write f off data part) s = .next (
        if ((loc && s.apLocWaits f off data.length true) || s.windowFull) = true then s
        else if s.apKind f off = 2 ∧ s.apHandleWaits f off data.length true then s
        else State.bar4Ended (if loc then s.apWrite f (s.apAt f off) (s.apByte f off % 512) data part
          else if s.apKind f off = 2 then s.apWriteH (s.apPf f off) (s.apIdx f off) (s.apByte f off) data part else (false, s))) := by
      subst hb
      exact hexec.trans (congrArg Host.Outcome.next ((if_neg fun hc => hgo.1 hc h).trans (if_neg hw0)))
    rw [hnext]
    have hkind : s.apByLoc f off → s.apKind f off ≠ 2 := fun hl h2 => absurd (hl.1.symm.trans h2) (by decide)
    refine ⟨fun hfull => congrArg _ (if_pos (by rw [hfull, Bool.or_true])), fun hfull => ?_⟩
    rw [hfull, Bool.or_false]
    obtain ⟨hlw, hlg, hhw, hhg, hno⟩ := aperture_cases hloc hkind (s.apLocWaits f off data.length true)
      (s.apHandleWaits f off data.length true) s State.bar4Ended (s.apWrite f (s.apAt f off) (s.apByte f off % 512) data part)
      (s.apWriteH (s.apPf f off) (s.apIdx f off) (s.apByte f off) data part) (false, s)
    exact ⟨fun hl hw => congrArg _ (hlw hl hw), fun hl hw => congrArg _ (hlg hl hw), fun hk hw => congrArg _ (hhw hk hw),
      fun hk hw => congrArg _ (hhg hk hw), fun hl hk => congrArg _ (hno hl hk)⟩

/-- Data hidden from the host are not written (R462). -/
theorem apWriteH_hidden {n : Nat} (idx x : Nat) (bs : List Byte) (hh : s.hidden n = true) : s.apWriteH n idx x bs part = (false, s) :=
  if_pos (Or.inr (Or.inr hh))

end

/-! ## Every clause of the host interface -/

/-- Settles O56: links by what HOST.LINK shows, PERST_N by the folds over queues and apertures, register writes bit by bit and by
their place, accesses to BAR4 by the kind of their aperture. -/
theorem hostLinksRegistersAndApertures : Obligations.HostLinksRegistersAndApertures := by
  refine ⟨fun f s hf => ⟨fun a => ?_, fun rate width hr hw => ?_⟩, fun r was old v half i => getLsbD_regWrite r was old v half i,
    fun s off v half => ?_, fun p off size v s hoff hp => ?_, fun s => ?_, fun f off part s hf => ⟨fun len h1 h2 => ?_, fun data h1 h2 => ?_⟩⟩
  · obtain ⟨hnone, hdown, hsame, -⟩ := perstChange_next s hf a
    exact ⟨hnone, hdown, hsame, perstChange_resets s hf⟩
  · obtain ⟨hignored, htaken⟩ := hostLinkChange_next s hf hr hw
    exact ⟨hignored, htaken, setLink_shows s f hr hw⟩
  · exact ⟨writeReg_none s v half, fun r h hi => writeReg_ignored s v half h hi, fun r h ht hb hc => writeReg_writes s v half h ht hb hc⟩
  · have hp' : pathKnown p := by cases p <;> exact hp
    obtain ⟨hno, hform, hmbx, hreg⟩ := registerWrite_next s (size := size) (v := v) hoff hp'
    refine ⟨hno, fun h hf => (hform h hf).trans (by cases p <;> rfl), fun h hf hm => (hmbx h hf hm).1, fun h hf hm hc hr => ?_, hreg⟩
    exact ⟨_, (hmbx h hf hm).2 hc hr, writeBytes_writes s _ size v⟩
  · obtain ⟨hcount, hev⟩ := badLogged_counts s
    exact ⟨hcount, hev, (touches_badLogged s).file, (touches_badLogged s).mem, (eventRecordPlace_places s).1,
      fun r rs hb hr => eventRecordPlace_writes s hb hr⟩
  · obtain ⟨hnot, hdown, hup⟩ := bar4Read_next s f off part hf h1 h2
    exact ⟨hnot, hdown, hup, apReadH_hidden s part _ _ len⟩
  · obtain ⟨hnot, hro, hgo⟩ := bar4Write_next s f off part hf h1 h2
    exact ⟨hnot, hro, hgo, apWriteH_hidden s part _ _ data⟩

end Sys2Proof.Machine

/-! # Every command answers -/

namespace Sys2Proof.Machine

-- One theorem after another, as in the tests: side by side their stacks ask for more memory than the check allows.
set_option Elab.async false

/-- A command that names no unit answers a next state: its guard is always met. -/
theorem next_eq_guarded (s t : State) : (.next t : Host.Outcome State Fault Refusal) = guarded true s fun _ => t := rfl

/-- The meaning of every command is an effect guarded by the command's form: the commands that name no unit have no guard of their own,
a Drevos instruction has the guard of its issue, and every other command its own. -/
theorem exec_eq_guarded (c : Instr) (s : State) : ∃ f, exec c s = guarded c.wf s f := by
  cases c with
  | catCtrlStart | catCtrlFlip | catCtrlAbort | catCtrlKeep | rebuildFillDone | flipRound | catJrnlpop | catScrubStep | flashFormat
  | flashCkpt | flashFormatDone | ackReceive | completeReceive | fabIdWrite | bucketRefill | sampleStart | pairholdExpiry | graceClose
  | mapPlan | mapSeed | heartbeatSend | accwaitExpiry | reproposeTimerExpiry | isolateExpiry | mailboxTake | idGet | attest | keyNonce
  | keyInstall | keyGen | keyDestroy | pendingDestroyDeliver | keyQuery | digestReg | digestDereg | confEnter | confExit | fwWrite
  | fwVerify | fwArm | fwDisarm | fwActivationDone | fwActivationRollback | licInstall | recover | decommission | rotWatchdogExpiry
  | pairKeyEstablish | pwrN1 | pwrN2 | pwrN3 | pwrWake | pairWake | n2ExitDone | brakeRelease | longBrakeExpiry | relockDone
  | crystalLoss | crystalReturn | globalResetWarm | globalResetCold | warmRstPin | coldRstPin | resetDrainEnd | resetRelease
  | rotImageVerified | repairRecordAppend | cpltoExpiry | eventRecordPlace | railsOkLow | groundSupplyReturn | hostReadCompletion =>
    exact ⟨_, next_eq_guarded s _⟩
  | _ =>
    unfold exec
    exact ⟨_, rfl⟩

/-- Settles O2: the guard of a command is its form, so a command answers a next state where it is met and is refused where it is not. -/
theorem illFormedCommandsAreRefused : Obligations.IllFormedCommandsAreRefused := by
  intro c s
  obtain ⟨f, hf⟩ := exec_eq_guarded c s
  exact ⟨fun hw => ⟨f s, hf.trans (guarded_next s f hw)⟩, fun hw => hf.trans (guarded_refused s f hw)⟩

end Sys2Proof.Machine

/-! # The pair: what its operations leave -/

namespace Sys2Proof.Machine

-- One theorem after another, as in the tests: side by side their stacks ask for more memory than the check allows.
set_option Elab.async false

/-- A fold each of whose steps on a listed unit leaves the state as it was. -/
theorem foldl_stays {α : Type} {f : State → α → State} {l : List α} {s : State} (h : ∀ a ∈ l, f s a = s) : l.foldl f s = s := by
  induction l with
  | nil => rfl
  | cons a l ih => rw [List.foldl_cons, h a (by simp), ih fun b hb => h b (by simp [hb])]

section

variable (s : State)

/-! ## Seals under the page buffer -/

theorem State.seals_passTo (t : Nat) : (s.passTo t).seals = s.seals := by
  unfold State.passTo
  split
  · exact foldl_same (fun u => u.seals) (fun u x _ => by
      show State.seals (if _ then _ else u) = u.seals
      split <;> rfl) _
  · rfl

theorem State.seals_admitOne (b : Nat) (a : Access) : (s.admitOne b a).seals = s.seals := by
  have hwindow : (s.takeWindow b a.addr a.arrival (accessRet a b)).seals = s.seals := by
    unfold State.takeWindow
    cases accessRet a b <;> exact s.seals_passTo _
  have hfree : ∀ u : State, (u.pbFree b a.addr).seals = u.seals := fun u => by
    show State.seals (if _ then u.quieten b else u) = u.seals
    split <;> rfl
  unfold State.admitOne
  simp only
  split
  · rw [hfree, hwindow]
  · exact hwindow

theorem State.seals_pbAdd (b addr : Nat) : (s.pbAdd b addr).seals = s.seals := by
  have hback : (s.writeBackFirst b).seals = s.seals := by
    unfold State.writeBackFirst
    split
    · exact s.seals_admitOne b _
    · rfl
  unfold State.pbAdd
  split
  · rfl
  · show State.seals (if _ then s.writeBackFirst b else s) = s.seals
    split
    · exact hback
    · rfl

@[simp] theorem State.stamp_setStamp_same (g : Nat) (q : Seal) : (s.setStamp g q).stamp g = q := by
  simp [State.stamp, State.setStamp]

/-! ## Bytes placed by the partner (R286, R403) -/

theorem touches_putWrites (ws : List MWrite) : Touches [.mem, .ec, .regs, .bays, .host] s (s.putWrites ws) := by
  unfold State.putWrites
  refine Touches.foldl (fun u w => ?_) _ _
  extract_lets g u0 u2
  have h0 : Touches [.regs, .host] u u0 := Touches.ite (fun _ => Touches.refl _ u) fun _ => touches_check u _ _ _
  have h2 : Touches [.mem] u0 u2 :=
    ((touches_setBytes u0 _ _).then_ ((touches_setStamp _ _ _).then_ (touches_setErrs _ _ _))).mono (by decide)
  split
  · exact (h0.then_ (h2.then_ (touches_pbAdd _ _ _))).mono (by decide)
  · exact (h0.then_ h2).mono (by decide)

/-- One write placed: its bytes and its seal stand, and no byte outside it has changed. -/
theorem putWrites_single (w : MWrite) :
    (s.putWrites [w]).bytes w.addr w.data.length = w.data ∧ SameMemoryOutside s (s.putWrites [w]) w.addr w.data.length ∧
    (s.putWrites [w]).stamp (w.addr / 512) = w.stamp := by
  unfold State.putWrites
  rw [List.foldl_cons, List.foldl_nil]
  extract_lets g u0 u2
  have h0 : Touches [.regs, .host] s u0 := Touches.ite (fun _ => Touches.refl _ s) fun _ => touches_check s _ _ _
  have hbytes : u2.bytes w.addr w.data.length = w.data := u0.bytes_setBytes_same _ _
  have hrest : SameMemoryOutside s u2 w.addr w.data.length := fun b hb => by
    have hb0 : u0.byte b = s.byte b := by rw [State.byte, h0.mem, State.byte]
    exact (u0.byte_setBytes_outside hb).trans hb0
  have hstamp : u2.stamp g = w.stamp := State.stamp_setStamp_same _ _ _
  split
  · refine ⟨?_, fun b hb => ?_, ?_⟩
    · rw [State.bytes, State.mem_pbAdd]
      exact hbytes
    · rw [State.byte, State.mem_pbAdd]
      exact hrest b hb
    · rw [State.stamp, State.seals_pbAdd]
      exact hstamp
  · exact ⟨hbytes, hrest, hstamp⟩

theorem touches_noteWrite (b pf idx : Nat) : Touches [.bays] s (s.noteWrite b pf idx) := touches_updBay s _ _

/-! ## Copies resolved (R410 to R412) -/

theorem touches_recordPlaced (n : Nat) (old : Pf) : Touches [.regs, .host, .bays] s (s.recordPlaced n old) := by
  unfold State.recordPlaced
  extract_lets p s1 s2
  have h1 : Touches [.regs, .host, .bays] s s1 :=
    Touches.ite (fun _ => ((touches_checkSlot s _).then_ (touches_loadSlot _ _ _)).mono (by decide)) fun _ => Touches.refl _ s
  have h2 : Touches [.bays] s1 s2 := Touches.ite (fun _ => touches_trimSlots s1 _) fun _ => Touches.refl _ s1
  have h12 : Touches [.regs, .host, .bays] s s2 := (h1.then_ h2).mono (by decide)
  exact Touches.ite (fun _ => (h12.then_ (touches_expireLeases s2 _ _)).mono (by decide)) fun _ => h12

theorem touches_catFollow (p : Pf) (e : Nat) : Touches [.cat, .catc, .regs] s (s.catFollow p e).2 := by
  unfold State.catFollow
  extract_lets k
  split
  · exact Touches.ite_snd (fun _ => touches_liveWrite s _ _) fun _ => Touches.refl _ s
  · exact Touches.refl _ s

/-- A sheet-list entry written, once its base is checked. The definition is unfolded as a constant: unfolded where it is applied, the
kernel would run the check. -/
theorem putEntry_eq {p : Pf} {idx : Nat} (e : Nat) {ok : Bool} {s0 : State}
    (h : s.check (p.entryAddr idx / 512) (s.locWant p.home (p.entryAddr idx % 2 ^ 64 / 512)) 0 = (ok, s0)) :
    s.putEntry p idx e = if !ok && s.partnerAway then (false, s0) else
      ((((s0.setBytes (p.entryAddr idx) (natBytes 16 e)).setStamp (p.entryAddr idx / 512)
        (s.locWant p.home (p.entryAddr idx % 2 ^ 64 / 512))).setErrs (p.entryAddr idx / 512) 0).pbAdd p.home
          (p.entryAddr idx % 2 ^ 64 / 512)).catFollow p e := by
  generalize hput : @State.putEntry = put
  delta State.putEntry at hput
  conv at hput => zeta
  subst hput
  beta_reduce
  rw [h]

theorem touches_putEntry (p : Pf) (idx e : Nat) :
    Touches [.mem, .ec, .regs, .bays, .host, .cat, .catc] s (s.putEntry p idx e).2 := by
  obtain ⟨⟨ok, s0⟩, hc⟩ : ∃ c, s.check (p.entryAddr idx / 512) (s.locWant p.home (p.entryAddr idx % 2 ^ 64 / 512)) 0 = c := ⟨_, rfl⟩
  have hcheck := touches_check s (p.entryAddr idx / 512) (s.locWant p.home (p.entryAddr idx % 2 ^ 64 / 512)) 0
  rw [hc] at hcheck
  rw [putEntry_eq s e hc]
  refine Touches.ite_snd (fun _ => hcheck.mono (by decide)) fun _ => ?_
  exact (hcheck.then_ ((touches_setBytes _ _ _).then_ ((touches_setStamp _ _ _).then_ ((touches_setErrs _ _ _).then_
      ((touches_pbAdd _ _ _).then_ (touches_catFollow _ _ _)))))).mono (by decide)

theorem touches_unitIntact (u : PartnerUnit) : Touches [.regs, .host] s (s.unitIntact u).2 := by
  have hfold : ∀ (l : List (Nat × Seal)) (c : Bool × State), Touches [.regs, .host] s c.2 →
      Touches [.regs, .host] s (l.foldl (fun c o => (c.1 && (c.2.check o.1 o.2 0).1, (c.2.check o.1 o.2 0).2)) c).2 := fun l => by
    induction l with
    | nil => exact fun c hc => hc
    | cons o l ih => exact fun c hc => ih _ (hc.trans (touches_check c.2 _ _ _))
  exact hfold _ (true, s) (Touches.refl _ s)

theorem touches_takePartner (u : PartnerUnit) : Touches [.mem, .ec, .regs, .bays, .host, .cat, .catc] s (s.takePartner u) := by
  unfold State.takePartner
  refine Touches.ite (fun _ => ((touches_putWrites s _).then_ (touches_recordPlaced _ _ _)).mono (by decide)) fun _ => ?_
  have h : Touches [.mem, .ec, .regs, .bays, .host] s (if u.unit = 2 then s else s.putWrites u.strokes) :=
    Touches.ite (fun _ => Touches.refl _ s) fun _ => touches_putWrites s _
  exact (h.then_ (touches_putEntry _ _ _ _)).mono (by decide)

theorem touches_markEntry (u : PartnerUnit) (bit : Nat) :
    Touches [.mem, .ec, .regs, .bays, .host, .cat, .catc] s (s.markEntry u bit) :=
  Touches.ite (fun _ => Touches.refl _ s) fun _ => touches_putEntry s _ _ _

theorem touches_diverged (u : PartnerUnit) : Touches [.regs, .bays, .host] s (s.diverged u) :=
  ((touches_bump s _ _).then_ ((touches_setFld _ _ _ _).then_ (touches_pairEvent _ _ _ _ _ _ _))).mono (by decide)

/-- A unit resolved, whichever copy is taken. -/
theorem touches_resolve (own partner : Option Nat) (u : PartnerUnit) :
    Touches [.mem, .ec, .regs, .bays, .host, .cat, .catc] s (s.resolve own partner u) := by
  unfold State.resolve
  refine Touches.ite (fun _ => Touches.refl _ s) fun _ => ?_
  have hcheck : Touches [.mem, .ec, .regs, .bays, .host, .cat, .catc] s (s.unitIntact u).2 := (touches_unitIntact s u).mono (by decide)
  generalize s.unitIntact u = c at hcheck ⊢
  obtain ⟨ok, s1⟩ := c
  cases ok <;> cases u.intact
  · exact hcheck.trans (touches_markEntry s1 u 101)
  · exact hcheck.trans (touches_takePartner s1 u)
  · exact hcheck
  · refine Touches.ite (fun _ => hcheck) fun _ => Touches.ite (fun _ => hcheck.trans (touches_takePartner s1 u)) fun _ => ?_
    have htake : Touches [.mem, .ec, .regs, .bays, .host, .cat, .catc] s1 (if s1.isPrimary (s1.pf u.pf) then s1 else s1.takePartner u) :=
      Touches.ite (fun _ => Touches.refl _ s1) fun _ => touches_takePartner s1 u
    exact hcheck.trans (htake.trans ((touches_markEntry _ u 100).trans ((touches_diverged _ u).mono (by decide))))

end

end Sys2Proof.Machine

/-! # The pair: link, window and unreachability -/

namespace Sys2Proof.Machine

-- One theorem after another, as in the tests: side by side their stacks ask for more memory than the check allows.
set_option Elab.async false

section

variable (s : State)

/-! ## Registers of the pair -/

/-- An offset of the pair's registers. -/
abbrev OfPair (o : Nat) : Prop := 0x2400000 ≤ o ∧ o < 0x2410000

theorem OfPair.offEvents {o b : Nat} (ho : OfPair o) (hb : b < 16) : OffEvents b o := by
  unfold OffEvents Reg.globalEverr Reg.pwrXovr Reg.bayBind0
  omega

theorem OfPair.ne_sched {o : Nat} (ho : OfPair o) (i : Nat) : o ≠ Reg.schedStatus i := by
  unfold Reg.schedStatus
  omega

theorem State.fld_of_reg {s t : State} {o : Nat} (h : t.reg o = s.reg o) (f : Fld) : t.fld o f = s.fld o f := by
  rw [State.fld, h, State.fld]

/-- An event in every bay writes no register of the pair. -/
theorem reg_events_ofPair (source : Nat) (r : Word) {o : Nat} (ho : OfPair o) :
    (allBays.foldl (fun u b => u.event b source r) s).reg o = s.reg o :=
  foldl_same (fun u => u.reg o) (fun u b hb => u.reg_event b source r (ho.offEvents (List.mem_range.1 hb))) s

theorem reg_pairNote_ofPair (kind : Nat) {o : Nat} (ho : OfPair o) : (s.pairNote kind).reg o = s.reg o := by
  rw [State.pairNote, State.pairEvent, reg_events_ofPair _ _ _ ho, State.reg_log _ _ _ _ _ _ (ho.offEvents (b := 0) (by decide)).1]

theorem reg_enqueue_ofPair (i q : Nat) (e : QEnt) {o : Nat} (ho : OfPair o) : (s.enqueue i q e).reg o = s.reg o :=
  State.reg_setFld_ne _ _ _ (ho.ne_sched i)

theorem reg_dropItems_ofPair (i : Nat) (gone : QEnt → Bool) {o : Nat} (ho : OfPair o) : (s.dropItems i gone).reg o = s.reg o :=
  reg_dropItems s i gone (ho.ne_sched i)

theorem reg_pairSend_ofPair (svc pf bytes : Nat) (out : Out) {o : Nat} (ho : OfPair o) : (s.pairSend svc pf bytes out).reg o = s.reg o := by
  unfold State.pairSend
  split
  · exact reg_enqueue_ofPair s _ _ _ ho
  · split
    · exact reg_enqueue_ofPair s _ _ _ ho
    · exact reg_enqueue_ofPair s _ _ _ ho

theorem reg_rerouteMirrors_ofPair {o : Nat} (ho : OfPair o) : s.rerouteMirrors.reg o = s.reg o := by
  unfold State.rerouteMirrors
  extract_lets rest s1 s2 port
  have h2 : s2.reg o = s.reg o :=
    (foldl_same (fun u => u.reg o) (fun u w _ => reg_pairSend_ofPair u _ _ _ _ ho) s1).trans (reg_dropItems_ofPair s 8 _ ho)
  refine (foldl_same (fun u => u.reg o) (fun u e _ => ?_) s2).trans h2
  cases port
  · exact reg_enqueue_ofPair u _ _ _ ho
  · exact reg_enqueue_ofPair u _ _ _ ho

theorem touches_rerouteMirrors : Touches [.fab, .regs] s s.rerouteMirrors := by
  unfold State.rerouteMirrors
  extract_lets rest s1 s2 port
  have h2 : Touches [.fab, .regs] s s2 :=
    (touches_dropItems s 8 _).trans (Touches.foldl (fun u w => touches_pairSend u _ _ _ _) _ s1)
  refine h2.trans (Touches.foldl (fun u e => ?_) _ s2)
  cases port
  · exact touches_enqueue u _ _ _
  · exact touches_enqueue u _ _ _

theorem touches_pairNote (kind : Nat) : Touches [.regs, .bays, .host] s (s.pairNote kind) := touches_pairEvent s _ _ _ _ _ _

theorem touches_pairShow : Touches [.regs] s s.pairShow := by
  unfold State.pairShow
  extract_lets st s1
  have h1 : Touches [.regs] s s1 := Touches.ite (fun _ => touches_setFld s _ _ _) fun _ => Touches.refl _ s
  exact h1.trans (touches_setFld s1 _ _ _)

/-- UNREACH and FABACT are all that is shown of the way to the partner. -/
theorem State.fld_pairShow (f : Fld) (hf : f.lo + f.w ≤ 2 ∨ 4 ≤ f.lo) : s.pairShow.fld Reg.pairStatus f = s.fld Reg.pairStatus f := by
  unfold State.pairShow
  extract_lets st s1
  have h1 : s1.fld Reg.pairStatus f = s.fld Reg.pairStatus f := by
    dsimp only [s1]
    split
    · exact State.fld_setFld_apart _ _ _ _ _ (by decide) (Or.symm (hf.imp (fun h => le_trans h (by decide)) id))
    · rfl
  rw [State.fld_setFld_apart _ _ _ _ _ (by decide) (Or.symm (hf.imp (fun h => le_trans h (by decide)) (fun h => le_trans (by decide) h))), h1]

/-! ## The lane groups (R22, R404, R413) -/

/-- The lane groups of a mask that can run. -/
def State.canRun (s : State) (m : Nat) : Nat := m &&& s.pair.trained &&& (15 - s.groupsDown)

theorem State.canRun_lt (m : Nat) : s.canRun m < 16 := lt_of_le_of_lt Nat.and_le_right (by omega)

theorem touches_showGroups : Touches [.regs, .host] s s.showGroups :=
  ((touches_setFld s _ _ _).then_ ((touches_setFld _ _ _ _).then_ (touches_setReady _ _ _ _))).mono (by decide)

/-- What PAIR.STATUS shows of the running lane groups (R433). -/
theorem showGroups_shows (hg : s.pair.groups < 16) :
    s.showGroups.fld Reg.pairStatus Reg.pairStatus_GROUPS = (if s.pwr.parked then 0 else s.pair.groups) ∧
    s.showGroups.fld Reg.pairStatus Reg.pairStatus_LINK =
      (if s.pwr.parked = true ∨ s.pair.groups = 0 then 0 else if s.pair.groups = 15 then 2 else 1) := by
  unfold State.showGroups
  extract_lets m st
  have hm : m < 16 := by
    dsimp only [m]
    split <;> omega
  refine ⟨?_, ?_⟩
  · rw [State.fld_setReady _ _ _ _ _ (by decide) (by decide), State.fld_setFld_apart _ _ _ _ _ (by decide) (by decide),
      State.fld_setFld_same _ _ _ _ (by decide)]
    exact Nat.mod_eq_of_lt hm
  · rw [State.fld_setReady _ _ _ _ _ (by decide) (by decide), State.fld_setFld_same _ _ _ _ (by decide)]
    cases hp : s.pwr.parked
    · simp only [m, hp, Bool.false_eq_true, if_false, false_or]
      split
      · rfl
      · split <;> rfl
    · simp [m, hp]

/-- The lane groups that run, and that PAIR.STATUS shows: an event and a change of path leave them. -/
theorem setGroups_runs (m : Nat) :
    (s.setGroups m).pair = { s.pair with groups := s.canRun m } ∧ SameRegisters s (s.setGroups m) ∧ (s.setGroups m).mem = s.mem ∧
    (s.setGroups m).fld Reg.pairStatus Reg.pairStatus_GROUPS = (if s.pwr.parked then 0 else s.canRun m) ∧
    (s.setGroups m).fld Reg.pairStatus Reg.pairStatus_LINK =
      (if s.pwr.parked = true ∨ s.canRun m = 0 then 0 else if s.canRun m = 15 then 2 else 1) := by
  obtain ⟨v, hv⟩ : ∃ v, v = State.showGroups { s with pair := { s.pair with groups := s.canRun m } } := ⟨_, rfl⟩
  obtain ⟨u, hu, htouch, hreg⟩ : ∃ u, s.setGroups m = u.pairShow ∧ Touches [.regs, .bays, .host, .fab] v u ∧
      u.reg Reg.pairStatus = v.reg Reg.pairStatus := by
    subst hv
    unfold State.setGroups
    extract_lets can n0 pair s1 n s2 s3
    have hnote : Touches [.regs, .bays, .host, .fab] s1 s2 := (touches_pairNote s1 _).mono (by decide)
    have hnoted : s2.reg Reg.pairStatus = s1.reg Reg.pairStatus := reg_pairNote_ofPair s1 _ (by decide)
    split
    · exact ⟨s1, rfl, Touches.refl _ s1, rfl⟩
    · refine ⟨s3, rfl, hnote.trans (Touches.ite (fun _ => (touches_rerouteMirrors s2).mono (by decide)) fun _ => Touches.refl _ s2), ?_⟩
      dsimp only [s3]
      split
      · exact (reg_rerouteMirrors_ofPair s2 (by decide)).trans hnoted
      · exact hnoted
  have hshown : Touches [.regs, .host] { s with pair := { s.pair with groups := s.canRun m } } v := hv ▸ touches_showGroups _
  have hall := (touches_setPair s { s.pair with groups := s.canRun m }).then_ (hshown.then_ (htouch.then_ (touches_pairShow u)))
  obtain ⟨hgroups, hlink⟩ := showGroups_shows { s with pair := { s.pair with groups := s.canRun m } } (s.canRun_lt m)
  rw [← hv] at hgroups hlink
  rw [hu]
  refine ⟨(hshown.then_ (htouch.then_ (touches_pairShow u))).pair, hall.file, hall.mem, ?_, ?_⟩
  · rw [u.fld_pairShow _ (by decide), State.fld_of_reg hreg, hgroups]
  · rw [u.fld_pairShow _ (by decide), State.fld_of_reg hreg, hlink]

end

end Sys2Proof.Machine

/-! # The pair: every clause -/

namespace Sys2Proof.Machine

-- One theorem after another, as in the tests: side by side their stacks ask for more memory than the check allows.
set_option Elab.async false

section

variable (s : State)

/-! ## MIRROR_APPLY (R401, R403, R405, R452) -/

theorem out_emit (o : Out) : (s.emit o).out.getLast? = some o := List.getLast?_concat

/-- An operation of a bay, a unit and a portfolio there are. -/
theorem mirrorIn_ok {op : MirrorIn} (hb : op.bay < 16) (hu : op.unit < 7) (hp : op.pf < 2 ^ 18) :
    (decide (op.bay < 16) && decide (op.unit < 7) && decide (op.pf < 2 ^ 18)) = true := by
  rw [decide_eq_true hb, decide_eq_true hu, decide_eq_true hp]
  rfl

/-- What the partner's operation comes to, by the state of its bay. -/
theorem mirrorApply_next {op : MirrorIn} (hb : op.bay < 16) (hu : op.unit < 5) (hp : op.pf < 2 ^ 18) :
    (s.bayUp op.bay = true → s.asleep op.bay = true → exec (.mirrorApply op) s = .next s) ∧
    (s.bayUp op.bay = false ∨ s.stackUp op.bay = false → s.asleep op.bay = false →
      exec (.mirrorApply op) s = .next (s.emit (.mirrorAck false))) ∧
    (s.bayUp op.bay = true → s.stackUp op.bay = true → s.asleep op.bay = false →
      exec (.mirrorApply op) s = .next ((s.applyMirror op).emit (.mirrorAck true))) := by
  have hexec : exec (.mirrorApply op) s = execMirrorApply op s := rfl
  unfold execMirrorApply at hexec
  rw [guarded_next _ _ (mirrorIn_ok hb (by omega) hp), if_neg (show op.unit ≠ 6 by omega)] at hexec
  refine ⟨fun hup hs => ?_, fun hdown hs => ?_, fun hup hstk hs => ?_⟩
  · rw [hexec, hup, hs]
    rfl
  · rw [hexec, hs, Bool.and_false, if_neg Bool.false_ne_true, if_neg]
    simpa [Bool.and_eq_true, imp_iff_not_or] using hdown
  · rw [hexec, hup, hs, hstk, if_neg (show op.unit ≠ 5 by omega)]
    rfl

/-- A write to a sheet or its sketch: the bytes and their seal stand, and nothing else in memory has changed. -/
theorem applyMirror_writes {op : MirrorIn} (hu : op.unit ≤ 1) {w : MWrite} (hw : op.writes = [w]) :
    (s.applyMirror op).bytes w.addr w.data.length = w.data ∧ SameMemoryOutside s (s.applyMirror op) w.addr w.data.length ∧
    (s.applyMirror op).stamp (w.addr / 512) = w.stamp ∧ SameRegisters s (s.applyMirror op) := by
  have happly : s.applyMirror op = (s.putWrites [w]).noteWrite op.bay op.pf op.idx := by
    unfold State.applyMirror
    simp only [if_neg (show op.unit ≠ 4 by omega), if_neg (show op.unit ≠ 3 by omega), if_neg (show op.unit ≠ 2 by omega), hw]
  rw [happly]
  obtain ⟨hbytes, hrest, hstamp⟩ := putWrites_single s w
  exact ⟨hbytes, hrest, hstamp, ((touches_putWrites s [w]).then_ (touches_noteWrite _ _ _ _)).file⟩

/-- A key of the partner's root of trust: refused for slot 0 and for a slot in use, and else installed. -/
theorem mirrorApply_key {op : MirrorIn} (hb : op.bay < 16) (hu : op.unit = 6) (hp : op.pf < 2 ^ 18) (hi : op.idx = 0x11)
    (hphase : s.boot.phase = 2) (hkey : s.fld Reg.rotStatus Reg.rotStatus_PAIRKEY = 1) :
    let bs := (op.writes.headD ⟨0, .none, []⟩).data
    let slot := leAt bs 0 2
    (slot = 0 ∨ (s.key slot).state ≠ 0 → exec (.mirrorApply op) s = .next (s.emit (.mirrorAck false))) ∧
    (slot ≠ 0 → (s.key slot).state = 0 → ∃ t, exec (.mirrorApply op) s = .next t ∧ (t.key slot).state = 1 ∧
      (t.key slot).owner = leAt bs 2 2 ∧ t.out = s.out ++ [.mirrorAck true] ∧ SameRegisters s t ∧ t.mem = s.mem) := by
  intro bs slot
  have hexec : exec (.mirrorApply op) s = .next ((s.partnerRot op).2.emit (.mirrorAck (s.partnerRot op).1)) := by
    show execMirrorApply op s = _
    unfold execMirrorApply
    rw [guarded_next _ _ (mirrorIn_ok hb (by omega) hp), if_pos hu]
  have hrot : s.partnerRot op = if slot = 0 ∨ (s.key slot).state ≠ 0 then (false, s) else
      (true, s.setKey slot { s.key slot with
        state := 1, owner := leAt bs 2 2, kid := 2 * bytesNat ((bs.drop 4).take 96) + 1, bad := false }) := by
    unfold State.partnerRot
    rw [if_neg (by simp [hphase, hkey]), if_pos (Or.inl hi)]
  refine ⟨fun h => ?_, fun h0 hempty => ⟨_, hexec, ?_⟩⟩
  · rw [hexec, hrot, if_pos h]
  · rw [hrot, if_neg (by simp [h0, hempty])]
    have htouch := (touches_setKey s slot { s.key slot with
      state := 1, owner := leAt bs 2 2, kid := 2 * bytesNat ((bs.drop 4).take 96) + 1, bad := false }).then_ (touches_emit _ (.mirrorAck true))
    refine ⟨?_, ?_, rfl, htouch.file, htouch.mem⟩ <;> simp [State.key, State.emit, State.setKey]

/-! ## MIRROR_ACK_RECEIVE (R404, R405) -/

theorem engine_updBay (b b' : Nat) {f : BayX → BayX} (h : (f (s.bay b)).engine = (s.bay b).engine) :
    ((s.updBay b f).bay b').engine = (s.bay b').engine := by
  rw [State.bay_updBay]
  split
  · next hb => rw [h, hb]
  · rfl

/-- An event leaves the engine of every bay. -/
theorem engine_event (b source : Nat) (r : Word) (b' : Nat) : ((s.event b source r).bay b').engine = (s.bay b').engine := by
  unfold State.event State.mergeEvent
  split
  · split
    · exact engine_updBay s b b' rfl
    · rfl
  · split
    · rw [(touches_log s _ _ _ _ _).bay]
    · refine foldl_same (fun u => (u.bay b').engine) (fun u n _ => ?_) s
      have hfire : ((u.fireOne b n r).bay b').engine = (u.bay b').engine := by
        unfold State.fireOne
        extract_lets w0 l s1
        have h1 : (s1.bay b').engine = (u.bay b').engine := engine_updBay u b b' rfl
        split
        · rw [(touches_setFld s1 _ _ _).bay, h1]
        · exact h1
      split
      · exact hfire
      · rfl

/-- A unit logged leaves the engine of every bay and the window. -/
theorem logUnit_keeps (b : Nat) (e : LogEntry) (b' : Nat) :
    ((s.logUnit b e).bay b').engine = (s.bay b').engine ∧ (s.logUnit b e).pair.window = s.pair.window := by
  unfold State.logUnit
  extract_lets n v g s1 s2 m
  split
  · exact ⟨rfl, rfl⟩
  · split
    · exact ⟨rfl, rfl⟩
    · unfold State.pairEvent
      refine ⟨?_, ?_⟩
      · rw [List.foldl_cons, List.foldl_nil, engine_event, (touches_log _ _ _ _ _ _).bay]
        rfl
      · rw [List.foldl_cons, List.foldl_nil, (touches_event _ _ _ _).pair, (touches_log _ _ _ _ _ _).pair]
        rfl

/-- A bay whose engine has no first sketch stroke waiting is left as it is. -/
theorem settleFirst_stays {b : Nat} (h : ∀ g, (s.bay b).engine = some g → g.first = none) : s.settleFirst b = s := by
  unfold State.settleFirst
  split
  · rfl
  · next g hg => rw [h g hg]

/-- The cycle of an acknowledgement, with its operation out of the window. -/
def State.ackTaken (s : State) (n due : Nat) : State :=
  let s1 := s.passTo due
  State.setFld { s1 with pair := { s1.pair with window := s1.pair.window.filter fun e => e.1 != n } } Reg.pairStatus
    Reg.pairStatus_WINDOW (s1.pair.window.filter fun e => e.1 != n).length

/-- What was not applied is logged, and leases that waited are settled. -/
def State.ackSettled (s : State) (op : MirrorIn) (ok : Bool) : State := (if ok then s else s.logOp op).settleLeases

theorem touches_ackTaken (n due : Nat) : Touches [.ec, .regs, .pair] s (s.ackTaken n due) :=
  ((touches_passTo s due).then_ ((touches_setPair _ _).then_ (touches_setFld _ _ _ _))).mono (by decide)

theorem ackTaken_window (n due : Nat) : (s.ackTaken n due).pair.window = s.pair.window.filter (fun e => e.1 != n) ∧
    due ≤ (s.ackTaken n due).ec ∧
    (s.ackTaken n due).fld Reg.pairStatus Reg.pairStatus_WINDOW = (s.ackTaken n due).pair.window.length % 2 ^ 13 := by
  refine ⟨congrArg (fun p => p.window.filter fun e => e.1 != n) (touches_passTo s due).pair, ?_, State.fld_setFld_same _ _ _ _ (by decide)⟩
  show due ≤ (s.passTo due).ec
  rw [State.passTo_ec]
  exact le_max_right _ _

theorem touches_ackSettled (op : MirrorIn) (ok : Bool) : Touches [.mem, .regs, .bays, .host, .pair, .out] s (s.ackSettled op ok) := by
  have hlogged : Touches [.mem, .regs, .bays, .host, .pair] s (if ok then s else s.logOp op) :=
    Touches.ite (fun _ => Touches.refl _ s) fun _ => touches_logOp s op
  exact (hlogged.then_ (touches_settleLeases _)).mono (by decide)

theorem ackSettled_keeps (op : MirrorIn) (ok : Bool) (b : Nat) :
    ((s.ackSettled op ok).bay b).engine = (s.bay b).engine ∧ (s.ackSettled op ok).pair.window = s.pair.window := by
  unfold State.ackSettled
  rw [(touches_settleLeases _).bay, (touches_settleLeases _).pair]
  split
  · exact ⟨rfl, rfl⟩
  · exact logUnit_keeps s _ _ b

/-- An acknowledgement takes its operation out of the window (R404). -/
theorem mirrorAckReceive_settles (n : Nat) (ok : Bool) :
    (s.pair.window.find? (fun w => w.1 == n) = none → exec (.mirrorAckReceive n ok) s = .next s) ∧
    (∀ w, s.pair.window.find? (fun w => w.1 == n) = some w →
      (∀ b g, b < 16 → (s.bay b).engine = some g → g.first = none) → ∃ t, exec (.mirrorAckReceive n ok) s = .next t ∧
      t.pair.window = s.pair.window.filter (fun e => e.1 != n) ∧ w.2.2.2 ≤ t.ec ∧ SameRegisters s t ∧
      (ok = true → t.mem = s.mem ∧ t.fld Reg.pairStatus Reg.pairStatus_WINDOW = t.pair.window.length % 2 ^ 13)) := by
  have hexec : exec (.mirrorAckReceive n ok) s = execMirrorAckReceive n ok s := rfl
  unfold execMirrorAckReceive at hexec
  rw [guarded_next _ _ rfl] at hexec
  refine ⟨fun hw => by simp only [hw] at hexec; exact hexec, fun w hw hfirst => ?_⟩
  simp only [hw] at hexec
  have htaken := touches_ackTaken s n w.2.2.2
  have hsettled := touches_ackSettled (s.ackTaken n w.2.2.2) w.2.2.1 ok
  obtain ⟨hwindow, hdue, hshown⟩ := ackTaken_window s n w.2.2.2
  have hkeeps := ackSettled_keeps (s.ackTaken n w.2.2.2) w.2.2.1 ok
  have hstays : allBays.foldl (fun u b => u.settleFirst b) ((s.ackTaken n w.2.2.2).ackSettled w.2.2.1 ok) =
      (s.ackTaken n w.2.2.2).ackSettled w.2.2.1 ok := foldl_stays fun b hb => settleFirst_stays _ fun g hg =>
    hfirst b g (List.mem_range.1 hb) (by rwa [(hkeeps b).1, htaken.bay] at hg)
  refine ⟨(s.ackTaken n w.2.2.2).ackSettled w.2.2.1 ok, hexec.trans (congrArg _ hstays), ?_, ?_, (htaken.then_ hsettled).file, fun hok => ?_⟩
  · rw [(hkeeps 0).2, hwindow]
  · rw [hsettled.ec]
    exact hdue
  · have hlease := touches_settleLeases (s.ackTaken n w.2.2.2)
    rw [State.ackSettled, if_pos hok, State.fld_of_reg (reg_settleLeases _ (by decide)), hlease.pair]
    exact ⟨hlease.mem.trans htaken.mem, hshown⟩

/-! ## PAIR_LINK_CHANGE and PAIR_LINK_TRAINED (R22, R404, R413) -/

theorem pairLinkChange_exec {m : Nat} (hm : m < 16) : exec (.pairLinkChange m) s = .next (s.setGroups m) := by
  show execPairLinkChange m s = _
  exact guarded_next _ _ (decide_eq_true hm)

/-- The groups that have trained join those that run, once the root of trust's image does. -/
theorem pairLinkTrained_joins {m : Nat} (hm : m < 16) :
    (s.boot.phase ≠ 2 → exec (.pairLinkTrained m) s = .next s) ∧
    (s.boot.phase = 2 → ∃ t, exec (.pairLinkTrained m) s = .next t ∧
      t.pair.trained = (s.pair.trained ||| (m &&& (15 - s.groupsDown))) ∧
      t.pair.groups = ((s.pair.groups ||| m) &&& t.pair.trained &&& (15 - s.groupsDown)) ∧ SameRegisters s t ∧ t.mem = s.mem) := by
  have hexec : exec (.pairLinkTrained m) s = execPairLinkTrained m s := rfl
  unfold execPairLinkTrained at hexec
  rw [guarded_next _ _ (decide_eq_true hm)] at hexec
  refine ⟨fun h => by rw [hexec, if_neg h], fun h => ?_⟩
  rw [if_pos h] at hexec
  obtain ⟨hpair, hfile, hmem, -, -⟩ := setGroups_runs
    { s with pair := { s.pair with trained := s.pair.trained ||| (m &&& (15 - s.groupsDown)) } } (s.pair.groups ||| m)
  refine ⟨_, hexec, ?_, ?_, hfile, hmem⟩
  · rw [hpair]
  · rw [hpair]
    rfl

/-! ## The partner out of reach (R407, R408) -/

/-- With nothing outstanding, nothing is logged. -/
theorem logWindow_empty (hw : s.pair.window = []) :
    Touches [.regs, .fab, .pair] s s.logWindow ∧
    (∀ f : Fld, f.lo + f.w ≤ 18 → s.logWindow.fld Reg.pairStatus f = s.fld Reg.pairStatus f) := by
  have hdrop := touches_dropItems s 8 QEnt.isMirror
  unfold State.logWindow
  rw [hw, List.foldl_nil]
  refine ⟨(hdrop.then_ ((touches_setPair _ _).then_ (touches_setFld _ _ _ _))).mono (by decide), fun f hf => ?_⟩
  rw [State.fld_setFld_apart _ _ _ _ _ (by decide) (Or.inr hf)]
  exact State.fld_of_reg (reg_dropItems_ofPair s 8 _ (by decide)) f

/-- A partner that cannot be reached: nothing is held for it any more, and a resynchronisation is owed (R407). -/
theorem unreach_owes :
    s.unreach.pair.window = [] ∧ s.unreach.pair.owed = true ∧ s.unreach.pair.unreachAt = s.gc ∧ SameRegisters s s.unreach ∧
    (s.pair.window = [] → s.unreach.fld Reg.pairStatus Reg.pairStatus_UNREACH = 1 ∧ s.unreach.mem = s.mem) := by
  unfold State.unreach
  extract_lets s1 pair s2
  have hset := touches_setFld s Reg.pairStatus Reg.pairStatus_UNREACH 1
  have h1 : Touches [.mem, .regs, .bays, .host, .fab, .pair] s s1 := (hset.then_ (touches_logWindow _)).mono (by decide)
  have hshown := (touches_setFld s2 Reg.pairStatus Reg.pairStatus_RESYNC 0).then_ ((touches_setFld _ Reg.pairStatus Reg.pairStatus_FABACT 0).then_
    (touches_pairNote _ 0x04))
  have hlast := (touches_setPair s1 _).then_ hshown
  refine ⟨congrArg PairX.window hshown.pair, congrArg PairX.owed hshown.pair, (congrArg PairX.unreachAt hshown.pair).trans h1.gc,
    (h1.then_ hlast).file, fun hw => ?_⟩
  obtain ⟨hempty, hfld⟩ := logWindow_empty (s.setFld Reg.pairStatus Reg.pairStatus_UNREACH 1) hw
  refine ⟨?_, hlast.mem.trans (hset.then_ hempty).mem⟩
  rw [State.fld_of_reg (reg_pairNote_ofPair _ _ (by decide)), State.fld_setFld_apart _ _ _ _ _ (by decide) (by decide),
    State.fld_setFld_apart _ _ _ _ _ (by decide) (by decide)]
  exact (hfld _ (by decide)).trans (State.fld_setFld_same _ _ _ _ (by decide))

/-- The partner counts as out of reach once the link is down and the fabric path closed or failed. -/
theorem partnerUnreachable_next :
    (s.fld Reg.pairStatus Reg.pairStatus_LINK ≠ 0 → exec .partnerUnreachable s = .next s) ∧
    (s.fld Reg.pairStatus Reg.pairStatus_LINK = 0 → s.pwr.parked = false → s.fld Reg.pairStatus Reg.pairStatus_UNREACH = 0 →
      s.fld Reg.pairCtrl Reg.pairCtrl_FABPATH = 0 ∨ (s.conn (s.fld Reg.pairCtrl Reg.pairCtrl_FABCONN)).state = 2 →
      exec .partnerUnreachable s = .next s.unreach) := by
  have hexec : exec .partnerUnreachable s = execPartnerUnreachable s := rfl
  unfold execPartnerUnreachable at hexec
  rw [guarded_next _ _ rfl] at hexec
  refine ⟨fun hl => hexec.trans (congrArg _ (if_neg fun h => hl h.1)), fun hl hp hu hc => hexec.trans (congrArg _ (if_pos ?_))⟩
  exact ⟨hl, by simp [hp], hu, hc.symm⟩

/-- The lower member of a split pair reports it (R408). -/
theorem pairholdExpiry_reports :
    (s.fld Reg.pairStatus Reg.pairStatus_UNREACH = 0 → exec .pairholdExpiry s = .next s) ∧
    (let p := s.fld Reg.pairStatus Reg.pairStatus_PARTNER
     s.fld Reg.pairStatus Reg.pairStatus_UNREACH = 1 → s.isLive = true → s.suspected p = false → s.node < p → p ≤ 0x3FF →
      let u := s.passTo (96 * (s.pair.unreachAt + s.fld Reg.pairCtrl Reg.pairCtrl_PAIRHOLD))
      (u.coordinators p = [] → exec .pairholdExpiry s = .next u) ∧
      (∀ c l, u.coordinators p = c :: l → exec .pairholdExpiry s = .next (u.tell c p true))) := by
  have hexec : exec .pairholdExpiry s = execPairholdExpiry s := rfl
  unfold execPairholdExpiry at hexec
  refine ⟨fun h => hexec.trans (congrArg _ (if_pos (Or.inl h))), ?_⟩
  intro p hunreach hlive hsus hlt hle u
  rw [if_neg (by simp [hunreach, hlive, hsus, p, not_lt.2 hle, not_le.2 hlt])] at hexec
  refine ⟨fun hc => ?_, fun c l hc => ?_⟩
  · rw [hexec]
    simp only [u, p] at hc ⊢
    rw [hc]
  · rw [hexec]
    simp only [u, p] at hc ⊢
    rw [hc]

end

end Sys2Proof.Machine

/-! # The pair: resynchronisation and audit -/

namespace Sys2Proof.Machine

-- One theorem after another, as in the tests: side by side their stacks ask for more memory than the check allows.
set_option Elab.async false

section

variable (s : State)

/-! ## PAIR_RESYNC_START (R409, R439, R458) -/

/-- The logs are exchanged once the partner can be reached, neither member is out and no destroy waits for the partner. -/
theorem pairResyncStart_starts (log : List LogEntry) :
    let u := s.pairShow
    (u.fld Reg.pairStatus Reg.pairStatus_UNREACH = 1 → exec (.pairResyncStart log) s = .next u) ∧
    (u.fld Reg.pairStatus Reg.pairStatus_UNREACH = 0 → u.fld Reg.pairStatus Reg.pairStatus_SOLO = 0 →
      u.fld Reg.pairStatus Reg.pairStatus_RESYNC = 0 → u.pairBroken = false → u.mirrorOff = false →
      (∀ k, k ∈ u.keys → k.2.pending = false) → ∃ t, exec (.pairResyncStart log) s = .next t ∧
        t.fld Reg.pairStatus Reg.pairStatus_RESYNC = 1 ∧ t.pair.partnerLog = log ∧ SameRegisters s t ∧ t.mem = s.mem) := by
  intro u
  have hexec : exec (.pairResyncStart log) s = execPairResyncStart log s := rfl
  unfold execPairResyncStart at hexec
  rw [guarded_next _ _ rfl] at hexec
  refine ⟨fun h => hexec.trans (congrArg _ (if_pos (Or.inl h))), fun hreach hsolo hresync hbroken hoff hkeys => ?_⟩
  have hpending : u.keys.any (·.2.pending) = false := List.any_eq_false.2 fun k hk => by simp [hkeys k hk]
  rw [if_neg (by simp [hreach, hsolo, hresync, hbroken, hoff, hpending, u])] at hexec
  obtain ⟨o, hnext⟩ : ∃ o, exec (.pairResyncStart log) s = .next (State.emit (State.setFld
    { u with pair := { u.pair with partnerLog := log } } Reg.pairStatus Reg.pairStatus_RESYNC 1) o) := ⟨_, hexec⟩
  have htouch := (touches_pairShow s).then_ ((touches_setPair u { u.pair with partnerLog := log }).then_
    ((touches_setFld _ Reg.pairStatus Reg.pairStatus_RESYNC 1).then_ (touches_emit _ o)))
  refine ⟨_, hnext, ?_, rfl, htouch.file, htouch.mem⟩
  rw [(touches_emit _ o).fld, State.fld_setFld_same _ _ _ _ (by decide)]
  rfl

/-! ## PAIR_RESYNC_DONE (R409 to R412) -/

/-- Units resolved one after another. -/
theorem touches_resolves (own partner : State → PartnerUnit → Option Nat) (us : List PartnerUnit) :
    Touches [.mem, .ec, .regs, .bays, .host, .cat, .catc] s (us.foldl (fun v u => v.resolve (own v u) (partner v u) u) s) :=
  Touches.foldl (fun v u => touches_resolve v _ _ u) us s

/-- Both logs emptied, and no resynchronisation runs or is owed. -/
def State.resynced (s : State) : State :=
  ((((State.setFld { s with pair := { s.pair with logLen := [], owed := false, partnerLog := [] } } Reg.pairLog Reg.pairLog_FILL 0).setFld
    Reg.pairLog Reg.pairLog_OVFMASK 0).setFld Reg.pairStatus Reg.pairStatus_RESYNC 0).pairNote 0x07).settleLeases

theorem resynced_empties :
    s.resynced.fld Reg.pairStatus Reg.pairStatus_RESYNC = 0 ∧ s.resynced.fld Reg.pairLog Reg.pairLog_FILL = 0 ∧
    s.resynced.fld Reg.pairLog Reg.pairLog_OVFMASK = 0 ∧
    s.resynced.pair = { s.pair with logLen := [], owed := false, partnerLog := [] } ∧ SameRegisters s s.resynced := by
  have hlast := fun u : State => (touches_pairNote u 0x07).then_ (touches_settleLeases _)
  have hset := (touches_setPair s { s.pair with logLen := [], owed := false, partnerLog := [] }).then_
    ((touches_setFld _ Reg.pairLog Reg.pairLog_FILL 0).then_ ((touches_setFld _ Reg.pairLog Reg.pairLog_OVFMASK 0).then_
      ((touches_setFld _ Reg.pairStatus Reg.pairStatus_RESYNC 0).then_ (hlast _))))
  have hfld : ∀ (u : State) {o : Nat} (f : Fld), OfPair o → (u.pairNote 0x07).settleLeases.fld o f = u.fld o f := fun u o f ho =>
    State.fld_of_reg ((reg_settleLeases _ (by omega)).trans (reg_pairNote_ofPair u _ ho)) f
  unfold State.resynced
  refine ⟨?_, ?_, ?_, (hlast _).pair, hset.file⟩
  · rw [hfld _ _ (by decide)]
    exact State.fld_setFld_same _ _ _ _ (by decide)
  · rw [hfld _ _ (by decide), State.fld_setFld_ne _ _ _ _ (by decide), State.fld_setFld_apart _ _ _ _ _ (by decide) (by decide)]
    exact State.fld_setFld_same _ _ _ _ (by decide)
  · rw [hfld _ _ (by decide), State.fld_setFld_ne _ _ _ _ (by decide)]
    exact State.fld_setFld_same _ _ _ _ (by decide)

/-- Copies of a portfolio and a unit there are. -/
theorem copies_ok {us : List PartnerUnit} (hus : ∀ u, u ∈ us → u.pf < 2 ^ 18 ∧ u.unit < 4) :
    (us.all fun u => decide (u.pf < 2 ^ 18) && decide (u.unit < 4)) = true :=
  List.all_eq_true.2 fun u hu => by
    rw [decide_eq_true (hus u hu).1, decide_eq_true (hus u hu).2]
    rfl

/-- A resynchronisation that runs ends with both logs empty. -/
theorem pairResyncDone_ends {us : List PartnerUnit} (hus : ∀ u, u ∈ us → u.pf < 2 ^ 18 ∧ u.unit < 4) :
    (s.fld Reg.pairStatus Reg.pairStatus_RESYNC = 0 → exec (.pairResyncDone us) s = .next s) ∧
    (s.fld Reg.pairStatus Reg.pairStatus_RESYNC = 1 → ∃ t, exec (.pairResyncDone us) s = .next t ∧
      t.fld Reg.pairStatus Reg.pairStatus_RESYNC = 0 ∧ t.fld Reg.pairLog Reg.pairLog_FILL = 0 ∧
      t.fld Reg.pairLog Reg.pairLog_OVFMASK = 0 ∧ t.pair.logLen = [] ∧ t.pair.owed = false ∧ t.pair.partnerLog = [] ∧
      SameRegisters s t) := by
  have hexec : exec (.pairResyncDone us) s = execPairResyncDone us s := rfl
  unfold execPairResyncDone at hexec
  rw [guarded_next _ _ (copies_ok hus)] at hexec
  refine ⟨fun h => hexec.trans (congrArg _ (if_pos h)), fun h => ?_⟩
  rw [if_neg (by omega)] at hexec
  have hrun := fun (v : State) l => touches_resolves v (fun v u => v.ownSeq s.ownLog u) State.partnerSeq l
  obtain ⟨v, hnext, htouch⟩ : ∃ v : State, exec (.pairResyncDone us) s = .next v.resynced ∧
      Touches [.mem, .ec, .regs, .bays, .host, .cat, .catc] s v := ⟨_, hexec, (hrun s _).trans (hrun _ _)⟩
  obtain ⟨hresync, hfill, hovf, hpair, hfile⟩ := resynced_empties v
  exact ⟨_, hnext, hresync, hfill, hovf, congrArg PairX.logLen hpair, congrArg PairX.owed hpair, congrArg PairX.partnerLog hpair,
    Part.Same.trans (p := .file) htouch.file hfile⟩

/-! ## AUDIT_STEP (R410 to R412) -/

/-- The end of a part of the audit: its time, the portfolio that is next, and a pass that has ended counted. -/
def State.audited (s : State) (next : Nat) (past : Bool) : State :=
  let s1 := { s with pair := { s.pair with auditAt := s.gc, auditPf := next } }
  if past then s1.count Reg.pairAudit Reg.pairAudit_PASSES 1 else s1

theorem touches_audited (next : Nat) (past : Bool) : Touches [.pair, .regs] s (s.audited next past) :=
  (touches_setPair s _).then_ (Touches.ite (fun _ => touches_count _ _ _ _) fun _ => Touches.refl _ _)

theorem auditAt_audited (next : Nat) (past : Bool) : (s.audited next past).pair.auditAt = s.gc := by
  unfold State.audited
  cases past <;> rfl

/-- A part of the audit comes 25,000 gc after the one before it at the earliest. -/
theorem auditStep_waits {us : List PartnerUnit} (hus : ∀ u, u ∈ us → u.pf < 2 ^ 18 ∧ u.unit < 4) :
    (s.fld Reg.pairCtrl Reg.pairCtrl_AUDIT = 0 ∨ s.fld Reg.pairAudit Reg.pairAudit_RATE = 0 → exec (.auditStep us) s = .next s) ∧
    (s.fld Reg.pairCtrl Reg.pairCtrl_AUDIT = 1 → s.fld Reg.pairAudit Reg.pairAudit_RATE ≠ 0 → s.partnerAway = false →
      s.mirrorOff = false → s.fld Reg.pairStatus Reg.pairStatus_RESYNC = 0 → ∃ t, exec (.auditStep us) s = .next t ∧
        t.pair.auditAt = t.gc ∧ s.pair.auditAt + 25000 ≤ t.gc ∧ SameRegisters s t) := by
  have hexec : exec (.auditStep us) s = execAuditStep us s := rfl
  unfold execAuditStep at hexec
  rw [guarded_next _ _ (copies_ok hus)] at hexec
  refine ⟨fun h => hexec.trans (congrArg _ (if_pos (h.imp id Or.inl))), fun ha hr hp hm hs => ?_⟩
  obtain ⟨v, next, past, hnext, hresolved⟩ : ∃ (v : State) (next : Nat) (past : Bool),
      exec (.auditStep us) s = .next (v.audited next past) ∧
      Touches [.mem, .ec, .regs, .bays, .host, .cat, .catc] (s.passTo (96 * (s.pair.auditAt + 25000))) v :=
    ⟨_, _, _, hexec.trans (congrArg _ (if_neg (by simp [ha, hr, hp, hm, hs]))), touches_resolves _ (fun _ _ => none) (fun _ _ => none) _⟩
  have htime := touches_passTo s (96 * (s.pair.auditAt + 25000))
  have haudited := touches_audited v next past
  refine ⟨_, hnext, ?_, ?_, (htime.then_ (hresolved.then_ haudited)).file⟩
  · rw [haudited.gc, auditAt_audited]
  · rw [haudited.gc]
    exact (s.le_gc_passTo _).trans hresolved.le_gc

end

/-- Settles O43, command by command: mirrored operations by the state of their bay and by the bytes they place, acknowledgements by
what the window's owner keeps, the lane groups by what PAIR.STATUS shows of them, and the partner's loss, the resynchronisation and
the audit by the fields each leaves. -/
theorem thePairMirrorsAndResynchronises : Obligations.ThePairMirrorsAndResynchronises := by
  refine ⟨fun op s hb hu hp => ?_, fun op s hb hu hp => ?_, fun n ok s => mirrorAckReceive_settles s n ok, fun m s hm => ?_, fun s => ?_⟩
  · obtain ⟨hwaits, hrefused, happlied⟩ := mirrorApply_next s hb hu hp
    exact ⟨hwaits, hrefused, fun hup hstk hs => ⟨_, happlied hup hstk hs, out_emit _ _, fun w h1 hw => applyMirror_writes s h1 hw⟩⟩
  · intro bs slot hi hphase hkey
    exact mirrorApply_key s hb hu hp hi hphase hkey
  · intro can
    obtain ⟨hpair, hfile, hmem, hgroups, hlink⟩ := setGroups_runs s m
    exact ⟨⟨_, pairLinkChange_exec s hm, congrArg PairX.groups hpair, hfile, hmem, hgroups, hlink⟩, pairLinkTrained_joins s hm⟩
  · obtain ⟨hreached, hlost⟩ := partnerUnreachable_next s
    obtain ⟨hnone, hreports⟩ := pairholdExpiry_reports s
    refine ⟨hreached, fun hl hp hu hc => ⟨_, hlost hl hp hu hc, unreach_owes s⟩, hnone, hreports, fun log => pairResyncStart_starts s log,
      fun us hus => ?_⟩
    obtain ⟨hidle, hends⟩ := pairResyncDone_ends s hus
    exact ⟨hidle, hends, auditStep_waits s hus⟩

end Sys2Proof.Machine

/-! # The catalogue: searches -/

namespace Sys2Proof.Machine

-- One theorem after another, as in the tests: side by side their stacks ask for more memory than the check allows.
set_option Elab.async false

section

variable (s : State) (x : Ea)

/-! ## CAT.SEARCH (R117, R144) -/

/-- The search a word asks for. -/
def State.searchOf (s : State) (x : Ea) (w : Word) : SearchX :=
  ⟨x, rdOf w, s.pair80 x (raOf w), if rbOf w = 0 then 2 ^ 80 - 1 else s.pair80 x (rbOf w), none, 0⟩

/-- The state in which that search stands at the end of its bay's queue, with its pair awaited. -/
def State.searchQueued (s : State) (x : Ea) (w : Word) : State :=
  (s.updBay x.bay fun y => { y with searchQ := y.searchQ ++ [s.searchOf x w] }).takePend x (rdOf w) none

theorem catSearch_next {w : Word} (hr : runs (.catSearch x w) s = true) :
    exec (.catSearch x w) s = .next ((if s.pendFull x then Res.trap 0x0C 0 0
      else if 16 ≤ (s.bay x.bay).searchQ.length then .stall else .ok (s.searchQueued x w)).land s x 1) :=
  runs_next s x w { sh := shR .gp .gp (if rbOf w = 0 then .z else .gp) .z } _ (.catSearch x w) rfl rfl rfl hr

theorem touches_searchQueued (w : Word) : Touches [.bays, .easels] s (s.searchQueued x w) :=
  (touches_updBay s x.bay fun y => { y with searchQ := y.searchQ ++ [s.searchOf x w] }).then_ (touches_takePend x _ _ _)

theorem searchQ_searchQueued (w : Word) :
    ((s.searchQueued x w).bay x.bay).searchQ = (s.bay x.bay).searchQ ++ [s.searchOf x w] := by
  rw [State.searchQueued, (touches_takePend x _ _ _).bay, State.bay_updBay_same]

theorem pend_searchQueued (w : Word) : ((s.searchQueued x w).ex x).pend =
    (s.ex x).pendAt (s.resultCycle x) ++ [⟨rdOf w, s.resultCycle x, none⟩] := by
  rw [State.searchQueued, State.takePend, State.ex_updEx_same]
  rfl

/-! ## The slots of a bay (R56) -/

/-- A slot of bay `b` is a cycle 2b of a round of 32. -/
theorem searchSlot_mod {b : Nat} (hb : b < 16) (c : Nat) (done : List SearchX) : searchSlot b c done % 32 = 2 * b := by
  unfold searchSlot
  extract_lets k
  split <;> omega

theorem le_searchSlot (b c : Nat) (done : List SearchX) : c ≤ searchSlot b c done := by
  unfold searchSlot
  extract_lets k
  split <;> omega

/-- The slot the head of a bay's queue is admitted in: the bay's next one outside a flip round (R56, R64). -/
def State.admissionSlot (s : State) (b : Nat) : Nat := searchSlot b (max s.ec s.catc.flipEnd) (s.bay b).searching

theorem ec_passTo_admissionSlot (b : Nat) : (s.passTo (s.admissionSlot b)).ec = s.admissionSlot b := by
  have hle : max s.ec s.catc.flipEnd ≤ s.admissionSlot b := le_searchSlot _ _ _
  rw [State.passTo_ec]
  omega

/-- What the banks answer does not hang on what the bays hold. -/
theorem searchWords_updBay (b : Nat) (f : BayX → BayX) (k g : Nat) : (s.updBay b f).searchWords k g = s.searchWords k g := rfl

/-- A search as it is admitted: with its result and the cycle it lands. -/
def State.admitted (s : State) (q : SearchX) : SearchX :=
  { q with result := some (s.searchWords q.key q.mask), due := s.ec + 128 }

/-- The head of a queue, off it and admitted. -/
def State.searchAdmitted (s : State) (b : Nat) (q : SearchX) (qs : List SearchX) : State :=
  s.updBay b fun y => { y with searchQ := qs, searching := y.searching ++ [s.admitted q] }

theorem searchAdmission_next {b : Nat} {q : SearchX} {qs : List SearchX} (hb : b < 16) (hq : (s.bay b).searchQ = q :: qs) :
    exec (.searchAdmission b) s = .next ((s.passTo (s.admissionSlot b)).searchAdmitted b q qs) := by
  show execSearchAdmission b s = _
  unfold execSearchAdmission
  rw [guarded_next _ _ (decide_eq_true hb), State.searchAdmitted, State.admitted, ec_passTo_admissionSlot]
  simp only [hq]
  rfl

theorem touches_searchAdmitted (b : Nat) (q : SearchX) (qs : List SearchX) : Touches [.bays] s (s.searchAdmitted b q qs) :=
  touches_updBay s b fun y => { y with searchQ := qs, searching := y.searching ++ [s.admitted q] }

theorem searchAdmitted_moves (b : Nat) (q : SearchX) (qs : List SearchX) : ((s.searchAdmitted b q qs).bay b).searchQ = qs ∧
    ((s.searchAdmitted b q qs).bay b).searching = (s.bay b).searching ++ [s.admitted q] := by
  rw [State.searchAdmitted, State.bay_updBay_same]
  exact ⟨rfl, rfl⟩

/-! ## A result lands (R55) -/

/-- A general register read after another has been written. -/
theorem State.gr_setG_ne {r r' : Nat} (v : Word) (h : r' ≠ r) : (s.setG x r v).gr x r' = s.gr x r' := by
  unfold State.setG
  split
  · rfl
  · rw [State.gr, SMap.get_set_ne _ _ _ (by omega), State.gr]

/-- Both words of a result in the pair of its search. -/
def State.landWords (s : State) (x : Ea) (r : Nat) (lo hi : Word) : State := (s.setG x r lo).setG x (r + 1) hi

theorem touches_landWords (r : Nat) (lo hi : Word) : Touches [.file] s (s.landWords x r lo hi) :=
  (touches_setG s x r lo).trans (touches_setG _ x (r + 1) hi)

theorem gr_landWords (r : Nat) (lo hi : Word) :
    (r ≠ 0 → (s.landWords x r lo hi).gr x r = lo) ∧ (s.landWords x r lo hi).gr x (r + 1) = hi := by
  refine ⟨fun hr => ?_, State.gr_setG_same _ x (Nat.succ_ne_zero r) hi⟩
  rw [State.landWords, State.gr_setG_ne _ _ _ (by omega), State.gr_setG_same s x hr]

/-- A result lands in general registers only. -/
theorem lanes_landWords (r : Nat) (lo hi : Word) :
    (s.landWords x r lo hi).v = s.v ∧ (s.landWords x r lo hi).t = s.t ∧ (s.landWords x r lo hi).p = s.p := by
  have hset : ∀ (u : State) (n : Nat) (v : Word), (u.setG x n v).v = u.v ∧ (u.setG x n v).t = u.t ∧ (u.setG x n v).p = u.p := by
    intro u n v
    unfold State.setG
    split <;> exact ⟨rfl, rfl, rfl⟩
  obtain ⟨hv, ht, hp⟩ := hset (s.setG x r lo) (r + 1) hi
  obtain ⟨hv', ht', hp'⟩ := hset s r lo
  exact ⟨hv.trans hv', ht.trans ht', hp.trans hp'⟩

/-- A search off its bay and its pair off the pending results. -/
def State.searchOver (s : State) (x : Ea) (q : SearchX) : State :=
  (s.updBay x.bay fun y => { y with searching := y.searching.erase q }).updEx x fun y => { y with pend := dropPend q.rd y.pend }

theorem touches_searchOver (q : SearchX) : Touches [.bays, .easels] s (s.searchOver x q) :=
  (touches_updBay s x.bay fun y => { y with searching := y.searching.erase q }).then_ (touches_updEx _ x _)

theorem searchOver_drops (q : SearchX) : ((s.searchOver x q).bay x.bay).searching = (s.bay x.bay).searching.erase q ∧
    ((s.searchOver x q).ex x).pend = dropPend q.rd (s.ex x).pend := by
  refine ⟨?_, ?_⟩
  · rw [State.searchOver, (touches_updEx _ x _).bay, State.bay_updBay_same]
  · rw [State.searchOver, State.ex_updEx_same]
    rfl

theorem searchResult_next {q : SearchX} {lo hi : Word} (hx : x.ok = true)
    (hq : ((s.bay x.bay).searching.find? fun a => a.x == x) = some q) (hres : q.result = some (lo, hi)) :
    exec (.searchResult x) s = .next (((s.passTo q.due).landWords x q.rd lo hi).searchOver x q) := by
  show execSearchResult x s = _
  unfold execSearchResult
  rw [guarded_next _ _ hx]
  simp only [hq, hres, Option.getD_some]
  rfl

end

/-- Settles O16: the three ways CAT.SEARCH ends, the admission in the bay's slot, and the landing in the pair, each from the state its
command leads to. -/
theorem catalogueSearchesQueueAndLand : Obligations.CatalogueSearchesQueueAndLand := by
  refine ⟨fun x w s hr => ⟨fun hfull => ?_, fun hfull hlen => ?_, fun hfull hlen => ?_⟩, fun b s q qs hb hq => ?_,
    fun x s q lo hi hx hq hres => ?_⟩
  · rw [catSearch_next s x hr, if_pos hfull]
    rfl
  · rw [catSearch_next s x hr, if_neg (by simp [hfull]), if_pos hlen]
    rfl
  · have hexec := catSearch_next s x hr
    rw [if_neg (by simp [hfull]), if_neg (by omega)] at hexec
    have hqueued := touches_searchQueued s x w
    have hpast := touches_advance (s.searchQueued x w) x 1
    refine ⟨_, hexec, ?_, ?_, ?_, (hqueued.then_ hpast).file, (hqueued.then_ hpast).mem⟩
    · rw [Res.land, hpast.bay, searchQ_searchQueued, State.searchOf]
    · rw [Res.land, hpast.ex, pend_searchQueued]
    · rw [Res.land, State.pc_advance, State.pc, hqueued.fld, State.pc]
  · have htime := touches_passTo s (s.admissionSlot b)
    have hadmit := touches_searchAdmitted (s.passTo (s.admissionSlot b)) b q qs
    obtain ⟨hqueue, hsearching⟩ := searchAdmitted_moves (s.passTo (s.admissionSlot b)) b q qs
    rw [htime.bay] at hsearching
    refine ⟨_, _, searchAdmission_next s hb hq, hqueue, hsearching, rfl, rfl, ?_, ?_, ?_, (htime.then_ hadmit).file,
      (htime.then_ hadmit).mem⟩
    · exact congrArg some (searchWords_updBay _ _ _ _ _).symm
    · rw [hadmit.ec, ec_passTo_admissionSlot]
      exact searchSlot_mod hb _ _
    · rw [hadmit.ec]
      rfl
  · have htime := touches_passTo s q.due
    have hpair := touches_landWords (s.passTo q.due) x q.rd lo hi
    have hover := touches_searchOver ((s.passTo q.due).landWords x q.rd lo hi) x q
    obtain ⟨hlo, hhi⟩ := gr_landWords (s.passTo q.due) x q.rd lo hi
    obtain ⟨hv, ht, hp⟩ := lanes_landWords (s.passTo q.due) x q.rd lo hi
    obtain ⟨hsearching, hpend⟩ := searchOver_drops ((s.passTo q.due).landWords x q.rd lo hi) x q
    obtain ⟨-, hvTime, htTime, hpTime⟩ := htime.file
    obtain ⟨hg, hvOver, htOver, hpOver⟩ := hover.file
    have hgr : ∀ r, State.gr (((s.passTo q.due).landWords x q.rd lo hi).searchOver x q) x r =
        ((s.passTo q.due).landWords x q.rd lo hi).gr x r := fun r => by rw [State.gr, hg, State.gr]
    refine ⟨_, searchResult_next s x hx hq hres, fun hr => (hgr _).trans (hlo hr), (hgr _).trans hhi, ?_, ?_,
      hvOver.trans (hv.trans hvTime), htOver.trans (ht.trans htTime), hpOver.trans (hp.trans hpTime),
      (htime.then_ (hpair.then_ hover)).mem⟩
    · rw [hsearching, hpair.bay, htime.bay]
    · rw [hpend, hpair.ex, htime.ex]

end Sys2Proof.Machine

/-! # The catalogue: rebuild, flip and scrub -/

namespace Sys2Proof.Machine

-- One theorem after another, as in the tests: side by side their stacks ask for more memory than the check allows.
set_option Elab.async false

/-! ## Sparse maps filtered, joined and poured into one another -/

namespace SMap

variable {α : Type} (d : Nat → α)

/-- A map cut down to some keys. -/
theorem get_filter_key (m : SMap α) (p : Nat → Bool) (k : Nat) :
    get d (m.filter fun e => p e.1) k = if p k then get d m k else d k := by
  unfold get
  by_cases hp : p k = true
  · rw [find?_filter_of _ _ _ (by simp [hp]), if_pos hp]
  · rw [find?_filter_none _ _ _ (by simp [hp]), if_neg hp]

theorem find?_key_none {m : SMap α} {k : Nat} (h : ∀ e ∈ m, e.1 ≠ k) : m.find? (fun e => e.1 == k) = none := by
  simpa [List.find?_eq_none] using h

theorem get_append_left (m : SMap α) {l : SMap α} {k : Nat} (h : ∀ e ∈ l, e.1 ≠ k) : get d (m ++ l) k = get d m k := by
  unfold get
  rw [List.find?_append, find?_key_none h, Option.or_none]

theorem get_append_right (m : SMap α) {l : SMap α} {k : Nat} (h : ∀ e ∈ l, e.1 ≠ k) : get d (l ++ m) k = get d m k := by
  unfold get
  rw [List.find?_append, find?_key_none h, Option.none_or]

theorem get_cons (e : Nat × α) (m : SMap α) (k : Nat) : get d (e :: m) k = if e.1 = k then e.2 else get d m k := by
  unfold get
  by_cases h : e.1 = k <;> simp [h]

/-- What an unlisted key reads as matters at the key read only. -/
theorem get_congr_default {d d' : Nat → α} (m : SMap α) {k : Nat} (h : d k = d' k) : get d m k = get d' m k := by
  unfold get
  rw [h]

/-- The entries of one map set in another: where they list a key, they hide it. -/
theorem get_foldl_set [DecidableEq α] (l m : SMap α) (k : Nat) (hl : l.Pairwise fun e f => e.1 < f.1) :
    get d (l.foldl (fun m e => set d m e.1 e.2) m) k = get (get d m) l k := by
  induction l generalizing m with
  | nil => rfl
  | cons e l ih =>
    obtain ⟨hhead, htail⟩ := List.pairwise_cons.1 hl
    rw [List.foldl_cons, ih _ htail, get_cons]
    by_cases hk : e.1 = k
    · subst hk
      rw [if_pos rfl, get, find?_key_none fun f hf => (hhead f hf).ne']
      exact get_set_same _ _ _ _
    · rw [if_neg hk]
      exact get_congr_default _ (get_set_ne _ _ _ (Ne.symm hk))

end SMap

/-- A shadow bank made of two reads as the new one where it has been reached, as the old one elsewhere (R63). -/
theorem get_fillUpTo {α : Type} [DecidableEq α] (d : Nat → α) (reached : Nat → Bool) {old : SMap α} (new : SMap α) (k : Nat)
    (hold : SMap.wf d old = true) :
    SMap.get d (fillUpTo d reached old new) k = if reached k then SMap.get d new k else SMap.get d old k := by
  have hrising := ((SMap.wf_iff d old).1 hold).1.filter fun e => !reached e.1
  rw [fillUpTo, SMap.get_foldl_set d _ _ _ hrising, SMap.get_filter_key _ old (fun j => !reached j), SMap.get_filter_key]
  cases hk : reached k with
  | true => rfl
  | false => exact SMap.get_congr_default _ (by simp [SMap.get_filter_key, hk])

theorem catIdx_bank {k n : Nat} (hn : n < 2 ^ 22) : catIdx k n / 2 ^ 22 = k := by
  unfold catIdx
  omega

theorem catIdx_entry {k n : Nat} (hn : n < 2 ^ 22) : catIdx k n % 2 ^ 22 = n := by
  unfold catIdx
  omega

/-- A copy or a clear of the shadow bank leaves the live one. -/
theorem get_shadowOf_live {α : Type} (d : Nat → α) {live n : Nat} (clone : Bool) (m : SMap α) (hlive : live < 2) (hn : n < 2 ^ 22) :
    SMap.get d (shadowOf live clone m) (catIdx live n) = SMap.get d m (catIdx live n) := by
  have hkeep := SMap.get_filter_key d m (fun i => decide (i / 2 ^ 22 = live)) (catIdx live n)
  rw [catIdx_bank hn, if_pos (decide_eq_true rfl)] at hkeep
  have hcopy : ∀ e ∈ (if clone then (m.filter fun e => decide (e.1 / 2 ^ 22 = live)).map fun e =>
      (catIdx (1 - live) (e.1 % 2 ^ 22), e.2) else []), e.1 ≠ catIdx live n := by
    intro e he
    cases clone with
    | false => simp at he
    | true =>
      obtain ⟨f, -, rfl⟩ := List.mem_map.1 he
      unfold catIdx
      dsimp only
      omega
  unfold shadowOf
  extract_lets keep copy
  split
  · exact (SMap.get_append_left d _ hcopy).trans hkeep
  · exact (SMap.get_append_right d _ hcopy).trans hkeep

/-! ## Fields apart from the one written -/

section

variable (s : State)

/-- Two fields have no bit of one register in common. -/
abbrev FldApart (o : Nat) (f : Fld) (o' : Nat) (f' : Fld) : Prop := o' ≠ o ∨ f.lo + f.w ≤ f'.lo ∨ f'.lo + f'.w ≤ f.lo

theorem State.fld_setFld_other {o o' : Nat} {f f' : Fld} (n : Nat) (h : FldApart o f o' f' := by decide)
    (hw : f.lo + f.w ≤ 64 := by decide) : (s.setFld o f n).fld o' f' = s.fld o' f' := by
  by_cases ho : o' = o
  · subst ho
    exact State.fld_setFld_apart _ _ _ _ _ hw (h.resolve_left fun h => h rfl)
  · exact State.fld_setFld_ne _ _ _ _ ho

theorem perSlice_of_tier {s t : State} (h : t.fld Reg.globalLic Reg.globalLic_TIER = s.fld Reg.globalLic Reg.globalLic_TIER) :
    t.perSlice = s.perSlice := by
  rw [State.perSlice, h, State.perSlice]

theorem liveBank_lt : s.liveBank < 2 := s.fld_lt _ _

/-- An entry reads the same in two states with the same banks, live bank, tier, clock and copy under way. -/
theorem catEnt_congr {s t : State} (hcat : t.cat = s.cat) (hfill : t.catc.fill = s.catc.fill) (hec : t.ec = s.ec)
    (hlive : t.liveBank = s.liveBank) (hslice : t.perSlice = s.perSlice) (k n : Nat) : t.catEnt k n = s.catEnt k n := by
  unfold State.catEnt State.unfilled State.catShow
  rw [hcat, hfill, hec, hlive, hslice]

/-! ## ABORT (R63) -/

theorem fill_cutFill : s.cutFill.catc.fill = none := by
  unfold State.cutFill
  split
  · assumption
  · rfl

theorem cutFill_idle (hf : s.catc.fill = none) : s.cutFill = s := by
  unfold State.cutFill
  rw [hf]

theorem touches_cutFill : Touches [.cat, .catc] s s.cutFill := by
  intro p hp
  unfold State.cutFill
  cases p <;> simp [Part.Same, SameRegisters, State.prog, State.bay] at hp ⊢ <;> split <;> simp

/-- A copy or clear that is cut short changes no entry as the bank shows it: what it has reached stays, the rest is as it was. -/
theorem catEnt_cutFill {n : Nat} (k : Nat) (hn : n < 2 ^ 22)
    (hold : ∀ f, s.catc.fill = some f → SMap.wf (fun _ => 0) f.old = true) : s.cutFill.catEnt k n = s.catEnt k n := by
  cases hf : s.catc.fill with
  | none => rw [cutFill_idle s hf]
  | some f =>
    have hcat : s.cutFill.cat = fillUpTo (fun _ => 0) (fun i => (s.unfilled (i / 2 ^ 22) (i % 2 ^ 22)).isNone)
        (f.old.filter fun e => decide (e.1 / 2 ^ 22 ≠ s.liveBank)) s.cat := by
      unfold State.cutFill
      rw [hf]
    have hshow : ∀ v, s.cutFill.catShow v = s.catShow v := fun v => by
      rw [State.catShow, perSlice_of_tier ((touches_cutFill s).fld _ _), State.catShow]
    rw [catEnt_filled _ _ _ (fill_cutFill s), hshow, hcat, get_fillUpTo _ _ _ _ (SMap.wf_filter _ _ _ (hold f hf)), catIdx_bank hn,
      catIdx_entry hn, State.catEnt]
    cases hun : s.unfilled k n with
    | none => rfl
    | some g =>
      obtain ⟨hg, hshadow⟩ := Option.filter_eq_some_iff.1 hun
      obtain rfl : f = g := Option.some.inj (hf.symm.trans hg)
      have hne : k ≠ s.liveBank := by simpa using (Bool.and_eq_true_iff.1 hshadow).1
      rw [SMap.get_filter_key _ f.old fun i => decide (i / 2 ^ 22 ≠ s.liveBank), catIdx_bank hn, if_pos (decide_eq_true hne)]
      rfl

/-- What ABORT writes of the registers. -/
theorem fld_catAbort {o : Nat} {f : Fld} (hstate : FldApart Reg.catStatus Reg.catStatus_STATE o f := by decide)
    (hstart : FldApart Reg.catCtrl Reg.catCtrl_START o f := by decide) (hflip : FldApart Reg.catCtrl Reg.catCtrl_FLIP o f := by decide) :
    s.catAbort.fld o f = s.fld o f := by
  unfold State.catAbort
  extract_lets s0 s1
  rw [State.fld_setFld_other _ _ hflip, State.fld_setFld_other _ _ hstart, State.fld_setFld_other _ _ hstate]
  exact (touches_cutFill s).fld o f

theorem state_catAbort : s.catAbort.fld Reg.catStatus Reg.catStatus_STATE = 0 := by
  unfold State.catAbort
  rw [State.fld_setFld_other, State.fld_setFld_other]
  exact State.fld_setFld_same _ _ _ _ (by decide)

theorem ec_catAbort : s.catAbort.ec = s.ec := (touches_cutFill s).ec

theorem cat_catAbort (hf : s.catc.fill = none) : s.catAbort.cat = s.cat := by
  rw [State.catAbort, cutFill_idle s hf]
  rfl

theorem fill_catAbort : s.catAbort.catc.fill = none := fill_cutFill s

/-- Once a copy under way is cut short, ABORT changes registers and the armed flip only. -/
theorem touches_catAbort_cutFill : Touches [.catc, .regs] s.cutFill s.catAbort :=
  (touches_setCatc s.cutFill _).then_ ((touches_setFld _ _ _ _).trans ((touches_setFld _ _ _ _).trans (touches_setFld _ _ _ _)))

theorem catEnt_catAbort {n : Nat} (k : Nat) (hn : n < 2 ^ 22)
    (hold : ∀ f, s.catc.fill = some f → SMap.wf (fun _ => 0) f.old = true) : s.catAbort.catEnt k n = s.catEnt k n := by
  have habort := touches_catAbort_cutFill s
  have hfld : ∀ {o : Nat} (f : Fld), s.catAbort.fld o f = s.fld o f → s.catAbort.fld o f = s.cutFill.fld o f :=
    fun f h => h.trans ((touches_cutFill s).fld _ f).symm
  have hfill : s.catAbort.catc.fill = s.cutFill.catc.fill := (fill_catAbort s).trans (fill_cutFill s).symm
  rw [← catEnt_cutFill s k hn hold]
  exact catEnt_congr habort.cat hfill habort.ec (hfld _ (fld_catAbort s)) (perSlice_of_tier (hfld _ (fld_catAbort s))) k n

/-! ## START and KEEP (R63, R65) -/

theorem fld_catFresh {o : Nat} {f : Fld} (hcount : FldApart Reg.catLivewr Reg.catLivewr_COUNT o f := by decide)
    (hjrnl : o ≠ Reg.catJrnl := by decide) (hjovf : FldApart Reg.catStatus Reg.catStatus_JOVF o f := by decide) :
    s.catFresh.fld o f = s.fld o f := by
  unfold State.catFresh
  extract_lets s1
  rw [State.fld_setFld_other _ _ hjovf, State.fld_setReg_ne _ _ _ hjrnl, State.fld_setFld_other _ _ hcount]
  rfl

theorem catFresh_empties : s.catFresh.fld Reg.catLivewr Reg.catLivewr_COUNT = 0 ∧ s.catFresh.fld Reg.catStatus Reg.catStatus_JOVF = 0 := by
  unfold State.catFresh
  refine ⟨?_, State.fld_setFld_same _ _ _ _ (by decide)⟩
  rw [State.fld_setFld_other, State.fld_setReg_ne _ _ _ (by decide)]
  exact State.fld_setFld_same _ _ _ _ (by decide)

theorem touches_catFresh : Touches [.catc, .regs] s s.catFresh :=
  (touches_setCatc s _).then_ ((touches_setFld _ _ _ _).trans ((touches_setReg _ _ _).trans (touches_setFld _ _ _ _)))

theorem touches_setBanks (c : SMap (BitVec 256)) (b : SMap Bool) : Touches [.cat] s { s with cat := c, catBad := b } := by
  intro p hp
  cases p <;> simp [Part.Same, SameRegisters, State.prog, State.bay] at hp ⊢

/-- The shadow bank copied from the live one or cleared, the rebuild before it aborted. -/
def State.catCopied (s : State) (clone : Bool) : State :=
  { s.catAbort with cat := shadowOf s.liveBank clone s.catAbort.cat, catBad := shadowOf s.liveBank clone s.catAbort.catBad }

/-- A rebuild as START leaves it but for STATE and START: the count and the journal fresh, the copy or clear under way. -/
def State.filling (s : State) (clone : Bool) : State :=
  { (s.catCopied clone).catFresh with catc := { (s.catCopied clone).catFresh.catc with
      fillEnd := s.ec + s.perSlice / (if clone then 4 else 16)
      fill := some ⟨s.ec, if clone then 4 else 16, s.catAbort.cat, s.catAbort.catBad⟩ } }

theorem catStart_eq (clone : Bool) : s.catStart clone =
    ((s.filling clone).setFld Reg.catStatus Reg.catStatus_STATE 1).setFld Reg.catCtrl Reg.catCtrl_START 1 := rfl

theorem fld_filling (clone : Bool) (o : Nat) (f : Fld) : (s.filling clone).fld o f = (s.catCopied clone).catFresh.fld o f :=
  (touches_setCatc (s.catCopied clone).catFresh _).fld o f

theorem fld_catCopied (clone : Bool) (o : Nat) (f : Fld) : (s.catCopied clone).fld o f = s.catAbort.fld o f :=
  (touches_setBanks s.catAbort _ _).fld o f

theorem catc_filling (clone : Bool) : (s.filling clone).catc = { s.catAbort.catc with
    journal := [], fillEnd := s.ec + s.perSlice / (if clone then 4 else 16)
    fill := some ⟨s.ec, if clone then 4 else 16, s.catAbort.cat, s.catAbort.catBad⟩ } := rfl

theorem catc_catStart (clone : Bool) : (s.catStart clone).catc = (s.filling clone).catc := by
  rw [catStart_eq, State.setFld_catc, State.setFld_catc]

theorem touches_filling (clone : Bool) : Touches [.cat, .catc, .regs] s.catAbort (s.filling clone) :=
  (((touches_setBanks s.catAbort _ _).then_ (touches_catFresh (s.catCopied clone))).then_ (touches_setCatc _ _)).mono (by decide)

theorem ec_catStart (clone : Bool) : (s.catStart clone).ec = s.ec := by
  rw [catStart_eq, State.setFld_ec, State.setFld_ec, (touches_filling s clone).ec, ec_catAbort]

/-- START enters Filling with a fresh count. -/
theorem catStart_fields (clone : Bool) : (s.catStart clone).fld Reg.catStatus Reg.catStatus_STATE = 1 ∧
    (s.catStart clone).fld Reg.catStatus Reg.catStatus_JOVF = 0 ∧ (s.catStart clone).fld Reg.catLivewr Reg.catLivewr_COUNT = 0 ∧
    (s.catStart clone).fld Reg.catCtrl Reg.catCtrl_START = 1 := by
  obtain ⟨hcount, hjovf⟩ := catFresh_empties (s.catCopied clone)
  rw [catStart_eq]
  refine ⟨?_, ?_, ?_, State.fld_setFld_same _ _ _ _ (by decide)⟩
  · rw [State.fld_setFld_other]
    exact State.fld_setFld_same _ _ _ _ (by decide)
  · rw [State.fld_setFld_other, State.fld_setFld_other, fld_filling, hjovf]
  · rw [State.fld_setFld_other, State.fld_setFld_other, fld_filling, hcount]

/-- Every other field stands through a START. -/
theorem fld_catStart (clone : Bool) {o : Nat} {f : Fld} (hstate : FldApart Reg.catStatus Reg.catStatus_STATE o f := by decide)
    (hstart : FldApart Reg.catCtrl Reg.catCtrl_START o f := by decide) (hflip : FldApart Reg.catCtrl Reg.catCtrl_FLIP o f := by decide)
    (hcount : FldApart Reg.catLivewr Reg.catLivewr_COUNT o f := by decide) (hjrnl : o ≠ Reg.catJrnl := by decide)
    (hjovf : FldApart Reg.catStatus Reg.catStatus_JOVF o f := by decide) : (s.catStart clone).fld o f = s.fld o f := by
  rw [catStart_eq, State.fld_setFld_other _ _ hstart, State.fld_setFld_other _ _ hstate, fld_filling,
    fld_catFresh _ hcount hjrnl hjovf, fld_catCopied, fld_catAbort s hstate hstart hflip]

/-- At its START a copy or clear has reached no entry: both banks read as before (R63). -/
theorem catEnt_catStart (clone : Bool) (hf : s.catc.fill = none) {n : Nat} (hn : n < 2 ^ 22) :
    (s.catStart clone).catEnt (1 - s.liveBank) n = s.catEnt (1 - s.liveBank) n ∧
    (s.catStart clone).catEnt s.liveBank n = s.catEnt s.liveBank n := by
  have hlt := liveBank_lt s
  have hlive : (s.catStart clone).liveBank = s.liveBank := fld_catStart s clone
  have hshow : ∀ v, (s.catStart clone).catShow v = s.catShow v := fun v => by
    rw [State.catShow, perSlice_of_tier (fld_catStart s clone), State.catShow]
  have hshadow : (s.catStart clone).unfilled (1 - s.liveBank) n =
      some ⟨s.ec, if clone then 4 else 16, s.catAbort.cat, s.catAbort.catBad⟩ := by
    have hne : 1 - s.liveBank ≠ s.liveBank := by omega
    rw [State.unfilled, catc_catStart, catc_filling, hlive, ec_catStart]
    simp [Option.filter, hne]
  have hfilled : (s.catStart clone).unfilled s.liveBank n = none := by
    rw [State.unfilled, hlive]
    simp
  have hcat : (s.catStart clone).cat = shadowOf s.liveBank clone s.cat := by
    rw [← cat_catAbort s hf]
    rfl
  rw [catEnt_filled s _ _ hf, catEnt_filled s _ _ hf]
  constructor
  · rw [State.catEnt, hshadow, hshow]
    simp only [cat_catAbort s hf]
  · rw [State.catEnt, hfilled, hshow]
    simp only [hcat, get_shadowOf_live _ _ _ hlt hn]

/-- The write of CAT.CTRL that starts a rebuild stores CLONE first (R63). -/
def State.setClone (s : State) (clone : Bool) : State := s.setFld Reg.catCtrl Reg.catCtrl_CLONE (b2n clone)

theorem clone_setClone (clone : Bool) : (s.setClone clone).fld Reg.catCtrl Reg.catCtrl_CLONE = b2n clone := by
  rw [State.setClone, State.fld_setFld_same _ _ _ _ (by decide)]
  cases clone <;> rfl

theorem touches_setClone (clone : Bool) : Touches [.regs] s (s.setClone clone) := touches_setFld s _ _ _

theorem liveBank_setClone (clone : Bool) : (s.setClone clone).liveBank = s.liveBank := State.fld_setFld_other s _

theorem perSlice_setClone (clone : Bool) : (s.setClone clone).perSlice = s.perSlice := perSlice_of_tier (State.fld_setFld_other s _)

theorem catEnt_setClone (clone : Bool) (k n : Nat) : (s.setClone clone).catEnt k n = s.catEnt k n :=
  have hclone := touches_setClone s clone
  catEnt_congr hclone.cat (congrArg CatX.fill hclone.catc) hclone.ec (liveBank_setClone s clone) (perSlice_setClone s clone) k n

theorem catCtrlStart_next (clone : Bool) : exec (.catCtrlStart clone) s = .next ((s.setClone clone).catStart clone) := rfl

/-- KEEP enters Ready with a fresh count. -/
theorem catKeep_enters (hidle : s.fld Reg.catStatus Reg.catStatus_STATE = 0) :
    s.catKeep.fld Reg.catStatus Reg.catStatus_STATE = 2 ∧ s.catKeep.fld Reg.catLivewr Reg.catLivewr_COUNT = 0 ∧
    s.catKeep.catc.journal = [] ∧ s.catKeep.cat = s.cat := by
  have hfresh := (touches_catFresh s).then_ (touches_setFld s.catFresh Reg.catStatus Reg.catStatus_STATE 2)
  rw [State.catKeep, if_pos hidle]
  refine ⟨State.fld_setFld_same _ _ _ _ (by decide), ?_, rfl, hfresh.cat⟩
  rw [State.fld_setFld_other, (catFresh_empties s).1]

/-! ## The end of Filling (R63) -/

/-- The state in which Filling has ended. -/
def State.filled (s : State) : State :=
  { s.passTo s.catc.fillEnd with catc := { (s.passTo s.catc.fillEnd).catc with fill := none } }

theorem rebuildFillDone_next (hfilling : s.fld Reg.catStatus Reg.catStatus_STATE = 1) : exec .rebuildFillDone s =
    .next ((s.filled.setFld Reg.catStatus Reg.catStatus_STATE 2).setFld Reg.catCtrl Reg.catCtrl_START 0) := by
  show execRebuildFillDone s = _
  rw [execRebuildFillDone, if_pos hfilling]
  rfl

theorem cat_filled : s.filled.cat = s.cat := (touches_passTo s _).cat

/-! ## FLIP and its round (R64) -/

/-- FLIP in Ready arms the round after the present one. -/
theorem catFlip_arms (hready : s.fld Reg.catStatus Reg.catStatus_STATE = 2) (harmed : s.catc.flipAt = none) :
    s.catFlip.catc.flipAt = some (32 * (s.ec / 32 + 1)) ∧ s.catFlip.fld Reg.catStatus Reg.catStatus_STATE = 2 ∧ s.catFlip.cat = s.cat := by
  rw [State.catFlip, if_pos hready, harmed]
  refine ⟨rfl, ?_, rfl⟩
  rw [State.fld_setFld_other]
  exact hready

theorem catFlip_stale (hready : s.fld Reg.catStatus Reg.catStatus_STATE ≠ 2) :
    s.catFlip = s.setFld Reg.catStatus Reg.catStatus_FLIPSTALE 1 := if_neg hready

/-- The state in the round `r` of an armed flip, which it takes off. -/
def State.flipDue (s : State) (r : Nat) : State :=
  State.setFld { s.passTo r with catc := { (s.passTo r).catc with flipAt := none } } Reg.catCtrl Reg.catCtrl_FLIP 0

/-- The banks exchanged in the round `r`. -/
def State.flipped (s : State) (r : Nat) : State :=
  (State.setFld { s with catc := { s.catc with flipEnd := r + 32 } } Reg.catStatus Reg.catStatus_LIVEBANK (1 - s.liveBank)).setFld
    Reg.catStatus Reg.catStatus_STATE 0

theorem fld_flipDue (r : Nat) {o : Nat} {f : Fld} (ho : OffRuntime o := by decide)
    (hf : FldApart Reg.catCtrl Reg.catCtrl_FLIP o f := by decide) : (s.flipDue r).fld o f = s.fld o f := by
  rw [State.flipDue, State.fld_setFld_other _ _ hf]
  exact State.fld_passTo s r o f ho

theorem flipRound_next {r : Nat} (harmed : s.catc.flipAt = some r) : exec .flipRound s = .next (
    if s.fld Reg.catLivewr Reg.catLivewr_COUNT = s.fld Reg.catExpect Reg.catExpect_EXPECTWR ∧
        s.fld Reg.catStatus Reg.catStatus_JOVF = 0 then (s.flipDue r).flipped r
    else (s.flipDue r).setFld Reg.catStatus Reg.catStatus_FLIPSTALE 1) := by
  rw [← fld_flipDue s r (o := Reg.catLivewr), ← fld_flipDue s r (o := Reg.catExpect), ← fld_flipDue s r (f := Reg.catStatus_JOVF)]
  show execFlipRound s = _
  rw [execFlipRound, harmed]
  rfl

theorem flipDue_disarms (r : Nat) : (s.flipDue r).catc.flipAt = none ∧ (s.flipDue r).cat = s.cat :=
  ⟨rfl, (touches_passTo s r).cat⟩

theorem flipped_fields (r : Nat) : (s.flipped r).fld Reg.catStatus Reg.catStatus_LIVEBANK = 1 - s.liveBank ∧
    (s.flipped r).fld Reg.catStatus Reg.catStatus_STATE = 0 := by
  refine ⟨?_, State.fld_setFld_same _ _ _ _ (by decide)⟩
  rw [State.flipped, State.fld_setFld_other, State.fld_setFld_same _ _ _ _ (by decide)]
  exact Nat.mod_eq_of_lt (show 1 - s.liveBank < 2 by omega)

/-! ## The scrub (R68) -/

/-- A poisoned entry changes no tier. -/
theorem perSlice_poison (k n : Nat) : (s.poison k n).perSlice = s.perSlice := by
  have hset : ∀ v, (s.setCat k n v).fld Reg.globalLic Reg.globalLic_TIER = s.fld Reg.globalLic Reg.globalLic_TIER :=
    fun v => (touches_setCat s k n v).fld _ _
  unfold State.poison
  extract_lets v s1 s2 s3 b
  refine perSlice_of_tier ?_
  rw [State.fld_event _ _ _ _ _ ⟨by decide, by decide, Or.inl (by unfold Reg.globalLic Reg.bayBind0; omega)⟩,
    State.fld_log _ _ _ _ _ _ Reg.globalLic,
    State.fld_setFld_other, State.fld_setFld_other, State.bump, State.fld_setFld_other]
  exact hset _

/-- A scrub step by its own effect on the entries of a local index `i`: those that fail are poisoned. -/
def State.scrubbed (s : State) (i : Nat) : State :=
  if s.fld Reg.catScrub Reg.catScrub_ENABLE = 1 then
    (List.range 32).foldl (fun u j =>
      if u.catBadAt (j % 2) (j / 2 * u.perSlice + i) then u.poison (j % 2) (j / 2 * u.perSlice + i) else u) s
  else s

theorem perSlice_scrubbed (i : Nat) : (s.scrubbed i).perSlice = s.perSlice := by
  unfold State.scrubbed
  split
  · refine foldl_same State.perSlice (fun u j _ => ?_) s
    split
    · exact perSlice_poison u _ _
    · rfl
  · rfl

/-- The state in the next cycle that is a multiple of 64, in which the scrub takes its step. -/
def State.scrubTime (s : State) : State := s.passTo (64 * ceilDiv s.ec 64)

theorem catScrubStep_next : exec .catScrubStep s =
    let i := s.scrubTime.catc.scrubIdx % s.scrubTime.perSlice
    let u := s.scrubTime.scrubbed i
    .next { u with catc := { u.catc with scrubIdx := (i + 1) % u.perSlice } } := rfl

end

/-- Settles O18: START by the fields it writes and by what its copy has not reached, ABORT by what it leaves of a copy cut short, and the
other commands by the state each leads to. -/
theorem catalogueRebuildsAndFlips : Obligations.CatalogueRebuildsAndFlips := by
  intro s
  refine ⟨fun clone => ?_, fun hfilling => ?_, fun hidle => ⟨_, rfl, catKeep_enters s hidle⟩,
    ⟨_, rfl, state_catAbort s, rfl, fill_catAbort s, cat_catAbort s, fun _ hold k n _ hn => catEnt_catAbort s k hn hold⟩,
    fun hready harmed => ⟨_, rfl, catFlip_arms s hready harmed⟩, fun hready => congrArg _ (catFlip_stale s hready),
    fun r harmed => ?_, ⟨_, rfl, rfl, rfl⟩, ?_⟩
  · have hset := touches_setClone s clone
    have hlive := liveBank_setClone s clone
    obtain ⟨hstate, hjovf, hcount, hstart⟩ := catStart_fields (s.setClone clone) clone
    refine ⟨_, catCtrlStart_next s clone, hstate, hjovf, hcount, ?_, ?_, hstart, (fld_catStart _ clone).trans (clone_setClone s clone),
      (fld_catStart _ clone).trans hlive, fun n hf hn => ?_, ?_⟩
    · rw [catc_catStart, catc_filling]
    · rw [catc_catStart, catc_filling]
      rfl
    · have hent := catEnt_catStart (s.setClone clone) clone ((congrArg CatX.fill hset.catc).trans hf) hn
      rwa [hlive, catEnt_setClone, catEnt_setClone] at hent
    · rw [catc_catStart, catc_filling, perSlice_setClone, hset.ec]
  · refine ⟨_, rebuildFillDone_next s hfilling, ?_, State.fld_setFld_same _ _ _ _ (by decide), cat_filled s⟩
    rw [State.fld_setFld_other]
    exact State.fld_setFld_same _ _ _ _ (by decide)
  · obtain ⟨hdisarmed, hcat⟩ := flipDue_disarms s r
    have hlive : (s.flipDue r).liveBank = s.liveBank := fld_flipDue s r
    rw [flipRound_next s harmed]
    split
    · next hagree =>
      obtain ⟨hbank, hstate⟩ := flipped_fields (s.flipDue r) r
      exact ⟨_, rfl, hdisarmed, hcat, fun _ => ⟨hbank.trans (by rw [hlive]), hstate⟩, fun h => absurd hagree h⟩
    · next hdiffer =>
      exact ⟨_, rfl, hdisarmed, hcat, fun h => absurd h hdiffer,
        fun _ => ⟨State.fld_setFld_same _ _ _ _ (by decide), (State.fld_setFld_other _ _).trans hlive⟩⟩
  · have htime := touches_passTo s (64 * ceilDiv s.ec 64)
    refine ⟨_, catScrubStep_next s, ?_⟩
    rw [perSlice_scrubbed, State.scrubTime, perSlice_passTo, htime.catc]

end Sys2Proof.Machine

/-! # The issue of a Drevos instruction -/

namespace Sys2Proof.Machine

-- One theorem after another, as in the tests: side by side their stacks ask for more memory than the check allows.
set_option Elab.async false

/-- Every Drevos command is issued: it names an easel and a word of its row, and its meaning is the issue of that word under its forms. -/
theorem exec_issued {c : Instr} {x : Ea} {w : Word} {i : Issue} (h : c.issued = some (x, w, i)) :
    ∃ row, c.wf = (x.ok && row) ∧ ∀ s, ∃ body, exec c s = issue x w row i body s := by
  cases c <;> cases h
  all_goals exact ⟨_, rfl, fun s => ⟨_, rfl⟩⟩

/-- Settles O3: by the cases of an issue. -/
theorem drevosInstructionsIssueInOrder : Obligations.DrevosInstructionsIssueInOrder := by
  intro c s x w i hi hw
  obtain ⟨row, hrow, hexec⟩ := exec_issued hi
  obtain ⟨body, hbody⟩ := hexec s
  rw [hrow, Bool.and_eq_true] at hw
  obtain ⟨hx, hr⟩ := hw
  rw [hbody]
  exact ⟨issue_waits s x w i body hx hr, issue_illegal s x w i body hx hr, issue_suppressed s x w i body hx hr,
    issue_stalls s x w i body hx hr⟩

end Sys2Proof.Machine

/-! # The scalar instructions -/

namespace Sys2Proof.Machine

-- One theorem after another, as in the tests: side by side their stacks ask for more memory than the check allows.
set_option Elab.async false

section

variable {s : State} {x : Ea} {w : Word} {c : Instr}

theorem aluR_next (fn : Nat) (hi : c.issued = some (x, w, { sh := shR .g .g .g .z })) (hw : c.wf = (x.ok && opIs w 0x01 fn))
    (he : exec c s = aluR fn x w s) (hr : runs c s = true) {v : Word} (hv : aluOp fn (s.gr x (raOf w)) (s.gr x (rbOf w)) = v) :
    exec c s = .next ((s.setG x (rdOf w) v).advance x 1) := by
  rw [runs_next s x w _ (aluEff fn x w) c hi hw he hr, aluEff, hv, Res.land]

theorem aluI_next (fn : Nat) (hi : c.issued = some (x, w, { sh := shI .g .g 37 })) (hw : c.wf = (x.ok && opIs w 0x02 fn))
    (he : exec c s = aluI fn x w s) (hr : runs c s = true) {v : Word}
    (hv : aluOp fn (s.gr x (raOf w)) ((BitVec.ofNat 37 (w.toNat % 2 ^ 37)).signExtend 64) = v) :
    exec c s = .next ((s.setG x (rdOf w) v).advance x 1) := by
  rw [runs_next s x w _ (aluImmEff fn x w) c hi hw he hr, aluImmEff, imm_eq, hv, Res.land]

theorem cmpR_next (fn : Nat) (hi : c.issued = some (x, w, { sh := shR .p .g .g .z })) (hw : c.wf = (x.ok && opIs w 0x03 fn))
    (he : exec c s = cmpR fn x w s) (hr : runs c s = true) {r : Bool} (hv : cmpRel fn (s.gr x (raOf w)) (s.gr x (rbOf w)) = r) :
    exec c s = .next ((s.setP x (rdOf w) (if r then BitVec.allOnes 128 else 0)).advance x 1) := by
  rw [runs_next s x w _ (cmpEff fn x w) c hi hw he hr, cmpEff, hv, Res.land, allLanes]

/-- The low bits of a word as a branch target reads them. -/
theorem bf_low (v : Word) (n : Nat) : bf v 0 n = v.toNat % 2 ^ n := by
  rw [bf, bitsOf, pow_zero, Nat.div_one]

/-- A jump that runs: its target lies inside the image or is illegal (R73). -/
theorem jump_next {row : Bool} (i : Issue) (body : State → Res) (n : Nat) (hi : c.issued = some (x, w, i)) (hw : c.wf = (x.ok && row))
    (he : exec c s = issue x w row i body s) (hb : body s = .jump n s) (hr : runs c s = true) :
    exec c s = if n < (s.ex x).imgLen then .next (s.setPc x n) else .next (s.illegal x) := by
  rw [runs_next s x w i body c hi hw he hr, hb, Res.land]
  split <;> rfl

/-- A branch that runs: taken, it jumps; not taken, it moves past its word. -/
theorem branch_next {row : Bool} (rd : RClass) (b : Bool) (body : State → Res) (hi : c.issued = some (x, w, { sh := shI .z rd 13 }))
    (hw : c.wf = (x.ok && row)) (he : exec c s = issue x w row { sh := shI .z rd 13 } body s) (hb : body s = branch b w s)
    (hr : runs c s = true) :
    exec c s = if b then (if bf w 0 13 < (s.ex x).imgLen then .next (s.setPc x (bf w 0 13)) else .next (s.illegal x))
      else .next (s.advance x 1) := by
  cases b with
  | false => rw [runs_next s x w _ body c hi hw he hr, hb, branch, if_neg Bool.false_ne_true, if_neg Bool.false_ne_true, Res.land]
  | true =>
    rw [if_pos rfl]
    exact jump_next _ body _ hi hw he (hb.trans (if_pos rfl)) hr

end

/-- Settles O5: each row goes on with its operation's result; the minima, the maxima and the immediates as the spec's relations say them. -/
theorem scalarResultsComparesAndBranches : Obligations.ScalarResultsComparesAndBranches := by
  refine ⟨fun x w s => ?_, fun x w limm s => ?_, fun x w s => ?_, fun x w s => ?_⟩
  · refine ⟨fun hr _ => runs_next s x w _ _ (.nop x w) rfl rfl rfl hr, fun hr => aluR_next 0x0 rfl rfl rfl hr rfl, fun hr => aluR_next 0x1 rfl rfl rfl hr rfl,
      fun hr => aluR_next 0x2 rfl rfl rfl hr rfl, fun hr => aluR_next 0x3 rfl rfl rfl hr rfl, fun hr => aluR_next 0x4 rfl rfl rfl hr rfl,
      fun hr => aluR_next 0x5 rfl rfl rfl hr rfl, fun hr => aluR_next 0x6 rfl rfl rfl hr rfl, fun hr => aluR_next 0x7 rfl rfl rfl hr rfl,
      fun hr => aluR_next 0x8 rfl rfl rfl hr rfl, fun hr => aluR_next 0x9 rfl rfl rfl hr (smin_eq _ _),
      fun hr => aluR_next 0xA rfl rfl rfl hr (smax_eq _ _), fun hr => aluR_next 0xB rfl rfl rfl hr (umin_eq _ _),
      fun hr => aluR_next 0xC rfl rfl rfl hr (umax_eq _ _)⟩
  · refine ⟨fun hr => aluI_next 0x0 rfl rfl rfl hr rfl, fun hr => aluI_next 0x1 rfl rfl rfl hr rfl,
      fun hr => aluI_next 0x2 rfl rfl rfl hr rfl, fun hr => aluI_next 0x3 rfl rfl rfl hr rfl, fun hr => aluI_next 0x4 rfl rfl rfl hr rfl,
      fun hr => aluI_next 0x5 rfl rfl rfl hr rfl, fun hr => aluI_next 0x6 rfl rfl rfl hr rfl, fun hr => aluI_next 0x7 rfl rfl rfl hr rfl,
      fun hr => aluI_next 0x8 rfl rfl rfl hr rfl, fun hr => aluI_next 0x9 rfl rfl rfl hr (smin_eq _ _),
      fun hr => aluI_next 0xA rfl rfl rfl hr (smax_eq _ _), fun hr => aluI_next 0xB rfl rfl rfl hr (umin_eq _ _),
      fun hr => aluI_next 0xC rfl rfl rfl hr (umax_eq _ _), fun hr => ?_,
      fun hr => runs_next s x w _ _ (.aluL x w limm) rfl rfl rfl hr, fun hr => runs_next s x w _ _ (.moviL x w limm) rfl rfl rfl hr⟩
    rw [← imm_eq]
    exact runs_next s x w _ _ (.movi x w) rfl rfl rfl hr
  · exact ⟨fun hr => cmpR_next 0x0 rfl rfl rfl hr rfl, fun hr => cmpR_next 0x1 rfl rfl rfl hr rfl, fun hr => cmpR_next 0x2 rfl rfl rfl hr rfl,
      fun hr => cmpR_next 0x3 rfl rfl rfl hr rfl, fun hr => cmpR_next 0x4 rfl rfl rfl hr rfl, fun hr => cmpR_next 0x5 rfl rfl rfl hr rfl⟩
  · simp only [← bf_low]
    exact ⟨fun hr => jump_next _ (branch true w) _ rfl rfl rfl rfl hr,
      fun hr => branch_next .g _ (fun s => branch (s.gr x (raOf w) == 0) w s) rfl rfl rfl rfl hr,
      fun hr => branch_next .g _ (fun s => branch (s.gr x (raOf w) != 0) w s) rfl rfl rfl rfl hr,
      fun hr => branch_next .p _ (fun s => branch ((s.pr x (raOf w)).getLsbD 0) w s) rfl rfl rfl rfl hr,
      fun hr => jump_next _ (fun s => .jump (bf (s.gr x (raOf w)) 0 13) s) _ rfl rfl rfl rfl hr⟩

end Sys2Proof.Machine

/-! # Exceptions -/

namespace Sys2Proof.Machine

-- One theorem after another, as in the tests: side by side their stacks ask for more memory than the check allows.
set_option Elab.async false

section

variable (s : State)

/-! ## The event log and the bindings of a bay -/

/-- The record a unit writes to the event log (R540). -/
def State.eventRecord (s : State) (kind unit sub : Nat) (w2 w3 : Word) : List Word :=
  [BitVec.ofNat 64 (kind % 256 + unit % 256 * 2 ^ 8 + sub % 65536 * 2 ^ 16 + s.host.seq % 2 ^ 32 * 2 ^ 32), BitVec.ofNat 64 s.gc, w2, w3]

/-- The event log takes a record while its buffer has room (R540). -/
theorem evBuf_log (kind unit sub : Nat) (w2 w3 : Word) (h : s.host.evBuf.length < 512) :
    (s.log kind unit sub w2 w3).host.evBuf = s.host.evBuf ++ [s.eventRecord kind unit sub w2 w3] := by
  unfold State.log
  simp only [h, if_true]
  rfl

/-- A record begins with its kind. -/
theorem kind_eventRecord {kind : Nat} (unit sub : Nat) (w2 w3 : Word) (hk : kind < 256) :
    bf ((s.eventRecord kind unit sub w2 w3).headD 0) 0 8 = kind := by
  simp only [State.eventRecord, List.headD_cons, bf, bitsOf, BitVec.toNat_ofNat]
  omega

/-- An event writes no register but the bindings of its bay that fire (R88). -/
theorem State.reg_fire (b source : Nat) (r : Word) (waiters : Nat) {o : Nat} (ho : o < Reg.bayBind0 b 0 ∨ Reg.bayBind0 b 64 ≤ o) :
    (s.fire b source r waiters).reg o = s.reg o := by
  unfold State.fire
  refine foldl_same (fun u => u.reg o) (fun u n hn => ?_) _
  have hn : n < 64 := by
    simp only [State.boundTo, List.mem_filter, List.mem_range] at hn
    exact hn.1
  show State.reg (if _ then _ else u) o = u.reg o
  split
  · unfold State.fireOne
    simp only
    split
    · refine State.reg_setFld_ne _ _ _ ?_
      unfold Reg.bayBind0 at *
      omega
    · rfl
  · rfl

/-! ## A stop for an exception (R100, R103) -/

variable (x : Ea) (precise : Bool) (code info loc : Nat)

/-- The easel stopped, its exception registers written and nothing reported yet. -/
def State.stopped (s : State) (x : Ea) (precise : Bool) (code info loc : Nat) : State :=
  ((s.clearStop x).setExc x code (s.pc x) (b2n precise) (b2n ((s.ex x).role = 5)) info loc).setEst x stStopped

/-- What the report of an exception gives the event log. -/
def State.excLogged (s : State) (x : Ea) (kind : Nat) : State :=
  s.log kind x.bay x.easel (s.reg (Reg.easelExc x.bay x.easel)) (s.reg (Reg.easelExcaddr x.bay x.easel))

theorem State.reg_updBay (b o : Nat) (f : BayX → BayX) : (s.updBay b f).reg o = s.reg o := rfl

/-- A program's entry kept from being launched. -/
def BayX.blocking (y : BayX) (prog : Nat) : BayX :=
  { y with blocked := if y.blocked.contains prog then y.blocked else y.blocked ++ [prog] }

theorem contains_blocking (y : BayX) (prog : Nat) : (y.blocking prog).blocked.contains prog = true := by
  unfold BayX.blocking
  dsimp only
  split
  · next h => exact h
  · simp

/-- An offset the report of an exception writes nothing at: not GLOBAL.EVERR, BAY.DISPERR or a binding of the bay. -/
abbrev OffReport (b o : Nat) : Prop :=
  o ≠ Reg.globalEverr ∧ o ≠ Reg.bayDispErr b ∧ (o < Reg.bayBind0 b 0 ∨ Reg.bayBind0 b 64 ≤ o)

theorem touches_excLogged (kind : Nat) : Touches [.regs, .host] s (s.excLogged x kind) := touches_log s _ _ _ _ _

theorem State.reg_excLogged (kind : Nat) {o : Nat} (ho : o ≠ Reg.globalEverr) : (s.excLogged x kind).reg o = s.reg o :=
  State.reg_log s _ _ _ _ _ ho

theorem stopFor_single (hr : (s.ex x).role ≠ 5) : s.stopFor x precise code info loc =
    ((s.stopped x precise code info loc).excLogged x 0x03).fire x.bay 0x41 (BitVec.ofNat 64 (x.easel + code % 256 * 16)) 0 := by
  unfold State.stopFor State.stopped State.excLogged
  simp only [hr, if_false, decide_false]

theorem exc_ne_everr : Reg.easelExc x.bay x.easel ≠ Reg.globalEverr ∧ Reg.easelExcaddr x.bay x.easel ≠ Reg.globalEverr := by
  unfold Reg.easelExc Reg.easelExcaddr Reg.globalEverr
  omega

theorem stopFor_double (hr : (s.ex x).role = 5) : s.stopFor x precise code info loc =
    ((((s.stopped x precise code info loc).excLogged x 0x03).excLogged x 0x04).setFld (Reg.bayDispErr x.bay) Reg.bayDispErr_DOUBLE
      1).updBay x.bay fun y => y.blocking (s.fld (Reg.easelStatus x.bay x.easel) Reg.easelStatus_PROG) := by
  unfold State.stopFor State.stopped State.excLogged BayX.blocking
  simp only [hr, if_true, decide_true]
  rw [State.reg_log _ _ _ _ _ _ (exc_ne_everr x).1, State.reg_log _ _ _ _ _ _ (exc_ne_everr x).2]

theorem touches_stopped : Touches [.regs, .bays] s (s.stopped x precise code info loc) :=
  ((touches_setFld s _ _ _).then_ ((touches_setExc _ x _ _ _ _ _ _).then_ (touches_setEst _ x _))).mono (by decide)

theorem touches_stopFor : Touches [.regs, .bays, .host] s (s.stopFor x precise code info loc) := by
  have hs := (touches_stopped s x precise code info loc).then_ (touches_excLogged _ x 0x03)
  by_cases hr : (s.ex x).role = 5
  · rw [stopFor_double s x precise code info loc hr]
    exact (hs.then_ ((touches_excLogged _ x 0x04).then_ ((touches_setFld _ _ _ _).then_ (touches_updBay _ _ _)))).mono (by decide)
  · rw [stopFor_single s x precise code info loc hr]
    exact (hs.then_ (touches_fire _ _ _ _ _)).mono (by decide)

/-- The report of an exception writes no register of its easel any more. -/
theorem State.reg_stopFor {o : Nat} (ho : OffReport x.bay o) :
    (s.stopFor x precise code info loc).reg o = (s.stopped x precise code info loc).reg o := by
  obtain ⟨hlog, herr, hbind⟩ := ho
  by_cases hr : (s.ex x).role = 5
  · rw [stopFor_double s x precise code info loc hr]
    rw [State.reg_updBay, State.reg_setFld_ne _ _ _ herr, State.reg_excLogged _ _ _ hlog, State.reg_excLogged _ _ _ hlog]
  · rw [stopFor_single s x precise code info loc hr, State.reg_fire _ _ _ _ _ hbind, State.reg_excLogged _ _ _ hlog]

/-- A register of an easel's block is off the reports of its bay. -/
theorem offReport_easel {x : Ea} (hx : x.ok = true) {o : Nat} (hlo : Reg.easelCtrl x.bay x.easel ≤ o)
    (hhi : o < Reg.easelCtrl x.bay x.easel + 0x10000) : OffReport x.bay o := by
  simp only [Ea.ok, Bool.and_eq_true, decide_eq_true_eq] at hx
  unfold OffReport Reg.globalEverr Reg.bayDispErr Reg.bayBind0
  unfold Reg.easelCtrl at hlo hhi
  omega

theorem State.pc_clearStop : (s.clearStop x).pc x = s.pc x :=
  State.fld_setFld_ne _ _ _ _ (by unfold Reg.easelPc Reg.easelCtrl; omega)

theorem State.pc_stopped : (s.stopped x precise code info loc).pc x = s.pc x := by
  rw [State.stopped, State.pc_setEst, State.pc_setExc, State.pc_clearStop]

/-- The exception registers of a stopped easel (R108). -/
theorem State.exc_stopped (f : Fld) : (s.stopped x precise code info loc).fld (Reg.easelExc x.bay x.easel) f =
    bf (BitVec.ofNat 64 (code % 256 + s.pc x % 2 ^ 13 * 2 ^ 8 + b2n precise % 2 * 2 ^ 21 + b2n ((s.ex x).role = 5) % 2 * 2 ^ 22 +
      info % 2 ^ 32 * 2 ^ 32)) f.lo f.w := by
  rw [State.stopped, State.fld_setEst_ne _ _ _ _ (by unfold Reg.easelExc Reg.easelStatus; omega), State.exc_setExc]

theorem State.excaddr_stopped : (s.stopped x precise code info loc).reg (Reg.easelExcaddr x.bay x.easel) = BitVec.ofNat 64 (loc % 2 ^ 48) := by
  rw [State.stopped, State.reg_setEst_ne _ _ _ (by unfold Reg.easelExcaddr Reg.easelStatus; omega), State.setExc, State.reg_setReg_same]

/-- An easel of the die after its stop: its state, its program counter and its exception registers. -/
theorem stopFor_stops {x : Ea} (hx : x.ok = true) {code info loc : Nat} (hcode : code < 256) (hinfo : info < 2 ^ 32) (hloc : loc < 2 ^ 48) :
    let t := s.stopFor x precise code info loc
    let exc := Reg.easelExc x.bay x.easel
    t.pc x = s.pc x ∧ t.est x = stStopped ∧ t.fld exc Reg.easelExc_CODE = code ∧ t.fld exc Reg.easelExc_EPC = s.pc x ∧
      t.fld exc Reg.easelExc_PRECISE = b2n precise ∧ t.fld exc Reg.easelExc_INFO = info ∧
      (t.reg (Reg.easelExcaddr x.bay x.easel)).toNat = loc := by
  intro t exc
  have hreg := fun o hlo hhi => State.reg_stopFor s x precise code info loc (offReport_easel hx (o := o) hlo hhi)
  have hval : ∀ f, t.fld exc f = (code % 256 + s.pc x % 2 ^ 13 * 2 ^ 8 + b2n precise % 2 * 2 ^ 21 + b2n ((s.ex x).role = 5) % 2 * 2 ^ 22 +
      info % 2 ^ 32 * 2 ^ 32) % 2 ^ 64 / 2 ^ f.lo % 2 ^ f.w := fun f => by
    rw [State.fld_of_reg (hreg exc (by unfold exc Reg.easelCtrl Reg.easelExc; omega) (by unfold exc Reg.easelCtrl Reg.easelExc; omega)),
      s.exc_stopped x precise code info loc f, bf, bitsOf, BitVec.toNat_ofNat]
  have hpc : s.pc x < 2 ^ 13 := s.fld_lt _ _
  have hp : b2n precise < 2 := by cases precise <;> decide
  have hd : b2n ((s.ex x).role = 5) < 2 := by unfold b2n; split <;> decide
  generalize b2n precise = p at *
  generalize b2n ((s.ex x).role = 5) = d at *
  refine ⟨?_, ?_, ?_, ?_, ?_, ?_, ?_⟩
  · rw [State.pc, State.fld_of_reg (hreg _ (by unfold Reg.easelCtrl Reg.easelPc; omega) (by unfold Reg.easelCtrl Reg.easelPc; omega)),
      ← State.pc, State.pc_stopped]
  · rw [State.est, State.fld_of_reg (hreg _ (by unfold Reg.easelCtrl Reg.easelStatus; omega) (by unfold Reg.easelCtrl Reg.easelStatus; omega)),
      ← State.est, State.stopped, State.est_setEst]
    rfl
  · rw [hval]
    simp only [Reg.easelExc_CODE]
    omega
  · rw [hval]
    simp only [Reg.easelExc_EPC]
    omega
  · rw [hval]
    simp only [Reg.easelExc_PRECISE]
    omega
  · rw [hval]
    simp only [Reg.easelExc_INFO]
    omega
  · rw [hreg _ (by unfold Reg.easelCtrl Reg.easelExcaddr; omega) (by unfold Reg.easelCtrl Reg.easelExcaddr; omega), State.excaddr_stopped,
      BitVec.toNat_ofNat]
    omega

/-- The report joins the event log while its buffer has room: one record, or two of a fault-response program. -/
theorem stopFor_logs (hroom : s.host.evBuf.length + (if (s.ex x).role = 5 then 2 else 1) ≤ 512) :
    (s.stopFor x precise code info loc).host.evBuf.length = s.host.evBuf.length + (if (s.ex x).role = 5 then 2 else 1) ∧
      ((s.stopFor x precise code info loc).host.evBuf.getLast?.map fun r => bf (r.headD 0) 0 8) =
        some (if (s.ex x).role = 5 then 0x04 else 0x03) := by
  have hs : (s.stopped x precise code info loc).host = s.host := (touches_stopped s x precise code info loc).host
  generalize hu : s.stopped x precise code info loc = u at hs
  have hlog : ∀ v kind, v.host.evBuf.length < 512 → ∃ w2 w3,
      (State.excLogged v x kind).host.evBuf = v.host.evBuf ++ [v.eventRecord kind x.bay x.easel w2 w3] :=
    fun v kind h => ⟨_, _, evBuf_log v kind _ _ _ _ h⟩
  by_cases hr : (s.ex x).role = 5
  · rw [if_pos hr] at hroom ⊢
    rw [if_pos hr, stopFor_double s x precise code info loc hr, hu]
    obtain ⟨w2, w3, h3⟩ := hlog u 0x03 (by rw [hs]; omega)
    obtain ⟨w2', w3', h4⟩ := hlog (u.excLogged x 0x03) 0x04 (by rw [h3, List.length_append, hs]; simp; omega)
    simp only [State.updBay_host, State.setFld_host, h4, h3, List.length_append, hs, List.length_singleton, List.getLast?_append,
      List.getLast?_singleton, Option.some_or, Option.map_some, kind_eventRecord _ _ _ _ _ (show 4 < 256 by decide), and_true]
  · rw [if_neg hr] at hroom ⊢
    rw [if_neg hr, stopFor_single s x precise code info loc hr, hu, (touches_fire _ _ _ _ _).host]
    obtain ⟨w2, w3, h3⟩ := hlog u 0x03 (by rw [hs]; omega)
    simp only [h3, List.length_append, hs, List.length_singleton, List.getLast?_append,
      List.getLast?_singleton, Option.some_or, Option.map_some, kind_eventRecord _ _ _ _ _ (show 3 < 256 by decide), and_self]

theorem stopFor_blocks (hr : (s.ex x).role = 5) :
    ((s.stopFor x precise code info loc).bay x.bay).blocked.contains (s.fld (Reg.easelStatus x.bay x.easel) Reg.easelStatus_PROG) = true := by
  rw [stopFor_double s x precise code info loc hr, State.bay_updBay_same]
  exact contains_blocking _ _

/-- With no imprecise exception pending a precise one is taken itself. -/
theorem raise_none (hf : (s.ex x).faults = []) : s.raise x precise code info loc = s.stopFor x precise code info loc := by
  unfold State.raise
  rw [hf]
  cases precise <;> rfl

/-- While imprecise exceptions are pending, the one first in program order is taken in place of a precise one. -/
theorem raise_pending {f : ImpFault} (hf : firstFault (s.ex x).faults = some f) :
    s.raise x true code info loc = s.raise x false f.code f.info f.loc := by
  unfold State.raise
  rw [if_pos rfl, hf]
  rfl

end

/-- Settles O4: the stop and its report. -/
theorem exceptionsStopTheEasel : Obligations.ExceptionsStopTheEasel := by
  intro s x code info loc hx hcode hinfo hloc
  refine ⟨fun f hf => raise_pending s x code info loc hf, fun hf => ?_⟩
  rw [raise_none s x true code info loc hf]
  obtain ⟨hpc, hest, hcode, hepc, hprecise, hinfo, hloc⟩ := stopFor_stops s true hx hcode hinfo hloc
  have hframe := touches_stopFor s x true code info loc
  exact ⟨hpc, hest, hframe.file, hframe.mem, hcode, hepc, hprecise, hinfo, hloc, stopFor_logs s x true code info loc,
    stopFor_blocks s x true code info loc⟩

end Sys2Proof.Machine

/-! # The end of a program -/

namespace Sys2Proof.Machine

-- One theorem after another, as in the tests: side by side their stacks ask for more memory than the check allows.
set_option Elab.async false

section

variable (s : State) (x : Ea)

theorem touches_clearStop : Touches [.regs] s (s.clearStop x) := touches_setFld s _ _ _

theorem touches_toIdle : Touches [.regs, .bays, .easels] s (s.toIdle x) :=
  ((touches_clearStop s x).then_ ((touches_setEst _ x _).then_ (touches_updEx _ x _))).mono (by decide)

/-- An idle easel has no program. -/
theorem toIdle_idle : (s.toIdle x).est x = stIdle ∧ ((s.toIdle x).ex x).src = none := by
  refine ⟨State.est_setEst (s.clearStop x) x stIdle, ?_⟩
  rw [State.toIdle, State.ex_updEx_same]

/-- A launched program's end completes its launch (R82). -/
theorem endProgram_some {l : Launch} (h : (s.ex x).src = some l) (status : Nat) :
    s.endProgram x status = (s.toIdle x).launchDone x l cDone status := by
  unfold State.endProgram
  rw [h]

theorem endProgram_none (h : (s.ex x).src = none) (status : Nat) : s.endProgram x status = s.toIdle x := by
  unfold State.endProgram
  rw [h]

/-- With nothing in flight END reports the first pending imprecise exception, or ends the program 4 cycles later (R120, R154). -/
theorem endProg_quiet {w : Word} (hr : runs (.endProg x w) s = true) (hq : (s.ex x).outst.all (·.failed) = true) :
    exec (.endProg x w) s =
      .next (s.reportOr x ((s.passTo (s.ec + 4)).endProgram x ((s.gr x (raOf w)).toNat % 2 ^ 32))) := by
  rw [runs_next s x w _ _ (.endProg x w) rfl rfl rfl hr]
  simp only [hq, if_true, Res.land, bf_low]

/-- With operations in flight END stands as a fence does (R120). -/
theorem endProg_waits {w : Word} (hr : runs (.endProg x w) s = true) (hq : (s.ex x).outst.all (·.failed) = false) :
    exec (.endProg x w) s = .next (s.updEx x fun y => { y with
      fence := some { kind := .endProg, arg := (s.gr x (raOf w)).toNat % 2 ^ 32, limit := none } }) := by
  rw [runs_next s x w _ _ (.endProg x w) rfl rfl rfl hr]
  simp only [hq, Bool.false_eq_true, if_false, Res.land, bf_low]

theorem reportOr_none {t : State} (hf : (s.ex x).faults = []) : s.reportOr x t = t := by
  rw [State.reportOr, State.report, hf]
  rfl

theorem reportOr_some {t : State} {f : ImpFault} (hf : firstFault (s.ex x).faults = some f) :
    s.reportOr x t = s.raise x false f.code f.info f.loc := by
  rw [State.reportOr, State.report, hf]
  rfl

end

/-- Settles O6: by the three cases of an END. -/
theorem endReportsAndReleases : Obligations.EndReportsAndReleases := by
  intro x w s hr
  refine ⟨fun hq hf => ?_, fun hq f hf => ?_, endProg_waits s x hr⟩
  · intro t
    obtain ⟨hest, hsrc⟩ := toIdle_idle (s.passTo (s.ec + 4)) x
    refine ⟨hest, hsrc, ?_⟩
    rw [endProg_quiet s x hr hq, reportOr_none s x hf]
    cases h : (s.ex x).src with
    | some l => exact congrArg _ (endProgram_some _ x (by rw [(touches_passTo s _).ex, h]) _)
    | none => exact congrArg _ (endProgram_none _ x (by rw [(touches_passTo s _).ex, h]) _)
  · rw [endProg_quiet s x hr hq, reportOr_some s x hf]

end Sys2Proof.Machine

/-! # Operand-store accesses -/

namespace Sys2Proof.Machine

-- One theorem after another, as in the tests: side by side their stacks ask for more memory than the check allows.
set_option Elab.async false

/-! ## The check of a range (R572) -/

theorem opCheck_misaligned {a : Int} {n align : Nat} (h : a % align ≠ 0) : opCheck a n align = some (.trap 0x04 0 (narrow 48 a)) := if_pos h

theorem opCheck_outside {a : Int} {n align : Nat} (h : a % align = 0) (hb : a < 0 ∨ (0x300000 : Int) < a + n) :
    opCheck a n align = some (.trap 0x03 0 (narrow 48 a)) := by
  rw [opCheck, if_neg (not_not.2 h)]
  exact if_pos hb

section

variable {s : State} {x : Ea} {w : Word} {c : Instr} {opc n align : Nat} {cls : RClass}
  (hi : c.issued = some (x, w, { sh := shM cls .g .z })) (hw : c.wf = (x.ok && opIs w opc 0))

/-! ## Loads -/

section

variable {put : State → List Byte → State} (he : exec c s = opLoad opc n align cls put x w s)

include hi hw he

/-- A load whose range passes its check and meets no load in flight fills its register and goes on (R123). -/
theorem opLoad_loads (hr : runs c s = true) (hop : opCheck (s.opAddr x w) n align = none)
    (hbusy : s.opBusy x (s.opAddr x w).toNat n false = false) :
    exec c s = .next ((put s (s.bytes (opBase x + (s.opAddr x w).toNat) n)).advance x 1) := by
  rw [runs_next s x w _ _ c hi hw he hr]
  simp only [hop, hbusy, Bool.false_eq_true, if_false, Res.land]

/-- A load whose range fails its check traps. -/
theorem opLoad_traps (hr : runs c s = true) {code info loc : Nat} (hop : opCheck (s.opAddr x w) n align = some (.trap code info loc)) :
    exec c s = .next (s.raise x true code info loc) := by
  rw [runs_next s x w _ _ c hi hw he hr]
  simp only [hop, Res.land]

end

/-! ## Stores -/

section

variable {waits : Bool} {get : State → Nat} (he : exec c s = opStore opc n align cls waits get x w s)

include hi hw he

/-- A store whose range passes its check and that need not wait writes its bytes and goes on; the rest of the memory stands (R123). -/
theorem opStore_stores (hr : runs c s = true) (hop : opCheck (s.opAddr x w) n align = none)
    (hbusy : waits = true → s.opBusy x (s.opAddr x w).toNat n true = false) :
    ∃ t, exec c s = .next t ∧ t = (s.setBytes (opBase x + (s.opAddr x w).toNat) (natBytes n (get s))).advance x 1 ∧
      t.bytes (opBase x + (s.opAddr x w).toNat) n = natBytes n (get s) ∧
      SameMemoryOutside s t (opBase x + (s.opAddr x w).toNat) n ∧ SameRegisters s t := by
  have hstall : (waits && s.opBusy x (s.opAddr x w).toNat n true) = false := by
    cases waits with
    | false => rfl
    | true => exact hbusy rfl
  refine ⟨_, ?_, rfl, ?_, fun b hb => ?_, ?_⟩
  · rw [runs_next s x w _ _ c hi hw he hr]
    simp only [hop, hstall, Bool.false_eq_true, if_false, Res.land]
  · have h := State.bytes_setBytes_same s (opBase x + (s.opAddr x w).toNat) (natBytes n (get s))
    rwa [length_natBytes] at h
  · exact s.byte_setBytes_outside (by rwa [length_natBytes])
  · exact ((touches_setBytes s _ _).then_ (touches_advance _ x 1)).file

/-- A store whose range fails its check traps. -/
theorem opStore_traps (hr : runs c s = true) {code info loc : Nat} (hop : opCheck (s.opAddr x w) n align = some (.trap code info loc)) :
    exec c s = .next (s.raise x true code info loc) := by
  rw [runs_next s x w _ _ c hi hw he hr]
  simp only [hop, Res.land]

end

end

/-- A command that traps with what its range fails raises 0x04 for a misaligned offset and 0x03 for one outside (R572). -/
theorem opFaults {s : State} {x : Ea} {w : Word} {c : Instr} {n align : Nat}
    (htrap : ∀ {code info loc : Nat}, opCheck (s.opAddr x w) n align = some (.trap code info loc) →
      exec c s = .next (s.raise x true code info loc)) :
    (s.opAddr x w % align ≠ 0 → exec c s = .next (s.raise x true 0x04 0 (narrow 48 (s.opAddr x w)))) ∧
    (s.opAddr x w % align = 0 → s.opAddr x w < 0 ∨ 0x300000 < s.opAddr x w + n →
      exec c s = .next (s.raise x true 0x03 0 (narrow 48 (s.opAddr x w)))) :=
  ⟨fun h => htrap (opCheck_misaligned h), fun h hb => htrap (opCheck_outside h hb)⟩

/-- Settles O9: the loads, the stores and what each traps with. -/
theorem operandStoreAccesses : Obligations.OperandStoreAccesses := by
  have hvld : ∀ x w s, exec (.vld x w) s =
    opLoad 0x30 512 64 .v (fun s bs => s.setV x (rdOf w) (BitVec.ofNat 4096 (bytesNat bs))) x w s := fun _ _ _ => rfl
  have htld : ∀ x w s, exec (.tld x w) s =
    opLoad 0x32 4096 64 .t (fun s bs => s.setT x (rdOf w) (BitVec.ofNat 32768 (bytesNat bs))) x w s := fun _ _ _ => rfl
  have hldg : ∀ x w s, exec (.ldg x w) s =
    opLoad 0x34 8 8 .g (fun s bs => s.setG x (rdOf w) (BitVec.ofNat 64 (bytesNat bs))) x w s := fun _ _ _ => rfl
  have hvst : ∀ x w s, exec (.vst x w) s = opStore 0x31 512 64 .v true (fun s => (s.vr x (rdOf w)).toNat) x w s := fun _ _ _ => rfl
  have htst : ∀ x w s, exec (.tst x w) s = opStore 0x33 4096 64 .t true (fun s => (s.tr x (rdOf w)).toNat) x w s := fun _ _ _ => rfl
  have hstg : ∀ x w s, exec (.stg x w) s = opStore 0x35 8 8 .g false (fun s => (s.gr x (rdOf w)).toNat) x w s := fun _ _ _ => rfl
  refine ⟨fun x w s => ?_, fun x w s => ?_⟩
  · exact ⟨(opLoad_loads rfl rfl (hvld x w s) :), (opLoad_loads rfl rfl (htld x w s) :), (opLoad_loads rfl rfl (hldg x w s) :),
      (opStore_stores rfl rfl (hvst x w s) :), (opStore_stores rfl rfl (htst x w s) :), (opStore_stores rfl rfl (hstg x w s) :)⟩
  · exact ⟨fun hr => opFaults (opLoad_traps rfl rfl (hvld x w s) hr), fun hr => opFaults (opLoad_traps rfl rfl (htld x w s) hr),
      fun hr => opFaults (opLoad_traps rfl rfl (hldg x w s) hr), fun hr => opFaults (opStore_traps rfl rfl (hvst x w s) hr),
      fun hr => opFaults (opStore_traps rfl rfl (htst x w s) hr), fun hr => opFaults (opStore_traps rfl rfl (hstg x w s) hr)⟩

end Sys2Proof.Machine

/-! # Asynchronous memory instructions -/

namespace Sys2Proof.Machine

-- One theorem after another, as in the tests: side by side their stacks ask for more memory than the check allows.
set_option Elab.async false

section

variable {s : State} {x : Ea} {w : Word}

theorem SameRegisters.trans {s t u : State} (h : SameRegisters s t) (h' : SameRegisters t u) : SameRegisters s u :=
  Part.Same.trans (p := .file) h h'

theorem async_full (h : freeEntry (s.ex x).outst = none) (kind : OutKind) (rd off a b len after : Nat) :
    s.async x kind rd off a b len after = .stall := by
  rw [State.async, State.takeEntry]
  simp only [h]

/-- What an instruction's effect comes to where it takes an entry, in a state that differs in stacks at most. -/
theorem async_land_congr {u : State} {n : Nat} (h : freeEntry (u.ex x).outst = some n) (kind : OutKind) (rd off a b len after : Nat) :
    (u.async x kind rd off a b len after).land s x 1 = (u.async x kind rd off a b len after).land u x 1 := by
  rw [State.async, takeEntry_free u x h]
  rfl

/-- An instruction whose effect is to take an entry takes the lowest free one, and stalls where there is none (R92, R117). -/
theorem async_takes {c : Instr} {u : State} (hu : Touches [] s u) {kind : OutKind} {off a b len after : Nat}
    (hexec : exec c s = .next ((u.async x kind (rdOf w) off a b len after).land s x 1)) :
    (∀ n, freeEntry (s.ex x).outst = some n → ∃ t due, exec c s = .next t ∧
      (t.ex x).outst = (s.ex x).outst ++ [⟨n, (s.ex x).opSeq, rdOf w, kind, off, a, b, len, s.ec, due, false⟩] ∧
      s.ec ≤ due ∧ t.pc x = (s.pc x + 1) % 2 ^ 13 ∧ SameRegisters s t ∧ t.mem = s.mem) ∧
    (freeEntry (s.ex x).outst = none → exec c s = .next s) := by
  rw [hexec, ← hu.ex x]
  refine ⟨fun n hn => ?_, fun hn => by rw [async_full hn, Res.land]⟩
  obtain ⟨t, ht, hout, hpc, hreg, hmem⟩ := async_lands u x hn kind (rdOf w) off a b len after
  refine ⟨t, u.ec + after, by rw [async_land_congr hn, ht], ?_, by rw [hu.ec]; omega, ?_, hu.file.trans hreg, hmem.trans hu.mem⟩
  · rw [hout, State.newEntry, hu.ec]
  · rw [hpc, State.pc, hu.fld, State.pc]

/-- A location form with an aligned operand and location inside the operand store (R128, R129, R131). -/
theorem locForm_next {c : Instr} {fn : Nat} {load : Bool} (hi : c.issued = some (x, w, { sh := shRO .g .g .gp .g }))
    (hw : c.wf = (x.ok && opIs w fn 0)) (he : exec c s = locForm fn load x w s) (hr : runs c s = true) (ha : s.opAddrR x w % 64 = 0)
    (ho : (!load && wholeOffset ((s.gr x (rbOf w)).toNat % 2 ^ 48) (bf (s.gr x (rbOf w + 1)) 0 9) (s.gr x (rcOf w)).toNat) = false)
    (hop : opCheck (s.opAddrR x w) (s.gr x (rcOf w)).toNat 64 = none) : ∃ after,
    exec c s = .next ((s.async x (if load then .ldLoc else .stLoc) (rdOf w) (s.opAddrR x w).toNat ((s.gr x (rbOf w)).toNat % 2 ^ 48)
      (bf (s.gr x (rbOf w + 1)) 0 9) (s.gr x (rcOf w)).toNat after).land s x 1) := by
  rw [runs_next s x w _ _ c hi hw he hr]
  simp only [ha, ne_eq, not_true, if_false, ho, Bool.false_eq_true, hop]
  exact ⟨_, rfl⟩

/-- A handle form of whole strokes with an aligned operand inside the operand store (R128 to R131). -/
theorem handleForm_next {c : Instr} {fn : Nat} {load : Bool} (hi : c.issued = some (x, w, { sh := shRO .g .g .g .g }))
    (hw : c.wf = (x.ok && opIs w fn 0)) (he : exec c s = handleForm fn load x w s) (hr : runs c s = true) (ha : s.opAddrR x w % 64 = 0)
    (hlen : (s.gr x (rcOf w)).toNat % 512 = 0) (hop : opCheck (s.opAddrR x w) (s.gr x (rcOf w)).toNat 64 = none) : ∃ after,
    exec c s = .next ((s.async x (if load then .ldH else .stH) (rdOf w) (s.opAddrR x w).toNat (s.gr x (rbOf w)).toNat 0
      (s.gr x (rcOf w)).toNat after).land s x 1) := by
  rw [runs_next s x w _ _ c hi hw he hr]
  simp only [ha, hlen, ne_eq, not_true, or_self, if_false, hop]
  exact ⟨_, rfl⟩

/-- ST.H.TOK with its token inside the operand store (R130). -/
theorem stHTok_next (hr : runs (.stHTok x w) s = true)
    (hop : opCheck (s.opAddrR x w) (s.pf (hdPf (s.gr x (rbOf w)).toNat)).tokBytes 64 = none) : ∃ after,
    exec (.stHTok x w) s = .next ((s.async x .stHTok (rdOf w) (s.opAddrR x w).toNat (s.gr x (rbOf w)).toNat
      (bf (s.gr x (rbOf w + 1)) 0 9) (s.pf (hdPf (s.gr x (rbOf w)).toNat)).tokBytes after).land s x 1) := by
  rw [runs_next s x w _ _ (.stHTok x w) rfl rfl rfl hr]
  simp only [hop]
  exact ⟨_, rfl⟩

/-- DMA.POST with its descriptor inside the operand store (R134). -/
theorem dmaPost_next (hr : runs (.dmaPost x w) s = true) (hop : opCheck (s.opAddr x w) 64 64 = none) :
    exec (.dmaPost x w) s = .next ((s.async x .dmaPost (rdOf w) (s.opAddr x w).toNat
      (bytesNat (s.bytes (opBase x + (s.opAddr x w).toNat) 64)) 0 64 8).land s x 1) := by
  rw [runs_next s x w _ _ (.dmaPost x w) rfl rfl rfl hr]
  simp only [hop]

/-- FLUSH.RANGE raises the write-backs of its range at a stack, and of no other tier (R132). -/
theorem flushRange_next (hr : runs (.flushRange x w) s = true) :
    let l := (s.gr x (rbOf w)).toNat % 2 ^ 48
    ∃ u after, Touches [] s u ∧ exec (.flushRange x w) s = .next ((u.async x .flush (rdOf w) 0 l
      (if locTier l = 1 then ((s.stk (locBay l)).pb.filter fun p =>
        decide (locAddr l ≤ p.addr ∧ p.addr < locAddr l + ceilDiv (s.gr x (rcOf w)).toNat 512)).length else 0)
      (s.gr x (rcOf w)).toNat after).land s x 1) := by
  intro l
  rw [runs_next s x w _ _ (.flushRange x w) rfl rfl rfl hr]
  by_cases ht : locTier l = 1
  · rw [if_pos ht, if_pos ht]
    exact ⟨_, _, touches_updStk s (locBay l) _, rfl⟩
  · rw [if_neg ht, if_neg ht]
    exact ⟨s, _, Touches.refl _ s, rfl⟩

end

/-- Settles O12: each instruction's effect is to take an entry. -/
theorem asyncInstructionsTakeAnEntry : Obligations.AsyncInstructionsTakeAnEntry := by
  intro x w s
  have hs := Touches.refl [] s
  refine ⟨fun hr ha hop => ?_, fun hr ha ho hop => ?_, fun hr ha hl hop => ?_, fun hr ha hl hop => ?_, fun hr hop => ?_, fun hr => ?_,
    fun hr hop => async_takes hs (dmaPost_next hr hop)⟩
  · obtain ⟨after, h⟩ := locForm_next (load := true) rfl rfl rfl hr ha rfl hop
    exact async_takes hs h
  · obtain ⟨after, h⟩ := locForm_next (load := false) rfl rfl rfl hr ha ho hop
    exact async_takes hs h
  · obtain ⟨after, h⟩ := handleForm_next (load := true) rfl rfl rfl hr ha hl hop
    exact async_takes hs h
  · obtain ⟨after, h⟩ := handleForm_next (load := false) rfl rfl rfl hr ha hl hop
    exact async_takes hs h
  · obtain ⟨after, h⟩ := stHTok_next hr hop
    exact async_takes hs h
  · obtain ⟨u, after, hu, h⟩ := flushRange_next hr
    exact async_takes hu h

end Sys2Proof.Machine

/-! # The start of a program -/

namespace Sys2Proof.Machine

-- One theorem after another, as in the tests: side by side their stacks ask for more memory than the check allows.
set_option Elab.async false

section

variable (s : State) (x : Ea)

theorem touches_dispStatus (b : Nat) : Touches [.regs] s (s.dispStatus b) := (touches_setFld s _ _ _).trans (touches_setFld _ _ _ _)

theorem State.reg_dispStatus_ne (b : Nat) {o : Nat} (ho : o ≠ Reg.bayDispStatus b) : (s.dispStatus b).reg o = s.reg o := by
  unfold State.dispStatus
  simp only
  rw [State.reg_setFld_ne _ _ _ ho, State.reg_setFld_ne _ _ _ ho]

theorem touches_emptySlots : Touches [.easels, .regs] s (s.emptySlots x) := (touches_updEx s _ _).then_ (touches_setReg _ _ _)

/-! ## The three parts of a start (R80, R81, R176) -/

/-- The registers of a launched easel cleared, and its stores with them in confidential mode. -/
def State.launchCleared (s : State) (x : Ea) : State := (if s.conf then s.clearEasel x else s).clearG x

/-- The arguments, the source, the program and the place in g1 to g7. -/
def State.launchArgs (s : State) (x : Ea) (c : CopyX) : State :=
  ((((((s.setG x 1 (c.launch.args.getD 0 0)).setG x 2 (c.launch.args.getD 1 0)).setG x 3 (c.launch.args.getD 2 0)).setG x 4
    (c.launch.args.getD 3 0)).setG x 5 c.launch.source).setG x 6 (BitVec.ofNat 64 (pgGen c.entry + c.launch.prog * 2 ^ 16))).setG x 7
      (BitVec.ofNat 64 (x.easel + x.bay * 16))

/-- What no register shows of an easel whose program starts in a ground cycle. -/
def EaselX.started (y : EaselX) (c : CopyX) (gc : Nat) : EaselX :=
  { y with src := some c.launch, copy := none, role := pgRole c.entry, limit := pgLimit c.entry, startGc := gc
           wait := none, fence := none, run := none, faults := [] }

/-- The easel set running at its program's entry. -/
def State.launchRuns (s : State) (x : Ea) (c : CopyX) : State :=
  ((((((s.updEx x fun y => y.started c s.gc).emptySlots x).setPc x (pgEntry c.entry)).setReg (Reg.easelRuntime x.bay x.easel) 0).setEst x
    stRunning).dispStatus x.bay)

theorem launchFirst_next (hx : x.ok = true) {c : CopyX} (hc : (s.ex x).copy = some c) (hb : c.begun = true) :
    exec (.launchFirstInstruction x) s = .next ((((s.passTo c.firstAt).launchCleared x).launchArgs x c).launchRuns x c) := by
  show execLaunchFirstInstruction x s = _
  unfold execLaunchFirstInstruction
  rw [guarded_next _ _ hx]
  simp only [hc, hb, Bool.true_eq_false, if_false]
  rfl

/-! ### What is cleared -/

theorem gr_clearG (r : Nat) (hr : r < 64) : (s.clearG x).gr x r = 0 := by
  unfold State.gr State.clearG
  split
  · rfl
  · rw [SMap.get_clear, if_pos (by omega)]

theorem gr_launchCleared (r : Nat) (hr : r < 64) : (s.launchCleared x).gr x r = 0 := gr_clearG _ x r hr

/-- Outside confidential mode the general registers alone are cleared. -/
theorem launchCleared_open (h : s.conf = false) : s.launchCleared x = s.clearG x := by
  rw [State.launchCleared, if_neg (by simp [h])]

theorem launchCleared_conf (h : s.conf = true) : s.launchCleared x = (s.clearEasel x).clearG x := by
  rw [State.launchCleared, if_pos h]

/-- A confidential start clears the stores of the easel and its seed, and no other byte (R80). -/
theorem launchCleared_clears (h : s.conf = true) :
    let t := s.launchCleared x
    (∀ r, r < 32 → t.vr x r = 0) ∧ (∀ r, r < 16 → t.tr x r = 0) ∧ (∀ r, 0 < r → r < 8 → t.pr x r = 0) ∧
      (∀ k, k < opSize → t.byte (opBase x + k) = 0) ∧ SameMemoryOutside s t (opBase x) opSize ∧
      t.reg (Reg.easelSeed x.bay x.easel) = 0 := by
  intro t
  have ht : t = (s.clearEasel x).clearG x := launchCleared_conf s x h
  have hv : t.v = SMap.clear s.v (x.key * 32) (x.key * 32 + 32) := by rw [ht]; rfl
  have htile : t.t = SMap.clear s.t (x.key * 16) (x.key * 16 + 16) := by rw [ht]; rfl
  have hp : t.p = SMap.clear s.p (x.key * 8) (x.key * 8 + 8) := by rw [ht]; rfl
  have hm : t.mem = SMap.clear s.mem (opBase x) (opBase x + opSize) := by rw [ht]; rfl
  refine ⟨fun r hr => ?_, fun r hr => ?_, fun r h0 hr => ?_, fun k hk => ?_, fun b hb => ?_, ?_⟩
  · rw [State.vr, hv, SMap.get_clear, if_pos (by omega)]
  · rw [State.tr, htile, SMap.get_clear, if_pos (by omega)]
  · rw [State.pr, if_neg (by omega), hp, SMap.get_clear, if_pos (by omega)]
  · rw [State.byte, hm, SMap.get_clear, if_pos (by omega)]
    rfl
  · rw [State.byte, hm, SMap.get_clear, if_neg (by omega), State.byte]
  · rw [ht]
    exact State.reg_setReg_same _ _ _

/-! ### What the registers hold -/

theorem gr_launchArgs (c : CopyX) :
    let t := s.launchArgs x c
    (∀ k, k < 4 → t.gr x (k + 1) = c.launch.args.getD k 0) ∧ t.gr x 5 = c.launch.source ∧
      t.gr x 6 = BitVec.ofNat 64 (pgGen c.entry + c.launch.prog * 2 ^ 16) ∧ t.gr x 7 = BitVec.ofNat 64 (x.easel + x.bay * 16) ∧
      ∀ r, 8 ≤ r → t.gr x r = s.gr x r := by
  unfold State.launchArgs
  refine ⟨fun k hk => ?_, ?_, ?_, ?_, fun r hr => ?_⟩
  · interval_cases k <;> simp [State.gr_setG_ne]
  · simp [State.gr_setG_ne]
  · simp [State.gr_setG_ne]
  · simp
  · simp only [State.gr_setG_ne _ _ _ (show r ≠ 7 by omega), State.gr_setG_ne _ _ _ (show r ≠ 6 by omega),
      State.gr_setG_ne _ _ _ (show r ≠ 5 by omega), State.gr_setG_ne _ _ _ (show r ≠ 4 by omega),
      State.gr_setG_ne _ _ _ (show r ≠ 3 by omega), State.gr_setG_ne _ _ _ (show r ≠ 2 by omega),
      State.gr_setG_ne _ _ _ (show r ≠ 1 by omega)]

theorem launchArgs_frame (c : CopyX) :
    let t := s.launchArgs x c
    t.v = s.v ∧ t.t = s.t ∧ t.p = s.p ∧ t.mem = s.mem ∧ t.regs = s.regs := by
  simp [State.launchArgs]

/-! ### The easel as it runs -/

theorem touches_launchRuns (c : CopyX) : Touches [.easels, .regs, .bays] s (s.launchRuns x c) :=
  ((touches_updEx s x _).then_ ((touches_emptySlots _ x).then_ ((touches_setFld _ _ _ _).then_ ((touches_setReg _ _ _).then_
    ((touches_setEst _ x _).then_ (touches_dispStatus _ _)))))).mono (by decide)

theorem ex_launchRuns (c : CopyX) : (s.launchRuns x c).ex x = { (s.ex x).started c s.gc with tables := [] } := by
  rw [State.launchRuns, (touches_dispStatus _ _).ex, (touches_setEst _ _ _).ex, (touches_setReg _ _ _).ex, State.setPc,
    (touches_setFld _ _ _ _).ex, State.emptySlots, (touches_setReg _ _ _).ex, State.ex_updEx_same, State.ex_updEx_same]

/-- A register of the easel the start leaves or sets before EASEL.STATUS. -/
theorem reg_launchRuns (c : CopyX) {o : Nat} (hst : o ≠ Reg.easelStatus x.bay x.easel) (hd : o ≠ Reg.bayDispStatus x.bay)
    (hpc : o ≠ Reg.easelPc x.bay x.easel) : (s.launchRuns x c).reg o =
      if o = Reg.easelRuntime x.bay x.easel then 0 else if o = Reg.easelXtbl x.bay x.easel then 0 else s.reg o := by
  rw [State.launchRuns, State.reg_dispStatus_ne _ _ hd, State.reg_setEst_ne _ _ _ hst, State.reg_setReg, State.setPc,
    State.reg_setFld_ne _ _ _ hpc, State.emptySlots, State.reg_setReg]
  rfl

theorem est_launchRuns (c : CopyX) : (s.launchRuns x c).est x = stRunning := by
  rw [State.est, State.launchRuns, State.fld_dispStatus_ne _ _ _ (by unfold Reg.easelStatus Reg.bayDispStatus; omega)]
  exact State.est_setEst _ _ _

theorem pc_launchRuns (c : CopyX) : (s.launchRuns x c).pc x = pgEntry c.entry := by
  have hlt : pgEntry c.entry < 2 ^ 13 := Nat.mod_lt _ (by decide)
  rw [State.pc, State.launchRuns, State.fld_dispStatus_ne _ _ _ (by unfold Reg.easelPc Reg.bayDispStatus; omega),
    State.fld_setEst_ne _ _ _ _ (by unfold Reg.easelPc Reg.easelStatus; omega),
    State.fld_setReg_ne _ _ _ (by unfold Reg.easelPc Reg.easelRuntime; omega), State.setPc, State.fld_setFld_same _ _ _ _ (by decide)]
  exact Nat.mod_eq_of_lt hlt

end

/-- Settles O21: the clear, the arguments and the run, one after another. -/
theorem programsStartAsLaunched : Obligations.ProgramsStartAsLaunched := by
  intro x s c hx hc hb
  refine ⟨_, launchFirst_next s x hx hc hb, ?_⟩
  set s1 := s.passTo c.firstAt with hs1
  set s2 := s1.launchCleared x with hs2
  set s3 := s2.launchArgs x c with hs3
  have hconf : s1.conf = s.conf := by rw [State.conf, s.fld_passTo _ Reg.rotStatus, State.conf]
  have htime := touches_passTo s c.firstAt
  obtain ⟨hargs, hsource, hprog, hplace, hrest⟩ := gr_launchArgs s2 x c
  obtain ⟨hv, ht, hp, hm, hregs⟩ := launchArgs_frame s2 x c
  have hfile := (touches_launchRuns s3 x c).file
  have hmem := (touches_launchRuns s3 x c).mem
  obtain ⟨hg', hv', ht', hp'⟩ := hfile
  have hgr : ∀ r, (s3.launchRuns x c).gr x r = s3.gr x r := fun r => by rw [State.gr, hg', State.gr]
  have hreg := fun o h1 h2 h3 => reg_launchRuns s3 x c (o := o) h1 h2 h3
  have hex := ex_launchRuns s3 x c
  refine ⟨est_launchRuns s3 x c, pc_launchRuns s3 x c, fun k hk => (hgr _).trans (hargs k hk), (hgr _).trans hsource, (hgr _).trans hprog,
    (hgr _).trans hplace, fun r hr hlt => ((hgr r).trans (hrest r hr)).trans (gr_launchCleared s1 x r hlt), ?_, ?_, by rw [hex]; rfl,
    by rw [hex]; rfl, by rw [hex]; rfl, by rw [hex]; rfl, fun h => ?_, fun h => ?_⟩
  · rw [hreg _ (by unfold Reg.easelRuntime Reg.easelStatus; omega) (by unfold Reg.easelRuntime Reg.bayDispStatus; omega)
      (by unfold Reg.easelRuntime Reg.easelPc; omega), if_pos rfl]
  · rw [hreg _ (by unfold Reg.easelXtbl Reg.easelStatus; omega) (by unfold Reg.easelXtbl Reg.bayDispStatus; omega)
      (by unfold Reg.easelXtbl Reg.easelPc; omega), if_pos rfl, ite_self]
  · obtain ⟨hv0, ht0, hp0, hop, hout, hseed⟩ := launchCleared_clears s1 x (hconf.trans h)
    refine ⟨fun r hr => ?_, fun r hr => ?_, fun r h0 hr => ?_, fun k hk => ?_, fun b hb => ?_, ?_⟩
    · rw [State.vr, hv', hv]
      exact hv0 r hr
    · rw [State.tr, ht', ht]
      exact ht0 r hr
    · rw [State.pr, hp', hp]
      exact hp0 r h0 hr
    · rw [State.byte, hmem, hm]
      exact hop k hk
    · rw [State.byte, hmem, hm]
      exact (hout b hb).trans (by rw [State.byte, htime.mem, State.byte])
    · rw [hreg _ (by unfold Reg.easelSeed Reg.easelStatus; omega) (by unfold Reg.easelSeed Reg.bayDispStatus; omega)
        (by unfold Reg.easelSeed Reg.easelPc; omega), if_neg (by unfold Reg.easelSeed Reg.easelRuntime; omega),
        if_neg (by unfold Reg.easelSeed Reg.easelXtbl; omega), State.reg, hregs]
      exact hseed
  · have hopen : s2 = s1.clearG x := launchCleared_open s1 x (hconf.trans h)
    obtain ⟨-, hvp, htp, hpp⟩ := htime.file
    rw [hv', hv, ht', ht, hp', hp, hmem, hm, hopen]
    exact ⟨hvp, htp, hpp, htime.mem⟩

end Sys2Proof.Machine

/-! # Waiting -/

namespace Sys2Proof.Machine

-- One theorem after another, as in the tests: side by side their stacks ask for more memory than the check allows.
set_option Elab.async false

section

variable (s : State) (x : Ea)

/-- The doorbells do not see the state of an easel. -/
theorem headRecord_setEst (n b m : Nat) : (s.setEst x n).headRecord b m = s.headRecord b m := by
  have hf : ((s.setEst x n).bay b).fifos = (s.bay b).fifos := by
    unfold State.setEst
    split
    · show ((s.quieten x.bay).bay b).fifos = _
      rw [State.quieten, State.bay_updBay]
      split
      · next h => rw [h]
      · rfl
    · rfl
  rw [State.headRecord, hf, State.headRecord]

/-- An instruction boundary without a STOP is passed (R105). -/
theorem boundary_passes (h : s.fld (Reg.easelCtrl x.bay x.easel) Reg.easelCtrl_STOP = 0) : s.boundary x = s := by
  rw [State.boundary, if_neg]
  rw [h]
  simp

/-! ## WAIT and SLEEP at issue (R85, R87) -/

/-- The wait an instruction begins, with the record it finds. -/
def State.waitOf (s : State) (x : Ea) (w : Word) (after : Nat) (sleep : Bool) : WaitX :=
  ⟨(s.gr x (raOf w)).toNat, if (s.gr x (rbOf w)).toNat = 0 then none else some (s.gc + (s.gr x (rbOf w)).toNat + 1), rdOf w, sleep,
    (s.headRecord x.bay (s.gr x (raOf w)).toNat).map fun r => (s.ec + after, r.1, r.2)⟩

/-- The easel in a state of waiting. -/
def State.waitsIn (s : State) (x : Ea) (st : Nat) (q : WaitX) : State := (s.setEst x st).updEx x fun y => { y with wait := some q }

theorem waitsIn_waits (st : Nat) (q : WaitX) (hst : st < 8) :
    let t := s.waitsIn x st q
    t.est x = st ∧ t.pc x = s.pc x ∧ SameRegisters s t ∧ t.mem = s.mem ∧ (t.ex x).wait = some q := by
  have hframe := (touches_setEst s x st).then_ (touches_updEx (s.setEst x st) x fun y => { y with wait := some q })
  refine ⟨?_, ?_, hframe.file, hframe.mem, ?_⟩
  · rw [State.waitsIn, State.est, (touches_updEx _ x _).fld]
    exact (s.est_setEst x st).trans (Nat.mod_eq_of_lt hst)
  · rw [State.waitsIn, State.pc, (touches_updEx _ x _).fld]
    exact s.pc_setEst x st
  · rw [State.waitsIn, State.ex_updEx_same]

section

variable {s x} {w : Word} {c : Instr} {fn : Nat} {sleep : Bool} (hi : c.issued = some (x, w, { sh := shR .gp .g .g .z }))
  (hw : c.wf = (x.ok && opIs w fn 0)) (he : exec c s = waitForm fn sleep x w s) (hr : runs c s = true)

include hi hw he hr

/-- A wait with every pending result out raises 0x0C (R117). -/
theorem waitForm_full (hfull : s.pendFull x = true) : exec c s = .next (s.raise x true 0x0C 0 0) := by
  rw [runs_next s x w _ _ c hi hw he hr, if_pos hfull, Res.land]

/-- WAIT, and a SLEEP with operations in flight, wait with the clock running. -/
theorem waitForm_waits (hfull : s.pendFull x = false) (hq : (sleep && s.quiet x) = false) :
    exec c s = .next (s.waitsIn x stWaiting (s.waitOf x w 4 sleep)) := by
  rw [runs_next s x w _ _ c hi hw he hr]
  simp only [hfull, hq, Bool.false_eq_true, if_false, Res.land, headRecord_setEst]
  rfl

/-- A SLEEP with nothing in flight gates its easel. -/
theorem waitForm_gates (hfull : s.pendFull x = false) (hq : (sleep && s.quiet x) = true) :
    exec c s = .next (s.waitsIn x (s.gateState x)
      (s.waitOf x w (if s.gateState x = stSleep then 28800 else 120000) sleep)) := by
  have hcount : (s.setEst x (s.gateState x)).wakeCount x = if s.gateState x = stSleep then 28800 else 120000 := by
    rw [State.wakeCount, State.est_setEst, State.gateState]
    split <;> rfl
  rw [runs_next s x w _ _ c hi hw he hr]
  simp only [hfull, hq, Bool.false_eq_true, if_false, if_true, Res.land, headRecord_setEst, hcount]
  rfl

end

/-! ## The end of a wait (R85, R150) -/

/-- The easel runs again from a cycle on, with a pair in its registers. -/
def State.resumed (s : State) (x : Ea) (q : WaitX) (t : Nat) (a b : Word) : State :=
  (((((s.passTo t).setEst x stRunning).updEx x fun y => { y with wait := none }).setG x q.rd a).setG x (q.rd + 1) b).advance x 1

/-- An easel that resumes without a STOP has its pair, runs and is past its instruction. -/
theorem resumed_resumes (q : WaitX) (t : Nat) (a b : Word) (hstop : s.fld (Reg.easelCtrl x.bay x.easel) Reg.easelCtrl_STOP = 0) :
    ∃ u, (s.resumed x q t a b).boundary x = u ∧ u.est x = stRunning ∧ u.pc x = (s.pc x + 1) % 2 ^ 13 ∧ (u.ex x).wait = none ∧
      (q.rd ≠ 0 → u.gr x q.rd = a) ∧ u.gr x (q.rd + 1) = b ∧ u.mem = s.mem := by
  have htime := touches_passTo s t
  set v := ((s.passTo t).setEst x stRunning).updEx x (fun y => { y with wait := none }) with hv
  set g := (v.setG x q.rd a).setG x (q.rd + 1) b with hg
  have hpair := (touches_setG v x q.rd a).trans (touches_setG _ x (q.rd + 1) b)
  have hadv := touches_advance g x 1
  have hreg : ∀ o, o ≠ Reg.easelPc x.bay x.easel → o ≠ Reg.easelStatus x.bay x.easel → OffRuntime o →
      (g.advance x 1).reg o = s.reg o := fun o hpc hst ho => by
    rw [State.advance, State.setPc, State.reg_setFld_ne _ _ _ hpc, State.reg, hpair.regs, ← State.reg, hv, State.reg,
      (touches_updEx _ _ _).regs, ← State.reg, State.reg_setEst_ne _ _ _ hst, State.reg_passTo _ _ _ ho]
  have hctrl : (g.advance x 1).fld (Reg.easelCtrl x.bay x.easel) Reg.easelCtrl_STOP = 0 :=
    (State.fld_of_reg (hreg _ (by unfold Reg.easelCtrl Reg.easelPc; omega) (by unfold Reg.easelCtrl Reg.easelStatus; omega)
      (by unfold OffRuntime Reg.easelCtrl; omega)) _).trans hstop
  have hpc : g.pc x = s.pc x := by
    rw [State.pc, hpair.fld, hv, (touches_updEx _ _ _).fld, ← State.pc, State.pc_setEst, State.pc,
      State.fld_passTo _ _ _ _ (by unfold OffRuntime Reg.easelPc; omega), State.pc]
  have hgr : ∀ r, (g.advance x 1).gr x r = g.gr x r := fun r => by rw [State.gr, hadv.file.1, State.gr]
  refine ⟨g.advance x 1, boundary_passes _ x hctrl, ?_, ?_, ?_, fun hr => ?_, ?_, ?_⟩
  · rw [State.est, State.advance, State.setPc, State.fld_setFld_ne _ _ _ _ (by unfold Reg.easelStatus Reg.easelPc; omega), hpair.fld, hv,
      (touches_updEx _ _ _).fld]
    exact State.est_setEst _ x stRunning
  · rw [State.pc_advance, hpc]
  · rw [hadv.ex, hpair.ex, hv, State.ex_updEx_same]
  · rw [hgr, hg, State.gr_setG_ne _ _ _ (by omega), State.gr_setG_same _ _ hr]
  · rw [hgr, hg, State.gr_setG_same _ _ (by omega)]
  · rw [hadv.mem, hpair.mem, (touches_updEx _ _ _).mem, (touches_setEst _ _ _).mem, htime.mem]

/-- A wait that has got its record ends with it. -/
theorem endWait_got {q : WaitX} (hq : (s.ex x).wait = some q) {c d : Nat} {r : Word} (hg : q.got = some (c, d, r)) :
    s.endWait x = (s.resumed x q c (BitVec.ofNat 64 d) r).boundary x := by
  unfold State.endWait
  rw [hq]
  simp only [hg]
  rfl

/-- A wait that has got nothing ends on its limit. -/
theorem endWait_limit {q : WaitX} (hq : (s.ex x).wait = some q) {g : Nat} (hg : q.got = none) (hl : q.limit = some g) :
    s.endWait x = (s.resumed x q (96 * g + s.wakeCount x) (BitVec.ofNat 64 (2 ^ 63)) 0).boundary x := by
  unfold State.endWait
  rw [hq]
  simp only [hg, hl]
  rfl

/-- A wait without a record or a limit goes on. -/
theorem endWait_goesOn {q : WaitX} (hq : (s.ex x).wait = some q) (hg : q.got = none) (hl : q.limit = none) : s.endWait x = s := by
  unfold State.endWait
  rw [hq]
  simp only [hg, hl]

/-- A command that ends a wait resumes its easel with the record or on the limit, and leaves it without either. -/
theorem endWait_ends {c : Instr} {q : WaitX} (hexec : exec c s = .next (s.endWait x)) (hq : (s.ex x).wait = some q)
    (hstop : s.fld (Reg.easelCtrl x.bay x.easel) Reg.easelCtrl_STOP = 0) :
    (∀ n d r, q.got = some (n, d, r) → ∃ t, exec c s = .next t ∧ t.est x = stRunning ∧ t.pc x = (s.pc x + 1) % 2 ^ 13 ∧
      (t.ex x).wait = none ∧ (q.rd ≠ 0 → t.gr x q.rd = BitVec.ofNat 64 d) ∧ t.gr x (q.rd + 1) = r ∧ t.mem = s.mem) ∧
    (∀ g, q.got = none → q.limit = some g → ∃ t, exec c s = .next t ∧ t.est x = stRunning ∧
      t.pc x = (s.pc x + 1) % 2 ^ 13 ∧ (t.ex x).wait = none ∧ (q.rd ≠ 0 → t.gr x q.rd = BitVec.ofNat 64 (2 ^ 63)) ∧
      t.gr x (q.rd + 1) = 0 ∧ t.mem = s.mem) ∧
    (q.got = none → q.limit = none → exec c s = .next s) := by
  refine ⟨fun n d r hg => ?_, fun g hg hl => ?_, fun hg hl => by rw [hexec, endWait_goesOn s x hq hg hl]⟩
  · obtain ⟨u, hu, h⟩ := resumed_resumes s x q n (BitVec.ofNat 64 d) r hstop
    exact ⟨u, by rw [hexec, endWait_got s x hq hg, hu], h⟩
  · obtain ⟨u, hu, h⟩ := resumed_resumes s x q (96 * g + s.wakeCount x) (BitVec.ofNat 64 (2 ^ 63)) 0 hstop
    exact ⟨u, by rw [hexec, endWait_limit s x hq hg hl, hu], h⟩

theorem waitResume_next (hx : x.ok = true) (hst : s.est x = stWaiting) : exec (.waitResume x) s = .next (s.endWait x) := by
  show execWaitResume x s = _
  unfold execWaitResume
  rw [guarded_next _ _ hx, if_pos hst]

/-- An easel asleep or off that waits ends its wait. -/
theorem easelWakeDone_waiting (hx : x.ok = true) (hst : s.est x = stSleep ∨ s.est x = stOff) {q : WaitX} (hq : (s.ex x).wait = some q) :
    exec (.easelWakeDone x) s = .next (s.endWait x) := by
  show execEaselWakeDone x s = _
  unfold execEaselWakeDone
  rw [guarded_next _ _ hx]
  simp only [hq, Option.isSome_some, if_true]
  rw [if_neg (by tauto)]

/-- A gated easel without a launch wakes to idle (R486). -/
theorem easelWakeDone_idle (hx : x.ok = true) (hst : s.est x = stSleep ∨ s.est x = stOff) (hw : (s.ex x).wait = none) {k : WakeX}
    (hk : (s.ex x).wake = some k) (hc : (s.ex x).copy = none) : exec (.easelWakeDone x) s =
      .next (((s.passTo k.due).setEst x stIdle).updEx x fun y => { y with wake := none, idleSince := k.due / 96 }) := by
  show execEaselWakeDone x s = _
  unfold execEaselWakeDone
  rw [guarded_next _ _ hx]
  simp only [hw, hk, hc, Option.isSome_none, Bool.false_eq_true, if_false]
  rw [if_neg (by tauto)]

end

/-- Settles O22: WAIT and SLEEP at issue, then the end of a wait, then the wake of an idle easel. -/
theorem waitsEndWithARecordOrTheirLimit : Obligations.WaitsEndWithARecordOrTheirLimit := by
  intro x w s
  have hgate : s.gateState x < 8 := by unfold State.gateState; split <;> decide
  refine ⟨fun hr => waitForm_full rfl rfl rfl hr, fun hr hf => ⟨_, waitForm_waits rfl rfl rfl hr hf rfl, waitsIn_waits s x _ _ (by decide)⟩,
    fun hr hf hq => ⟨_, waitForm_waits rfl rfl rfl hr hf (by rw [hq]; rfl), waitsIn_waits s x _ _ (by decide)⟩,
    fun hr hf hq => ⟨_, waitForm_gates rfl rfl rfl hr hf (by rw [hq]; rfl), waitsIn_waits s x _ _ hgate⟩,
    fun q hx hq => ⟨fun hst hstop => endWait_ends s x (waitResume_next s x hx hst) hq hstop,
      fun hst hstop => endWait_ends s x (easelWakeDone_waiting s x hx hst hq) hq hstop⟩, fun k hx hst hw hk hc => ?_⟩
  refine ⟨_, easelWakeDone_idle s x hx hst hw hk hc, State.est_setEst _ x stIdle, by rw [State.ex_updEx_same], ?_, ?_⟩
  all_goals have hframe := (touches_passTo s k.due).then_ ((touches_setEst _ x stIdle).then_ (touches_updEx _ x
    fun y => { y with wake := none, idleSince := k.due / 96 }))
  · exact hframe.file
  · exact hframe.mem

end Sys2Proof.Machine

/-! # Arrivals at doorbells -/

namespace Sys2Proof.Machine

-- One theorem after another, as in the tests: side by side their stacks ask for more memory than the check allows.
set_option Elab.async false

section

variable (s : State) (b d : Nat) (r : Word)

/-! ## What an arrival leaves -/

theorem touches_wakeWaiters (m : Nat) : Touches [.easels] s (s.wakeWaiters b m) :=
  Touches.foldl (fun u _ => Touches.ite (fun _ => touches_updEx u _ _) fun _ => Touches.refl _ u) _ _

theorem touches_setFifo (l : List Word) : Touches [.bays, .regs] s (s.setFifo b d l) := (touches_updBay s _ _).then_ (touches_setFld _ _ _ _)

theorem Touches.fifo {K : List Part} {s t : State} (h : Touches K s t) (b d : Nat) (hp : Part.bays ∉ K := by decide) :
    t.fifo b d = s.fifo b d := by
  rw [State.fifo, h.bay b hp, State.fifo]

@[simp] theorem fifo_setFifo (l : List Word) : (s.setFifo b d l).fifo b d = l := by
  rw [State.fifo, State.setFifo, (touches_setFld _ _ _ _).bay, State.bay_updBay_same, SMap.get_set_same]

/-- A source event takes no record from a doorbell. -/
theorem fifo_fire (b' source : Nat) (waiters : Nat) : (s.fire b' source r waiters).fifo b d = s.fifo b d := by
  unfold State.fire
  refine foldl_same (fun u => u.fifo b d) (fun u n _ => ?_) s
  have hone : (u.fireOne b' n r).fifo b d = u.fifo b d := by
    have hinc : ∀ l, ((u.updBay b' fun y => { y with incoming := y.incoming ++ [l] }).bay b).fifos = (u.bay b).fifos := fun l => by
      rw [State.bay_updBay]
      split
      · next h => rw [h]
      · rfl
    unfold State.fireOne State.fifo
    simp only
    split
    · rw [(touches_setFld _ _ _ _).bay, hinc]
    · rw [hinc]
  show State.fifo (if _ then _ else u) b d = u.fifo b d
  split
  · exact hone
  · rfl

/-- A record for a full log is dropped and counted (R540). -/
theorem evBuf_log_full (kind unit sub : Nat) (w2 w3 : Word) (h : ¬ s.host.evBuf.length < 512) :
    (s.log kind unit sub w2 w3).host.evBuf = s.host.evBuf := by
  unfold State.log
  simp only [h, if_false]
  rfl

/-! ## The parts of an arrival (R84, R85, R88) -/

/-- The doorbell with the record at its tail. -/
def State.queued (s : State) (b d : Nat) (r : Word) : State :=
  (s.count (Reg.bayDb0 b d) Reg.bayDb0_ARRIVALS 1).setFifo b d (s.fifo b d ++ [r])

/-- The doorbell with a lost record counted and shown. -/
def State.lostShown (s : State) (b d : Nat) : State :=
  (((s.count (Reg.bayDb0 b d) Reg.bayDb0_ARRIVALS 1).count (Reg.bayDb1 b d) Reg.bayDb1_LOST 1).setFld (Reg.bayDb0 b d) Reg.bayDb0_OVF
    1).setFld (Reg.bayDispErr b) Reg.bayDispErr_DBLOST 1

/-- The doorbell without the record, which is lost, counted and logged. -/
def State.recordDropped (s : State) (b d : Nat) : State :=
  (s.lostShown b d).log 0x05 b d ((s.lostShown b d).reg (Reg.bayDb1 b d)) 0

/-- The easels and the bindings of the doorbell told, or the event log where there is no binding. -/
def State.told (s : State) (b d : Nat) (r : Word) (m : Nat) : State :=
  let t := s.wakeWaiters b m
  if t.boundTo b d = [] then t.log 0x0F b d r 0 else t.fire b d r m

theorem arrive_queued (hup : s.bayUp b = true) (hroom : (s.fifo b d).length < 32) :
    s.arrive b d r = (s.queued b d r).told b d r (s.waiters b d) := by
  unfold State.arrive State.queued State.told
  simp only [hup, if_true, hroom]

theorem arrive_lost (hup : s.bayUp b = true) (hfull : 32 ≤ (s.fifo b d).length) :
    s.arrive b d r = (s.recordDropped b d).told b d r (s.waiters b d) := by
  unfold State.arrive State.recordDropped State.lostShown State.told
  simp only [hup, if_true, Nat.not_lt.2 hfull, if_false]

theorem arrive_down (hup : s.bayUp b = false) : s.arrive b d r = s := by
  unfold State.arrive
  simp [hup]

theorem touches_queued : Touches [.regs, .bays] s (s.queued b d r) := ((touches_count s _ _ _).then_ (touches_setFifo _ _ _ _)).mono (by decide)

theorem touches_lostShown : Touches [.regs] s (s.lostShown b d) :=
  (touches_count s _ _ _).trans ((touches_count _ _ _ _).trans ((touches_setFld _ _ _ _).trans (touches_setFld _ _ _ _)))

theorem touches_recordDropped : Touches [.regs, .host] s (s.recordDropped b d) :=
  ((touches_lostShown s b d).then_ (touches_log _ _ _ _ _ _)).mono (by decide)

theorem touches_told (m : Nat) : Touches [.easels, .regs, .bays, .host] s (s.told b d r m) := by
  refine ((touches_wakeWaiters s b m).mono (by decide)).trans (Touches.ite (fun _ => ?_) fun _ => ?_)
  · exact (touches_log _ _ _ _ _ _).mono (by decide)
  · exact (touches_fire _ _ _ _ _).mono (by decide)

theorem touches_arrive : Touches [.easels, .regs, .bays, .host] s (s.arrive b d r) := by
  by_cases hup : s.bayUp b = true
  · by_cases hroom : (s.fifo b d).length < 32
    · rw [arrive_queued s b d r hup hroom]
      exact ((touches_queued s b d r).then_ (touches_told _ b d r _)).mono (by decide)
    · rw [arrive_lost s b d r hup (Nat.not_lt.1 hroom)]
      exact ((touches_recordDropped s b d).then_ (touches_told _ b d r _)).mono (by decide)
  · rw [arrive_down s b d r (by simpa using hup)]
    exact Touches.refl _ s

/-- An offset that no firing in a bay writes: not GLOBAL.EVERR or a binding of the bay. -/
abbrev OffFiring (b o : Nat) : Prop := o ≠ Reg.globalEverr ∧ (o < Reg.bayBind0 b 0 ∨ Reg.bayBind0 b 64 ≤ o)

theorem reg_told (m : Nat) {o : Nat} (ho : OffFiring b o) : (s.told b d r m).reg o = s.reg o := by
  have hwake : (s.wakeWaiters b m).reg o = s.reg o := by rw [State.reg, (touches_wakeWaiters s b m).regs, State.reg]
  unfold State.told
  simp only
  split
  · exact (State.reg_log _ _ _ _ _ _ ho.1).trans hwake
  · exact (State.reg_fire _ _ _ _ _ ho.2).trans hwake

theorem fifo_told (m : Nat) : (s.told b d r m).fifo b d = s.fifo b d := by
  unfold State.told
  simp only
  split
  · rw [(touches_log _ _ _ _ _ _).fifo, (touches_wakeWaiters s b m).fifo]
  · rw [fifo_fire, (touches_wakeWaiters s b m).fifo]

/-- The event log keeps its records when the bindings of a doorbell are told. -/
theorem evBuf_told (m : Nat) : ∃ l, (s.told b d r m).host.evBuf = s.host.evBuf ++ l := by
  have hwake := (touches_wakeWaiters s b m).host
  unfold State.told
  simp only
  split
  · by_cases h : (s.wakeWaiters b m).host.evBuf.length < 512
    · exact ⟨_, (evBuf_log _ _ _ _ _ _ h).trans (by rw [hwake])⟩
    · exact ⟨[], by rw [evBuf_log_full _ _ _ _ _ _ h, hwake, List.append_nil]⟩
  · exact ⟨[], by rw [(touches_fire _ _ _ _ _).host, hwake, List.append_nil]⟩

/-! ## What an arrival comes to -/

theorem offFiring_db0 (hd : d < 64) : OffFiring b (Reg.bayDb0 b d) := by
  unfold OffFiring Reg.globalEverr Reg.bayBind0 Reg.bayDb0
  omega

theorem fld_told (m : Nat) {o : Nat} (f : Fld) (ho : OffFiring b o) : (s.told b d r m).fld o f = s.fld o f :=
  State.fld_of_reg (reg_told s b d r m ho) f

/-- With fewer than 32 waiting the record joins the tail, DEPTH shows it and ARRIVALS counts it (R84). -/
theorem arrive_queues (hd : d < 64) (hup : s.bayUp b = true) (hroom : (s.fifo b d).length < 32) :
    let t := s.arrive b d r
    t.fld (Reg.bayDb0 b d) Reg.bayDb0_ARRIVALS = (s.fld (Reg.bayDb0 b d) Reg.bayDb0_ARRIVALS + 1) % 2 ^ 32 ∧
      t.fifo b d = s.fifo b d ++ [r] ∧ t.fld (Reg.bayDb0 b d) Reg.bayDb0_DEPTH = (s.fifo b d).length + 1 := by
  intro t
  have ho := offFiring_db0 b d hd
  have ht : t = (s.queued b d r).told b d r (s.waiters b d) := arrive_queued s b d r hup hroom
  rw [ht]
  refine ⟨?_, ?_, ?_⟩
  · rw [fld_told _ b d r _ _ ho, State.queued, State.setFifo, State.fld_setFld_apart _ _ _ _ _ (by decide) (by decide),
      (touches_updBay _ b _).fld, State.count, State.fld_setFld_same _ _ _ _ (by decide)]
    rfl
  · rw [fifo_told, State.queued, fifo_setFifo]
  · rw [fld_told _ b d r _ _ ho, State.queued, State.setFifo, State.fld_setFld_same _ _ _ _ (by decide), List.length_append]
    exact Nat.mod_eq_of_lt (show (s.fifo b d).length + 1 < 2 ^ 6 by omega)

/-- The registers that show a lost record (R84). -/
theorem lostShown_shows (hd : d < 64) :
    let t := s.lostShown b d
    t.fld (Reg.bayDb0 b d) Reg.bayDb0_ARRIVALS = (s.fld (Reg.bayDb0 b d) Reg.bayDb0_ARRIVALS + 1) % 2 ^ 32 ∧
      t.fld (Reg.bayDb0 b d) Reg.bayDb0_OVF = 1 ∧ t.fld (Reg.bayDispErr b) Reg.bayDispErr_DBLOST = 1 ∧
      t.fld (Reg.bayDb1 b d) Reg.bayDb1_LOST = (s.fld (Reg.bayDb1 b d) Reg.bayDb1_LOST + 1) % 2 ^ Reg.bayDb1_LOST.w := by
  have h01 : Reg.bayDb0 b d ≠ Reg.bayDb1 b d := by unfold Reg.bayDb1 Reg.bayDb0; omega
  have h0e : Reg.bayDb0 b d ≠ Reg.bayDispErr b := by unfold Reg.bayDispErr Reg.bayDb0; omega
  have h1e : Reg.bayDb1 b d ≠ Reg.bayDispErr b := by unfold Reg.bayDispErr Reg.bayDb1; omega
  simp only [State.lostShown]
  refine ⟨?_, ?_, State.fld_setFld_same _ _ _ _ (by decide), ?_⟩
  · rw [State.fld_setFld_ne _ _ _ _ h0e, State.fld_setFld_apart _ _ _ _ _ (by decide) (by decide), State.count,
      State.fld_setFld_ne _ _ _ _ h01, State.count, State.fld_setFld_same _ _ _ _ (by decide)]
    rfl
  · rw [State.fld_setFld_ne _ _ _ _ h0e, State.fld_setFld_same _ _ _ _ (by decide)]
    rfl
  · rw [State.fld_setFld_ne _ _ _ _ h1e, State.fld_setFld_ne _ _ _ _ h01.symm, State.count,
      State.fld_setFld_same _ _ _ _ (by decide), State.count, State.fld_setFld_ne _ _ _ _ h01.symm]

/-- With 32 waiting the record is not queued: it is counted, shown and logged (R84, R109, R540). -/
theorem arrive_loses (hb : b < 16) (hd : d < 64) (hup : s.bayUp b = true) (hfull : 32 ≤ (s.fifo b d).length) :
    let t := s.arrive b d r
    t.fld (Reg.bayDb0 b d) Reg.bayDb0_ARRIVALS = (s.fld (Reg.bayDb0 b d) Reg.bayDb0_ARRIVALS + 1) % 2 ^ 32 ∧
      t.fifo b d = s.fifo b d ∧ t.fld (Reg.bayDb0 b d) Reg.bayDb0_OVF = 1 ∧ t.fld (Reg.bayDispErr b) Reg.bayDispErr_DBLOST = 1 ∧
      t.fld (Reg.bayDb1 b d) Reg.bayDb1_LOST = (s.fld (Reg.bayDb1 b d) Reg.bayDb1_LOST + 1) % 2 ^ Reg.bayDb1_LOST.w ∧
      (s.host.evBuf.length < 512 → ∃ w l, t.host.evBuf = s.host.evBuf ++
        [BitVec.ofNat 64 (0x05 + b * 2 ^ 8 + d * 2 ^ 16 + s.host.seq % 2 ^ 32 * 2 ^ 32), BitVec.ofNat 64 s.gc, w, 0] :: l) := by
  intro t
  have ht : t = (s.recordDropped b d).told b d r (s.waiters b d) := arrive_lost s b d r hup hfull
  have h0 := offFiring_db0 b d hd
  have h1 : OffFiring b (Reg.bayDb1 b d) := by unfold OffFiring Reg.globalEverr Reg.bayBind0 Reg.bayDb1; omega
  have he : OffFiring b (Reg.bayDispErr b) := by unfold OffFiring Reg.globalEverr Reg.bayBind0 Reg.bayDispErr; omega
  obtain ⟨harr, hovf, hlost, hcount⟩ := lostShown_shows s b d hd
  have hfld : ∀ {o : Nat} (f : Fld), OffFiring b o → t.fld o f = (s.lostShown b d).fld o f := fun f ho => by
    rw [ht, fld_told _ b d r _ f ho, State.recordDropped, State.fld_log _ _ _ _ _ _ _ _ ho.1]
  have hshown := touches_lostShown s b d
  refine ⟨(hfld _ h0).trans harr, ?_, (hfld _ h0).trans hovf, (hfld _ he).trans hlost, (hfld _ h1).trans hcount, fun hroom => ?_⟩
  · rw [ht, fifo_told, (touches_recordDropped s b d).fifo]
  · obtain ⟨l, hl⟩ := evBuf_told (s.recordDropped b d) b d r (s.waiters b d)
    refine ⟨(s.lostShown b d).reg (Reg.bayDb1 b d), l, ?_⟩
    rw [ht, hl, State.recordDropped, evBuf_log _ _ _ _ _ _ (by rw [hshown.host]; exact hroom), hshown.host, State.eventRecord, hshown.host, hshown.gc,
      List.append_assoc, List.singleton_append,
      Nat.mod_eq_of_lt (show b < 256 by omega), Nat.mod_eq_of_lt (show d < 65536 by omega)]

theorem doorbellArrival_next (hb : b < 16) (hd : d < 64) :
    exec (.doorbellArrival b d r) s = .next (s.arrive b d (BitVec.ofNat 64 (r.toNat % 2 ^ 48))) := by
  have h : exec (.doorbellArrival b d r) s = execDoorbellArrival b d r s := rfl
  rw [h, execDoorbellArrival, guarded_next _ _ (by simp [hb, hd]), bf_low]

end

/-- Settles O23: an arrival at a ready bay is counted, and queued or lost by the records that wait. -/
theorem arrivalsAreCountedAndQueued : Obligations.ArrivalsAreCountedAndQueued := by
  intro b d r s hb hd
  rw [doorbellArrival_next s b d r hb hd]
  refine ⟨fun hup => by rw [arrive_down s b d _ hup], fun hup => ⟨_, rfl, ?_⟩⟩
  have ht := touches_arrive s b d (BitVec.ofNat 64 (r.toNat % 2 ^ 48))
  by_cases hroom : (s.fifo b d).length < 32
  · obtain ⟨harr, hfifo, hdepth⟩ := arrive_queues s b d (BitVec.ofNat 64 (r.toNat % 2 ^ 48)) hd hup hroom
    exact ⟨ht.file, ht.mem, harr, fun _ => ⟨hfifo, hdepth⟩, fun h => absurd h (Nat.not_le.2 hroom)⟩
  · obtain ⟨harr, hlost⟩ := arrive_loses s b d (BitVec.ofNat 64 (r.toNat % 2 ^ 48)) hb hd hup (Nat.not_lt.1 hroom)
    exact ⟨ht.file, ht.mem, harr, fun h => absurd h hroom, fun _ => hlost⟩

end Sys2Proof.Machine

/-! # Fences and the system instructions -/

namespace Sys2Proof.Machine

-- One theorem after another, as in the tests: side by side their stacks ask for more memory than the check allows.
set_option Elab.async false

section

variable (s : State) (x : Ea)

/-! ## Entering a fence (R94, R151) -/

section

variable {s x} {w : Word}

/-- FENCE.PEER names a node of R8's range or is illegal. -/
theorem fencePeer_next (hr : runs (.fencePeer x w) s = true) :
    (bf (s.gr x (raOf w)) 0 12 ≤ 0x3FF → exec (.fencePeer x w) s =
      .next (s.updEx x fun y => { y with fence := some ⟨.peer, bf (s.gr x (raOf w)) 0 12, none⟩ })) ∧
    (0x3FF < bf (s.gr x (raOf w)) 0 12 → exec (.fencePeer x w) s = .next (s.illegal x)) := by
  rw [runs_next s x w _ _ (.fencePeer x w) rfl rfl rfl hr]
  refine ⟨fun h => ?_, fun h => ?_⟩
  · rw [if_neg (Nat.not_lt.2 h), State.enterFence, Res.land]
  · rw [if_pos h, Res.land, State.illegal]

/-- A barrier needs its mask inside the tier and the issuing easel in it (R94, R572). -/
theorem fenceBayBarrier_next (hr : runs (.fenceBayBarrier x w) s = true) :
    let mask := bf (s.gr x (raOf w)) 0 12
    let lim := (s.gr x (rbOf w)).toNat
    (s.tierMask < mask → exec (.fenceBayBarrier x w) s =
      .next ((s.logLic x.bay 0x01 (x.bay * 16 + s.outside mask)).raise x true 0x02 0 0)) ∧
    (mask ≤ s.tierMask → bitOf mask x.easel = false → exec (.fenceBayBarrier x w) s = .next (s.illegal x)) ∧
    (mask ≤ s.tierMask → bitOf mask x.easel = true → exec (.fenceBayBarrier x w) s = .next (s.updEx x fun y => { y with
      fence := some ⟨.barrier, mask + bf (s.gr x (raOf w)) 16 8 * 2 ^ 16, if lim = 0 then none else some (s.gc + lim)⟩ })) := by
  rw [runs_next s x w _ _ (.fenceBayBarrier x w) rfl rfl rfl hr]
  refine ⟨fun h => ?_, fun h ho => ?_, fun h ho => ?_⟩
  · rw [if_pos h, Res.land, State.licTrap]
  · rw [if_neg (Nat.not_lt.2 h), if_pos ho, Res.land, State.illegal]
  · rw [if_neg (Nat.not_lt.2 h), if_neg (by rw [ho]; decide), State.enterFence, Res.land]

end

/-! ## Completion (R93, R94, R100, R154) -/

/-- An easel that leaves its fence without a STOP is past it. -/
theorem leaveFence_leaves (hstop : s.fld (Reg.easelCtrl x.bay x.easel) Reg.easelCtrl_STOP = 0) :
    let t := s.leaveFence x
    (t.ex x).fence = none ∧ t.pc x = (s.pc x + 1) % 2 ^ 13 ∧ t.est x = s.est x ∧ SameRegisters s t ∧ t.mem = s.mem := by
  intro t
  have hup := touches_updEx s x fun y => { y with fence := none }
  have hadv := touches_advance (s.updEx x fun y => { y with fence := none }) x 1
  have hfld : ∀ {o : Nat} (f : Fld), o ≠ Reg.easelPc x.bay x.easel →
      ((s.updEx x fun y => { y with fence := none }).advance x 1).fld o f = s.fld o f := fun f ho => by
    rw [State.advance, State.setPc, State.fld_setFld_ne _ _ _ _ ho, hup.fld]
  have ht : t = (s.updEx x fun y => { y with fence := none }).advance x 1 :=
    boundary_passes _ x ((hfld _ (by unfold Reg.easelCtrl Reg.easelPc; omega)).trans hstop)
  rw [ht]
  refine ⟨?_, ?_, hfld _ (by unfold Reg.easelStatus Reg.easelPc; omega), (hup.then_ hadv).file, (hup.then_ hadv).mem⟩
  · rw [hadv.ex, State.ex_updEx_same]
  · rw [State.pc_advance, State.pc, hup.fld, State.pc]

section

variable {s x} {f : FenceX} (hx : x.ok = true) (hf : (s.ex x).fence = some f)

include hx hf

/-- A fence holds its easel until its scope has drained (R93). -/
theorem fenceComplete_holds (hd : s.drained x f = false) : exec (.fenceComplete x) s = .next s := by
  show execFenceComplete x s = _
  rw [execFenceComplete, guarded_next _ _ hx]
  simp only [hf, hd, if_true]

/-- A drained fence reports the first pending imprecise exception (R100). -/
theorem fenceComplete_reports (hd : s.drained x f = true) {e : ImpFault} (he : firstFault (s.ex x).faults = some e) :
    exec (.fenceComplete x) s = .next ((s.updEx x fun y => { y with fence := none }).raise x false e.code e.info e.loc) := by
  have hne : (s.ex x).faults ≠ [] := by
    intro h
    rw [h, firstFault] at he
    exact absurd he (by simp)
  have hpend : firstFault ((s.updEx x fun y => { y with fence := none }).ex x).faults = some e := by
    rw [State.ex_updEx_same]
    exact he
  show execFenceComplete x s = _
  rw [execFenceComplete, guarded_next _ _ hx]
  simp only [hf, hd, Bool.true_eq_false, if_false, hne, ne_eq, not_false_eq_true, if_true, reportOr_some _ x hpend]

/-- A drained END ends the program (R120). -/
theorem fenceComplete_ends (hd : s.drained x f = true) (hq : (s.ex x).faults = []) (hk : f.kind = .endProg) :
    exec (.fenceComplete x) s = .next ((s.passTo (s.ec + 4)).endProgram x f.arg) := by
  show execFenceComplete x s = _
  rw [execFenceComplete, guarded_next _ _ hx]
  simp only [hf, hd, Bool.true_eq_false, if_false, hq, ne_eq, not_true_eq_false, hk]

/-- A barrier that every easel of its mask has reached completes for them together (R94). -/
theorem fenceComplete_meets (hd : s.drained x f = true) (hq : (s.ex x).faults = []) (hk : f.kind = .barrier)
    (hall : ((List.range 12).all fun e => !bitOf f.arg e || s.atBarrier ⟨x.bay, e⟩ f.arg) = true) :
    exec (.fenceComplete x) s = .next (((List.range 12).filter fun e => bitOf f.arg e).foldl (fun u e => u.leaveFence ⟨x.bay, e⟩)
      (s.passTo (s.ec + 24))) := by
  show execFenceComplete x s = _
  rw [execFenceComplete, guarded_next _ _ hx]
  simp only [hf, hd, Bool.true_eq_false, if_false, hq, ne_eq, not_true_eq_false, hk, List.all_filter, hall, if_true]

/-- Any other drained fence lets its easel go on after its count (R151). -/
theorem fenceComplete_passes (hd : s.drained x f = true) (hq : (s.ex x).faults = []) (he : f.kind ≠ .endProg)
    (hb : f.kind ≠ .barrier) : exec (.fenceComplete x) s = .next ((s.passTo (s.ec + f.kind.count)).leaveFence x) := by
  show execFenceComplete x s = _
  rw [execFenceComplete, guarded_next _ _ hx]
  simp only [hf, hd, Bool.true_eq_false, if_false, hq, ne_eq, not_true_eq_false]

/-- A fence that passes leaves its easel past it, with its registers and the memory. -/
theorem fenceComplete_leaves (hd : s.drained x f = true) (hq : (s.ex x).faults = []) (he : f.kind ≠ .endProg) (hb : f.kind ≠ .barrier)
    (hstop : s.fld (Reg.easelCtrl x.bay x.easel) Reg.easelCtrl_STOP = 0) : ∃ t, exec (.fenceComplete x) s = .next t ∧
      (t.ex x).fence = none ∧ t.pc x = (s.pc x + 1) % 2 ^ 13 ∧ t.est x = s.est x ∧ SameRegisters s t ∧ t.mem = s.mem := by
  have htime := touches_passTo s (s.ec + f.kind.count)
  have hfld : ∀ {o : Nat} (g : Fld), OffRuntime o → (s.passTo (s.ec + f.kind.count)).fld o g = s.fld o g :=
    fun g ho => State.fld_passTo _ _ _ g ho
  obtain ⟨hfence, hpc, hest, hfile, hmem⟩ := leaveFence_leaves (s.passTo (s.ec + f.kind.count)) x
    ((hfld _ (by unfold OffRuntime Reg.easelCtrl; omega)).trans hstop)
  refine ⟨_, fenceComplete_passes hx hf hd hq he hb, hfence, hpc.trans ?_, hest.trans (hfld _ (by unfold OffRuntime Reg.easelStatus; omega)),
    htime.file.trans hfile, hmem.trans htime.mem⟩
  rw [State.pc, hfld _ (by unfold OffRuntime Reg.easelPc; omega), State.pc]

/-- A barrier whose limit runs out raises 0x09 (R94). -/
theorem barrierTimeout_raises {g : Nat} (hk : f.kind = .barrier) (hl : f.limit = some g) : exec (.barrierTimeout x) s =
    .next (((s.passTo (96 * g)).updEx x fun y => { y with fence := none }).raise x true 0x09 0 0) := by
  show execBarrierTimeout x s = _
  rw [execBarrierTimeout, guarded_next _ _ hx]
  simp only [hf, hk, hl]

end

/-! ## The system instructions (R152, R153) -/

section

variable {s x} {w : Word}

theorem rdgc_next (hr : runs (.rdgc x w) s = true) :
    (s.pendFull x = false → exec (.rdgc x w) s =
      .next (((s.takePend x (rdOf w) (some 8)).setG x (rdOf w) (BitVec.ofNat 64 s.gc)).advance x 1)) ∧
    (s.pendFull x = true → exec (.rdgc x w) s = .next (s.raise x true 0x0C 0 0)) := by
  rw [runs_next s x w _ _ (.rdgc x w) rfl rfl rfl hr]
  refine ⟨fun h => ?_, fun h => ?_⟩
  · rw [if_neg (by rw [h]; decide), Res.land]
  · rw [if_pos h, Res.land]

theorem perfRd_next (hr : runs (.perfRd x w) s = true) :
    (s.conf = true → exec (.perfRd x w) s = .next (s.raise x true 0x07 0 0)) ∧
    (s.conf = false → s.pendFull x = true → exec (.perfRd x w) s = .next (s.raise x true 0x0C 0 0)) ∧
    (s.conf = false → s.pendFull x = false → let u := s.takePend x (rdOf w) (some 4)
      exec (.perfRd x w) s = .next ((u.draw.2.setG x (rdOf w) (BitVec.ofNat 64 u.draw.1)).advance x 1)) := by
  rw [runs_next s x w _ _ (.perfRd x w) rfl rfl rfl hr]
  refine ⟨fun hc => ?_, fun hc h => ?_, fun hc h => ?_⟩
  · rw [if_pos hc, Res.land]
  · rw [if_neg (by rw [hc]; decide), if_pos h, Res.land]
  · rw [if_neg (by rw [hc]; decide), if_neg (by rw [h]; decide), Res.land]

/-- TRACE appends its operand to the trace of its bay, the oldest entries making room (R153). -/
theorem trace_next (hr : runs (.trace x w) s = true) :
    (s.conf = true → exec (.trace x w) s = .next (s.raise x true 0x07 0 0)) ∧
    (s.conf = false → ∃ t, exec (.trace x w) s = .next t ∧ (t.bay x.bay).trace = ((s.bay x.bay).trace ++ [s.gr x (raOf w)]).drop
      ((s.bay x.bay).trace.length + 1 - Config.traceDepth) ∧ t.pc x = (s.pc x + 1) % 2 ^ 13 ∧ SameRegisters s t ∧ t.mem = s.mem) := by
  rw [runs_next s x w _ _ (.trace x w) rfl rfl rfl hr]
  refine ⟨fun hc => by rw [if_pos hc, Res.land], fun hc => ?_⟩
  rw [if_neg (by rw [hc]; decide), Res.land]
  refine ⟨_, rfl, ?_, ?_, ((touches_updBay s x.bay _).then_ (touches_advance _ x _)).file,
    ((touches_updBay s x.bay _).then_ (touches_advance _ x _)).mem⟩
  · rw [(touches_advance _ x _).bay, State.bay_updBay_same]
    simp only [List.length_append, List.length_singleton]
  · rw [State.pc_advance, State.pc, (touches_updBay s x.bay _).fld, State.pc]

end

end

/-- Settles O25: the fences at issue and at completion, then RDGC, PERF.RD and TRACE. -/
theorem fencesAndSystemInstructions : Obligations.FencesAndSystemInstructions := by
  refine ⟨fun x w s => ⟨fun hr => runs_next s x w _ _ (.fenceEasel x w) rfl rfl rfl hr,
      fun hr => runs_next s x w _ _ (.fenceBay x w) rfl rfl rfl hr,
      fun hr => runs_next s x w _ _ (.fenceNode x w) rfl rfl rfl hr, fun hr => runs_next s x w _ _ (.fencePair x w) rfl rfl rfl hr,
      fencePeer_next, fenceBayBarrier_next, fun f hx hf => ?_⟩, fun x w s => ⟨rdgc_next, perfRd_next, trace_next⟩⟩
  exact ⟨fenceComplete_holds hx hf, fun hd e => fenceComplete_reports hx hf hd,
    fun hd hq => ⟨fenceComplete_ends hx hf hd hq, fenceComplete_leaves hx hf hd hq, fenceComplete_meets hx hf hd hq⟩,
    fun g => barrierTimeout_raises hx hf⟩

end Sys2Proof.Machine

/-! # ATTN.STEP and SKETCH.RANK -/

namespace Sys2Proof.Machine

-- One theorem after another, as in the tests: side by side their stacks ask for more memory than the check allows.
set_option Elab.async false

section

variable (s : State) (x : Ea)

theorem touches_takeEntry {u : State} {kind : OutKind} {rd off a b len after : Nat}
    (h : s.takeEntry x kind rd off a b len after = some u) : Touches [.easels] s u := by
  unfold State.takeEntry at h
  simp only at h
  split at h
  · exact absurd h (by simp)
  · rw [← Option.some.inj h]
    exact touches_setEx s x _

/-! ## The visits of a run (R136, R139) -/

/-- Visits of which none waits and none stops the run come to its end. -/
theorem runGo_visitsAll (d : AttnDesc) (p : Pf) (vs : List Nat) : ∀ (r : RunX) (s : State) {r' : RunX} {t : State},
    visitsAll x d p vs r s = some (r', t) → State.runGo x d p none vs r s = t.runEnd x d { r' with left := [] } cDone := by
  induction vs with
  | nil =>
    intro r s r' t h
    rw [visitsAll, Option.some.injEq, Prod.mk.injEq] at h
    obtain ⟨rfl, rfl⟩ := h
    rfl
  | cons v vs ih =>
    intro r s r' t h
    rw [visitsAll] at h
    rw [State.runGo]
    by_cases hkey : s.pfCode d.pf p = cKey
    · rw [if_pos hkey] at h
      exact absurd h (by simp)
    · rw [if_neg hkey] at h
      simp only [if_neg hkey]
      cases hv : (if r.rank then s.rankVisit x p d r v none 1 else s.attnVisit x p d r v none) with
      | next r1 s1 =>
        rw [hv] at h
        exact ih _ _ h
      | fetch r1 s1 | miss l i r1 s1 | stop c r1 s1 =>
        rw [hv] at h
        exact absurd h (by simp)

/-! ## The start of a run (R135, R136) -/

/-- The run of a descriptor before its first visit. -/
def newRun (rank : Bool) (w : Word) (off : Nat) (recd : List Byte) (d : AttnDesc) : RunX :=
  ⟨rank, rdOf w, off, recd, List.range d.n, 0, 0, 0, none, [], .fetch, false⟩

section

variable {s x} {w : Word} {c : Instr} {fn : Nat} {rank : Bool} {u : State} {d : AttnDesc} {recd : List Byte}

/-- A run that passes its checks takes its entry, and makes its visits or ends with the code that refuses its portfolio. -/
theorem runForm_next (hi : c.issued = some (x, w, { sh := shR .g .g .z .z })) (hw : c.wf = (x.ok && opIs w fn 0))
    (he : exec c s = runForm fn rank x w s) (hr : runs c s = true)
    (hop : opCheck ((s.gr x (raOf w)).toNat : Int) 64 64 = none)
    (hdesc : attnDesc rank (s.bytes (opBase x + (s.gr x (raOf w)).toNat) 64) = d) (hd : s.descCheck x rank d = none)
    (hrecd : s.bytes (pfAddr d.pf) 512 = recd) (hu : s.takeEntry x .run (rdOf w) 0 0 0 0 0 = some u) :
    let r := newRun rank w (s.gr x (raOf w)).toNat recd d
    let p := decodePf recd
    exec c s = .next (if u.pfCode d.pf p = cDone then State.runGo x d p none r.left r (if rank then u else u.initWashes x p d)
      else u.runEnd x d { r with rank := false } (u.pfCode d.pf p)) := by
  intro r p
  have hread : u.bytes (pfAddr d.pf) 512 = recd := by rw [State.bytes, (touches_takeEntry s x hu).mem, ← State.bytes, hrecd]
  rw [runs_next s x w _ _ c hi hw he hr]
  simp only [hop, Int.toNat_natCast, hdesc, hd, hu, hread]
  by_cases hcode : u.pfCode d.pf p = cDone
  · rw [if_neg (not_not.2 hcode), if_pos hcode]
    rfl
  · rw [if_pos hcode, if_neg hcode]
    rfl

end

theorem partnerFetchDone_next (hx : x.ok = true) {r : RunX} (hr : (s.ex x).run = some r) (data : Option (List Byte)) :
    exec (.partnerFetchDone x data) s = .next (if r.hold = .fetch then s.runResume x r (some data) else s) := by
  show execPartnerFetchDone x data s = _
  rw [execPartnerFetchDone, guarded_next _ _ hx]
  simp only [hr]

/-! ## The end of a run (R138, R142, R176) -/

/-- The bytes of the list of bounds a rank leaves, a pair of words an entry. -/
def RunX.boundList (r : RunX) : List Byte := (rankSort r.bounds).flatMap fun (i, b) => natBytes 4 i ++ natBytes 4 b

/-- The list of bounds written where a rank has ended done. -/
def State.boundsPlaced (s : State) (x : Ea) (d : AttnDesc) (r : RunX) (code : Nat) : State :=
  if r.rank ∧ code = cDone then s.setBytes (opBase x + d.rank) r.boundList else s

/-- The completion word of a run. -/
def RunX.word (r : RunX) (code : Nat) : Word := compWord code r.count (r.skipped % 2 ^ 16 + r.damaged % 2 ^ 16 * 2 ^ 16)

/-- The easel past its run, its expander's slots empty and its entry free. -/
def State.runLeft (s : State) (x : Ea) (rd : Nat) (v : Word) : State :=
  (((s.emptySlots x).setG x rd v).advance x 1).updEx x EaselX.dropRun

theorem runEnd_free {r : RunX} (hl : r.locFault = none) (d : AttnDesc) (code : Nat) :
    s.runEnd x d r code = ((s.boundsPlaced x d r code).runLeft x r.rd (r.word code)).boundary x := by
  unfold State.runEnd
  simp only [hl]
  rfl

theorem touches_boundsPlaced (d : AttnDesc) (r : RunX) (code : Nat) : Touches [.mem] s (s.boundsPlaced x d r code) :=
  Touches.ite (fun _ => touches_setBytes s _ _) fun _ => Touches.refl _ s

theorem touches_runLeft (rd : Nat) (v : Word) : Touches [.easels, .regs, .file] s (s.runLeft x rd v) :=
  ((touches_emptySlots s x).then_ ((touches_setG _ x rd v).then_ ((touches_advance _ x 1).then_ (touches_updEx _ x _)))).mono (by decide)

/-- A register of the easel after its run. -/
theorem reg_runLeft (rd : Nat) (v : Word) {o : Nat} (ho : o ≠ Reg.easelPc x.bay x.easel) :
    (s.runLeft x rd v).reg o = if o = Reg.easelXtbl x.bay x.easel then 0 else s.reg o := by
  rw [State.runLeft, State.reg, (touches_updEx _ x _).regs, ← State.reg, State.advance, State.setPc, State.reg_setFld_ne _ _ _ ho,
    State.reg, (touches_setG _ x rd v).regs, ← State.reg, State.emptySlots, State.reg_setReg]
  rfl

/-- A general register set leaves the vector, tile and predicate registers. -/
theorem vtp_setG (rd : Nat) (v : Word) : (s.setG x rd v).v = s.v ∧ (s.setG x rd v).t = s.t ∧ (s.setG x rd v).p = s.p := by
  unfold State.setG
  split <;> exact ⟨rfl, rfl, rfl⟩

theorem vtp_runLeft (rd : Nat) (v : Word) :
    (s.runLeft x rd v).v = s.v ∧ (s.runLeft x rd v).t = s.t ∧ (s.runLeft x rd v).p = s.p := by
  obtain ⟨-, hv, ht, hp⟩ := (touches_emptySlots s x).file
  obtain ⟨hgv, hgt, hgp⟩ := vtp_setG (s.emptySlots x) x rd v
  obtain ⟨-, hlv, hlt, hlp⟩ : SameRegisters ((s.emptySlots x).setG x rd v) (s.runLeft x rd v) :=
    ((touches_advance _ x 1).then_ (touches_updEx _ x _)).file
  exact ⟨hlv.trans (hgv.trans hv), hlt.trans (hgt.trans ht), hlp.trans (hgp.trans hp)⟩

/-- What a run leaves of its easel. -/
theorem runLeft_leaves {rd : Nat} (hrd : rd ≠ 0) (v : Word) :
    let t := s.runLeft x rd v
    t.gr x rd = v ∧ (t.ex x).run = none ∧ t.pc x = (s.pc x + 1) % 2 ^ 13 ∧ t.est x = s.est x ∧
      t.reg (Reg.easelXtbl x.bay x.easel) = 0 ∧ t.mem = s.mem ∧ t.v = s.v ∧ t.t = s.t ∧ t.p = s.p := by
  have hgr : ∀ {a b : State}, SameRegisters a b → b.gr x rd = a.gr x rd := fun h => by rw [State.gr, h.1, State.gr]
  refine ⟨?_, ?_, ?_, ?_, ?_, (touches_runLeft s x rd v).mem, vtp_runLeft s x rd v⟩
  · rw [State.runLeft, hgr (touches_updEx _ x _).file, hgr (touches_advance _ x 1).file, State.gr_setG_same _ _ hrd]
  · rw [State.runLeft, State.ex_updEx_same]
    rfl
  · rw [State.runLeft, State.pc, (touches_updEx _ x _).fld, ← State.pc, State.pc_advance, State.pc, (touches_setG _ x rd v).fld,
      State.emptySlots, State.fld_setReg_ne _ _ _ (by unfold Reg.easelPc Reg.easelXtbl; omega), (touches_updEx _ x _).fld, State.pc]
  · refine State.fld_of_reg ?_ _
    rw [reg_runLeft s x rd v (by unfold Reg.easelStatus Reg.easelPc; omega), if_neg (by unfold Reg.easelStatus Reg.easelXtbl; omega)]
  · rw [reg_runLeft s x rd v (by unfold Reg.easelXtbl Reg.easelPc; omega), if_pos rfl]

/-- A rank that ends done has its list of bounds in the operand store and no other byte changed. -/
theorem boundsPlaced_places {d : AttnDesc} {r : RunX} {code : Nat} (hr : r.rank = true) (hc : code = cDone) :
    let t := s.boundsPlaced x d r code
    t.bytes (opBase x + d.rank) r.boundList.length = r.boundList ∧ SameMemoryOutside s t (opBase x + d.rank) r.boundList.length := by
  intro t
  have ht : t = s.setBytes (opBase x + d.rank) r.boundList := if_pos ⟨hr, hc⟩
  rw [ht]
  exact ⟨State.bytes_setBytes_same s _ _, fun b hb => State.byte_setBytes_outside s hb⟩

theorem boundsPlaced_not {d : AttnDesc} {r : RunX} {code : Nat} (h : r.rank = false ∨ code ≠ cDone) :
    s.boundsPlaced x d r code = s := if_neg fun ⟨hr, hc⟩ => by
  obtain hn | hn := h
  · rw [hn] at hr
    exact absurd hr (by decide)
  · exact hn hc

end

/-- Settles O26: the start of a run, its end, and its going on with the partner's copy. -/
theorem attentionStepsVisitTheirSheets : Obligations.AttentionStepsVisitTheirSheets := by
  refine ⟨fun x w s u rank => ?_, fun x s d r code hl hrd hstop hx => ?_, fun x s r data hx hr => ⟨fun h => ?_, fun h => ?_⟩⟩
  · intro i off d recd p r hrun hop hd hu first
    have hdesc : attnDesc rank (s.bytes (opBase x + off) 64) = d := rfl
    have hrecd : s.bytes (pfAddr d.pf) 512 = recd := rfl
    clear_value recd d
    have hnext : exec i s = .next (if u.pfCode d.pf p = cDone then State.runGo x d p none (List.range d.n) r first
        else u.runEnd x d { r with rank := false } (u.pfCode d.pf p)) := by
      cases rank with
      | true => exact runForm_next (c := .sketchRank x w) rfl rfl rfl hrun hop hdesc hd hrecd hu
      | false => exact runForm_next (c := .attnStep x w) rfl rfl rfl hrun hop hdesc hd hrecd hu
    refine ⟨fun hc => by rw [hnext, if_pos hc], fun hc r' t hv => ?_, fun hc => by rw [hnext, if_neg hc]⟩
    rw [hnext, if_pos hc, runGo_visitsAll x d p (List.range d.n) r first hv]
  · intro list t
    obtain ⟨hg, hrun, hpc, hest, hxtbl, hmem, hv, htl, hp⟩ := runLeft_leaves (s.boundsPlaced x d r code) x hrd (r.word code)
    have hplaced := touches_boundsPlaced s x d r code
    have ht : t = (s.boundsPlaced x d r code).runLeft x r.rd (r.word code) := by
      refine (runEnd_free s x hl d code).trans (boundary_passes _ x (Eq.trans (State.fld_of_reg ?_ _) hstop))
      rw [reg_runLeft _ x _ _ (by unfold Reg.easelCtrl Reg.easelPc; omega), if_neg (by unfold Reg.easelCtrl Reg.easelXtbl; omega),
        State.reg, hplaced.regs, State.reg]
    rw [ht]
    refine ⟨hg, hrun, hpc.trans ?_, hest.trans (hplaced.fld _ _), hxtbl, fun hr hc => ?_, fun h => ?_, hv.trans hplaced.file.2.1,
      htl.trans hplaced.file.2.2.1, hp.trans hplaced.file.2.2.2⟩
    · rw [State.pc, hplaced.fld, State.pc]
    · obtain ⟨hbytes, hout⟩ := boundsPlaced_places s x (d := d) hr hc
      exact ⟨(congrArg (fun m => SMap.getRange unlistedByte m _ _) hmem).trans hbytes,
        fun a ha => (congrArg (fun m => SMap.get unlistedByte m a) hmem).trans (hout a ha)⟩
    · rw [hmem, boundsPlaced_not s x h]
  · rw [partnerFetchDone_next s x hx hr, if_pos h]
  · rw [partnerFetchDone_next s x hx hr, if_neg (by rw [h]; decide)]

end Sys2Proof.Machine

/-! # Memory operations that complete -/

namespace Sys2Proof.Machine

-- One theorem after another, as in the tests: side by side their stacks ask for more memory than the check allows.
set_option Elab.async false

section

variable (s : State) (x : Ea) (o : OutOp) (part : PartnerCopies)

/-! ## Operations that end with a completion word (R97, R118) -/

/-- A state in which an operation has just ended with a completion word. -/
def Finished (x : Ea) (o : OutOp) (t : State) : Prop := ∃ (u : State) (c k d : Nat), t = u.finish x o (compWord c k d)

variable {x o} in
/-- An operation that has ended has freed its entry, and its completion word stands in its status register. -/
theorem Finished.ends {t : State} (h : Finished x o t) :
    t.entry x o.num = none ∧ (o.rd ≠ 0 → ∃ c k d, t.gr x o.rd = compWord c k d) := by
  obtain ⟨u, c, k, d, rfl⟩ := h
  exact ⟨u.entry_finish x o _, fun hr => ⟨c, k, d, u.gr_finish x o _ hr⟩⟩

theorem finished (c k d : Nat) : Finished x o (s.finish x o (compWord c k d)) := ⟨s, c, k, d, rfl⟩

theorem finished_endLdH : Finished x o (s.endLdH x o part) := by
  unfold State.endLdH
  simp only
  split
  · exact finished s x o _ _ _
  · split
    · exact finished s x o _ _ _
    · split <;> exact finished _ x o _ _ _

theorem finished_endStH : Finished x o (s.endStH x o part) := by
  unfold State.endStH
  simp only
  split
  · exact finished s x o _ _ _
  · split <;> exact finished _ x o _ _ _

theorem finished_endStHTok : Finished x o (s.endStHTok x o part) := by
  unfold State.endStHTok
  simp only
  split <;> exact finished _ x o _ _ _

theorem finished_endFlush : Finished x o (s.endFlush x o) := by
  unfold State.endFlush
  simp only
  split <;> exact finished _ x o _ _ _

theorem finished_endDmaPost : Finished x o (s.endDmaPost x o) := by
  unfold State.endDmaPost
  simp only
  split <;> exact finished _ x o _ _ _

theorem finished_endResume : Finished x o (s.endResume x o) := finished _ x o _ _ _

/-! ## The other ends (R129, R131, R132, R134) -/

/-- An operation of so many bytes touches this many strokes. -/
theorem length_segs (bo len : Nat) : (segs bo len).length = ceilDiv (bo + len) 512 := by rw [segs, List.length_map, List.length_range]

/-- A load of an accepted location ends with its completion word. -/
theorem finished_endLdLoc (hok : s.locOk o.a (segs o.b o.len).length = true) (hreads : s.locReads o.a (o.reaches x (locBay o.a)) = true) :
    Finished x o (s.endLdLoc x o) := by
  unfold State.endLdLoc
  simp only [hok, hreads, Bool.not_true, Bool.or_self, Bool.false_eq_true, if_false]
  split <;> exact finished _ x o _ _ _

/-- A load all of whose strokes pass places their bytes. -/
theorem endLdLoc_places (hok : s.locOk o.a (segs o.b o.len).length = true) (hreads : s.locReads o.a (o.reaches x (locBay o.a)) = true)
    (hall : (s.readLoc o.a (segs o.b o.len)).1.all (·.isSome) = true) : s.endLdLoc x o =
      ((s.readLoc o.a (segs o.b o.len)).2.placeSegs x o.off (segs o.b o.len) (s.readLoc o.a (segs o.b o.len)).1).finish x o
        (compWord cDone o.len 0) := by
  unfold State.endLdLoc
  simp only [hok, hreads, Bool.not_true, Bool.or_self, Bool.false_eq_true, if_false, hall, if_true]

/-- A store to an accepted location outside the flash maps stores what it was issued with. -/
theorem endStLoc_stores (hok : s.locOk o.a (ceilDiv (o.b + o.len) 512) = true) (hmap : ((List.range (ceilDiv (o.b + o.len) 512)).any fun i =>
      locTier o.a == 1 && s.inFlashMap (locBay o.a) (locAddr o.a + i)) = false) :
    s.endStLoc x o part = (s.storeLoc (some x) o.a o.b (s.bytes (opBase x + o.off) o.len) part).2.finish x o
      (compWord (s.storeLoc (some x) o.a o.b (s.bytes (opBase x + o.off) o.len) part).1
        (if (s.storeLoc (some x) o.a o.b (s.bytes (opBase x + o.off) o.len) part).1 = cDone then o.len else 0) 0) := by
  have hno : (locTier o.a == 1 && (List.range (ceilDiv (o.b + o.len) 512)).any fun i => s.inFlashMap (locBay o.a) (locAddr o.a + i)) = false := by
    cases htier : locTier o.a == 1 with
    | true => simpa only [htier, Bool.true_and] using hmap
    | false => rw [Bool.false_and]
  unfold State.endStLoc
  simp only [hok, hno, Bool.not_true, Bool.or_self, Bool.false_eq_true, if_false]

/-- The exception of an operation whose easel has none pending is pending. -/
theorem faults_failOp (code loc : Nat) (h : (s.ex x).faults = []) :
    ((s.failOp x o code loc).ex x).faults = [⟨o.seq, code, o.num, loc⟩] := by
  unfold State.failOp State.addFault
  simp only [State.ex_updEx_same, h]

theorem faults_endLdLoc (hok : s.locOk o.a (segs o.b o.len).length = false) (h : (s.ex x).faults = []) :
    ((s.endLdLoc x o).ex x).faults = [⟨o.seq, 0x05, o.num, o.a⟩] := by
  unfold State.endLdLoc
  simp only [hok, Bool.not_false, Bool.true_or, if_true]
  exact faults_failOp _ x o _ _ (by rw [(touches_undefine s _).ex, h])

theorem faults_endStLoc (hok : s.locOk o.a (ceilDiv (o.b + o.len) 512) = false) (h : (s.ex x).faults = []) :
    ((s.endStLoc x o part).ex x).faults = [⟨o.seq, 0x05, o.num, o.a⟩] := by
  unfold State.endStLoc
  simp only [hok, Bool.not_false, Bool.true_or, if_true]
  exact faults_failOp s x o _ _ h

/-- The engines do not see the state of an easel. -/
theorem engineQ_setEst (n b : Nat) : ((s.setEst x n).bay b).engineQ = (s.bay b).engineQ := by
  unfold State.setEst
  split
  · show ((s.quieten x.bay).bay b).engineQ = _
    rw [State.quieten, State.bay_updBay]
    split
    · next h => rw [h]
    · rfl
  · rfl

theorem engineQ_finish (w : Word) (b : Nat) : ((s.finish x o w).bay b).engineQ = (s.bay b).engineQ := by
  have hfree : ((s.setG x o.rd w).freeEnt x o.num).bay b = s.bay b :=
    ((touches_setG s x o.rd w).then_ (touches_freeEnt _ x o.num)).bay b
  rw [← hfree, State.finish, State.settle]
  split
  · split
    · exact engineQ_setEst _ x _ b
    · rfl
  · rfl

/-- The engine of the bay takes a descriptor while its queue has room. -/
theorem endDmaPost_room (h : (s.bay x.bay).engineQ.length < Config.engineDepth) :
    let t := s.endDmaPost x o
    (o.rd ≠ 0 → t.gr x o.rd = compWord cDone 0 0) ∧
      (t.bay x.bay).engineQ = (s.bay x.bay).engineQ ++ [(List.range 8).map fun i => bitsOf o.a (64 * i) 64] := by
  intro t
  have ht : t = (s.updBay x.bay fun y => { y with
      engineQ := y.engineQ ++ [(List.range 8).map fun i => bitsOf o.a (64 * i) 64] }).finish x o (compWord cDone 0 0) :=
    if_neg (Nat.not_le.2 h)
  rw [ht]
  refine ⟨fun hr => State.gr_finish _ x o _ hr, ?_⟩
  rw [engineQ_finish, State.bay_updBay_same]

theorem endFlush_stacks (h : locTier o.a = 1) (hr : o.rd ≠ 0) : (s.endFlush x o).gr x o.rd = compWord cDone o.b 0 := by
  unfold State.endFlush
  simp only [h, ne_eq, not_true_eq_false, if_false]
  exact State.gr_finish _ x o _ hr

/-! ## The completion by kind (R92, R129) -/

/-- What a memory operation comes to at its count. -/
def State.opEnds (s : State) (x : Ea) (o : OutOp) (part : PartnerCopies) : State :=
  match o.kind with
  | .ldLoc => if o.len = 0 then s.finish x o (compWord cDone 0 0) else s.endLdLoc x o
  | .stLoc => if o.len = 0 then s.finish x o (compWord cDone 0 0) else s.endStLoc x o part
  | .ldH => if o.len = 0 then s.finish x o (compWord cDone 0 0) else s.endLdH x o part
  | .stH => if o.len = 0 then s.finish x o (compWord cDone 0 0) else s.endStH x o part
  | .stHTok => s.endStHTok x o part
  | .flush => s.endFlush x o
  | .dmaPost => s.endDmaPost x o
  | .wrimm | .send | .recv => if 2 ^ 40 ≤ o.a then s.finish x o (compWord (o.a - 2 ^ 40) 0 0) else s
  | .ring => s.endRing x o
  | .resume => s.endResume x o
  | _ => s

variable {s x o} in
theorem memoryOpComplete_next {e : Nat} (hx : x.ok = true) (he : e < 32) (ho : s.entry x e = some o) (hf : o.failed = false)
    (hm : s.mustWait x o = false) (ha : s.opAsleep o = false) (hw : s.windowFull = false) (hl : o.kind.loads = true → s.clockRuns x = true) :
    exec (.memoryOpComplete x e part) s = .next ((s.passTo (s.opDue x o)).opEnds x o part) := by
  have hclock : (o.kind.loads && !s.clockRuns x) = false := by
    cases h : o.kind.loads with
    | true => rw [hl h]; rfl
    | false => rfl
  show execMemoryOpComplete x e part s = _
  rw [execMemoryOpComplete, guarded_next _ _ (by rw [hx, decide_eq_true he]; rfl)]
  simp only [ho, hf, hm, ha, hw, hclock, Bool.and_false, Bool.or_self, Bool.false_eq_true, if_false]
  rfl

/-- An operation by handle, a flush, a DMA.POST and a RESUME end with their completion word. -/
theorem finished_opEnds (hk : o.kind ∈ [OutKind.ldH, .stH, .stHTok, .flush, .dmaPost, .resume]) : Finished x o (s.opEnds x o part) := by
  simp only [List.mem_cons, List.not_mem_nil, or_false] at hk
  unfold State.opEnds
  rcases hk with hk | hk | hk | hk | hk | hk <;> simp only [hk]
  · split
    · exact finished s x o _ _ _
    · exact finished_endLdH s x o part
  · split
    · exact finished s x o _ _ _
    · exact finished_endStH s x o part
  · exact finished_endStHTok s x o part
  · exact finished_endFlush s x o
  · exact finished_endDmaPost s x o
  · exact finished_endResume s x o

theorem opEnds_ldLoc (hk : o.kind = .ldLoc) (hlen : o.len ≠ 0) : s.opEnds x o part = s.endLdLoc x o := by
  unfold State.opEnds
  simp only [hk, hlen, if_false]

theorem opEnds_stLoc (hk : o.kind = .stLoc) (hlen : o.len ≠ 0) : s.opEnds x o part = s.endStLoc x o part := by
  unfold State.opEnds
  simp only [hk, hlen, if_false]

theorem opEnds_dmaPost (hk : o.kind = .dmaPost) : s.opEnds x o part = s.endDmaPost x o := by
  unfold State.opEnds
  simp only [hk]

theorem opEnds_flush (hk : o.kind = .flush) : s.opEnds x o part = s.endFlush x o := by
  unfold State.opEnds
  simp only [hk]

theorem opEnds_ring (hk : o.kind = .ring) : s.opEnds x o part = s.endRing x o := by
  unfold State.opEnds
  simp only [hk]

theorem opEnds_resume (hk : o.kind = .resume) : s.opEnds x o part = s.endResume x o := by
  unfold State.opEnds
  simp only [hk]

/-- A location access of no bytes is done. -/
theorem opEnds_empty (hk : o.kind = .ldLoc ∨ o.kind = .stLoc) (hlen : o.len = 0) :
    s.opEnds x o part = s.finish x o (compWord cDone 0 0) := by
  unfold State.opEnds
  rcases hk with hk | hk <;> simp only [hk, hlen, if_true]

end

/-- Settles O13: the completion of a memory operation by its kind. -/
theorem memoryOperationsComplete : Obligations.MemoryOperationsComplete := by
  intro x e part s o hx he ho hf hm ha hw hl u run sg n ends
  have hrun : run = .next (u.opEnds x o part) := memoryOpComplete_next part hx he ho hf hm ha hw hl
  have hnum : o.num = e := by simpa using List.find?_some ho
  have hends : ∀ {t : State}, Finished x o t → ends t := fun ht => ⟨hnum ▸ ht.ends.1, ht.ends.2⟩
  rw [hrun]
  refine ⟨fun hk => ?_, fun hk hlen hok hreads => ?_, fun hk hlen hok hmap => ?_, fun hk hlen => by rw [opEnds_empty u x o part hk hlen],
    fun hk hlen hok hfaults => ⟨_, rfl, ?_⟩, fun hk hroom => ⟨_, rfl, ?_⟩, fun hk ht hr => ⟨_, rfl, ?_⟩, fun hk => ?_, fun hk => ?_⟩
  · by_cases hring : o.kind = .ring
    · exact ⟨_, rfl, by rw [opEnds_ring u x o part hring, ← hnum]; exact State.entry_finish _ x o 0, fun _ h => absurd hring h⟩
    · obtain ⟨hfree, hword⟩ := hends (finished_opEnds u x o part (by simpa [hring] using hk))
      exact ⟨_, rfl, hfree, fun hr _ => hword hr⟩
  · rw [opEnds_ldLoc u x o part hk hlen]
    exact ⟨⟨_, rfl, hends (finished_endLdLoc u x o hok hreads)⟩, fun hall => by rw [endLdLoc_places u x o hok hreads hall]⟩
  · have hto := (opEnds_stLoc u x o part hk hlen).trans (endStLoc_stores u x o part hok hmap)
    exact ⟨_, rfl, hends (by rw [hto]; exact finished _ x o _ _ _), hto⟩
  · have hnone : (u.ex x).faults = [] := by rw [(touches_passTo s _).ex, hfaults]
    rcases hk with hk | hk
    · rw [opEnds_ldLoc u x o part hk hlen, faults_endLdLoc u x o (by rw [length_segs]; exact hok) hnone, hnum]
    · rw [opEnds_stLoc u x o part hk hlen, faults_endStLoc u x o part hok hnone, hnum]
  · have hbay : u.bay x.bay = s.bay x.bay := (touches_passTo s _).bay _
    rw [opEnds_dmaPost u x o part hk, ← hbay]
    exact endDmaPost_room u x o (by rw [hbay]; exact hroom)
  · rw [opEnds_flush u x o part hk, endFlush_stacks u x o ht hr]
  · have hnode : u.node = s.node := State.fld_passTo s _ _ _ (by decide)
    rw [opEnds_ring u x o part hk, State.endRing, hnode]
  · rw [opEnds_resume u x o part hk, State.endResume]

end Sys2Proof.Machine

/-! # Spare easels -/

namespace Sys2Proof.Machine

-- One theorem after another, as in the tests: side by side their stacks ask for more memory than the check allows.
set_option Elab.async false

section

variable (s : State) (x : Ea)

/-! ## What the report of a spare leaves (R436, R524, R540) -/

theorem repairDue_log (kind unit sub : Nat) (w2 w3 : Word) : (s.log kind unit sub w2 w3).repairDue = s.repairDue := by
  unfold State.log
  simp only
  split <;> rfl

theorem repairDue_fire (b source : Nat) (r : Word) (waiters : Nat) : (s.fire b source r waiters).repairDue = s.repairDue := by
  unfold State.fire
  refine foldl_same (fun u => u.repairDue) (fun u n _ => ?_) s
  show State.repairDue (if _ then _ else u) = u.repairDue
  split
  · unfold State.fireOne
    simp only
    split <;> rfl
  · rfl

/-- A spare's use or want noted for the repair record and logged. -/
def State.spareReported (s : State) (x : Ea) (r : Repair) : State := (s.repairNote r).spareLog x

theorem touches_spareReported (r : Repair) : Touches [.regs, .host] s (s.spareReported x r) :=
  ((touches_repairNote s r).then_ (touches_log _ _ _ _ _ _)).mono (by decide)

theorem repairDue_spareReported (r : Repair) : r ∈ (s.spareReported x r).repairDue := by
  rw [State.spareReported, State.spareLog, repairDue_log, State.repairNote]
  exact List.mem_append_right _ (List.mem_singleton_self r)

theorem fld_spareReported (r : Repair) {o : Nat} (f : Fld) (ho : o ≠ Reg.globalEverr) : (s.spareReported x r).fld o f = s.fld o f := by
  rw [State.spareReported, State.spareLog, State.fld_log _ _ _ _ _ _ _ _ ho, (touches_repairNote s r).fld]

theorem touches_showSpares (b : Nat) : Touches [.regs] s (s.showSpares b) := (touches_setFld s _ _ _).trans (touches_setFld _ _ _ _)

/-- A field of BAY.SPARE besides PHYS and LEFT. -/
theorem fld_showSpares (b : Nat) {f : Fld} (hp : 4 ≤ f.lo) (hl : f.lo + f.w ≤ 19) :
    (s.showSpares b).fld (Reg.baySpare b) f = s.fld (Reg.baySpare b) f := by
  rw [State.showSpares, State.fld_setFld_apart _ _ _ _ _ (by decide) (Or.inr hl),
    State.fld_setFld_apart _ _ _ _ _ (by decide) (Or.inl (show Reg.baySpare_PHYS.lo + Reg.baySpare_PHYS.w ≤ f.lo from hp))]

theorem fld_showSpares_ne (b : Nat) {o : Nat} (f : Fld) (ho : o ≠ Reg.baySpare b) : (s.showSpares b).fld o f = s.fld o f := by
  rw [State.showSpares, State.fld_setFld_ne _ _ _ _ ho, State.fld_setFld_ne _ _ _ _ ho]

/-! ## A physical easel fails (R430, R431) -/

/-- The bay with the physical easel behind a logical one marked failed. -/
def State.physFailed (s : State) (x : Ea) : State := s.updBay x.bay fun y => { y with failedPhys := y.failedPhys ||| 2 ^ s.physOf x }

/-- The logical easel reset and off, until 500 gc after. -/
def State.easelCut (s : State) (x : Ea) : State := ((s.physFailed x).resetEasel x (s.ec + 48000)).setEst x stOff

/-- The logical easel out of service, shown in BAY.SPARE. -/
def State.serviceEnded (s : State) (x : Ea) : State :=
  let t := s.updEx x fun y => { y with failed := true, resetDue := none }
  ((t.setFld (Reg.baySpare x.bay) Reg.baySpare_FAILED (t.fld (Reg.baySpare x.bay) Reg.baySpare_FAILED ||| 2 ^ x.easel)).setFld
    (Reg.baySpare x.bay) Reg.baySpare_EXHEV 1).showSpares x.bay

theorem easelFails_spare {i : Nat} {l : List Nat} (h : (s.physFailed x).idleSpares x.bay = i :: l) :
    s.easelFails x = (s.easelCut x).updEx x fun y => { y with switching := some (s.physOf x, i) } := by
  have h' : (s.updBay x.bay fun y => { y with failedPhys := y.failedPhys ||| 2 ^ s.physOf x }).idleSpares x.bay = i :: l := h
  unfold State.easelFails
  simp only [h']
  rfl

theorem easelFails_none (h : (s.physFailed x).idleSpares x.bay = []) :
    s.easelFails x = ((s.easelCut x).serviceEnded x).spareReported x ⟨1, x.bay, x.easel, s.physOf x⟩ := by
  have h' : (s.updBay x.bay fun y => { y with failedPhys := y.failedPhys ||| 2 ^ s.physOf x }).idleSpares x.bay = [] := h
  unfold State.easelFails
  simp only [h']
  rfl

theorem easelCut_off : (s.easelCut x).est x = stOff := State.est_setEst _ x stOff

theorem resetDue_easelCut (hx : x.ok = true) : ((s.easelCut x).ex x).resetDue = some (s.ec + 48000) := by
  obtain ⟨-, -, -, -, -, hdue⟩ := (s.physFailed x).resetEasel_idle x (s.ec + 48000) hx
  rw [State.easelCut, (touches_setEst _ x stOff).ex, hdue]

/-- What BAY.SPARE and the easel show of an easel out of service. -/
theorem serviceEnded_shows (hx : x.easel < 12) :
    let t := s.serviceEnded x
    t.est x = s.est x ∧ (t.ex x).failed = true ∧ bitOf (t.fld (Reg.baySpare x.bay) Reg.baySpare_FAILED) x.easel = true ∧
      t.fld (Reg.baySpare x.bay) Reg.baySpare_EXHEV = 1 := by
  have hne : Reg.easelStatus x.bay x.easel ≠ Reg.baySpare x.bay := by unfold Reg.easelStatus Reg.baySpare; omega
  simp only [State.serviceEnded]
  refine ⟨?_, ?_, ?_, ?_⟩
  · rw [State.est, fld_showSpares_ne _ _ _ hne, State.fld_setFld_ne _ _ _ _ hne, State.fld_setFld_ne _ _ _ _ hne, (touches_updEx s x _).fld,
      State.est]
  · rw [(touches_showSpares _ _).ex, (touches_setFld _ _ _ _).ex, (touches_setFld _ _ _ _).ex, State.ex_updEx_same]
  · rw [fld_showSpares _ _ (by decide) (by decide), State.fld_setFld_apart _ _ _ _ _ (by decide) (by decide),
      State.fld_setFld_same _ _ _ _ (by decide), bitOf_eq_testBit, show Reg.baySpare_FAILED.w = 12 from rfl, Nat.testBit_mod_two_pow,
      Nat.testBit_or, Nat.testBit_two_pow_self, Bool.or_true, decide_eq_true hx]
    rfl
  · rw [fld_showSpares _ _ (by decide) (by decide), State.fld_setFld_same _ _ _ _ (by decide)]
    rfl

variable {s x} in
theorem easelFailure_next (hx : x.ok = true) : exec (.easelFailure x) s =
    .next (if x.easel < s.easelsPerBay ∧ (s.ex x).failed = false ∧ s.bayUp x.bay = true then s.easelFails x else s) := by
  show execEaselFailure x s = _
  rw [execEaselFailure, guarded_next _ _ hx]
  simp only [Bool.not_eq_eq_eq_not, Bool.not_true]

/-! ## A spare switched in (R101, R430, R436) -/

/-- The logical easel idle on its spare. -/
def State.onSpare (s : State) (x : Ea) (i due : Nat) : State :=
  (((s.passTo due).setFld (Reg.easelStatus x.bay x.easel) Reg.easelStatus_PHYS i).updEx x fun y =>
    { y with resetDue := none, switching := none }).toIdle x

/-- The spare shown in BAY.SPARE. -/
def State.spareUsed (s : State) (b : Nat) : State :=
  ((s.setFld (Reg.baySpare b) Reg.baySpare_USED 1).setFld (Reg.baySpare b) Reg.baySpare_SWEV 1).showSpares b

/-- Exception 0x0D of an easel that has lost its physical easel, logged. -/
def State.lossLogged (s : State) (x : Ea) (phys : Nat) : State :=
  let t := s.setExc x 0x0D 0 0 0 phys 0
  t.log 0x03 x.bay x.easel (t.reg (Reg.easelExc x.bay x.easel)) 0

/-- The spare in use, shown and reported. -/
def State.spareIn (s : State) (x : Ea) (phys i due : Nat) : State :=
  ((((s.onSpare x i due).spareUsed x.bay).lossLogged x phys).spareReported x ⟨0, x.bay, x.easel, i⟩).fire x.bay 0x41
    (BitVec.ofNat 64 (x.easel + 0x0D * 16)) 0

theorem spareSwitchInDone_none (hx : x.ok = true) (h : (s.ex x).switching = none) : exec (.spareSwitchInDone x) s = .next s := by
  show execSpareSwitchInDone x s = _
  rw [execSpareSwitchInDone, guarded_next _ _ hx]
  simp only [h]

theorem spareSwitchInDone_next (hx : x.ok = true) {p i due : Nat} (h : (s.ex x).switching = some (p, i))
    (hd : (s.ex x).resetDue = some due) : exec (.spareSwitchInDone x) s = .next (s.spareIn x p i due) := by
  show execSpareSwitchInDone x s = _
  rw [execSpareSwitchInDone, guarded_next _ _ hx]
  simp only [h, hd]
  rfl

theorem touches_onSpare (i due : Nat) : Touches [.ec, .regs, .easels, .bays] s (s.onSpare x i due) :=
  ((touches_passTo s due).then_ ((touches_setFld _ _ _ _).then_ ((touches_updEx _ x _).then_ (touches_toIdle _ x)))).mono (by decide)

theorem onSpare_idle (i due : Nat) :
    let t := s.onSpare x i due
    t.est x = stIdle ∧ (t.ex x).switching = none ∧ t.fld (Reg.easelStatus x.bay x.easel) Reg.easelStatus_PHYS = i % 16 ∧ due ≤ t.ec := by
  set u := ((s.passTo due).setFld (Reg.easelStatus x.bay x.easel) Reg.easelStatus_PHYS i).updEx x fun y =>
    { y with resetDue := none, switching := none } with hu
  have hidle := touches_toIdle u x
  refine ⟨(toIdle_idle u x).1, ?_, ?_, ?_⟩
  · have hkeep : ((u.toIdle x).ex x).switching = (u.ex x).switching := by
      rw [State.toIdle, State.ex_updEx_same, (touches_setEst _ _ _).ex, (touches_clearStop u x).ex]
      rfl
    exact hkeep.trans (by rw [hu, State.ex_updEx_same])
  · show (u.toIdle x).fld _ _ = _
    rw [State.toIdle, (touches_updEx _ x _).fld, State.setEst, State.fld_setFld_apart _ _ _ _ _ (by decide) (by decide)]
    simp only [show ¬ (stIdle = 5 ∨ stIdle = 6) by decide, if_false]
    rw [State.clearStop, State.fld_setFld_ne _ _ _ _ (by unfold Reg.easelStatus Reg.easelCtrl; omega), hu, (touches_updEx _ x _).fld,
      State.fld_setFld_same _ _ _ _ (by decide)]
    rfl
  · show due ≤ (u.toIdle x).ec
    rw [hidle.ec, hu, (touches_updEx _ x _).ec, (touches_setFld _ _ _ _).ec, State.passTo_ec]
    exact le_max_right _ _

theorem touches_spareUsed (b : Nat) : Touches [.regs] s (s.spareUsed b) :=
  (touches_setFld s _ _ _).trans ((touches_setFld _ _ _ _).trans (touches_showSpares _ _))

theorem fld_spareUsed_ne (b : Nat) {o : Nat} (f : Fld) (ho : o ≠ Reg.baySpare b) : (s.spareUsed b).fld o f = s.fld o f := by
  rw [State.spareUsed, fld_showSpares_ne _ _ _ ho, State.fld_setFld_ne _ _ _ _ ho, State.fld_setFld_ne _ _ _ _ ho]

theorem spareUsed_shows (b : Nat) : (s.spareUsed b).fld (Reg.baySpare b) Reg.baySpare_USED = 1 ∧
    (s.spareUsed b).fld (Reg.baySpare b) Reg.baySpare_SWEV = 1 := by
  refine ⟨?_, ?_⟩
  · rw [State.spareUsed, fld_showSpares _ _ (by decide) (by decide), State.fld_setFld_apart _ _ _ _ _ (by decide) (by decide),
      State.fld_setFld_same _ _ _ _ (by decide)]
    rfl
  · rw [State.spareUsed, fld_showSpares _ _ (by decide) (by decide), State.fld_setFld_same _ _ _ _ (by decide)]
    rfl

theorem touches_lossLogged (phys : Nat) : Touches [.regs, .host] s (s.lossLogged x phys) :=
  ((touches_setExc s x _ _ _ _ _ _).then_ (touches_log _ _ _ _ _ _)).mono (by decide)

theorem fld_lossLogged_ne (phys : Nat) {o : Nat} (f : Fld) (hg : o ≠ Reg.globalEverr) (he : o ≠ Reg.easelExc x.bay x.easel)
    (ha : o ≠ Reg.easelExcaddr x.bay x.easel) : (s.lossLogged x phys).fld o f = s.fld o f := by
  rw [State.lossLogged, State.fld_log _ _ _ _ _ _ _ _ hg, State.setExc, State.fld_setReg_ne _ _ _ ha, State.fld_setReg_ne _ _ _ he]

theorem exc_lossLogged (phys : Nat) : (s.lossLogged x phys).fld (Reg.easelExc x.bay x.easel) Reg.easelExc_CODE = 0x0D := by
  rw [State.lossLogged, State.fld_log _ _ _ _ _ _ _ _ (by unfold Reg.easelExc Reg.globalEverr; omega), State.exc_setExc]
  simp only [bf, bitsOf, Reg.easelExc_CODE, BitVec.toNat_ofNat]
  omega

/-- A field the firing of a bay's bindings and the report of a spare leave. -/
theorem fld_spareIn (phys i due : Nat) {o : Nat} (f : Fld) (ho : OffFiring x.bay o) :
    (s.spareIn x phys i due).fld o f = (((s.onSpare x i due).spareUsed x.bay).lossLogged x phys).fld o f := by
  rw [State.spareIn, State.fld_of_reg (State.reg_fire _ _ _ _ _ ho.2), fld_spareReported _ _ _ _ ho.1]

theorem touches_spareIn (phys i due : Nat) : Touches [.regs, .host, .bays] (s.onSpare x i due) (s.spareIn x phys i due) :=
  ((touches_spareUsed _ x.bay).then_ ((touches_lossLogged _ x phys).then_ ((touches_spareReported _ x _).then_
    (touches_fire _ _ _ _ _)))).mono (by decide)

end

variable (s : State) (x : Ea) in
/-- What a spare switched in comes to. -/
theorem spareIn_shows (_hx : x.easel < 12) (phys i due : Nat) :
    let t := s.spareIn x phys i due
    t.fld (Reg.easelStatus x.bay x.easel) Reg.easelStatus_PHYS = i % 16 ∧ t.fld (Reg.baySpare x.bay) Reg.baySpare_USED = 1 ∧
      t.fld (Reg.baySpare x.bay) Reg.baySpare_SWEV = 1 ∧ ⟨0, x.bay, x.easel, i⟩ ∈ t.repairDue ∧ t.est x = stIdle ∧
      t.fld (Reg.easelExc x.bay x.easel) Reg.easelExc_CODE = 0x0D ∧ (t.ex x).switching = none ∧ due ≤ t.ec ∧
      SameRegisters s t ∧ t.mem = s.mem := by
  intro t
  obtain ⟨hest, hsw, hphys, hdue⟩ := onSpare_idle s x i due
  obtain ⟨hused, hswev⟩ := spareUsed_shows (s.onSpare x i due) x.bay
  have hframe := (touches_onSpare s x i due).then_ (touches_spareIn s x phys i due)
  have hspare := touches_spareIn s x phys i due
  have hstatus : ∀ f, t.fld (Reg.easelStatus x.bay x.easel) f = (s.onSpare x i due).fld (Reg.easelStatus x.bay x.easel) f := fun f => by
    rw [fld_spareIn s x _ _ _ f (by unfold OffFiring Reg.globalEverr Reg.bayBind0 Reg.easelStatus; omega),
      fld_lossLogged_ne _ _ _ _ (by unfold Reg.easelStatus Reg.globalEverr; omega)
      (by unfold Reg.easelStatus Reg.easelExc; omega) (by unfold Reg.easelStatus Reg.easelExcaddr; omega),
      fld_spareUsed_ne _ _ _ (by unfold Reg.easelStatus Reg.baySpare; omega)]
  have hbay : ∀ f, t.fld (Reg.baySpare x.bay) f = ((s.onSpare x i due).spareUsed x.bay).fld (Reg.baySpare x.bay) f := fun f => by
    rw [fld_spareIn s x _ _ _ f (by unfold OffFiring Reg.globalEverr Reg.bayBind0 Reg.baySpare; omega),
      fld_lossLogged_ne _ _ _ _ (by unfold Reg.baySpare Reg.globalEverr; omega)
        (by unfold Reg.baySpare Reg.easelExc; omega) (by unfold Reg.baySpare Reg.easelExcaddr; omega)]
  refine ⟨(hstatus _).trans hphys, (hbay _).trans hused, (hbay _).trans hswev, ?_, (hstatus _).trans hest, ?_, ?_, ?_,
    hframe.file, hframe.mem⟩
  · show _ ∈ (s.spareIn x phys i due).repairDue
    rw [State.spareIn, repairDue_fire]
    exact repairDue_spareReported _ x _
  · exact (fld_spareIn s x _ _ _ _ (by unfold OffFiring Reg.globalEverr Reg.bayBind0 Reg.easelExc; omega)).trans (exc_lossLogged _ x phys)
  · rw [hspare.ex, hsw]
  · rw [hspare.ec]
    exact hdue

/-- Settles O47: the failure of a physical easel with and without a spare, then the switch-in. -/
theorem spareEaselsReplaceFailedOnes : Obligations.SpareEaselsReplaceFailedOnes := by
  intro x s hx phys left fails
  have heasel : x.easel < 12 := by
    simp only [Ea.ok, Bool.and_eq_true, decide_eq_true_eq] at hx
    exact hx.2
  refine ⟨fun h => by rw [easelFailure_next hx, if_neg h], fun i l h hl => ⟨_, by rw [easelFailure_next hx, if_pos h], ?_⟩,
    fun h hl => ⟨_, by rw [easelFailure_next hx, if_pos h], ?_⟩, spareSwitchInDone_none s x hx,
    fun p i due h hd => ⟨_, spareSwitchInDone_next s x hx h hd, spareIn_shows s x heasel p i due⟩⟩
  · rw [easelFails_spare s x hl, State.est, (touches_updEx _ x _).fld, State.ex_updEx_same]
    exact ⟨easelCut_off s x, rfl, resetDue_easelCut s x hx⟩
  · obtain ⟨hest, hfailed, hmask, hev⟩ := serviceEnded_shows (s.easelCut x) x heasel
    have hspare : Reg.baySpare x.bay ≠ Reg.globalEverr := by unfold Reg.baySpare Reg.globalEverr; omega
    rw [easelFails_none s x hl, State.est, fld_spareReported _ x _ _ hspare, fld_spareReported _ x _ _ hspare,
      fld_spareReported _ x _ _ (by unfold Reg.easelStatus Reg.globalEverr; omega), (touches_spareReported _ x _).ex]
    exact ⟨hest.trans (easelCut_off s x), hfailed, hmask, hev, repairDue_spareReported _ x _⟩

end Sys2Proof.Machine

/-! # The mailbox -/

namespace Sys2Proof.Machine

-- One theorem after another, as in the tests: side by side their stacks ask for more memory than the check allows.
set_option Elab.async false

section

variable (s : State) (c : Nat)

/-! ## A request answered (R443, R444) -/

/-- The word of RESP for a code, a length and a detail. -/
def respWord (code len detail : Nat) : Word := BitVec.ofNat 64 (code % 16 + len % 2 ^ 13 * 2 ^ 4 + detail % 2 ^ 32 * 2 ^ 32)

theorem bf_respWord (code len detail : Nat) : bf (respWord code len detail) 0 4 = code % 16 ∧
    bf (respWord code len detail) 4 13 = len % 2 ^ 13 ∧ bf (respWord code len detail) 32 32 = detail % 2 ^ 32 := by
  simp only [respWord, bf, bitsOf, BitVec.toNat_ofNat]
  omega

/-- The answer in RESP, the buffer and STATE. -/
def State.mbxAnswered (s : State) (c code detail : Nat) (resp : List Byte) : State :=
  (((s.setReg (Reg.rotMbxResp c) (respWord code resp.length detail)).setBytes (mbxBase c) resp).setFld (Reg.rotMbxState c)
    Reg.rotMbxState_STATE 3).setFld (Reg.rotMbxState c) Reg.rotMbxState_DONEEV 1

/-- The vector of channel 0 follows its answer (R545). -/
theorem touches_mbxDone_msix (code detail : Nat) (resp : List Byte) :
    Touches [.host, .out] (s.mbxAnswered c code detail resp) (s.mbxDone c code detail resp) :=
  Touches.ite (fun _ => touches_msix _ _ _) fun _ => Touches.refl _ _

theorem touches_mbxAnswered (code detail : Nat) (resp : List Byte) : Touches [.regs, .mem] s (s.mbxAnswered c code detail resp) :=
  ((touches_setReg s _ _).then_ ((touches_setBytes _ _ _).then_ ((touches_setFld _ _ _ _).then_ (touches_setFld _ _ _ _)))).mono
    (by decide)

theorem touches_mbxDone (code detail : Nat) (resp : List Byte) : Touches [.regs, .mem, .host, .out] s (s.mbxDone c code detail resp) :=
  ((touches_mbxAnswered s c code detail resp).then_ (touches_mbxDone_msix s c code detail resp)).mono (by decide)

/-- An answer writes no register but RESP and STATE of its channel. -/
theorem fld_mbxDone (code detail : Nat) (resp : List Byte) {o : Nat} (f : Fld) (hr : o ≠ Reg.rotMbxResp c)
    (hs : o ≠ Reg.rotMbxState c) : (s.mbxDone c code detail resp).fld o f = s.fld o f := by
  rw [(touches_mbxDone_msix s c code detail resp).fld, State.mbxAnswered, State.fld_setFld_ne _ _ _ _ hs, State.fld_setFld_ne _ _ _ _ hs,
    (touches_setBytes _ _ _).fld, State.fld_setReg_ne _ _ _ hr]

theorem resp_mbxDone (code detail : Nat) (resp : List Byte) (f : Fld) :
    (s.mbxDone c code detail resp).fld (Reg.rotMbxResp c) f = bf (respWord code resp.length detail) f.lo f.w := by
  have hne : Reg.rotMbxResp c ≠ Reg.rotMbxState c := by unfold Reg.rotMbxResp Reg.rotMbxState; omega
  rw [(touches_mbxDone_msix s c code detail resp).fld, State.mbxAnswered, State.fld_setFld_ne _ _ _ _ hne, State.fld_setFld_ne _ _ _ _ hne,
    (touches_setBytes _ _ _).fld, State.fld_setReg_same]

/-- The code of an answer stands in STATUS. -/
theorem status_mbxDone {code : Nat} (hc : code < 16) (detail : Nat) (resp : List Byte) :
    (s.mbxDone c code detail resp).fld (Reg.rotMbxResp c) Reg.rotMbxResp_STATUS = code := by
  rw [resp_mbxDone]
  exact (bf_respWord code resp.length detail).1.trans (Nat.mod_eq_of_lt hc)

/-- The channel shows that its request is done. -/
theorem state_mbxDone (code detail : Nat) (resp : List Byte) :
    (s.mbxDone c code detail resp).fld (Reg.rotMbxState c) Reg.rotMbxState_STATE = 3 ∧
      (s.mbxDone c code detail resp).fld (Reg.rotMbxState c) Reg.rotMbxState_DONEEV = 1 := by
  refine ⟨?_, ?_⟩
  · rw [(touches_mbxDone_msix s c code detail resp).fld, State.mbxAnswered, State.fld_setFld_apart _ _ _ _ _ (by decide) (by decide),
      State.fld_setFld_same _ _ _ _ (by decide)]
    rfl
  · rw [(touches_mbxDone_msix s c code detail resp).fld, State.mbxAnswered, State.fld_setFld_same _ _ _ _ (by decide)]
    rfl

/-- The memory after an answer is the memory with the response in the buffer. -/
theorem mem_mbxDone (code detail : Nat) (resp : List Byte) :
    (s.mbxDone c code detail resp).mem = (s.setBytes (mbxBase c) resp).mem := by
  rw [(touches_mbxDone_msix s c code detail resp).mem]
  rfl

theorem bytes_mbxDone (code detail : Nat) (resp : List Byte) : (s.mbxDone c code detail resp).bytes (mbxBase c) resp.length = resp := by
  rw [State.bytes, mem_mbxDone, ← State.bytes, State.bytes_setBytes_same]

theorem memory_mbxDone (code detail : Nat) (resp : List Byte) :
    SameMemoryOutside s (s.mbxDone c code detail resp) (mbxBase c) resp.length := fun b hb => by
  rw [State.byte, mem_mbxDone, ← State.byte, State.byte_setBytes_outside s hb]

/-- An answer without response bytes writes no memory. -/
theorem memory_mbxDone_empty (code detail : Nat) : SameMemory s (s.mbxDone c code detail []) := fun a => by
  rw [State.byte, mem_mbxDone, ← State.byte, State.byte_setBytes_nil]

theorem SameMemory.bytes {s t : State} (h : SameMemory s t) (a n : Nat) : t.bytes a n = s.bytes a n :=
  List.map_congr_left fun i _ => h (a + i)

/-- The request that runs is answered. -/
theorem reqDone_running {k len : Nat} (h : s.rot.running = some (c, k, len)) (code detail : Nat) (resp : List Byte) :
    s.reqDone code detail resp = State.mbxDone { s with rot := { s.rot with running := none } } c code detail resp := by
  rw [State.reqDone, h]

/-- A request that completes leaves its answer and its response bytes. -/
theorem reqDone_answers {s : State} {c k len code : Nat} {detail : Nat} {resp : List Byte} (hr : s.rot.running = some (c, k, len))
    (hcode : code < 16) (hlen : resp.length < 8192) :
    let t := s.reqDone code detail resp
    t.rot = { s.rot with running := none } ∧ t.fld (Reg.rotMbxResp c) Reg.rotMbxResp_STATUS = code ∧
      t.fld (Reg.rotMbxResp c) Reg.rotMbxResp_LEN = resp.length ∧ t.fld (Reg.rotMbxResp c) Reg.rotMbxResp_DETAIL = detail % 2 ^ 32 ∧
      t.bytes (mbxBase c) resp.length = resp ∧ t.fld (Reg.rotMbxState c) Reg.rotMbxState_STATE = 3 ∧
      t.fld (Reg.rotMbxState c) Reg.rotMbxState_DONEEV = 1 ∧ SameRegisters s t ∧ SameMemoryOutside s t (mbxBase c) resp.length := by
  intro t
  have hrot := touches_setRot s { s.rot with running := none }
  have ht : t = State.mbxDone { s with rot := { s.rot with running := none } } c code detail resp := reqDone_running s c hr code detail resp
  set u : State := { s with rot := { s.rot with running := none } } with hu
  have hdone := touches_mbxDone u c code detail resp
  obtain ⟨hstate, hdoneev⟩ := state_mbxDone u c code detail resp
  obtain ⟨-, hl, hd⟩ := bf_respWord code resp.length detail
  rw [ht]
  refine ⟨hdone.rot, status_mbxDone u c hcode detail resp, ?_, ?_, bytes_mbxDone u c code detail resp, hstate, hdoneev,
    (hrot.then_ hdone).file, fun b hb => (memory_mbxDone u c code detail resp b hb).trans ?_⟩
  · rw [resp_mbxDone]
    exact hl.trans (Nat.mod_eq_of_lt hlen)
  · rw [resp_mbxDone]
    exact hd
  · rw [State.byte, hrot.mem, State.byte]

/-! ## A request queued and taken (R443, R445) -/

variable {s c}

theorem mailboxGo_busy (hc : c < 2) (h : s.fld (Reg.rotMbxState c) Reg.rotMbxState_STATE = 1 ∨
    s.fld (Reg.rotMbxState c) Reg.rotMbxState_STATE = 2) :
    exec (.mailboxGo c) s = .next (s.setFld (Reg.rotMbxResp c) Reg.rotMbxResp_STATUS cBusy) := by
  show execMailboxGo c s = _
  rw [execMailboxGo, guarded_next _ _ (decide_eq_true hc), if_pos h]

/-- The channel with its request queued. -/
def State.mbxQueued (s : State) (c : Nat) : State :=
  let t := (s.setFld (Reg.rotMbxState c) Reg.rotMbxState_STATE 1).setFld (Reg.rotMbxCmd c) Reg.rotMbxCmd_GO 1
  { t with rot := { t.rot with queue := t.rot.queue ++ [c] } }

theorem mailboxGo_queues (hc : c < 2) (h1 : s.fld (Reg.rotMbxState c) Reg.rotMbxState_STATE ≠ 1)
    (h2 : s.fld (Reg.rotMbxState c) Reg.rotMbxState_STATE ≠ 2) : exec (.mailboxGo c) s = .next (s.mbxQueued c) := by
  show execMailboxGo c s = _
  rw [execMailboxGo, guarded_next _ _ (decide_eq_true hc), if_neg (by tauto)]
  rfl

theorem mbxQueued_shows (s : State) (c : Nat) :
    let t := s.mbxQueued c
    t.rot = { s.rot with queue := s.rot.queue ++ [c] } ∧ t.fld (Reg.rotMbxState c) Reg.rotMbxState_STATE = 1 ∧
      t.fld (Reg.rotMbxCmd c) Reg.rotMbxCmd_GO = 1 ∧ SameRegisters s t ∧ t.mem = s.mem := by
  set u := (s.setFld (Reg.rotMbxState c) Reg.rotMbxState_STATE 1).setFld (Reg.rotMbxCmd c) Reg.rotMbxCmd_GO 1 with hu
  have hregs : Touches [.regs] s u := (touches_setFld s _ _ _).trans (touches_setFld _ _ _ _)
  have hrot : Touches [.rot] u (s.mbxQueued c) := touches_setRot u _
  have hto : (s.mbxQueued c).rot = { u.rot with queue := u.rot.queue ++ [c] } := rfl
  refine ⟨by rw [hto, hregs.rot], ?_, ?_, (hregs.then_ hrot).file, (hregs.then_ hrot).mem⟩
  · rw [hrot.fld, hu, State.fld_setFld_ne _ _ _ _ (by unfold Reg.rotMbxState Reg.rotMbxCmd; omega), State.fld_setFld_same _ _ _ _ (by decide)]
    rfl
  · rw [hrot.fld, hu, State.fld_setFld_same _ _ _ _ (by decide)]
    rfl

/-- The oldest request off its queue, running as far as its channel shows. -/
def State.mbxTaken (s : State) (c : Nat) (q : List Nat) : State :=
  (State.setFld { s with rot := { s.rot with queue := q, wdog := if s.rot.stopped then s.rot.wdog else 0 } } (Reg.rotMbxCmd c)
    Reg.rotMbxCmd_GO 0).setFld (Reg.rotMbxState c) Reg.rotMbxState_STATE 2

theorem fld_mbxTaken (q : List Nat) {o : Nat} (f : Fld) (hc : o ≠ Reg.rotMbxCmd c) (hs : o ≠ Reg.rotMbxState c) :
    (s.mbxTaken c q).fld o f = s.fld o f := by
  rw [State.mbxTaken, State.fld_setFld_ne _ _ _ _ hs, State.fld_setFld_ne _ _ _ _ hc]
  rfl

/-- Taking a request does not change the code it is turned away with. -/
theorem takeCode_mbxTaken (hc : c < 2) (q : List Nat) (code len : Nat) : (s.mbxTaken c q).takeCode c code len = s.takeCode c code len := by
  have hrec : (s.mbxTaken c q).recovery = s.recovery := by
    rw [State.recovery, fld_mbxTaken q _ (by unfold Reg.rotStatus Reg.rotMbxCmd; omega) (by unfold Reg.rotStatus Reg.rotMbxState; omega),
      State.recovery]
  unfold State.takeCode
  rw [hrec]
  rfl

theorem takeCode_lt (code len : Nat) : s.takeCode c code len < 16 := by
  unfold State.takeCode
  split
  · decide
  · split
    · decide
    · split <;> decide

/-- A request is taken where one waits, the root of trust runs and none is running. -/
theorem mailboxTake_waits (h : s.rot.queue = [] ∨ s.boot.phase ≠ 2 ∨ s.rot.running.isSome = true) : exec .mailboxTake s = .next s := by
  show execMailboxTake s = _
  unfold execMailboxTake
  cases hq : s.rot.queue with
  | nil => rfl
  | cons c q =>
    have hno : s.boot.phase ≠ 2 ∨ s.rot.running.isSome = true := h.resolve_left (by rw [hq]; simp)
    simp only [hno, if_true]

/-- A request that is taken runs, or is answered with the code it is turned away with. -/
theorem mailboxTake_takes {q : List Nat} (hc : c < 2) (hq : s.rot.queue = c :: q) (hp : s.boot.phase = 2) (hr : s.rot.running = none) :
    let code := s.fld (Reg.rotMbxCmd c) Reg.rotMbxCmd_CODE
    let len := s.fld (Reg.rotMbxCmd c) Reg.rotMbxCmd_LEN
    let u := s.mbxTaken c q
    exec .mailboxTake s = .next (if s.takeCode c code len = cDone then { u with rot := { u.rot with running := some (c, code, len) } }
      else u.mbxDone c (s.takeCode c code len) 0 []) := by
  intro code len u
  rw [← takeCode_mbxTaken hc q code len]
  show execMailboxTake s = _
  unfold execMailboxTake
  split
  · next h => exact absurd (hq.symm.trans h) (by simp)
  · next c' q' h =>
    obtain ⟨rfl, rfl⟩ := List.cons.inj (hq.symm.trans h)
    rw [if_neg (by simp [hp, hr])]
    rfl

theorem touches_mbxTaken (q : List Nat) : Touches [.rot, .regs] s (s.mbxTaken c q) :=
  ((touches_setRot s _).then_ ((touches_setFld _ _ _ _).then_ (touches_setFld _ _ _ _))).mono (by decide)

/-- What a taken request shows before it runs or is answered. -/
theorem mbxTaken_shows (q : List Nat) :
    let t := s.mbxTaken c q
    t.rot = { s.rot with queue := q, wdog := if s.rot.stopped then s.rot.wdog else 0 } ∧
      t.fld (Reg.rotMbxCmd c) Reg.rotMbxCmd_GO = 0 ∧ t.fld (Reg.rotMbxState c) Reg.rotMbxState_STATE = 2 := by
  refine ⟨rfl, ?_, State.fld_setFld_same _ _ _ _ (by decide)⟩
  rw [State.mbxTaken, State.fld_setFld_ne _ _ _ _ (by unfold Reg.rotMbxCmd Reg.rotMbxState; omega), State.fld_setFld_same _ _ _ _ (by decide)]
  rfl

/-- What a taken request comes to. -/
theorem mailboxTake_ends {q : List Nat} (hc : c < 2) (hq : s.rot.queue = c :: q) (hp : s.boot.phase = 2) (hr : s.rot.running = none) :
    let code := s.fld (Reg.rotMbxCmd c) Reg.rotMbxCmd_CODE
    let len := s.fld (Reg.rotMbxCmd c) Reg.rotMbxCmd_LEN
    let r := s.takeCode c code len
    ∃ t, exec .mailboxTake s = .next t ∧ t.rot.queue = q ∧ t.fld (Reg.rotMbxCmd c) Reg.rotMbxCmd_GO = 0 ∧
      SameRegisters s t ∧ SameMemory s t ∧ (s.rot.stopped = false → t.rot.wdog = 0) ∧
      (r = cDone → t.rot.running = some (c, code, len) ∧ t.fld (Reg.rotMbxState c) Reg.rotMbxState_STATE = 2) ∧
      (r ≠ cDone → t.rot.running = none ∧ t.fld (Reg.rotMbxState c) Reg.rotMbxState_STATE = 3 ∧
        t.fld (Reg.rotMbxState c) Reg.rotMbxState_DONEEV = 1 ∧ t.fld (Reg.rotMbxResp c) Reg.rotMbxResp_STATUS = r) := by
  intro code len r
  obtain ⟨hrot, hgo, hstate⟩ := mbxTaken_shows (s := s) (c := c) q
  have htaken := touches_mbxTaken (s := s) (c := c) q
  have hmem : SameMemory s (s.mbxTaken c q) := fun a => by rw [State.byte, htaken.mem, State.byte]
  have hwdog : s.rot.stopped = false → (s.mbxTaken c q).rot.wdog = 0 := fun h => by simp [hrot, h]
  have hnext := mailboxTake_takes hc hq hp hr
  by_cases hdone : r = cDone
  · have hrun := touches_setRot (s.mbxTaken c q) { (s.mbxTaken c q).rot with running := some (c, code, len) }
    refine ⟨_, hnext.trans (congrArg _ (if_pos hdone)), congrArg RotX.queue hrot, (hrun.fld _ _).trans hgo, (htaken.then_ hrun).file,
      fun a => ?_, hwdog, fun _ => ⟨rfl, (hrun.fld _ _).trans hstate⟩, fun h => absurd hdone h⟩
    rw [State.byte, hrun.mem]
    exact hmem a
  · have hanswer := touches_mbxDone (s.mbxTaken c q) c r 0 []
    obtain ⟨h3, hdoneev⟩ := state_mbxDone (s.mbxTaken c q) c r 0 []
    refine ⟨_, hnext.trans (congrArg _ (if_neg hdone)), ?_, ?_, (htaken.then_ hanswer).file,
      fun a => (memory_mbxDone_empty _ c r 0 a).trans (hmem a), fun h => ?_, fun h => absurd h hdone, fun _ => ⟨?_, h3, hdoneev, ?_⟩⟩
    · rw [hanswer.rot, hrot]
    · rw [fld_mbxDone _ c r 0 [] _ (by unfold Reg.rotMbxCmd Reg.rotMbxResp; omega) (by unfold Reg.rotMbxCmd Reg.rotMbxState; omega), hgo]
    · rw [hanswer.rot, hwdog h]
    · rw [hanswer.rot, hrot, hr]
    · exact status_mbxDone _ c (takeCode_lt _ _) 0 []

/-! ## The commands (R445 to R447, R466) -/

/-- A command that runs gets its request's bytes, and any other changes nothing. -/
theorem onReq_row {code : Nat} {i : Instr} {f : List Byte → State} (h : exec i s = .next (s.onReq code f)) :
    (∀ c len, s.rot.running = some (c, code, len) → exec i s = .next (f (s.bytes (mbxBase c) len))) ∧
    ((∀ c len, s.rot.running ≠ some (c, code, len)) → exec i s = .next s) := by
  rw [h, State.onReq]
  refine ⟨fun c len hr => by simp only [hr, if_true], fun hno => ?_⟩
  cases hr : s.rot.running with
  | none => rfl
  | some r =>
    obtain ⟨c, k, len⟩ := r
    have hk : k ≠ code := fun hk => hno c len (by rw [hr, hk])
    simp only [hk, if_false]

/-- An FW.WRITE that runs, with the bytes it writes past the offset. -/
theorem fwWrite_next {len : Nat} (hr : s.rot.running = some (c, 0x40, len)) :
    let rq := s.bytes (mbxBase c) len
    let off := leAt rq 0 4
    let u := s.setFld Reg.rotStatus Reg.rotStatus_STAGED 0
    exec .fwWrite s = .next (if bankSize < off + (len - 4) then u.reqDone cShape 0 []
      else (u.setBytes (bankBase s.spareBank + off) (rq.drop 4)).reqDone cDone 0 []) := by
  intro rq off u
  rw [(onReq_row (i := .fwWrite) rfl).1 c len hr]
  simp only [State.length_bytes]
  rfl

/-- What an answer without response bytes leaves of the answered request, wherever STAGED stood clear. -/
theorem reqDone_empty {u : State} {k len code : Nat} (hr : u.rot.running = some (c, k, len)) (_hc : c < 2) (hcode : code < 16)
    (hst : u.fld Reg.rotStatus Reg.rotStatus_STAGED = 0) :
    let t := u.reqDone code 0 []
    t.fld Reg.rotStatus Reg.rotStatus_STAGED = 0 ∧ t.rot = { u.rot with running := none } ∧ SameRegisters u t ∧
      t.fld (Reg.rotMbxResp c) Reg.rotMbxResp_STATUS = code ∧ SameMemory u t := by
  intro t
  have ht : t = State.mbxDone { u with rot := { u.rot with running := none } } c code 0 [] := reqDone_running u c hr code 0 []
  have hrot := touches_setRot u { u.rot with running := none }
  have hframe := touches_mbxDone { u with rot := { u.rot with running := none } } c code 0 []
  rw [ht]
  refine ⟨?_, hframe.rot, (hrot.then_ hframe).file, status_mbxDone _ c hcode 0 [], memory_mbxDone_empty _ c code 0⟩
  rw [fld_mbxDone _ c code 0 [] _ (by unfold Reg.rotStatus Reg.rotMbxResp; omega) (by unfold Reg.rotStatus Reg.rotMbxState; omega)]
  exact hst

/-- FW.WRITE clears STAGED, and writes the bank that is not active or answers shape past its end (R466). -/
theorem fwWrite_writes {len : Nat} (hc : c < 2) (hr : s.rot.running = some (c, 0x40, len)) :
    let rq := s.bytes (mbxBase c) len
    let off := leAt rq 0 4
    let a := bankBase s.spareBank + off
    ∃ t, exec .fwWrite s = .next t ∧ t.fld Reg.rotStatus Reg.rotStatus_STAGED = 0 ∧ t.rot = { s.rot with running := none } ∧
      SameRegisters s t ∧
      (bankSize < off + (len - 4) → t.fld (Reg.rotMbxResp c) Reg.rotMbxResp_STATUS = cShape ∧ SameMemory s t) ∧
      (off + (len - 4) ≤ bankSize → t.fld (Reg.rotMbxResp c) Reg.rotMbxResp_STATUS = cDone ∧
        t.bytes a (len - 4) = rq.drop 4 ∧ SameMemoryOutside s t a (len - 4)) := by
  intro rq off a
  have hnext := fwWrite_next hr
  have hclear : (s.setFld Reg.rotStatus Reg.rotStatus_STAGED 0).fld Reg.rotStatus Reg.rotStatus_STAGED = 0 :=
    State.fld_setFld_same _ _ _ _ (by decide)
  have hlen : (rq.drop 4).length = len - 4 := by rw [List.length_drop, State.length_bytes]
  by_cases hpast : bankSize < off + (len - 4)
  · obtain ⟨hstaged, hrot, hfile, hstatus, hmem⟩ := reqDone_empty (u := s.setFld Reg.rotStatus Reg.rotStatus_STAGED 0) hr hc
      (show cShape < 16 by decide) hclear
    exact ⟨_, hnext.trans (congrArg _ (if_pos hpast)), hstaged, hrot, hfile, fun _ => ⟨hstatus, hmem⟩, fun h => absurd hpast (Nat.not_lt.2 h)⟩
  · obtain ⟨hstaged, hrot, hfile, hstatus, hmem⟩ := reqDone_empty
      (u := (s.setFld Reg.rotStatus Reg.rotStatus_STAGED 0).setBytes a (rq.drop 4)) hr hc (show cDone < 16 by decide) hclear
    refine ⟨_, hnext.trans (congrArg _ (if_neg hpast)), hstaged, hrot, hfile, fun h => absurd h hpast, fun _ => ⟨hstatus, ?_, fun b hb => ?_⟩⟩
    · rw [← hlen]
      exact (hmem.bytes a _).trans (State.bytes_setBytes_same _ a _)
    · refine (hmem b).trans (State.byte_setBytes_outside _ ?_)
      rw [hlen]
      exact hb

end

/-- Settles O48: a request queued, taken and answered, then the commands row by row. -/
theorem mailboxRequestsAreQueuedTakenAndAnswered : Obligations.MailboxRequestsAreQueuedTakenAndAnswered := by
  refine ⟨fun c s hc => ⟨fun h => ⟨_, mailboxGo_busy hc h, State.fld_setFld_same _ _ _ _ (by decide), rfl, (touches_setFld s _ _ _).file, rfl⟩,
      fun h1 h2 => ⟨_, mailboxGo_queues hc h1 h2, mbxQueued_shows s c⟩⟩,
    fun s => ⟨mailboxTake_waits, fun c q hc hq hp hr => mailboxTake_ends hc hq hp hr⟩,
    fun c k len code detail resp s hc hr hcode hlen => ?_,
    fun s => ⟨(onReq_row (s := s) (i := .idGet) rfl :), (onReq_row (s := s) (i := .attest) rfl :),
      (onReq_row (s := s) (i := .keyQuery) rfl :), (onReq_row (s := s) (i := .digestReg) rfl :),
      (onReq_row (s := s) (i := .digestDereg) rfl :), (onReq_row (s := s) (i := .recover) rfl :),
      fun c len hc hr => fwWrite_writes hc hr⟩⟩
  exact reqDone_answers hr hcode hlen

end Sys2Proof.Machine

/-! # The vector instructions -/

namespace Sys2Proof.Machine

-- One theorem after another, as in the tests: side by side their stacks ask for more memory than the check allows.
set_option Elab.async false

/-! ## Lanes -/

/-- A code read back from a list of packed codes. -/
theorem bitsOf_packCodes (w : Nat) {l : List Nat} : ∀ {k : Nat} (hk : k < l.length), bitsOf (packCodes w l) (w * k) w = l[k] % 2 ^ w := by
  induction l with
  | nil => exact fun hk => absurd hk (Nat.not_lt_zero _)
  | cons c cs ih =>
    intro k hk
    cases k with
    | zero => rw [packCodes, bitsOf, Nat.mul_zero, pow_zero, Nat.div_one, Nat.add_mul_mod_self_left, Nat.mod_mod, List.getElem_cons_zero]
    | succ k =>
      have hpos := Nat.two_pow_pos w
      have htail : packCodes w (c :: cs) / 2 ^ w = packCodes w cs := by
        rw [packCodes, Nat.add_mul_div_left _ _ hpos, Nat.div_eq_of_lt (Nat.mod_lt _ hpos), Nat.zero_add]
      rw [bitsOf, Nat.mul_succ, Nat.add_comm, Nat.pow_add, ← Nat.div_div_eq_div_mul, htail, List.getElem_cons_succ]
      exact ih (Nat.lt_of_succ_lt_succ hk)

theorem packCodes_lt (w : Nat) (l : List Nat) : packCodes w l < 2 ^ (w * l.length) := by
  induction l with
  | nil => exact Nat.two_pow_pos _
  | cons c cs ih =>
    have hc := Nat.mod_lt c (Nat.two_pow_pos w)
    have htail := Nat.mul_le_mul_left (2 ^ w) (Nat.succ_le_of_lt ih)
    rw [packCodes, List.length_cons, Nat.mul_succ, Nat.add_comm (w * cs.length), Nat.pow_add]
    rw [Nat.mul_succ] at htail
    omega

/-- A vector just wide enough holds its packed codes whole. -/
theorem toNat_packCodes (w : Nat) (l : List Nat) {n : Nat} (hn : w * l.length = n) : (BitVec.ofNat n (packCodes w l)).toNat = packCodes w l := by
  subst hn
  rw [BitVec.toNat_ofNat, Nat.mod_eq_of_lt (packCodes_lt w l)]

theorem lane_lt (v : Vec) (k : Nat) : lane v k < 2 ^ 32 := Nat.mod_lt _ (Nat.two_pow_pos 32)

/-- A lane of the vector that a list of 128 lanes makes. -/
theorem lane_ofLanes {l : List Nat} (hl : l.length = 128) {k : Nat} (hk : k < l.length) : lane (ofLanes l) k = l[k] % 2 ^ 32 := by
  rw [lane, bf, ofLanes, toNat_packCodes 32 l (by rw [hl]), bitsOf_packCodes]

/-- A lane of the vector that a function of the lane's number makes. -/
theorem lane_ofLanes_range (f : Nat → Nat) {k : Nat} (hk : k < 128) : lane (ofLanes ((List.range 128).map f)) k = f k % 2 ^ 32 := by
  rw [lane_ofLanes (by simp) (by simpa using hk), List.getElem_map, List.getElem_range]

/-- A lane of a vector merged under a guard (R114). -/
theorem lane_mergeLanes (g : BitVec 128) (old new : Vec) {k : Nat} (hk : k < 128) :
    lane (mergeLanes g old new) k = if g.getLsbD k then lane new k else lane old k := by
  rw [mergeLanes, lane_ofLanes_range _ hk]
  split
  · exact Nat.mod_eq_of_lt (lane_lt new k)
  · exact Nat.mod_eq_of_lt (lane_lt old k)

/-- Lanes combined two by two (R121). -/
theorem lane_zipWith (f : Nat → Nat → Nat) (a b : Vec) {k : Nat} (hk : k < 128) :
    lane (ofLanes (List.zipWith f (lanes a) (lanes b))) k = f (lane a k) (lane b k) % 2 ^ 32 := by
  rw [lane_ofLanes (by simp [lanes]) (by simpa [lanes] using hk)]
  simp [lanes]

/-- Lanes mapped one by one (R121). -/
theorem lane_map (f : Nat → Nat) (a : Vec) {k : Nat} (hk : k < 128) : lane (ofLanes ((lanes a).map f)) k = f (lane a k) % 2 ^ 32 := by
  rw [lane_ofLanes (by simp [lanes]) (by simpa [lanes] using hk)]
  simp [lanes]

/-! ## What the rows do -/

section

variable {s : State} {x : Ea} {w : Word} {c : Instr}

/-- A row that writes the guarded lanes of a vector to vD (R114). -/
theorem putV_sets {new : Vec} (h : exec c s = .next ((s.putV x w new).advance x 1)) {f : Nat → Nat}
    (hf : ∀ k, k < 128 → lane new k = f k % 2 ^ 32) :
    ∃ v : Vec, exec c s = .next ((s.setV x (rdOf w) v).advance x 1) ∧
      ∀ k, k < 128 → lane v k = if (s.pr x (pgOf w)).getLsbD k then f k % 2 ^ 32 else lane (s.vr x (rdOf w)) k :=
  ⟨_, h, fun k hk => by rw [lane_mergeLanes _ _ _ hk, hf k hk]⟩

/-- A row of two sources combines their lanes (R121). -/
theorem vec2_sets {opc fn : Nat} {f : Nat → Nat → Nat} (hi : c.issued = some (x, w, { sh := shR .v .v .v .z, vec := true }))
    (hw : c.wf = (x.ok && opIs w opc fn)) (he : exec c s = vec2 opc fn f x w s) (hr : runs c s = true) :
    ∃ v : Vec, exec c s = .next ((s.setV x (rdOf w) v).advance x 1) ∧ ∀ k, k < 128 → lane v k =
      if (s.pr x (pgOf w)).getLsbD k then f (lane (s.vr x (raOf w)) k) (lane (s.vr x (rbOf w)) k) % 2 ^ 32
      else lane (s.vr x (rdOf w)) k :=
  putV_sets (runs_next s x w _ _ c hi hw he hr) fun _ hk => lane_zipWith f _ _ hk

/-- A row of one source maps its lanes (R121). -/
theorem vec1_sets {opc fn : Nat} {f : Nat → Nat} (hi : c.issued = some (x, w, { sh := shR .v .v .z .z, vec := true }))
    (hw : c.wf = (x.ok && opIs w opc fn)) (he : exec c s = vec1 opc fn f x w s) (hr : runs c s = true) :
    ∃ v : Vec, exec c s = .next ((s.setV x (rdOf w) v).advance x 1) ∧ ∀ k, k < 128 → lane v k =
      if (s.pr x (pgOf w)).getLsbD k then f (lane (s.vr x (raOf w)) k) % 2 ^ 32 else lane (s.vr x (rdOf w)) k :=
  putV_sets (runs_next s x w _ _ c hi hw he hr) fun _ hk => lane_map f _ hk

/-- A reduction row writes what its tree comes to over the guarded lanes, or a free value where it has none (R121). -/
theorem vred_reduces {fn : Nat} {f : Nat → Nat → Nat} (hi : c.issued = some (x, w, { sh := shR .g .v .z .z, vec := true }))
    (hw : c.wf = (x.ok && opIs w 0x22 fn)) (he : exec c s = vred fn f x w s) (hr : runs c s = true) :
    let sel := (List.range 128).map fun k => if (s.pr x (pgOf w)).getLsbD k then some (lane (s.vr x (raOf w)) k) else none
    (∀ r, reduceTree f 7 sel = some r → exec c s = .next ((s.setG x (rdOf w) (BitVec.ofNat 64 (canonNan r))).advance x 1)) ∧
    (reduceTree f 7 sel = none →
      exec c s = .next ((s.draw.2.setG x (rdOf w) (BitVec.ofNat 64 (s.draw.1 % 2 ^ 32))).advance x 1)) := by
  intro sel
  have hnext := runs_next s x w _ _ c hi hw he hr
  refine ⟨fun r hred => ?_, fun hred => ?_⟩
  · simpa only [sel, hred, Res.land] using hnext
  · simpa only [sel, hred, Res.land] using hnext

/-- A compare row writes the guarded lanes of pD (R121). -/
theorem vcmp_compares {fn : Nat} {r : Fp → Fp → Bool} (hi : c.issued = some (x, w, { sh := shR .p .v .v .z, vec := true }))
    (hw : c.wf = (x.ok && opIs w 0x23 fn)) (he : exec c s = vcmp fn r x w s) (hr : runs c s = true) :
    exec c s = .next ((s.setP x (rdOf w) ((s.pr x (rdOf w) &&& ~~~s.pr x (pgOf w)) |||
      (relLanes r (s.vr x (raOf w)) (s.vr x (rbOf w)) &&& s.pr x (pgOf w)))).advance x 1) :=
  runs_next s x w _ _ c hi hw he hr

/-- A bit of SUB is the bit of the word. -/
theorem bitOf_subOf (w : Word) {i : Nat} (hi : i < 25) : bitOf (subOf w) i = w.getLsbD i := by
  rw [bitOf_eq_testBit, subOf, bf_low, Nat.testBit_mod_two_pow, decide_eq_true hi, Bool.true_and]
  rfl

end

/-- Settles O7: each row writes the guarded lanes of vD, so it is enough to say what a lane of its result is. -/
theorem vectorArithmeticWritesGuardedLanes : Obligations.VectorArithmeticWritesGuardedLanes := by
  intro x w s
  refine ⟨fun hr => vec2_sets rfl rfl rfl hr, fun hr => vec2_sets rfl rfl rfl hr, fun hr => vec2_sets rfl rfl rfl hr,
    fun hr => vec2_sets rfl rfl rfl hr, fun hr => vec2_sets rfl rfl rfl hr, fun hr => ?_, fun hr => vec1_sets rfl rfl rfl hr,
    fun hr => vec1_sets rfl rfl rfl hr, fun hr => vec1_sets rfl rfl rfl hr, fun hr => ?_, fun hr => ?_⟩
  · exact putV_sets (runs_next s x w _ _ (.vfma x w) rfl rfl rfl hr) fun k hk => lane_ofLanes_range _ hk
  · refine putV_sets (runs_next s x w _ _ (.vbcast x w) rfl rfl rfl hr) fun k hk => ?_
    rw [lane_ofLanes List.length_replicate (by simpa using hk), List.getElem_replicate, bf_low, Nat.mod_mod]
  · refine putV_sets (runs_next s x w _ _ (.vsel x w) rfl rfl rfl hr) fun k hk => ?_
    rw [lane_mergeLanes _ _ _ hk, Nat.mod_eq_of_lt]
    split <;> exact lane_lt _ _

/-- Settles O8: the reductions and the compares row by row, then VEXT, and VCVT by its two bits of SUB. -/
theorem reductionsComparesAndConversions : Obligations.ReductionsComparesAndConversions := by
  refine ⟨fun x w s => ?_, fun x w s hr => ?_⟩
  · refine ⟨fun hr => vred_reduces rfl rfl rfl hr, fun hr => vred_reduces rfl rfl rfl hr, fun hr => vred_reduces rfl rfl rfl hr,
      fun hr => vcmp_compares rfl rfl rfl hr, fun hr => vcmp_compares rfl rfl rfl hr, fun hr => vcmp_compares rfl rfl rfl hr, fun hr => ?_⟩
    have hnext := runs_next s x w _ _ (.vext x w) rfl rfl rfl hr
    rwa [bf_low] at hnext
  · intro v sd str sc
    rw [runs_next s x w _ _ (.vcvt x w) rfl rfl rfl hr, bitOf_subOf w (by decide), bitOf_subOf w (by decide)]
    by_cases hup : w.getLsbD 0 = true
    · rw [if_pos hup, if_pos hup, Res.land]
    · by_cases hrand : w.getLsbD 1 = true
      · rw [if_neg hup, if_neg hup, if_pos hrand, if_pos hrand, Res.land]
      · rw [if_neg hup, if_neg hup, if_neg hrand, if_neg hrand, Res.land]

end Sys2Proof.Machine

/-! # The matrix unit and the expander -/

namespace Sys2Proof.Machine

-- One theorem after another, as in the tests: side by side their stacks ask for more memory than the check allows.
set_option Elab.async false

section

variable (s : State) (x : Ea)

@[simp] theorem State.tr_setT_same (r : Nat) (v : Tile) : (s.setT x r v).tr x r = v := by simp [State.tr, State.setT]

theorem State.tr_of_same {s t : State} (h : t.t = s.t) (x : Ea) (r : Nat) : t.tr x r = s.tr x r := by rw [State.tr, h, State.tr]

/-! ## The matrix unit (R124, R125) -/

/-- A started MMA: the unit is busy for 128 ec with its tiles in use, its result stands in tD and nothing else of the registers or the
memory has changed. -/
theorem mmaBegin_begins (w : Word) (va vb : Vec) :
    ((s.mmaBegin x w va vb).ex x).mmaBusy = s.ec + 128 ∧ ((s.mmaBegin x w va vb).ex x).mmaTiles = [rdOf w, raOf w, rbOf w] ∧
      ((s.mmaBegin x w va vb).ex x).mmaQ = (s.ex x).mmaQ ∧
      (s.mmaBegin x w va vb).tr x (rdOf w) =
        mmaTile (fnOf w) (s.tr x (rdOf w)).toNat (s.tr x (raOf w)).toNat (s.tr x (rbOf w)).toNat va.toNat vb.toNat ∧
      (s.mmaBegin x w va vb).g = s.g ∧ (s.mmaBegin x w va vb).v = s.v ∧ (s.mmaBegin x w va vb).p = s.p ∧
      (s.mmaBegin x w va vb).mem = s.mem := by
  rw [State.mmaBegin, State.ex_updEx_same]
  exact ⟨rfl, rfl, rfl, State.tr_setT_same s x _ _, rfl, rfl, rfl, rfl⟩

variable {s x} {w : Word}

/-- MMA by the state of its unit: it stalls on an awaited tile or a taken queue, starts on a free unit, else waits (R125). -/
theorem mma_next (hr : runs (.mma x w) s = true) : exec (.mma x w) s = .next (
    if ([rdOf w, raOf w, rbOf w].any fun t => ((s.ex x).expQ.map (·.1)).contains t) = true ∨ (s.ex x).mmaQ.isSome = true then s
    else if (s.ex x).mmaBusy ≤ s.ec then (s.mmaBegin x w (s.vr x (rcOf w)) (s.vr x (rcOf w + 1))).advance x 1
    else (s.updEx x fun y => { y with mmaQ := some (w, s.vr x (rcOf w), s.vr x (rcOf w + 1)) }).advance x 1) := by
  rw [runs_next s x w _ _ (.mma x w) rfl rfl rfl hr]
  by_cases hawait : ([rdOf w, raOf w, rbOf w].any fun t => ((s.ex x).expQ.map (·.1)).contains t) = true
  · rw [if_pos hawait, if_pos (Or.inl hawait), Res.land]
  · by_cases hq : (s.ex x).mmaQ.isSome = true
    · rw [if_neg hawait, if_pos hq, if_pos (Or.inr hq), Res.land]
    · rw [if_neg hawait, if_neg hq, if_neg (not_or.2 ⟨hawait, hq⟩)]
      by_cases hfree : (s.ex x).mmaBusy ≤ s.ec
      · rw [if_pos hfree, if_pos hfree, Res.land]
      · rw [if_neg hfree, if_neg hfree, Res.land]

/-- The waiting MMA starts when its unit frees (R125). -/
theorem mmaStart_next (hx : x.ok = true) {va vb : Vec} (hq : (s.ex x).mmaQ = some (w, va, vb)) : exec (.mmaStart x) s =
    .next (((s.passTo (s.ex x).mmaBusy).updEx x fun y => { y with mmaQ := none }).mmaBegin x w va vb) := by
  show execMmaStart x s = _
  rw [execMmaStart, guarded_next s _ hx]
  simp only [hq]

/-! ## A damaged block behind an earlier fault (R154, R176) -/

/-- A fault behind a pending one, of an operation that has no failed entry, is lost. -/
theorem addFault_behind {f g : ImpFault} (hf : (s.ex x).faults = [g]) (hseq : g.seq ≤ f.seq)
    (hout : (s.ex x).outst = []) : s.addFault x f = s := by
  unfold State.addFault
  simp only [hf, Nat.not_lt.2 hseq, false_and, if_false]
  unfold State.lateFault
  simp only [hout, List.find?_nil]

@[simp] theorem State.ex_setXtbl (slot tid : Nat) : (s.setXtbl x slot tid).ex x = s.ex x := rfl

/-- An EXPAND of a damaged block that starts while the fault of an earlier operation is pending leaves that fault as it is: of the
imprecise exceptions only the first in program order stays pending. -/
theorem faults_expandBegin_behind {td off cause : Nat} {bs : List Byte} (hb : expandBlock (s.ex x).slots bs = .damaged cause)
    {g : ImpFault} (hf : (s.ex x).faults = [g]) (hseq : g.seq ≤ (s.ex x).opSeq) (hout : (s.ex x).outst = []) :
    ((s.expandBegin x td off bs).ex x).faults = [g] := by
  unfold State.expandBegin
  have hslots : EaselX.slots ((s.updEx x fun y => { y with expBusy := s.ec + ceilDiv (blockHdr bs).clen 64 }).ex x) = (s.ex x).slots := by
    rw [State.ex_updEx_same]
    rfl
  simp only [hslots, hb]
  split
  · rw [addFault_behind (g := g)] <;> simp [State.setSlot, hf, hseq, hout]
  · rw [addFault_behind (g := g)] <;> simp [hf, hseq, hout]

end

/-- The reset state with the fault of easel 0's first operation pending, of a location that could not be used (R100). -/
def State.locFaultPending : State :=
  State.reset.updEx ⟨0, 0⟩ fun y => { y with opSeq := 1, faults := [{ seq := 0, code := 0x05, info := 0, loc := 0 }] }

/-- Refutes O11: behind the pending fault 0x05 of an earlier operation, an EXPAND of the damaged block at byte 0 of the operand store
leaves no exception 0x08 pending. -/
theorem not_expanderDecodesItsBlock : ¬ Obligations.ExpanderDecodesItsBlock := by
  intro h
  have hdamaged : expandBlock (State.locFaultPending.ex ⟨0, 0⟩).slots (State.locFaultPending.bytes (opBase ⟨0, 0⟩) 32) = .damaged 0 := by
    decide +kernel
  obtain ⟨-, -, -, -, -, hend⟩ := h ⟨0, 0⟩ 0 State.locFaultPending
  have hlast := (hend 0 0 hdamaged).2
  have hkept : ∀ off bs, expandBlock (State.locFaultPending.ex ⟨0, 0⟩).slots bs = .damaged 0 →
      ((State.locFaultPending.expandBegin ⟨0, 0⟩ 0 off bs).ex ⟨0, 0⟩).faults = [{ seq := 0, code := 0x05, info := 0, loc := 0 }] :=
    fun off bs hb => faults_expandBegin_behind hb rfl (by decide) rfl
  rw [hkept _ _ (by exact hdamaged)] at hlast
  exact absurd hlast (by decide)

/-- Settles O10: MMA by the state of its unit, MMA_START through the state in which the unit is free. -/
theorem matrixUnitAccumulates : Obligations.MatrixUnitAccumulates := by
  intro x w s
  refine ⟨fun hr => ?_, fun va vb hx hq hbusy => ?_, fun hr => runs_next s x w _ _ (.tzero x w) rfl rfl rfl hr⟩
  · intro y awaited start
    rw [mma_next hr]
    refine ⟨fun h => by rw [if_pos h], fun ha hq hfree => ?_, fun ha hq hbusy => ?_⟩
    · rw [if_neg (by simp [awaited, y] at ha hq; simp [ha, hq]), if_pos hfree]
      rfl
    · rw [if_neg (by simp [awaited, y] at ha hq; simp [ha, hq]), if_neg (Nat.not_le.2 hbusy)]
  · have htime := touches_passTo s (s.ex x).mmaBusy
    have hec : (s.passTo (s.ex x).mmaBusy).ec = (s.ex x).mmaBusy := by rw [State.passTo_ec, Nat.max_eq_right hbusy]
    obtain ⟨hg, hv, ht, hp⟩ := htime.file
    obtain ⟨busy, tiles, queue, result, g, v, p, mem⟩ :=
      mmaBegin_begins ((s.passTo (s.ex x).mmaBusy).updEx x fun y => { y with mmaQ := none }) x w va vb
    refine ⟨_, mmaStart_next hx hq, ?_, busy.trans (congrArg (· + 128) hec), tiles, ?_, g.trans hg, v.trans hv, p.trans hp, mem.trans htime.mem⟩
    · rw [queue, State.ex_updEx_same]
    · have htile : ∀ r, State.tr ((s.passTo (s.ex x).mmaBusy).updEx x fun y => { y with mmaQ := none }) x r = s.tr x r :=
        fun r => State.tr_of_same ht x r
      rw [result, htile, htile, htile]

end Sys2Proof.Machine

/-! # Glazing -/

namespace Sys2Proof.Machine

-- One theorem after another, as in the tests: side by side their stacks ask for more memory than the check allows.
set_option Elab.async false

section

variable {s : State} {x : Ea} {w : Word}

/-- A range that passes its check is aligned. -/
theorem aligned_of_opCheck {a len align : Nat} (h : opCheck (a : Int) len align = none) : a % align = 0 := by
  by_contra hne
  have hz : (a : Int) % align ≠ 0 := by exact_mod_cast hne
  rw [opCheck_misaligned hz] at h
  exact Option.some_ne_none _ h

/-- GLAZE on a misaligned first wash (R572). -/
theorem glaze_misaligned (hr : runs (.glaze x w) s = true) (hd : (s.gr x (rdOf w)).toNat % 32 ≠ 0) :
    exec (.glaze x w) s = .next (s.raise x true 0x04 0 (s.gr x (rdOf w)).toNat) := by
  rw [runs_next s x w _ _ (.glaze x w) rfl rfl rfl hr]
  simp only [if_pos hd, Res.land]

/-- GLAZE on two washes that pass their checks (R143): washes that overlap without being equal are refused, a load in flight on
either is waited for. -/
theorem glaze_next (hr : runs (.glaze x w) s = true) (hd : washCheck s x (rdOf w) = none) (ha : washCheck s x (raOf w) = none) :
    let d := (s.gr x (rdOf w)).toNat
    let a := (s.gr x (raOf w)).toNat
    exec (.glaze x w) s = .next (
      if d ≠ a ∧ rangesMeet d washSize a washSize = true then s.raise x true 0x01 0 d
      else if (s.opBusy x d washSize false || s.opBusy x a washSize false) = true then s
      else (s.setBytes (opBase x + d) (glazeWash (s.washAt x d 0) (s.washAt x a 0)).bytes).advance x 1) := by
  intro d a
  have hdal : (s.gr x (rdOf w)).toNat % 32 = 0 := aligned_of_opCheck hd
  have haal : (s.gr x (raOf w)).toNat % 32 = 0 := aligned_of_opCheck ha
  have hboth : (washCheck s x (rdOf w) <|> washCheck s x (raOf w)) = none := by
    rw [hd, ha]
    rfl
  rw [runs_next s x w _ _ (.glaze x w) rfl rfl rfl hr]
  simp only [hdal, haal, hboth, ne_eq, not_true, if_false]
  split
  · rfl
  · split <;> rfl

/-- GLAZE.EMPTY on a wash that passes its check (R143, R200). -/
theorem glazeEmpty_next (hr : runs (.glazeEmpty x w) s = true) (hd : washCheck s x (rdOf w) = none) :
    exec (.glazeEmpty x w) s = .next ((s.setBytes (opBase x + (s.gr x (rdOf w)).toNat) blankWash.bytes).advance x 1) := by
  rw [runs_next s x w _ _ (.glazeEmpty x w) rfl rfl rfl hr]
  simp only [hd, Res.land]

/-- An instruction that stores bytes and goes on: they stand at their place, and the rest of the memory and the registers as before. -/
theorem stored_bytes {c : Instr} {a : Nat} {bs : List Byte} (h : exec c s = .next ((s.setBytes a bs).advance x 1)) :
    ∃ t, exec c s = .next t ∧ t.bytes a bs.length = bs ∧ SameMemoryOutside s t a bs.length ∧ SameRegisters s t ∧
      t.pc x = (s.pc x + 1) % 2 ^ 13 :=
  ⟨_, h, State.bytes_setBytes_same s a bs, fun _ hb => s.byte_setBytes_outside hb,
    ((touches_setBytes s a bs).then_ (touches_advance _ x 1)).file, State.pc_advance _ x 1⟩

end

/-- Settles O27: GLAZE by its checks, and what a store of a wash leaves. -/
theorem glazesCombineWashes : Obligations.GlazesCombineWashes := by
  intro x w s d a stores
  refine ⟨fun hr => ⟨fun hd => glaze_misaligned hr hd, fun hd ha => ⟨fun hne hmeet => ?_, fun hfit hdfree hafree => ?_⟩⟩,
    fun hr hd => stored_bytes (glazeEmpty_next hr hd)⟩
  · exact (glaze_next hr hd ha).trans (congrArg _ (if_pos ⟨hne, hmeet⟩))
  · have hapart : ¬ (d ≠ a ∧ rangesMeet d washSize a washSize = true) := by
      rintro ⟨hne, hmeet⟩
      rcases hfit with heq | hoff
      · exact hne heq
      · rw [hmeet] at hoff
        exact absurd hoff (by decide)
    have hfree : ¬ (s.opBusy x d washSize false || s.opBusy x a washSize false) = true := by simp [hdfree, hafree]
    exact stored_bytes ((glaze_next hr hd ha).trans (congrArg _ ((if_neg hapart).trans (if_neg hfree))))

end Sys2Proof.Machine

/-! # Near-bank operations -/

namespace Sys2Proof.Machine

-- One theorem after another, as in the tests: side by side their stacks ask for more memory than the check allows.
set_option Elab.async false

/-! ## The queue of a stack (R297, R298) -/

section

variable (s : State)

theorem State.stk_congr {s t : State} (h : t.stackXs = s.stackXs) (b : Nat) : t.stk b = s.stk b := by rw [State.stk, h, State.stk]

@[simp] theorem State.stk_setFld (o : Nat) (f : Fld) (n b : Nat) : (s.setFld o f n).stk b = s.stk b := State.stk_congr rfl b

@[simp] theorem State.stk_advance (x : Ea) (n b : Nat) : (s.advance x n).stk b = s.stk b := State.stk_setFld s _ _ _ b

@[simp] theorem State.stk_setEx (x : Ea) (e : EaselX) (b : Nat) : (s.setEx x e).stk b = s.stk b := State.stk_congr rfl b

theorem State.stk_setStk (b b' : Nat) (v : StackX) : (s.setStk b v).stk b' = if b' = b then v else s.stk b' := by
  simp [State.stk, State.setStk, SMap.get_set]

@[simp] theorem State.stk_updStk_same (b : Nat) (f : StackX → StackX) : (s.updStk b f).stk b = f (s.stk b) := by
  simp [State.updStk, State.stk_setStk]

/-- An operation at the tail of its stack's queue, which its register shows the length of. -/
def State.nbJoined (s : State) (b : Nat) (op : NbX) : State :=
  (s.updStk b fun y => { y with nbQ := y.nbQ ++ [op] }).setFld (Reg.bayStkStatus b) Reg.bayStkStatus_NBQ
    ((s.updStk b fun y => { y with nbQ := y.nbQ ++ [op] }).stk b).nbQ.length

theorem touches_nbJoined (b : Nat) (op : NbX) : Touches [.regs] s (s.nbJoined b op) :=
  ((touches_updStk s b _).then_ (touches_setFld _ _ _ _)).mono (by decide)

theorem nbQ_nbJoined (b : Nat) (op : NbX) : ((s.nbJoined b op).stk b).nbQ = (s.stk b).nbQ ++ [op] := by
  rw [State.nbJoined, State.stk_setFld, State.stk_updStk_same]

/-- The operation a near-bank instruction asks for, by the 64 bytes of its descriptor (R297). -/
def State.nbOf (s : State) (x : Ea) (n fn : Nat) (d : List Byte) : NbX :=
  { x, entry := n, fn, dst := bitsOf (wordAt d 0) 0 48, src := bitsOf (wordAt d 1) 0 48, units := bitsOf (wordAt d 2) 0 14 + 1
    ty := bitsOf (wordAt d 2) 16 2, pattern := wordAt d 3, arrival := s.ec + 6 * hops x.bay (locBay (bitsOf (wordAt d 0) 0 48))
    refusing := [], start := 0, due := 0, result := 0 }

/-- An accepted operation: it has its entry and stands in its stack's queue. -/
def State.nbAccepted (rd off : Nat) (op : NbX) : State :=
  (s.setEx op.x { s.ex op.x with
    opSeq := (s.ex op.x).opSeq + 1
    outst := (s.ex op.x).outst ++ [s.newEntry op.x op.entry .nb rd off op.dst op.src 0 0] }).nbJoined (locBay op.dst) op

theorem touches_nbAccepted (rd off : Nat) (op : NbX) : Touches [.easels, .regs] s (s.nbAccepted rd off op) :=
  (touches_setEx s _ _).then_ (touches_nbJoined _ _ _)

theorem nbQ_nbAccepted (rd off : Nat) (op : NbX) :
    ((s.nbAccepted rd off op).stk (locBay op.dst)).nbQ = (s.stk (locBay op.dst)).nbQ ++ [op] := by
  rw [State.nbAccepted, nbQ_nbJoined, State.stk_setEx]

variable {s} {x : Ea} {w : Word} {c : Instr} {fn : Nat} (hi : c.issued = some (x, w, { sh := shM .g .g .z }))
  (hw : c.wf = (x.ok && opIs w 0x45 fn)) (he : exec c s = nbForm fn x w s)

include hi hw he

/-- A near-bank instruction on elements is restricted in confidential mode (R153). -/
theorem nbForm_restricted (hr : runs c s = true) (hfn : 3 ≤ fn) (hconf : s.conf = true) : exec c s = .next (s.raise x true 0x07 0 0) := by
  rw [runs_next s x w _ _ c hi hw he hr, if_pos ⟨hfn, hconf⟩, Res.land]

/-- A near-bank instruction by the checks of its descriptor: a refusal writes its completion word, an accepted operation takes an entry
and joins its stack's queue (R298). -/
theorem nbForm_posts (hr : runs c s = true) (hopen : fn < 3 ∨ s.conf = false) (hop : opCheck (s.opAddr x w) 64 64 = none) {n : Nat}
    (hn : freeEntry (s.ex x).outst = some n) {d : List Byte} (hd : s.bytes (opBase x + (s.opAddr x w).toNat) 64 = d) :
    let op := s.nbOf x n fn d
    (s.nbCode fn op.dst op.src op.units op.ty ≠ cDone →
      exec c s = .next ((s.setG x (rdOf w) (compWord (s.nbCode fn op.dst op.src op.units op.ty) 0 0)).advance x 1)) ∧
    (s.nbCode fn op.dst op.src op.units op.ty = cDone →
      exec c s = .next ((s.nbAccepted (rdOf w) (s.opAddr x w).toNat op).advance x 1)) := by
  intro op
  have hgo : ¬ (3 ≤ fn ∧ s.conf = true) := by
    rintro ⟨hfn, hconf⟩
    rcases hopen with hlow | hplain
    · exact absurd hfn (Nat.not_le.2 hlow)
    · exact absurd hconf (by simp [hplain])
  rw [runs_next s x w _ _ c hi hw he hr, if_neg hgo]
  simp only [hop, hn, hd]
  refine ⟨fun hcode => ?_, fun hcode => ?_⟩
  · exact congrArg (fun r => Host.Outcome.next (Res.land s x 1 r)) (if_pos hcode)
  · refine (congrArg (fun r => Host.Outcome.next (Res.land s x 1 r)) (if_neg (not_not.2 hcode))).trans ?_
    simp only [takeEntry_free s x hn]
    rfl

/-- What a near-bank instruction comes to, in the words of its statement. -/
theorem nbForm_queues (hr : runs c s = true) :
    let d := s.bytes (opBase x + (s.opAddr x w).toNat) 64
    let dst := bitsOf (wordAt d 0) 0 48
    let src := bitsOf (wordAt d 1) 0 48
    let units := bitsOf (wordAt d 2) 0 14 + 1
    let ty := bitsOf (wordAt d 2) 16 2
    (3 ≤ fn → s.conf = true → exec c s = .next (s.raise x true 0x07 0 0)) ∧
    (fn < 3 ∨ s.conf = false → opCheck (s.opAddr x w) 64 64 = none → ∀ n, freeEntry (s.ex x).outst = some n →
      (s.nbCode fn dst src units ty ≠ cDone →
        exec c s = .next ((s.setG x (rdOf w) (compWord (s.nbCode fn dst src units ty) 0 0)).advance x 1)) ∧
      (s.nbCode fn dst src units ty = cDone → ∃ t op, exec c s = .next t ∧
        (t.stk (locBay dst)).nbQ = (s.stk (locBay dst)).nbQ ++ [op] ∧ op.x = x ∧ op.entry = n ∧ op.fn = fn ∧
        op.dst = dst ∧ op.src = src ∧ op.units = units ∧ op.ty = ty ∧ op.pattern = wordAt d 3 ∧
        op.arrival = s.ec + 6 * hops x.bay (locBay dst) ∧ SameRegisters s t ∧ t.mem = s.mem)) := by
  intro d dst src units ty
  have hd : s.bytes (opBase x + (s.opAddr x w).toNat) 64 = d := rfl
  clear_value d
  refine ⟨nbForm_restricted hi hw he hr, fun hopen hop n hn => ?_⟩
  obtain ⟨hrefused, hdone⟩ := nbForm_posts hi hw he hr hopen hop hn hd
  have hframe := fun op => (touches_nbAccepted s (rdOf w) (s.opAddr x w).toNat op).then_ (touches_advance _ x 1)
  refine ⟨hrefused, fun hcode => ⟨_, s.nbOf x n fn d, hdone hcode, ?_, rfl, rfl, rfl, rfl, rfl, rfl, rfl, rfl, rfl, (hframe _).file, (hframe _).mem⟩⟩
  rw [State.stk_advance]
  exact nbQ_nbAccepted s _ _ _

end

/-- Settles O14: the seven instructions differ in FN alone. -/
theorem nearBankOperationsQueue : Obligations.NearBankOperationsQueue := fun x w _ =>
  ⟨nbForm_queues (c := .nbFill x w) rfl rfl rfl, nbForm_queues (c := .nbCopy x w) rfl rfl rfl,
    nbForm_queues (c := .nbCompareEqual x w) rfl rfl rfl, nbForm_queues (c := .nbSum x w) rfl rfl rfl,
    nbForm_queues (c := .nbMax x w) rfl rfl rfl, nbForm_queues (c := .nbMin x w) rfl rfl rfl,
    nbForm_queues (c := .nbOrderedCompare x w) rfl rfl rfl⟩

/-! ## The window an operation starts in (R299, R301) -/

/-- A fold that answers its last number or what it had answers none only on an empty list, and else one of its numbers. -/
theorem foldl_chooses {g : Option Nat → Nat → Option Nat} (hg : ∀ b w, ∃ v, g b w = some v ∧ (v = w ∨ b = some v)) (l : List Nat)
    (b : Option Nat) : (∀ w, l.foldl g b = some w → b = some w ∨ w ∈ l) ∧ (l.foldl g b = none → b = none ∧ l = []) := by
  induction l generalizing b with
  | nil => exact ⟨fun w h => Or.inl h, fun h => ⟨h, rfl⟩⟩
  | cons a l ih =>
    obtain ⟨v, hv, hof⟩ := hg b a
    obtain ⟨hsome, hnone⟩ := ih (g b a)
    refine ⟨fun w h => ?_, fun h => ?_⟩
    · rcases hsome w h with heq | hmem
      · obtain rfl : v = w := Option.some.inj (hv.symm.trans heq)
        rcases hof with rfl | hb
        · exact Or.inr List.mem_cons_self
        · exact Or.inl hb
      · exact Or.inr (List.mem_cons_of_mem a hmem)
    · exact absurd (hv.symm.trans (hnone h).1) (Option.some_ne_none v)

theorem nbPositions_lt {m q : Nat} (h : q ∈ nbPositions m) : q < 128 := by
  obtain ⟨i, -, rfl⟩ := List.mem_map.1 h
  exact Nat.mod_lt _ (by decide)

theorem nbWindowFrom_chooses (m t : Nat) : (∀ w, nbWindowFrom m t = some w →
      ∃ q ∈ nbPositions m, 96 * q + 12288 * ceilDiv (t - 96 * q) 12288 = w) ∧ (nbWindowFrom m t = none → nbPositions m = []) := by
  unfold nbWindowFrom
  refine (foldl_chooses (fun b w => ?_) ((nbPositions m).map fun q => 96 * q + 12288 * ceilDiv (t - 96 * q) 12288) none).imp
    (fun hsome w h => ?_) fun hnone h => List.map_eq_nil_iff.1 (hnone h).2
  rotate_left
  · rcases hsome w h with habs | hmem
    · exact absurd habs.symm (Option.some_ne_none w)
    · exact List.mem_map.1 hmem
  · cases b with
    | none => exact ⟨w, rfl, Or.inl rfl⟩
    | some v =>
      refine ⟨min v w, rfl, ?_⟩
      rcases Nat.le_total v w with h | h
      · exact Or.inr (by rw [Nat.min_eq_left h])
      · exact Or.inl (Nat.min_eq_right h)

/-- A near-bank window begins at its position of a frame, at the cycle asked for at the earliest. -/
theorem nbWindowFrom_some {m t w : Nat} (h : nbWindowFrom m t = some w) : t ≤ w ∧ w % 96 = 0 ∧ w / 96 % 128 ∈ nbPositions m := by
  obtain ⟨q, hq, hw⟩ := (nbWindowFrom_chooses m t).1 w h
  have hlt := nbPositions_lt hq
  unfold ceilDiv at hw
  have hpos : w / 96 % 128 = q := by omega
  exact ⟨by omega, by omega, hpos ▸ hq⟩

theorem nbWindowFrom_none (m t : Nat) : nbWindowFrom m t = none ↔ mapNn m = 0 := by
  have hempty : nbPositions m = [] ↔ mapNn m = 0 := by rw [nbPositions, List.map_eq_nil_iff, List.range_eq_nil]
  refine ⟨fun h => hempty.1 ((nbWindowFrom_chooses m t).2 h), fun h => ?_⟩
  rw [nbWindowFrom, hempty.2 h]
  rfl

/-! ## When an operation ends (R301) -/

theorem le_suspended (starts : List Nat) (a n : Nat) {k e : Nat} (h : a + n ≤ e) : a + n ≤ suspended starts a n k e := by
  induction k generalizing e with
  | zero => exact h
  | succ k ih =>
    rw [suspended]
    split
    · exact h
    · exact ih (Nat.le_add_right _ _)

theorem le_foldl_max (l : List Nat) (b : Nat) : b ≤ l.foldl max b ∧ ∀ a ∈ l, a ≤ l.foldl max b := by
  induction l generalizing b with
  | nil => exact ⟨le_refl b, fun a h => absurd h List.not_mem_nil⟩
  | cons c l ih =>
    obtain ⟨hstart, hall⟩ := ih (max b c)
    refine ⟨le_trans (le_max_left b c) hstart, fun a h => ?_⟩
    rcases List.mem_cons.1 h with rfl | h
    · exact le_trans (le_max_right b a) hstart
    · exact hall a h

/-- The work of an operation takes its units' cycles from its start on, on every channel. -/
theorem NbX.le_lastEnd (op : NbX) (m : Nat) :
    op.start + 96 + op.units * nbUnit op.fn ≤ ((List.range 128).map (op.endOn m)).foldl max 0 :=
  le_trans (le_suspended _ _ _ (le_refl _)) ((le_foldl_max _ 0).2 (op.endOn m 0) (List.mem_map.2 ⟨0, by decide, rfl⟩))

/-! ## What an operation changes (R299, R300) -/

theorem SameMemoryOutside.trans {s t u : State} {a n : Nat} (h : SameMemoryOutside s t a n) (h' : SameMemoryOutside t u a n) :
    SameMemoryOutside s u a n := fun b hb => (h' b hb).trans (h b hb)

theorem sameMemoryOutside_of_mem {s t : State} (h : t.mem = s.mem) (a n : Nat) : SameMemoryOutside s t a n := fun b _ => by
  rw [State.byte, h, State.byte]

/-- A state differs from another in what a near-bank operation may change: registers, the event log, and the bytes of its
destination range. -/
def NbX.Within (op : NbX) (s t : State) : Prop :=
  Touches [.mem, .regs, .host] s t ∧ SameMemoryOutside s t (stackBase (locBay op.dst) + 512 * locAddr op.dst) (131072 * op.units)

theorem NbX.Within.trans {op : NbX} {s t u : State} (h : op.Within s t) (h' : op.Within t u) : op.Within s u :=
  ⟨Touches.trans h.1 h'.1, SameMemoryOutside.trans h.2 h'.2⟩

theorem NbX.within_of_touches {s t : State} (op : NbX) (h : Touches [.regs, .host] s t) : op.Within s t :=
  ⟨h.mono (by decide), sameMemoryOutside_of_mem h.mem _ _⟩

theorem NbX.Within.ite {op : NbX} {s t u : State} {c : Prop} [Decidable c] (h : c → op.Within s t) (h' : ¬ c → op.Within s u) :
    op.Within s (if c then t else u) := by
  split
  · next hc => exact h hc
  · next hc => exact h' hc

section

variable (s : State) (op : NbX)

theorem touches_nbBad (b addr : Nat) : Touches [.regs, .host] s (s.nbBad b addr).2 := by
  unfold State.nbBad
  have hdraw : Touches [.regs, .host] s (if 5 < s.errsAt (stackBase b / 512 + addr) then s.draw else (0, s)).2 :=
    Touches.ite_snd (fun _ => (touches_draw s).mono (by decide)) fun _ => Touches.refl _ s
  dsimp only
  generalize (if 5 < s.errsAt (stackBase b / 512 + addr) then s.draw else (0, s)) = d at hdraw ⊢
  refine Touches.ite_snd (fun _ => (touches_setFld s _ _ _).mono (by decide)) fun _ =>
    Touches.ite_snd (fun _ => touches_uncorrectable s _ _ _ _) fun _ => hdraw.trans (Touches.ite_snd (fun _ => touches_uncorrectable _ _ _ _ _)
      fun _ => Touches.ite (fun _ => touches_corrected _ _ _) fun _ => Touches.refl _ _)

/-- A stroke of 512 bytes in the destination range, with its seal and its errors. -/
theorem NbX.within_put {j : Nat} (hj : j < 256 * op.units) {bs : List Byte} (hbs : bs.length = 512) (q : Seal) (n : Nat) :
    op.Within s (((s.setBytes (512 * (stackBase (locBay op.dst) / 512 + (locAddr op.dst + j))) bs).setStamp
      (stackBase (locBay op.dst) / 512 + (locAddr op.dst + j)) q).setErrs (stackBase (locBay op.dst) / 512 + (locAddr op.dst + j)) n) := by
  refine ⟨((touches_setBytes s _ _).then_ ((touches_setStamp _ _ _).then_ (touches_setErrs _ _ _))).mono (by decide), fun b hb => ?_⟩
  refine s.byte_setBytes_outside ?_
  have hbase : 512 * (stackBase (locBay op.dst) / 512) = stackBase (locBay op.dst) := Nat.mul_div_cancel' (by unfold stackBase; omega)
  rw [hbs]
  omega

/-- One stroke of an operation changes a stroke of the destination range (R300). -/
theorem NbX.within_nbStroke {j : Nat} (hj : j < 256 * op.units) : op.Within s (s.nbStroke op j).2 := by
  have helems : ∀ (u : State) (g : Nat), (u.elems g).length = 128 := fun u g => by simp [State.elems]
  unfold State.nbStroke
  dsimp only
  split
  · split
    · exact NbX.within_put s op hj (by simp [length_natBytes]) _ _
    · exact NbX.within_put s op hj List.length_replicate _ _
  · exact NbX.within_put s op hj (s.length_bytes _ _) _ _
  · have hread := (touches_nbBad s (locBay op.dst) (locAddr op.src + j)).trans
      (touches_nbBad (s.nbBad (locBay op.dst) (locAddr op.src + j)).2 (locBay op.dst) (locAddr op.dst + j))
    split
    · exact (op.within_of_touches hread).trans (NbX.within_put _ op hj List.length_replicate _ _)
    · refine (op.within_of_touches hread).trans (NbX.within_put _ op hj ?_ _ _)
      simp only [List.length_flatMap, length_natBytes, List.map_const', List.sum_replicate, List.length_map, List.length_zip, helems]
      rfl

theorem NbX.within_fold {β : Type} {f : β × State → Nat → β × State} (hf : ∀ acc, ∀ j ∈ op.strokes, op.Within acc.2 (f acc j).2) (b : β) :
    op.Within s (op.strokes.foldl f (b, s)).2 :=
  List.foldlRecOn op.strokes f (motive := fun acc => op.Within s acc.2) (op.within_of_touches (Touches.refl _ s))
    fun acc h j hj => h.trans (hf acc j hj)

/-- An operation as a whole (R300, R305). -/
theorem NbX.within_nbRunOp : op.Within s (s.nbRunOp op).2 := by
  have hscan : op.Within s (s.nbScan op).2 := by
    unfold State.nbScan
    refine NbX.within_fold s op (fun acc j _ => ?_) false
    exact op.within_of_touches ((touches_nbBad acc.2 _ _).trans (touches_nbBad _ _ _))
  have hstrokes : op.Within s (op.strokes.foldl (fun (acc : Bool × State) j => (acc.1 || (acc.2.nbStroke op j).1, (acc.2.nbStroke op j).2))
      (false, s)).2 := by
    refine NbX.within_fold s op (fun acc j hj => ?_) false
    exact NbX.within_nbStroke acc.2 op (List.mem_range.1 (List.mem_filter.1 hj).1)
  have hwork : op.Within s (if op.fn = 2 then (false, s) else if op.fn = 6 then s.nbScan op
      else op.strokes.foldl (fun (acc : Bool × State) j => (acc.1 || (acc.2.nbStroke op j).1, (acc.2.nbStroke op j).2)) (false, s)).2 := by
    split
    · exact op.within_of_touches (Touches.refl _ s)
    · split
      · exact hscan
      · exact hstrokes
  unfold State.nbRunOp
  dsimp only
  split
  · exact hwork.trans (op.within_of_touches (((touches_setFld _ _ _ _).then_ (touches_stackEvent _ _)).mono (by decide)))
  · exact hwork

end

/-! ## The start and the end of an operation (R299, R301, R303) -/

section

variable {s : State} {stack : Nat}

/-- The operation as it runs on a stack: the channels that refuse it and the cycle it starts in. -/
def NbX.starts (op : NbX) (refusing : List Nat) (w : Nat) : NbX := { op with refusing := refusing.eraseDups, start := w }

/-- The running operation of a stack, with its completion word and the cycle of its end on the last channel. -/
def NbX.runs (op : NbX) (m : Nat) (word : Word) : NbX :=
  { op with due := ((List.range 128).map (op.endOn m)).foldl max 0 + nbResult op.fn, result := word }

/-- A started operation: its bytes are changed, and it has left the queue. -/
def State.nbStarted (s : State) (stack : Nat) (op : NbX) (q : List NbX) : State :=
  (((s.nbRunOp op).2.updStk stack fun y =>
    { y with nbRun := some (op.runs (s.stk stack).map (s.nbRunOp op).1), nbQ := q }).setFld (Reg.bayStkStatus stack)
      Reg.bayStkStatus_NBBUSY 1).setFld (Reg.bayStkStatus stack) Reg.bayStkStatus_NBQ q.length

theorem State.stk_passTo (t b : Nat) : (s.passTo t).stk b = s.stk b := by
  unfold State.passTo
  split
  · refine foldl_same (fun u => u.stk b) (fun u x _ => ?_) _
    show State.stk (if _ then _ else u) b = u.stk b
    split <;> rfl
  · rfl

/-- The head of a stack's queue starts in the first near-bank window, or waits where the map has none (R299). -/
theorem nbWindowStart_next {refusing : List Nat} (hs : stack < 16) (href : (refusing.all fun c => decide (c < 128)) = true) {op : NbX}
    {q : List NbX} (hrun : (s.stk stack).nbRun = none) (hq : (s.stk stack).nbQ = op :: q) (had : s.admits stack = true)
    (hrow : ((s.stk stack).remapping.any fun r => r.2 != 0 && op.hasRow r.1) = false) :
    (nbWindowFrom (s.stk stack).map (max s.ec (op.arrival + 24)) = none → exec (.nbWindowStart stack refusing) s = .next s) ∧
    (∀ w, nbWindowFrom (s.stk stack).map (max s.ec (op.arrival + 24)) = some w →
      exec (.nbWindowStart stack refusing) s = .next ((s.passTo w).nbStarted stack (op.starts refusing w) q)) := by
  have hok : (decide (stack < 16) && refusing.all (fun c => decide (c < 128))) = true := by rw [href, decide_eq_true hs, Bool.and_self]
  have hexec : exec (.nbWindowStart stack refusing) s = execNbWindowStart stack refusing s := rfl
  rw [hexec, execNbWindowStart, guarded_next _ _ hok]
  simp only [hrun, hq, had, hrow, Bool.false_eq_true, if_false, if_true]
  refine ⟨fun hnone => by simp only [hnone], fun w hw => ?_⟩
  simp only [hw]
  rw [State.nbStarted, State.stk_passTo]
  rfl

/-- A started operation runs, the rest of the queue waits, and what has changed lies in its destination range. -/
theorem nbStarted_starts (s : State) (stack : Nat) (op : NbX) (q : List NbX) :
    ((s.nbStarted stack op q).stk stack).nbRun = some (op.runs (s.stk stack).map (s.nbRunOp op).1) ∧
      ((s.nbStarted stack op q).stk stack).nbQ = q ∧ op.Within s (s.nbStarted stack op q) := by
  refine ⟨?_, ?_, (NbX.within_nbRunOp s op).trans (op.within_of_touches ?_)⟩
  · rw [State.nbStarted, State.stk_setFld, State.stk_setFld, State.stk_updStk_same]
  · rw [State.nbStarted, State.stk_setFld, State.stk_setFld, State.stk_updStk_same]
  · exact ((touches_updStk _ _ _).then_ ((touches_setFld _ _ _ _).then_ (touches_setFld _ _ _ _))).mono (by decide)

/-- A stack whose operation has ended: none runs, and where a relock caught it the stack enters self-refresh (R306). -/
def State.nbEnded (s : State) (stack : Nat) : State :=
  let u := ((s.updStk stack fun y => { y with nbRun := none }).quieten stack).setFld (Reg.bayStkStatus stack) Reg.bayStkStatus_NBBUSY 0
  if u.fld (Reg.pwrBay1 stack) Reg.pwrBay1_STATE = 3 ∧ u.stackUp stack then
    u.setFld (Reg.bayStkStatus stack) Reg.bayStkStatus_SELFREF 1
  else u

theorem touches_nbEnded (s : State) (stack : Nat) : Touches [.regs, .bays] s (s.nbEnded stack) := by
  have h := ((touches_updStk s stack fun y => { y with nbRun := none }).then_ ((touches_quieten _ stack).then_
    (touches_setFld _ (Reg.bayStkStatus stack) Reg.bayStkStatus_NBBUSY 0))).mono (L := [.regs, .bays]) (by decide)
  exact Touches.ite (fun _ => h.trans ((touches_setFld _ _ _ _).mono (by decide))) fun _ => h

theorem nbRun_nbEnded (s : State) (stack : Nat) : ((s.nbEnded stack).stk stack).nbRun = none := by
  have h : ∀ n, (State.setFld ((s.updStk stack fun y => { y with nbRun := none }).quieten stack) (Reg.bayStkStatus stack)
      Reg.bayStkStatus_NBBUSY n).stk stack = { s.stk stack with nbRun := none } := fun n => by
    rw [State.stk_setFld, ← State.stk_updStk_same s stack fun y => { y with nbRun := none }]
    exact State.stk_congr rfl stack
  unfold State.nbEnded
  dsimp only
  split
  · rw [State.stk_setFld, h]
  · rw [h]

@[simp] theorem State.stk_finish (s : State) (x : Ea) (o : OutOp) (w : Word) (b : Nat) : (s.finish x o w).stk b = s.stk b := by
  refine State.stk_congr ?_ b
  unfold State.finish State.settle State.setEst
  have hg : State.stackXs ((s.setG x o.rd w).freeEnt x o.num) = s.stackXs := by
    unfold State.setG
    split <;> rfl
  split
  · split
    · split <;> exact hg
    · exact hg
  · exact hg

/-- The running operation of a stack ends, and its completion word lands in its entry (R303). -/
theorem nbComplete_next (hs : stack < 16) {op : NbX} (hrun : (s.stk stack).nbRun = some op) {o : OutOp}
    (ho : s.entry op.x op.entry = some o) (hk : o.kind = .nb) : exec (.nbComplete stack) s =
      .next (((s.passTo (op.due + 16 + 6 * hops op.x.bay stack)).nbEnded stack).finish op.x o op.result) := by
  have hframe := (touches_passTo s (op.due + 16 + 6 * hops op.x.bay stack)).then_ (touches_nbEnded _ stack)
  have hentry : ((s.passTo (op.due + 16 + 6 * hops op.x.bay stack)).nbEnded stack).entry op.x op.entry = some o := by
    rw [State.entry, hframe.ex]
    exact ho
  have hexec : exec (.nbComplete stack) s = execNbComplete stack s := rfl
  rw [hexec, execNbComplete, guarded_next _ _ (decide_eq_true hs)]
  simp only [hrun]
  unfold State.nbEnded at hentry ⊢
  dsimp only at hentry ⊢
  rw [hentry]
  dsimp only
  rw [if_pos hk]

end

/-- Settles O15: the window by the positions of the map, the bytes by the strokes of the destination range, and the end by its entry. -/
theorem nearBankOperationsRunAndEnd : Obligations.NearBankOperationsRunAndEnd := by
  intro stack refusing s hs
  refine ⟨fun op q href hrun hq had hrow => ?_, fun op o hrun ho hk => ?_⟩
  · obtain ⟨hstays, hstarts⟩ := nbWindowStart_next hs href hrun hq had hrow
    refine ⟨fun hnn => hstays ((nbWindowFrom_none _ _).2 hnn), fun hnn => ?_⟩
    obtain ⟨w, hw⟩ := Option.ne_none_iff_exists'.1 fun h => hnn ((nbWindowFrom_none _ (max s.ec (op.arrival + 24))).1 h)
    obtain ⟨hfrom, hslot, hpos⟩ := nbWindowFrom_some hw
    obtain ⟨hruns, hleft, hframe, hout⟩ := nbStarted_starts (s.passTo w) stack (op.starts refusing w) q
    have htime := touches_passTo s w
    have hec : (s.passTo w).ec = w := by rw [State.passTo_ec, Nat.max_eq_right (le_trans (le_max_left _ _) hfrom)]
    refine ⟨_, _, hstarts w hw, hruns, hleft, rfl, rfl, rfl, rfl, rfl, rfl, hframe.ec.trans hec, le_trans (le_max_right _ _) hfrom,
      le_trans (le_max_left _ _) hfrom, hslot, hpos, Nat.add_le_add_right (NbX.le_lastEnd (op.starts refusing w) _) _, rfl,
      htime.file.trans hframe.file, (sameMemoryOutside_of_mem htime.mem _ _).trans hout⟩
  · have htime := touches_passTo s (op.due + 16 + 6 * hops op.x.bay stack)
    have hend := (touches_nbEnded (s.passTo (op.due + 16 + 6 * hops op.x.bay stack)) stack).then_ (touches_finish _ op.x o op.result)
    have hnum : o.num = op.entry := by simpa using List.find?_some ho
    refine ⟨_, nbComplete_next hs hrun ho hk, ?_, hnum ▸ State.entry_finish _ op.x o op.result, hend.mem.trans htime.mem, ?_,
      fun hr => State.gr_finish _ op.x o op.result hr⟩
    · rw [State.stk_finish, nbRun_nbEnded]
    · rw [hend.ec, State.passTo_ec]
      exact le_max_right _ _

end Sys2Proof.Machine

/-! # Messages issued and queued -/

namespace Sys2Proof.Machine

-- One theorem after another, as in the tests: side by side their stacks ask for more memory than the check allows.
set_option Elab.async false

/-! ## An entry taken (R92, R117) -/

section

variable (s : State) (x : Ea)

/-- The state in which an operation has taken entry `n`. -/
def State.entryTaken (n : Nat) (kind : OutKind) (rd off a b len after : Nat) : State :=
  s.setEx x { s.ex x with opSeq := (s.ex x).opSeq + 1, outst := (s.ex x).outst ++ [s.newEntry x n kind rd off a b len after] }

variable {s x}

theorem takeEntry_takes {n : Nat} (h : freeEntry (s.ex x).outst = some n) (kind : OutKind) (rd off a b len after : Nat) :
    s.takeEntry x kind rd off a b len after = some (s.entryTaken x n kind rd off a b len after) := takeEntry_free s x h kind rd off a b len after

theorem takeEntry_full (h : freeEntry (s.ex x).outst = none) (kind : OutKind) (rd off a b len after : Nat) :
    s.takeEntry x kind rd off a b len after = none := by
  unfold State.takeEntry
  simp only [h]

variable (s x)

theorem touches_entryTaken (n : Nat) (kind : OutKind) (rd off a b len after : Nat) :
    Touches [.easels] s (s.entryTaken x n kind rd off a b len after) := touches_setEx s x _

theorem outst_entryTaken (n : Nat) (kind : OutKind) (rd off a b len after : Nat) :
    ((s.entryTaken x n kind rd off a b len after).ex x).outst = (s.ex x).outst ++ [s.newEntry x n kind rd off a b len after] := by
  rw [State.entryTaken, State.ex_setEx_same]

theorem faults_entryTaken (n : Nat) (kind : OutKind) (rd off a b len after : Nat) :
    ((s.entryTaken x n kind rd off a b len after).ex x).faults = (s.ex x).faults := by
  rw [State.entryTaken, State.ex_setEx_same]

/-- An instruction that has taken an entry, changed connections at most and gone on. -/
theorem entry_lands {n : Nat} {kind : OutKind} {rd off a b len after : Nat} {u : State}
    (hu : Touches [.fab, .conns] (s.entryTaken x n kind rd off a b len after) u) : (u.advance x 1).pc x = (s.pc x + 1) % 2 ^ 13 ∧
      (∃ o, ((u.advance x 1).ex x).outst = (s.ex x).outst ++ [o] ∧ o.num = n ∧ o.kind = kind ∧ o.rd = rd) ∧
      SameRegisters s (u.advance x 1) ∧ (u.advance x 1).mem = s.mem := by
  have htaken := (touches_entryTaken s x n kind rd off a b len after).then_ hu
  have hall := htaken.then_ (touches_advance u x 1)
  refine ⟨?_, ⟨s.newEntry x n kind rd off a b len after, ?_, rfl, rfl, rfl⟩, hall.file, hall.mem⟩
  · rw [State.pc_advance, State.pc, htaken.fld, State.pc]
  · rw [(touches_advance u x 1).ex, hu.ex, outst_entryTaken]

/-! ## An operation that fails at its issue (R100) -/

/-- The first operation to fail of an easel: its entry is marked, and its fault is the pending one. -/
theorem failOp_first {o : OutOp} (code loc : Nat) (hf : (s.ex x).faults = []) :
    Touches [.easels] s (s.failOp x o code loc) ∧ ((s.failOp x o code loc).ex x).faults = [⟨o.seq, code, o.num, loc⟩] ∧
      ((s.failOp x o code loc).ex x).outst = (s.ex x).outst.map fun p => if p.num = o.num then { p with failed := true } else p := by
  unfold State.failOp State.addFault
  simp only [State.ex_updEx_same, hf, and_self, and_true]
  exact (touches_updEx s x _).trans (touches_updEx _ x _)

/-- The entry a failed operation has just taken stands failed. -/
theorem find_failed {l : List OutOp} {n : Nat} (hn : freeEntry l = some n) {o : OutOp} (ho : o.num = n) :
    ((((l ++ [o]).map fun p => if p.num = o.num then { p with failed := true } else p).find? fun p => p.num == n).map (·.failed)) =
      some true := by
  have hfree : ∀ p ∈ l, p.num ≠ n := fun p hp => by
    have h := List.find?_some hn
    simpa using List.all_eq_true.1 h p hp
  have hold : (l.map fun p => if p.num = o.num then { p with failed := true } else p).find? (fun p => p.num == n) = none := by
    rw [List.find?_eq_none]
    intro p hp
    obtain ⟨q, hq, rfl⟩ := List.mem_map.1 hp
    rw [if_neg (ho ▸ hfree q hq)]
    simpa using hfree q hq
  rw [List.map_append, List.find?_append, hold, Option.none_or, List.map_singleton, if_pos rfl]
  simp [ho]

variable {s x} in
/-- An operation whose source is a location it may not use: its entry is taken and failed, and 0x05 is pending (R100, R131, R147). -/
theorem badSource_fails {n : Nat} (hn : freeEntry (s.ex x).outst = some n) (hf : (s.ex x).faults = []) (kind : OutKind) (rd node src : Nat) :
    ∃ t, (s.badSource x kind rd node src).land s x 1 = t ∧
      (t.ex x).faults = [{ seq := (s.ex x).opSeq, code := 0x05, info := n, loc := src % 2 ^ 48 }] ∧
      (t.entry x n).map (·.failed) = some true ∧ (∀ c, t.conn c = s.conn c) ∧ t.pc x = (s.pc x + 1) % 2 ^ 13 ∧ SameRegisters s t ∧
      t.mem = s.mem := by
  let o := s.newEntry x n kind rd 0 (2 ^ 40) node 0 4
  let u := s.entryTaken x n kind rd 0 (2 ^ 40) node 0 4
  have hout : (u.ex x).outst = (s.ex x).outst ++ [o] := outst_entryTaken s x _ _ _ _ _ _ _ _
  have hbad : s.badSource x kind rd node src = .ok (u.failOp x o 0x05 (src % 2 ^ 48)) := by
    have hlast : (u.ex x).outst.getLast? = some o := by rw [hout, List.getLast?_concat]
    unfold State.badSource
    simp only [takeEntry_takes hn]
    rw [hlast]
  have hfu : (u.ex x).faults = [] := (faults_entryTaken s x _ _ _ _ _ _ _ _).trans hf
  obtain ⟨hframe, hfaults, houtst⟩ := failOp_first u x (o := o) 0x05 (src % 2 ^ 48) hfu
  have hall := (touches_entryTaken s x n kind rd 0 (2 ^ 40) node 0 4).trans hframe
  have hland := hall.then_ (touches_advance _ x 1)
  refine ⟨_, congrArg (Res.land s x 1) hbad, ?_, ?_, fun c => hland.conn c, ?_, hland.file, hland.mem⟩
  · rw [Res.land, (touches_advance _ x 1).ex, hfaults]
    rfl
  · rw [Res.land, State.entry, (touches_advance _ x 1).ex, houtst, hout]
    exact find_failed hn rfl
  · rw [Res.land, State.pc_advance, State.pc, hall.fld, State.pc]

end

/-! ## Messages of a connection (R357, R358) -/

section

variable (s : State) (c : Nat)

/-- A message that is given a port: nothing else of the messages of its connection changes. -/
theorem assignMsg_assigns (first : Nat) : ∃ p, ((s.assignMsg c first).conn c).txpsn = (s.conn c).txpsn ∧
    ((s.assignMsg c first).conn c).msgs = (s.conn c).msgs.map fun m => if m.first = first then { m with port := p } else m := by
  unfold State.assignMsg
  dsimp only
  split
  · exact ⟨none, by rw [State.conn_setConn_same], by rw [State.conn_setConn_same]⟩
  · next p _ => exact ⟨some p, by rw [State.conn_setConn_same], by rw [State.conn_setConn_same]⟩

/-- A message with its packets' PSNs, at the end of its connection's messages, its port chosen. -/
def State.msgAdded (m : TxMsg) : State :=
  (s.updConn c fun k => { k with txpsn := (k.txpsn + m.n) % 65536, msgs := k.msgs ++ [m] }).assignMsg c m.first

theorem touches_msgAdded (m : TxMsg) : Touches [.fab, .conns] s (s.msgAdded c m) := (touches_updConn s c _).trans (touches_assignMsg _ c _)

theorem msgAdded_adds (m : TxMsg) : ((s.msgAdded c m).conn c).txpsn = ((s.conn c).txpsn + m.n) % 65536 ∧
    ((s.msgAdded c m).conn c).msgs.map (·.first) = (s.conn c).msgs.map (·.first) ++ [m.first] ∧
    ∃ p, ((s.msgAdded c m).conn c).msgs.getLast? = some { m with port := p } := by
  obtain ⟨p, hpsn, hmsgs⟩ :=
    assignMsg_assigns (s.updConn c fun k => { k with txpsn := (k.txpsn + m.n) % 65536, msgs := k.msgs ++ [m] }) c m.first
  rw [State.conn_updConn_same] at hpsn hmsgs
  have hfirst : ∀ y : TxMsg, (if y.first = m.first then { y with port := p } else y).first = y.first := fun y => by split <;> rfl
  refine ⟨hpsn, ?_, p, ?_⟩
  · rw [State.msgAdded, hmsgs, List.map_map, ← List.map_singleton (f := TxMsg.first), ← List.map_append]
    exact List.map_congr_left fun y _ => hfirst y
  · rw [State.msgAdded, hmsgs, List.map_append, List.map_singleton, List.getLast?_concat, if_pos rfl]

end

/-! ## The descriptor (R146 to R148) -/

section

variable {s : State} {x : Ea} {w : Word} {d : List Nat}

/-- The message a descriptor asks for, in the entry it has taken. -/
def State.msgOf (s : State) (x : Ea) (send : Bool) (entry : Nat) (d : List Nat) : TxMsg :=
  { first := (s.conn (bitsOf (d.getD 0 0) 12 12)).txpsn, n := packetsOf (bitsOf (d.getD 4 0) 0 24), send, x, entry
    seq := (s.ex x).opSeq, desc := d, epoch := s.epoch, port := none, issued := s.ec, ready := 0, queued := false, next := 0
    complete := false }

theorem takeMsg_closed (hk : (s.conn (bitsOf (d.getD 0 0) 12 12)).state ≠ 1) (send : Bool) (rd : Nat) :
    s.takeMsg x send rd d = s.refuseSend x (if send then .send else .wrimm) rd (bitsOf (d.getD 0 0) 0 12) cUnavailable := if_pos hk

theorem takeMsg_bad (hk : (s.conn (bitsOf (d.getD 0 0) 12 12)).state = 1)
    (hb : s.sourceBad (d.getD 3 0) (bitsOf (d.getD 4 0) 0 24) = true) (send : Bool) (rd : Nat) :
    s.takeMsg x send rd d = s.badSource x (if send then .send else .wrimm) rd (bitsOf (d.getD 0 0) 0 12) (d.getD 3 0) :=
  (if_neg (not_not.2 hk)).trans (if_pos hb)

theorem takeMsg_takes (hk : (s.conn (bitsOf (d.getD 0 0) 12 12)).state = 1)
    (hb : s.sourceBad (d.getD 3 0) (bitsOf (d.getD 4 0) 0 24) = false) {n : Nat} (hn : freeEntry (s.ex x).outst = some n)
    (send : Bool) (rd : Nat) : s.takeMsg x send rd d = .ok ((s.entryTaken x n (if send then .send else .wrimm) rd (srcPlace (d.getD 3 0))
      (bitsOf (d.getD 0 0) 12 12 * 2 ^ 16 + (s.conn (bitsOf (d.getD 0 0) 12 12)).txpsn) (bitsOf (d.getD 0 0) 0 12)
      (bitsOf (d.getD 4 0) 0 24) 0).msgAdded (bitsOf (d.getD 0 0) 12 12) (s.msgOf x send n d)) := by
  unfold State.takeMsg
  simp only [hk, hb, hn, takeEntry_takes hn, ne_eq, not_true, if_false, Bool.false_eq_true]
  rfl

/-- A message that finds no entry stalls. -/
theorem takeMsg_full (hb : s.sourceBad (d.getD 3 0) (bitsOf (d.getD 4 0) 0 24) = false) (hn : freeEntry (s.ex x).outst = none)
    (send : Bool) (rd : Nat) : s.takeMsg x send rd d = .stall := by
  by_cases hk : (s.conn (bitsOf (d.getD 0 0) 12 12)).state = 1
  · unfold State.takeMsg
    simp only [hk, hb, hn, ne_eq, not_true, if_false, Bool.false_eq_true]
  · rw [takeMsg_closed hk]
    exact async_full hn _ _ _ _ _ _ _

/-- The eight words of the descriptor an instruction names. -/
def State.descWords (s : State) (x : Ea) (w : Word) : List Nat :=
  (List.range 8).map fun i => (s.opWord x ((s.gr x (raOf w)).toNat + 8 * i)).toNat

/-- An instruction whose descriptor passes its precise checks goes on by its eight words. -/
theorem wrForm_next {c : Instr} {opc : Nat} {go : State → List Nat → Res} (hi : c.issued = some (x, w, { sh := shR .g .g .z .z }))
    (hw : c.wf = (x.ok && opIs w opc 0)) (he : exec c s = wrForm opc x w go s) (hr : runs c s = true)
    (hop : opCheck ((s.gr x (raOf w)).toNat : Int) 64 64 = none) (hd : s.descWords x w = d)
    (hsrc : bitOf (d.getD 3 0) 63 = false → opCheck ((d.getD 3 0 % 2 ^ 48 : Nat) : Int) (bitsOf (d.getD 4 0) 0 24) 1 = none) :
    exec c s = .next ((go s d).land s x 1) := by
  subst hd
  rw [runs_next s x w _ _ c hi hw he hr]
  simp only [hop]
  by_cases hloc : bitOf ((s.descWords x w).getD 3 0) 63 = true
  · exact congrArg (fun r => Host.Outcome.next (Res.land s x 1 r)) (if_pos hloc)
  · refine congrArg (fun r => Host.Outcome.next (Res.land s x 1 r)) ((if_neg hloc).trans ?_)
    exact congrArg (Option.getD · (go s (s.descWords x w))) (hsrc (Bool.eq_false_iff.2 hloc))

/-- A source that is no location, or one it may use, is not a bad one. -/
theorem sourceBad_false {src len : Nat} (h : bitOf src 63 = true → s.locOk (src % 2 ^ 48) (ceilDiv len 512) = true) :
    s.sourceBad src len = false := by
  unfold State.sourceBad
  cases hloc : bitOf src 63 with
  | false => rfl
  | true => rw [h hloc]; rfl

theorem sourceBad_true {src len : Nat} (hloc : bitOf src 63 = true) (h : s.locOk (src % 2 ^ 48) (ceilDiv len 512) = false) :
    s.sourceBad src len = true := by
  rw [State.sourceBad, hloc, h]
  rfl

/-- An operation refused before it is sent takes its entry and leaves the connections as they are (R147, R148). -/
theorem refuseSend_lands {n : Nat} (hn : freeEntry (s.ex x).outst = some n) (kind : OutKind) (rd node code : Nat) :
    ∃ t, (s.refuseSend x kind rd node code).land s x 1 = t ∧ (∀ c, t.conn c = s.conn c) ∧ t.pc x = (s.pc x + 1) % 2 ^ 13 ∧
      (∃ o, (t.ex x).outst = (s.ex x).outst ++ [o] ∧ o.num = n ∧ o.kind = kind ∧ o.rd = rd) ∧ SameRegisters s t ∧ t.mem = s.mem := by
  have htake : s.refuseSend x kind rd node code = .ok (s.entryTaken x n kind rd 0 (2 ^ 40 + code) node 0 4) := by
    unfold State.refuseSend State.async
    simp only [takeEntry_takes hn]
  have hframe := (touches_entryTaken s x n kind rd 0 (2 ^ 40 + code) node 0 4).then_ (touches_advance _ x 1)
  exact ⟨_, congrArg (Res.land s x 1) htake, fun c => hframe.conn c, entry_lands s x (Touches.refl _ _)⟩

/-- A message that is taken: it is the last of its connection's, with the next PSNs, and its entry stands (R357, R358). -/
theorem takeMsg_lands (hk : (s.conn (bitsOf (d.getD 0 0) 12 12)).state = 1)
    (hb : s.sourceBad (d.getD 3 0) (bitsOf (d.getD 4 0) 0 24) = false) {n : Nat} (hn : freeEntry (s.ex x).outst = some n)
    (send : Bool) (rd : Nat) : ∃ t m, (s.takeMsg x send rd d).land s x 1 = t ∧
      (t.conn (bitsOf (d.getD 0 0) 12 12)).msgs.getLast? = some m ∧
      (t.conn (bitsOf (d.getD 0 0) 12 12)).msgs.map (·.first) =
        (s.conn (bitsOf (d.getD 0 0) 12 12)).msgs.map (·.first) ++ [(s.conn (bitsOf (d.getD 0 0) 12 12)).txpsn] ∧
      m.n = packetsOf (bitsOf (d.getD 4 0) 0 24) ∧ m.send = send ∧ m.x = x ∧ m.entry = n ∧ m.desc = d ∧
      (t.conn (bitsOf (d.getD 0 0) 12 12)).txpsn =
        ((s.conn (bitsOf (d.getD 0 0) 12 12)).txpsn + packetsOf (bitsOf (d.getD 4 0) 0 24)) % 65536 ∧
      t.pc x = (s.pc x + 1) % 2 ^ 13 ∧
      (∃ o, (t.ex x).outst = (s.ex x).outst ++ [o] ∧ o.num = n ∧ o.kind = (if send then .send else .wrimm) ∧ o.rd = rd) ∧
      SameRegisters s t ∧ t.mem = s.mem := by
  let c := bitsOf (d.getD 0 0) 12 12
  let u := s.entryTaken x n (if send then .send else .wrimm) rd (srcPlace (d.getD 3 0)) (c * 2 ^ 16 + (s.conn c).txpsn)
    (bitsOf (d.getD 0 0) 0 12) (bitsOf (d.getD 4 0) 0 24) 0
  have hconn : u.conn c = s.conn c := (touches_entryTaken s x n _ _ _ _ _ _ _).conn c
  obtain ⟨hpsn, hfirsts, p, hlast⟩ := msgAdded_adds u c (s.msgOf x send n d)
  have hland : (State.advance (u.msgAdded c (s.msgOf x send n d)) x 1).conn c = (u.msgAdded c (s.msgOf x send n d)).conn c :=
    (touches_advance _ x 1).conn c
  refine ⟨_, _, congrArg (Res.land s x 1) (takeMsg_takes hk hb hn send rd), (congrArg (List.getLast? ·.msgs) hland).trans hlast, ?_,
    rfl, rfl, rfl, rfl, rfl, ?_, entry_lands s x (touches_msgAdded u c _)⟩
  · exact (congrArg (List.map TxMsg.first ·.msgs) hland).trans (hfirsts.trans (by rw [hconn, State.msgOf]))
  · exact (congrArg ConnX.txpsn hland).trans (hpsn.trans (by rw [hconn, State.msgOf]))

end

/-! ## The three instructions -/

section

variable (s : State) (x : Ea) (w : Word) (d : List Nat)

/-- A descriptor whose operand and source lie where they may (R146, R147). -/
def State.descGood : Prop :=
  opCheck ((s.gr x (raOf w)).toNat : Int) 64 64 = none ∧
    (bitOf (d.getD 3 0) 63 = true → s.locOk (d.getD 3 0 % 2 ^ 48) (ceilDiv (bitsOf (d.getD 4 0) 0 24) 512) = true) ∧
    (bitOf (d.getD 3 0) 63 = false → opCheck ((d.getD 3 0 % 2 ^ 48 : Nat) : Int) (bitsOf (d.getD 4 0) 0 24) 1 = none)

variable {s x w d}

/-- A message instruction in effect, as its statement says it: on an open connection the message is taken, on any other it takes an
entry that will end with a code. -/
theorem takeMsg_issues {c : Instr} {send : Bool} (hnext : exec c s = .next ((s.takeMsg x send (rdOf w) d).land s x 1))
    (hb : s.sourceBad (d.getD 3 0) (bitsOf (d.getD 4 0) 0 24) = false) {n : Nat} (hn : freeEntry (s.ex x).outst = some n) :
    let k := s.conn (bitsOf (d.getD 0 0) 12 12)
    (k.state = 1 → ∃ t m, exec c s = .next t ∧ (t.conn (bitsOf (d.getD 0 0) 12 12)).msgs.getLast? = some m ∧
      (t.conn (bitsOf (d.getD 0 0) 12 12)).msgs.map (·.first) = k.msgs.map (·.first) ++ [k.txpsn] ∧
      m.n = packetsOf (bitsOf (d.getD 4 0) 0 24) ∧ m.send = send ∧ m.x = x ∧ m.entry = n ∧ m.desc = d ∧
      (t.conn (bitsOf (d.getD 0 0) 12 12)).txpsn = (k.txpsn + packetsOf (bitsOf (d.getD 4 0) 0 24)) % 65536 ∧
      t.pc x = (s.pc x + 1) % 2 ^ 13 ∧
      (∃ o, (t.ex x).outst = (s.ex x).outst ++ [o] ∧ o.num = n ∧ o.kind = (if send then .send else .wrimm) ∧ o.rd = rdOf w) ∧
      SameRegisters s t ∧ t.mem = s.mem) ∧
    (k.state ≠ 1 → ∃ t, exec c s = .next t ∧ t.conn (bitsOf (d.getD 0 0) 12 12) = k ∧ t.pc x = (s.pc x + 1) % 2 ^ 13 ∧
      (∃ o, (t.ex x).outst = (s.ex x).outst ++ [o] ∧ o.num = n ∧ o.kind = (if send then .send else .wrimm) ∧ o.rd = rdOf w) ∧
      SameRegisters s t ∧ t.mem = s.mem) := by
  intro k
  refine ⟨fun hk => ?_, fun hk => ?_⟩
  · obtain ⟨t, m, ht, hrest⟩ := takeMsg_lands hk hb hn send (rdOf w)
    exact ⟨t, m, hnext.trans (congrArg Host.Outcome.next ht), hrest⟩
  · obtain ⟨t, ht, hconn, hrest⟩ := refuseSend_lands hn (if send then .send else .wrimm) (rdOf w) (bitsOf (d.getD 0 0) 0 12) cUnavailable
    exact ⟨t, hnext.trans (congrArg Host.Outcome.next ((congrArg (Res.land s x 1) (takeMsg_closed hk send (rdOf w))).trans ht)), hconn _, hrest⟩

/-- An instruction that comes to a bad source fails with 0x05, in the words of its statement. -/
theorem badSource_issues {c : Instr} {kind : OutKind} {node src : Nat} (hnext : exec c s = .next ((s.badSource x kind (rdOf w) node src).land s x 1))
    (hf : (s.ex x).faults = []) {n : Nat} (hn : freeEntry (s.ex x).outst = some n) (b : Nat) : ∃ t, exec c s = .next t ∧
      (t.ex x).faults = [{ seq := (s.ex x).opSeq, code := 0x05, info := n, loc := src % 2 ^ 48 }] ∧
      (t.entry x n).map (·.failed) = some true ∧ t.conn b = s.conn b ∧ t.pc x = (s.pc x + 1) % 2 ^ 13 ∧ SameRegisters s t ∧
      t.mem = s.mem := by
  obtain ⟨t, ht, hfaults, hfailed, hconn, hrest⟩ := badSource_fails hn hf kind (rdOf w) node src
  exact ⟨t, hnext.trans (congrArg Host.Outcome.next ht), hfaults, hfailed, hconn b, hrest⟩

/-- WRIMM with its descriptor read (R146, R147). -/
theorem wrimm_next (hr : runs (.wrimm x w) s = true) (hop : opCheck ((s.gr x (raOf w)).toNat : Int) 64 64 = none) (hd : s.descWords x w = d)
    (hsrc : bitOf (d.getD 3 0) 63 = false → opCheck ((d.getD 3 0 % 2 ^ 48 : Nat) : Int) (bitsOf (d.getD 4 0) 0 24) 1 = none) :
    exec (.wrimm x w) s = .next ((s.takeMsg x false (rdOf w) d).land s x 1) := wrForm_next rfl rfl rfl hr hop hd hsrc

/-- SEND with its descriptor read: busy in run mode (R148, R372). -/
theorem send_next (hr : runs (.send x w) s = true) (hop : opCheck ((s.gr x (raOf w)).toNat : Int) 64 64 = none) (hd : s.descWords x w = d)
    (hsrc : bitOf (d.getD 3 0) 63 = false → opCheck ((d.getD 3 0 % 2 ^ 48 : Nat) : Int) (bitsOf (d.getD 4 0) 0 24) 1 = none) :
    exec (.send x w) s = .next ((if s.sendMode then s.takeMsg x true (rdOf w) d
      else s.refuseSend x .send (rdOf w) (bitsOf (d.getD 0 0) 0 12) cBusy).land s x 1) := by
  have he : exec (.send x w) s = wrForm 0x61 x w (fun s d => if s.sendMode then s.takeMsg x true (rdOf w) d
    else s.refuseSend x .send (rdOf w) (bitsOf (d.getD 0 0) 0 12) cBusy) s := rfl
  exact wrForm_next rfl rfl he hr hop hd hsrc

/-- A posted buffer stands last at its connection. -/
def State.bufPosted (s : State) (x : Ea) (rd n : Nat) (d : List Nat) : State :=
  (s.entryTaken x n .recv rd (srcPlace (d.getD 3 0)) (bitsOf (d.getD 0 0) 12 12 * 2 ^ 16) (bitsOf (d.getD 0 0) 0 12)
    (bitsOf (d.getD 4 0) 0 24) 0).updConn (bitsOf (d.getD 0 0) 12 12) fun k =>
      { k with bufs := k.bufs ++ [⟨x, n, (s.ex x).opSeq, d.getD 3 0, bitsOf (d.getD 4 0) 0 24⟩] }

/-- What RECV comes to with its descriptor read: busy in run mode or while sixteen buffers wait, else a bad source fails, and a buffer
is posted where an entry is free (R148, R372). -/
def State.recvBuf (s : State) (x : Ea) (rd : Nat) (d : List Nat) : Res :=
  if (!s.sendMode || decide (16 ≤ (s.conn (bitsOf (d.getD 0 0) 12 12)).bufs.length)) = true then
    s.refuseSend x .recv rd (bitsOf (d.getD 0 0) 0 12) cBusy
  else if s.sourceBad (d.getD 3 0) (bitsOf (d.getD 4 0) 0 24) = true then
    s.badSource x .recv rd (bitsOf (d.getD 0 0) 0 12) (d.getD 3 0)
  else (freeEntry (s.ex x).outst).elim .stall fun n => .ok (s.bufPosted x rd n d)

theorem execRecv_eq : exec (.recv x w) s = wrForm 0x62 x w (fun s d => s.recvBuf x (rdOf w) d) s := by
  have hgo : exec (.recv x w) s = execRecv x w s := rfl
  rw [hgo, execRecv]
  congr 1
  funext u d
  unfold State.recvBuf
  cases hn : freeEntry (u.ex x).outst with
  | none => rfl
  | some n =>
    simp only [takeEntry_takes hn]
    rfl

theorem recv_next (hr : runs (.recv x w) s = true) (hop : opCheck ((s.gr x (raOf w)).toNat : Int) 64 64 = none) (hd : s.descWords x w = d)
    (hsrc : bitOf (d.getD 3 0) 63 = false → opCheck ((d.getD 3 0 % 2 ^ 48 : Nat) : Int) (bitsOf (d.getD 4 0) 0 24) 1 = none) :
    exec (.recv x w) s = .next ((s.recvBuf x (rdOf w) d).land s x 1) := wrForm_next rfl rfl execRecv_eq hr hop hd hsrc

theorem recvBuf_busy (h : s.sendMode = false) (rd : Nat) :
    s.recvBuf x rd d = s.refuseSend x .recv rd (bitsOf (d.getD 0 0) 0 12) cBusy := if_pos (by simp [h])

theorem recvBuf_full (hb : s.sourceBad (d.getD 3 0) (bitsOf (d.getD 4 0) 0 24) = false) (hn : freeEntry (s.ex x).outst = none)
    (rd : Nat) : s.recvBuf x rd d = .stall := by
  unfold State.recvBuf
  rw [hn, hb]
  split
  · exact async_full hn _ _ _ _ _ _ _
  · rfl

/-- RECV in send mode at a connection with room (R148, R372). -/
theorem recvBuf_room (hsend : s.sendMode = true) (hroom : (s.conn (bitsOf (d.getD 0 0) 12 12)).bufs.length < 16) (rd : Nat) :
    s.recvBuf x rd d = if s.sourceBad (d.getD 3 0) (bitsOf (d.getD 4 0) 0 24) = true then
        s.badSource x .recv rd (bitsOf (d.getD 0 0) 0 12) (d.getD 3 0)
      else (freeEntry (s.ex x).outst).elim .stall fun n => .ok (s.bufPosted x rd n d) := by
  refine if_neg ?_
  rw [hsend, decide_eq_false (Nat.not_le.2 hroom)]
  decide

/-- A posted buffer, in the words of its statement. -/
theorem bufPosted_posts (rd n : Nat) : ((((s.bufPosted x rd n d).advance x 1).conn (bitsOf (d.getD 0 0) 12 12)).bufs =
      (s.conn (bitsOf (d.getD 0 0) 12 12)).bufs ++ [⟨x, n, (s.ex x).opSeq, d.getD 3 0, bitsOf (d.getD 4 0) 0 24⟩]) ∧
    ((s.bufPosted x rd n d).advance x 1).pc x = (s.pc x + 1) % 2 ^ 13 ∧
    (∃ o, (((s.bufPosted x rd n d).advance x 1).ex x).outst = (s.ex x).outst ++ [o] ∧ o.num = n ∧ o.kind = .recv ∧ o.rd = rd) ∧
    SameRegisters s ((s.bufPosted x rd n d).advance x 1) ∧ ((s.bufPosted x rd n d).advance x 1).mem = s.mem := by
  refine ⟨?_, entry_lands s x (touches_updConn _ _ _)⟩
  rw [(touches_advance _ x 1).conn, State.bufPosted, State.conn_updConn_same, (touches_entryTaken s x _ _ _ _ _ _ _ _).conn]

end

/-! ## MESSAGE_ENQUEUE (R384, R386) -/

section

variable (s : State)

/-- A message joins the tail of its queue. -/
theorem msgs_enqueue (i q : Nat) (e : QEnt) : (((s.enqueue i q e).inst i).sub q).msgs = ((s.inst i).sub q).msgs ++ [e] := by
  have hset : ∀ k, (s.setInst i k).inst i = k := fun k => SMap.get_set_same _ s.fab.insts i k
  have hsub : ∀ (k : InstX) (b : SubqX), (k.setSub q b).sub q = b := fun k b => SMap.get_set_same _ k.subs q b
  have hwake : InstX.sub (if (s.inst i).active e.svc then s.inst i else s.wakeSvc i (s.inst i) e.svc) q = (s.inst i).sub q := by
    split <;> rfl
  unfold State.enqueue
  dsimp only
  rw [hset, hsub]
  dsimp only
  rw [hwake]
  split <;> rfl

/-- Whether a message finds no room in its queue or in the node's pool. -/
def State.noRoom (s : State) (p : Nat) (m : TxMsg) : Prop :=
  s.fld (Reg.schedSvc1 p (descSvc m.desc)) Reg.schedSvc1_QLIM ≤ ((s.inst p).sub (descSubq m.desc)).msgs.length ∨ 65536 ≤ s.queuedAll

/-- A message refused with busy: it is counted, leaves its connection and its completion word lands. -/
def State.msgRefused (s : State) (c p : Nat) (m : TxMsg) (first : Nat) : State :=
  ((((s.bump (Reg.schedErr p) Reg.schedErr_BUSY).setFld (Reg.schedErr p) Reg.schedErr_BUSYEV 1).updConn c fun k =>
    { k with msgs := k.msgs.filter (·.first != first) })).finishAt m.x m.entry m.seq (compWord cBusy 0 0).toNat

/-- A message in its queue, and marked so at its connection. -/
def State.msgQueued (s : State) (c p : Nat) (m : TxMsg) (first : Nat) : State :=
  (s.updConn c fun k => { k with msgs := k.msgs.map fun y => if y.first = first then { y with queued := true, ready := s.ec } else y }).enqueue
    p (descSubq m.desc) { item := .msg c first, svc := descSvc m.desc, entered := s.gc }

variable {s} {c first p : Nat} {m : TxMsg}

/-- A message whose bytes have come to the port bay enters its queue, or is refused where that or the pool is full (R386). -/
theorem messageEnqueue_next (hc : c < 4096) (hfirst : first < 65536)
    (hm : (s.conn c).msgs.find? (fun m => m.first == first && !m.queued) = some m) (hp : m.port = some p)
    (hwait : (s.waitEntry m.x m.entry m.seq).any (s.mustWait m.x) = false) {u : State}
    (hu : s.passTo (m.issued + 6 * hops m.x.bay (portBay p)) = u) :
    (u.noRoom p m → exec (.messageEnqueue c first) s = .next (u.msgRefused c p m first)) ∧
    (¬ u.noRoom p m → exec (.messageEnqueue c first) s = .next (u.msgQueued c p m first)) := by
  have hok : (decide (c < 4096) && decide (first < 65536)) = true := by rw [decide_eq_true hc, decide_eq_true hfirst, Bool.and_self]
  have hexec : exec (.messageEnqueue c first) s = execMessageEnqueue c first s := rfl
  rw [hexec, execMessageEnqueue, guarded_next _ _ hok]
  simp only [hm, hp, hwait, hu, Bool.false_eq_true, if_false]
  exact ⟨fun h => congrArg _ (if_pos h), fun h => congrArg _ (if_neg h)⟩

/-- A message in its queue, in the words of its statement. -/
theorem msgQueued_queues (s : State) (c p : Nat) (m : TxMsg) (first : Nat) :
    (((s.msgQueued c p m first).inst p).sub (descSubq m.desc)).msgs.map (·.item) =
      ((s.inst p).sub (descSubq m.desc)).msgs.map (·.item) ++ [.msg c first] ∧
    ((s.msgQueued c p m first).conn c).msgs =
      (s.conn c).msgs.map (fun y => if y.first = first then { y with queued := true, ready := s.ec } else y) ∧
    Touches [.fab, .conns, .regs] s (s.msgQueued c p m first) := by
  refine ⟨?_, ?_, ((touches_updConn s c _).then_ (touches_enqueue _ p _ _)).mono (by decide)⟩
  · rw [State.msgQueued, msgs_enqueue, List.map_append]
    rfl
  · rw [State.msgQueued, (touches_enqueue _ p _ _).conn, State.conn_updConn_same]

/-- A refused message has left its connection. -/
theorem msgRefused_leaves (s : State) (c p : Nat) (m : TxMsg) (first : Nat) :
    ((s.msgRefused c p m first).conn c).msgs = (s.conn c).msgs.filter (·.first != first) ∧ (s.msgRefused c p m first).mem = s.mem := by
  have hcount := (touches_bump s (Reg.schedErr p) Reg.schedErr_BUSY).trans (touches_setFld _ (Reg.schedErr p) Reg.schedErr_BUSYEV 1)
  refine ⟨?_, (touches_finishAt _ m.x m.entry m.seq _).mem.trans ((touches_updConn _ c _).mem.trans hcount.mem)⟩
  rw [State.msgRefused, (touches_finishAt _ m.x m.entry m.seq _).conn, State.conn_updConn_same, hcount.conn]

/-- Time does not change what room a message finds. -/
theorem noRoom_passTo (t : Nat) (hp : p < 8) : (s.passTo t).noRoom p m ↔ s.noRoom p m := by
  have htime := touches_passTo s t
  have hlim : (s.passTo t).fld (Reg.schedSvc1 p (descSvc m.desc)) Reg.schedSvc1_QLIM =
      s.fld (Reg.schedSvc1 p (descSvc m.desc)) Reg.schedSvc1_QLIM :=
    s.fld_passTo t _ _ (Or.inr (Or.inl (by unfold Reg.schedSvc1; omega)))
  unfold State.noRoom State.inst State.queuedAll
  rw [hlim, htime.fab]

end

/-- Settles O38: the three instructions by their descriptor, and a message that enters its queue. -/
theorem messagesAreIssuedAndQueued : Obligations.MessagesAreIssuedAndQueued := by
  refine ⟨fun x w s => ?_, fun c first p m s hc hfirst hp hm hport hwait => ?_⟩
  · intro a d c src len k loc good issues waits fails
    have hd : s.descWords x w = d := rfl
    clear_value d
    refine ⟨fun hr => ⟨fun hk hop hloc hout hf n hn => ?_, fun ⟨hop, hok, hsrc⟩ => ⟨fun n hn => ?_, fun hn => ?_⟩⟩,
      fun hr => ⟨fun hsend hk hop hloc hout hf n hn => ?_, fun ⟨hop, hok, hsrc⟩ => ⟨fun hn => ?_, fun hsend n hn => ?_⟩⟩,
      fun hr => ⟨fun hsend hroom hop hloc hout hf n hn => ?_, fun ⟨hop, hok, hsrc⟩ => ⟨fun hn => ?_, fun hsend hroom n hn => ?_⟩⟩,
      fun n hr ⟨hop, hok, hsrc⟩ hrun hn => ?_⟩
    · have hnext := wrimm_next hr hop hd (fun h => absurd (hloc.symm.trans h) (by decide))
      rw [takeMsg_bad hk (sourceBad_true hloc hout)] at hnext
      exact badSource_issues hnext hf hn c
    · exact takeMsg_issues (wrimm_next hr hop hd hsrc) (sourceBad_false hok) hn
    · rw [wrimm_next hr hop hd hsrc, takeMsg_full (sourceBad_false hok) hn, Res.land]
    · have hnext := send_next hr hop hd (fun h => absurd (hloc.symm.trans h) (by decide))
      rw [if_pos hsend, takeMsg_bad hk (sourceBad_true hloc hout)] at hnext
      exact badSource_issues hnext hf hn c
    · rw [send_next hr hop hd hsrc]
      split
      · rw [takeMsg_full (sourceBad_false hok) hn, Res.land]
      · exact congrArg (fun r => Host.Outcome.next (Res.land s x 1 r)) (async_full hn _ _ _ _ _ _ _)
    · have hnext := send_next hr hop hd hsrc
      rw [if_pos hsend] at hnext
      exact takeMsg_issues hnext (sourceBad_false hok) hn
    · have hnext := recv_next hr hop hd (fun h => absurd (hloc.symm.trans h) (by decide))
      rw [recvBuf_room hsend hroom, if_pos (sourceBad_true hloc hout)] at hnext
      exact badSource_issues hnext hf hn c
    · rw [recv_next hr hop hd hsrc, recvBuf_full (sourceBad_false hok) hn, Res.land]
    · have hnext := recv_next hr hop hd hsrc
      rw [recvBuf_room hsend hroom, if_neg (Bool.eq_false_iff.1 (sourceBad_false hok)), hn] at hnext
      exact ⟨_, hnext, bufPosted_posts (rdOf w) n⟩
    · have hnext := send_next hr hop hd hsrc
      rw [if_neg (Bool.eq_false_iff.1 hrun)] at hnext
      obtain ⟨t, ht, hconn, -, ⟨o, hout, -⟩, hregs, hmem⟩ := refuseSend_lands hn .send (rdOf w) (bitsOf (d.getD 0 0) 0 12) cBusy
      exact ⟨t, hnext.trans (congrArg Host.Outcome.next ht), hconn c, by rw [hout, List.length_append, List.length_singleton], hregs, hmem⟩
  · intro limit held
    obtain ⟨u, hu⟩ : ∃ u, s.passTo (m.issued + 6 * hops m.x.bay (portBay p)) = u := ⟨_, rfl⟩
    have htime := hu ▸ touches_passTo s (m.issued + 6 * hops m.x.bay (portBay p))
    have hroom : u.noRoom p m ↔ s.noRoom p m := hu ▸ noRoom_passTo _ hp
    obtain ⟨hrefused, hqueued⟩ := messageEnqueue_next hc hfirst hm hport hwait hu
    refine ⟨fun hheld hpool => ?_, fun hfull => ?_⟩
    · obtain ⟨hitems, hmsgs, hframe⟩ := msgQueued_queues u c p m first
      have hinst : u.inst p = s.inst p := by rw [State.inst, htime.fab, State.inst]
      refine ⟨_, hqueued (hroom.not.2 (not_or.2 ⟨Nat.not_le.2 hheld, Nat.not_le.2 hpool⟩)), hitems.trans (by rw [hinst]),
        hmsgs.trans (by rw [htime.conn, hframe.ec]), ?_, htime.file.trans hframe.file, hframe.mem.trans htime.mem⟩
      rw [hframe.ec, ← hu, State.passTo_ec]
      exact le_max_right _ _
    · obtain ⟨hmsgs, hmem⟩ := msgRefused_leaves u c p m first
      exact ⟨_, hrefused (hroom.2 hfull), hmsgs.trans (by rw [htime.conn]), hmem.trans htime.mem⟩

end Sys2Proof.Machine

/-! # Flash pages unmapped -/

namespace Sys2Proof.Machine

-- One theorem after another, as in the tests: side by side their stacks ask for more memory than the check allows.
set_option Elab.async false

section

variable (s : State)

/-! ## What the page buffer leaves of the flash -/

theorem State.flash_passTo (t : Nat) : (s.passTo t).flash = s.flash := by
  unfold State.passTo
  split
  · exact foldl_same (fun u => u.flash) (fun u x _ => by
      show State.flash (if _ then _ else u) = u.flash
      split <;> rfl) _
  · rfl

theorem State.reg_admitOne (b : Nat) (a : Access) {o : Nat} (hrun : OffRuntime o) (hstk : o ≠ Reg.bayStkStatus b) :
    (s.admitOne b a).reg o = s.reg o := by
  have hwindow : (s.takeWindow b a.addr a.arrival (accessRet a b)).reg o = s.reg o := by
    unfold State.takeWindow
    cases accessRet a b <;> exact s.reg_passTo _ o hrun
  have hfree : ∀ u : State, (u.pbFree b a.addr).reg o = u.reg o := fun u => by
    refine (State.reg_setFld_ne _ _ _ hstk).trans ?_
    show State.reg (if _ then u.quieten b else u) o = u.reg o
    split <;> rfl
  unfold State.admitOne
  simp only
  split
  · rw [hfree, hwindow]
  · exact hwindow

theorem State.flash_admitOne (b : Nat) (a : Access) : (s.admitOne b a).flash = s.flash := by
  have hwindow : (s.takeWindow b a.addr a.arrival (accessRet a b)).flash = s.flash := by
    unfold State.takeWindow
    cases accessRet a b <;> exact s.flash_passTo _
  have hfree : ∀ u : State, (u.pbFree b a.addr).flash = u.flash := fun u => by
    show State.flash (if _ then u.quieten b else u) = u.flash
    split <;> rfl
  unfold State.admitOne
  simp only
  split
  · rw [hfree, hwindow]
  · exact hwindow

/-- A stroke that joins the page buffer leaves the flash and every register but the runtimes and the status of its stack. -/
theorem pbAdd_keeps (b addr : Nat) : (s.pbAdd b addr).flash = s.flash ∧
    ∀ o, OffRuntime o → o ≠ Reg.bayStkStatus b → (s.pbAdd b addr).reg o = s.reg o := by
  have hback : (s.writeBackFirst b).flash = s.flash ∧
      ∀ o, OffRuntime o → o ≠ Reg.bayStkStatus b → (s.writeBackFirst b).reg o = s.reg o := by
    unfold State.writeBackFirst
    split
    · exact ⟨s.flash_admitOne b _, fun o hrun hstk => s.reg_admitOne b _ hrun hstk⟩
    · exact ⟨rfl, fun _ _ _ => rfl⟩
  unfold State.pbAdd
  split
  · exact ⟨rfl, fun _ _ _ => rfl⟩
  · refine ⟨?_, fun o hrun hstk => (State.reg_setFld_ne _ _ _ hstk).trans ?_⟩
    · show State.flash (if _ then s.writeBackFirst b else s) = s.flash
      split
      · exact hback.1
      · rfl
    · show State.reg (if _ then s.writeBackFirst b else s) o = s.reg o
      split
      · exact hback.2 o hrun hstk
      · rfl

/-! ## Words of a map region (R329) -/

/-- Where the map region of a channel begins. -/
def State.mapStart (s : State) (c : Nat) : Nat := 512 * (locMem (s.fld (Reg.flashChMapbase c) Reg.flashChMapbase_LOC) / 512)

/-- What a write to the map regions and a discard leave of a state: the easels' registers, where the map regions lie, and the bytes
of a set. -/
structure State.Leaves (keep : Nat → Prop) (s t : State) : Prop where
  file : SameRegisters s t
  starts : ∀ c, c < 32 → t.mapStart c = s.mapStart c
  byte : ∀ a, keep a → t.byte a = s.byte a

variable {s} {keep : Nat → Prop}

theorem State.Leaves.refl (keep : Nat → Prop) (s : State) : State.Leaves keep s s := ⟨SameRegisters.refl s, fun _ _ => rfl, fun _ _ => rfl⟩

theorem State.Leaves.trans {t u : State} (h : State.Leaves keep s t) (h' : State.Leaves keep t u) : State.Leaves keep s u := by
  obtain ⟨hg, hv, ht, hp⟩ := h.file
  obtain ⟨hg', hv', ht', hp'⟩ := h'.file
  exact ⟨⟨hg'.trans hg, hv'.trans hv, ht'.trans ht, hp'.trans hp⟩, fun c hc => (h'.starts c hc).trans (h.starts c hc),
    fun a ha => (h'.byte a ha).trans (h.byte a ha)⟩

variable (s)

theorem State.flash_putMap (c i v : Nat) : (s.putMap c i v).flash = s.flash := (pbAdd_keeps _ _ _).1

/-- A word of a map region written leaves every byte but its own four. -/
theorem putMap_leaves {c : Nat} (_hc : c < 32) (i v : Nat) (hkeep : ∀ a, keep a → a < s.mapStart c + 4 * i ∨ s.mapStart c + 4 * i + 4 ≤ a) :
    State.Leaves keep s (s.putMap c i v) := by
  unfold State.putMap
  extract_lets a addr
  have hwrite : Touches [.mem] s (((s.setBytes a (natBytes 4 v)).setStamp (a / 512) (s.locWant (c / 2) addr)).setErrs (a / 512) 0) :=
    ((touches_setBytes s a _).then_ ((touches_setStamp _ _ _).then_ (touches_setErrs _ _ _))).mono (by decide)
  refine ⟨(hwrite.then_ (touches_pbAdd _ (c / 2) addr)).file, fun c' hc' => ?_, fun a' ha' => ?_⟩
  · have hreg := (pbAdd_keeps (((s.setBytes a (natBytes 4 v)).setStamp (a / 512) (s.locWant (c / 2) addr)).setErrs (a / 512) 0)
      (c / 2) addr).2 (Reg.flashChMapbase c') (by unfold OffRuntime Reg.flashChMapbase; omega)
      (by unfold Reg.flashChMapbase Reg.bayStkStatus; omega)
    rw [State.mapStart, State.mapStart, State.fld_of_reg hreg, hwrite.fld]
  · have hout := hkeep a' ha'
    rw [State.byte, State.mem_pbAdd]
    refine State.byte_setBytes_outside s (a := a) ?_
    rw [length_natBytes]
    exact hout

/-- The map region of a channel after one page alone has changed its place: one word is written. -/
theorem showMap_leaves {c lpage : Nat} (hc : c < 32) {old : FlashX} (hblocks : (s.fch c).blocks = old.blocks)
    (hat : ∀ p, p ≠ lpage → (s.fch c).at_ p = old.at_ p)
    (hkeep : ∀ a, keep a → a < s.mapStart c + 4 * (lpage / 32) ∨ s.mapStart c + 4 * (lpage / 32) + 4 ≤ a) :
    State.Leaves keep s (s.showMap c old) ∧ (s.showMap c old).flash = s.flash := by
  have hwords : ∀ (f : FlashX) (l : List Nat), (∀ p ∈ l, p = lpage) → ∀ u : State, State.Leaves keep s u ∧ u.flash = s.flash →
      State.Leaves keep s (l.foldl (fun v p => v.putMap c (p / 32) (Config.mapWord (f.at_ p))) u) ∧
      (l.foldl (fun v p => v.putMap c (p / 32) (Config.mapWord (f.at_ p))) u).flash = s.flash := by
    intro f l hl
    induction l with
    | nil => exact fun u hu => hu
    | cons p l ih =>
      rintro u ⟨hleaves, hflash⟩
      obtain rfl : p = lpage := hl p List.mem_cons_self
      refine ih (fun q hq => hl q (List.mem_cons_of_mem _ hq)) _ ⟨hleaves.trans (putMap_leaves u hc _ _ ?_), (u.flash_putMap _ _ _).trans hflash⟩
      rw [hleaves.starts c hc]
      exact hkeep
  have herases : ((s.fch c).keys.zipIdx).filter (fun k => ((s.fch c).block k.1).erases != (old.block k.1).erases) = [] := by
    simp [FlashX.block, hblocks]
  unfold State.showMap
  simp only [herases, List.foldl_nil]
  refine hwords _ _ (fun p hp => ?_) s ⟨State.Leaves.refl keep s, rfl⟩
  by_contra hne
  simpa [hat p hne] using (List.mem_filter.1 hp).2

theorem State.fch_setFch (c c' : Nat) (f : FlashX) : (s.setFch c f).fch c' = if c' = c then f else s.fch c' := SMap.get_set _ _ _ _ _

theorem setFch_leaves (c : Nat) (f : FlashX) : State.Leaves keep s (s.setFch c f) := ⟨SameRegisters.refl s, fun _ _ => rfl, fun _ _ => rfl⟩

/-- A channel set to a map in which one page alone has another place. -/
theorem setFlash_leaves {c lpage : Nat} (hc : c < 32) {f : FlashX} (hblocks : f.blocks = (s.fch c).blocks)
    (hat : ∀ p, p ≠ lpage → f.at_ p = (s.fch c).at_ p)
    (hkeep : ∀ a, keep a → a < s.mapStart c + 4 * (lpage / 32) ∨ s.mapStart c + 4 * (lpage / 32) + 4 ≤ a) :
    State.Leaves keep s (s.setFlash c f) ∧ (s.setFlash c f).flash = (s.setFch c f).flash := by
  have hset : (s.setFch c f).fch c = f := by rw [State.fch_setFch, if_pos rfl]
  unfold State.setFlash
  split
  · obtain ⟨hshown, hflash⟩ := showMap_leaves (s.setFch c f) (old := s.fch c) (lpage := lpage) hc (by rw [hset, hblocks])
      (fun p hp => by rw [hset, hat p hp]) hkeep
    exact ⟨(setFch_leaves s c f).trans hshown, hflash⟩
  · exact ⟨setFch_leaves s c f, rfl⟩

/-! ## Pages unmapped (R333) -/

/-- A channel with a logical page unmapped. -/
def FlashX.unmapped (f : FlashX) (lpage : Nat) : FlashX :=
  { f with map := SMap.set (fun _ => 0) f.map lpage 0, lost := SMap.set (fun _ => false) f.lost lpage false
           bad := SMap.clear f.bad (4 * lpage) (4 * lpage + 4), queue := f.queue.filter (· != lpage)
           place := SMap.set (fun _ => 0) f.place lpage 0
           patrolled := f.patrolled.filter (· != lpage) }

/-- A byte that neither a logical page nor its word in its channel's map region holds. -/
def State.OffPage (s : State) (lpage a : Nat) : Prop :=
  (a < s.mapStart (pageCh lpage) + 4 * (lpage / 32) ∨ s.mapStart (pageCh lpage) + 4 * (lpage / 32) + 4 ≤ a) ∧
    (a < t3Base + 16384 * lpage ∨ t3Base + 16384 * (lpage + 1) ≤ a)

theorem pageCh_lt (lpage : Nat) : pageCh lpage < 32 := Nat.mod_lt _ (by decide)

/-- A page unmapped: it reads as unmapped, every other page as before, and only its own bytes and its word change. -/
theorem unmapPage_leaves (lpage : Nat) (hkeep : ∀ a, keep a → s.OffPage lpage a) : State.Leaves keep s (s.unmapPage lpage) ∧
    ∀ q, (s.unmapPage lpage).pageMapped q = (decide (q ≠ lpage) && s.pageMapped q) := by
  have hset := setFlash_leaves s (pageCh_lt lpage) (f := (s.fch (pageCh lpage)).unmapped lpage) (lpage := lpage) rfl
    (fun p hp => SMap.get_set_ne _ _ _ hp) fun a ha => (hkeep a ha).1
  have hunmap : s.unmapPage lpage =
      let u := s.setFlash (pageCh lpage) ((s.fch (pageCh lpage)).unmapped lpage)
      { u with
        mem := SMap.clear u.mem (512 * (t3Base / 512 + 32 * lpage)) (512 * (t3Base / 512 + 32 * lpage + 32))
        seals := SMap.clear u.seals (t3Base / 512 + 32 * lpage) (t3Base / 512 + 32 * lpage + 32) } := rfl
  rw [hunmap]
  generalize s.setFlash (pageCh lpage) ((s.fch (pageCh lpage)).unmapped lpage) = u at hset ⊢
  obtain ⟨hleaves, hflash⟩ := hset
  refine ⟨⟨hleaves.file, hleaves.starts, fun a ha => ?_⟩, fun q => ?_⟩
  · refine (SMap.get_clear _ _ _ _ _).trans ((if_neg ?_).trans (hleaves.byte a ha))
    have hpage := (hkeep a ha).2
    unfold t3Base at hpage ⊢
    omega
  · have hfch : u.fch (pageCh q) = (s.setFch (pageCh lpage) ((s.fch (pageCh lpage)).unmapped lpage)).fch (pageCh q) :=
      congrArg (fun m => SMap.get (fun _ => ({} : FlashX)) m (pageCh q)) hflash
    show (SMap.get (fun _ => 0) (u.fch (pageCh q)).map q != 0) = _
    rw [hfch, State.fch_setFch]
    by_cases hq : q = lpage
    · subst hq
      simp [FlashX.unmapped]
    · have hsame : (if pageCh q = pageCh lpage then (s.fch (pageCh lpage)).unmapped lpage else s.fch (pageCh q)).at_ q =
          (s.fch (pageCh q)).at_ q := by
        split
        · next hch => rw [hch]; exact SMap.get_set_ne _ _ _ hq
        · rfl
      simp only [FlashX.at_] at hsame
      simp [hsame, hq, State.pageMapped]

theorem State.Leaves.offPage {t : State} (h : State.Leaves keep s t) {lpage a : Nat} : t.OffPage lpage a ↔ s.OffPage lpage a := by
  unfold State.OffPage
  rw [h.starts _ (pageCh_lt lpage)]

/-- A run of pages unmapped one after another. -/
theorem unmapPages_leaves (p0 n : Nat) (hkeep : ∀ a, keep a → ∀ i, i < n → s.OffPage (p0 + i) a) :
    State.Leaves keep s ((List.range n).foldl (fun u i => u.unmapPage (p0 + i)) s) ∧
    ∀ i, i < n → ((List.range n).foldl (fun u i => u.unmapPage (p0 + i)) s).pageMapped (p0 + i) = false := by
  induction n with
  | zero => exact ⟨State.Leaves.refl keep s, fun i hi => absurd hi (Nat.not_lt_zero i)⟩
  | succ n ih =>
    obtain ⟨hleaves, hpages⟩ := ih fun a ha i hi => hkeep a ha i (Nat.lt_succ_of_lt hi)
    rw [List.range_succ, List.foldl_append, List.foldl_cons, List.foldl_nil]
    obtain ⟨hone, hmapped⟩ := unmapPage_leaves _ (p0 + n) fun a ha => (hleaves.offPage s).2 (hkeep a ha n (Nat.lt_succ_self n))
    refine ⟨hleaves.trans hone, fun i hi => ?_⟩
    rw [hmapped]
    rcases Nat.lt_succ_iff_lt_or_eq.1 hi with hlt | rfl
    · rw [hpages i hlt, Bool.and_false]
    · simp

end

end Sys2Proof.Machine

/-! # The bay's engine -/

namespace Sys2Proof.Machine

-- One theorem after another, as in the tests: side by side their stacks ask for more memory than the check allows.
set_option Elab.async false

/-! ## The running descriptor -/

section

variable (s : State) {b : Nat} {g : EngX}

@[simp] theorem engine_setEngine (b : Nat) (g : EngX) : ((s.setEngine b g).bay b).engine = some g := by
  rw [State.setEngine, State.bay_updBay_same]

@[simp] theorem engine_engNote (b : Nat) (g : EngX) : ((s.engNote b g).bay b).engine = some g := by
  rw [State.engNote, (touches_setFld _ _ _ _).bay, engine_setEngine]

theorem touches_setEngine (b : Nat) (g : EngX) : Touches [.bays] s (s.setEngine b g) := touches_updBay s _ _

theorem touches_engRan (b : Nat) (g : EngX) (pass : Nat) : Touches [.bays, .regs] s (s.engRan b g pass) :=
  ((touches_setEngine s b _).then_ ((touches_setFld _ _ _ _).then_ (touches_setFld _ _ _ _))).mono (by decide)

/-- The operation shown as run: the engine keeps it, and PASS tells how far it came. -/
theorem engRan_shows (b : Nat) (g : EngX) {pass : Nat} (hpass : pass < 4) : ((s.engRan b g pass).bay b).engine = some { g with ran := true } ∧
    (s.engRan b g pass).fld (Reg.bayCmpStatus b) Reg.bayCmpStatus_PASS = pass := by
  refine ⟨?_, ?_⟩
  · rw [State.engRan, (touches_setFld _ _ _ _).bay, engine_engNote]
  · rw [State.engRan, State.fld_setFld_same _ _ _ _ (by decide)]
    exact Nat.mod_eq_of_lt hpass

/-- A whole operation that ends with one code has run, with a record for each of its sheets. -/
theorem engAll_shows (b : Nat) (g : EngX) (c : Nat) :
    (((s.engAll b g c).bay b).engine.map fun h => (h.ran, h.results.length)) = some (true, (engDesc g.desc).n) := by
  simp [State.engAll]

variable {s}

/-- The descriptor an operation of the engine is to run. -/
theorem engine_runs {op : Nat} (hg : (s.bay b).engine = some g) (hran : g.ran = false) (hop : (engDesc g.desc).op = op) :
    s.engine b op = some g := by
  simp [State.engine, hg, hran, hop]

end

/-! ## A descriptor taken (R134, R235, R494) -/

section

variable (s : State)

theorem touches_t2Read (a : Nat) : Touches [.host, .out] s (s.t2Read a) := (touches_setHost s _).then_ (touches_emit _ _)

theorem touches_t2Issue (d : EngDesc) : Touches [.host, .out] s (s.t2Issue d) := by
  unfold State.t2Issue
  exact Touches.ite (fun _ => Touches.refl _ s) fun _ => Touches.foldl (fun u i =>
    Touches.ite (fun _ => Touches.foldl (fun v j => touches_t2Read v _) _ _) fun _ => Touches.refl _ u) _ _

/-- A bay's engine with a descriptor taken from its queue: PASS is the first of its operation, DONE is 0. -/
def State.descriptorTaken (s : State) (b : Nat) (ws : List Nat) (q : List (List Nat)) (pass : Nat) : State :=
  ((s.updBay b fun y => { y with engine := some { desc := ws }, engineQ := q }).setFld (Reg.bayCmpStatus b) Reg.bayCmpStatus_PASS
    pass).setFld (Reg.bayCmpStatus b) Reg.bayCmpStatus_DONE 0

theorem touches_descriptorTaken (b : Nat) (ws : List Nat) (q : List (List Nat)) (pass : Nat) :
    Touches [.bays, .regs] s (s.descriptorTaken b ws q pass) :=
  ((touches_updBay s b _).then_ ((touches_setFld _ _ _ _).then_ (touches_setFld _ _ _ _))).mono (by decide)

theorem descriptorTaken_shows (b : Nat) (ws : List Nat) (q : List (List Nat)) (pass : Nat) :
    ((s.descriptorTaken b ws q pass).bay b).engine = some { desc := ws } ∧ ((s.descriptorTaken b ws q pass).bay b).engineQ = q ∧
      (s.descriptorTaken b ws q pass).fld (Reg.bayCmpStatus b) Reg.bayCmpStatus_DONE = 0 := by
  have hbay : (s.descriptorTaken b ws q pass).bay b = { s.bay b with engine := some { desc := ws }, engineQ := q } :=
    s.bay_updBay_same b fun y => { y with engine := some { desc := ws }, engineQ := q }
  exact ⟨by rw [hbay], by rw [hbay], State.fld_setFld_same _ _ _ _ (by decide)⟩

variable {s} {b : Nat} (hb : b < 16)

include hb

theorem engineDescriptorStart_braked (hbrake : s.fld Reg.pwrStatus Reg.pwrStatus_BRAKE = 1) :
    exec (.engineDescriptorStart b) s = .next s := by
  have hexec : exec (.engineDescriptorStart b) s = execEngineDescriptorStart b s := rfl
  rw [hexec, execEngineDescriptorStart, guarded_next _ _ (by simpa using hb), hbrake]
  cases (s.bay b).engine <;> simp

theorem engineDescriptorStart_takes {ws : List Nat} {q : List (List Nat)} (hnone : (s.bay b).engine = none)
    (hq : (s.bay b).engineQ = ws :: q) (hadm : s.admits b = true) (hbrake : s.fld Reg.pwrStatus Reg.pwrStatus_BRAKE = 0) :
    ∃ t, exec (.engineDescriptorStart b) s = .next t ∧ (t.bay b).engine = some { desc := ws } ∧ (t.bay b).engineQ = q ∧
      t.fld (Reg.bayCmpStatus b) Reg.bayCmpStatus_DONE = 0 ∧ SameRegisters s t ∧ t.mem = s.mem := by
  obtain ⟨pass, hexec⟩ : ∃ pass, exec (.engineDescriptorStart b) s = .next ((s.descriptorTaken b ws q pass).t2Issue (engDesc ws)) := by
    have hexec : exec (.engineDescriptorStart b) s = execEngineDescriptorStart b s := rfl
    rw [hexec, execEngineDescriptorStart, guarded_next _ _ (by simpa using hb)]
    simp only [hnone, hq, hadm, hbrake, decide_true, Bool.and_self, if_true]
    exact ⟨_, rfl⟩
  have hread := touches_t2Issue (s.descriptorTaken b ws q pass) (engDesc ws)
  have hall := (touches_descriptorTaken s b ws q pass).then_ hread
  obtain ⟨hengine, hqueue, hdone⟩ := descriptorTaken_shows s b ws q pass
  exact ⟨_, hexec, by rw [hread.bay, hengine], by rw [hread.bay, hqueue], by rw [hread.fld, hdone], hall.file, hall.mem⟩

end

/-! ## Images gathered and placed (R181, R182) -/

section

variable (s : State) {b : Nat}

/-- A fold that adds one element at each step adds as many as its list has. -/
theorem length_foldl_adds {α β σ : Type} {f : List β × σ → α → List β × σ} (hf : ∀ acc a, (f acc a).1.length = acc.1.length + 1)
    (l : List α) (acc : List β × σ) : (l.foldl f acc).1.length = acc.1.length + l.length := by
  induction l generalizing acc with
  | nil => rfl
  | cons a l ih => rw [List.foldl_cons, ih, hf, List.length_cons]; omega

/-- A run of sheets gathered has every one of them. -/
theorem length_gather (b : Nat) (d : EngDesc) (p : Pf) (part : PartnerCopies) (skip : Nat → Bool) :
    (s.gather b d p part skip).1.length = d.n := by
  unfold State.gather
  rw [length_foldl_adds (fun acc i => ?_), List.length_range, List.length_nil, Nat.zero_add]
  simp only
  split
  · simp
  · split <;> simp

/-- Each gathered sheet leaves one record. -/
theorem length_results_placeAll (d : EngDesc) (p : Pf) (comp : Bool) (f : Gathered → Option (List Byte)) (l : List Gathered) (s : State)
    (g : EngX) (full : Bool) : (State.placeAll s d p comp f g l full).1.results.length = g.results.length + l.length := by
  induction l generalizing s g full with
  | nil => rfl
  | cons x l ih =>
    have hone : ∀ (u : State) (h : EngX) (c : Bool), h.results.length = g.results.length + 1 →
        (State.placeAll u d p comp f h l c).1.results.length = g.results.length + (x :: l).length := fun u h c hh => by
      rw [ih, hh, List.length_cons]; omega
    have hadd : ∀ r : Nat, (g.results ++ [r]).length = g.results.length + 1 := fun r => by simp
    unfold State.placeAll
    simp only
    split
    · exact hone _ _ _ (hadd _)
    · split
      · exact hone _ _ _ (hadd _)
      · split
        · exact hone _ _ _ (hadd _)
        · split
          · exact hone _ _ _ (hadd _)
          · exact hone _ _ _ (hadd _)

/-- The images of a compression, placed from a state and engine on. -/
def State.compressPlaced (s : State) (b : Nat) (part : PartnerCopies) (g : EngX) : EngX × State :=
  let d := engDesc g.desc
  let p := s.pf d.pf
  let gs := s.gather b d p part fun _ => false
  let imgs := gs.1.filterMap (·.img)
  let k := 256 * p.kv * p.bk
  let ck := regionCode d.xform p.bk (imgs.map (·.take k))
  let cv := regionCode d.xform p.bv (imgs.map (·.drop k))
  let made := fun x : Gathered =>
    x.img.map (buildImage (decide (s.fld (Reg.bayCmpCtrl b) Reg.bayCmpCtrl_VERIFY = 1)) p d.tid ck cv)
  let kept := fun x : Gathered => (made x).bind fun c => if ceilDiv c.1.length 512 < p.strokes then some c.1 else none
  State.placeAll (gs.2.verifyFailed b ((gs.1.filterMap made).map (·.2)).sum) d p true kept g gs.1 false

/-- The images of an expansion, placed from a state and engine on. -/
def State.expandPlaced (s : State) (b : Nat) (part : PartnerCopies) (g : EngX) : EngX × State :=
  let d := engDesc g.desc
  let p := s.pf d.pf
  let gs := s.gather b d p part fun e => !seCompressed e
  State.placeAll gs.2 d p false (fun x => x.img.map (fitTo (512 * p.strokes) 0)) g gs.1 false

theorem length_results_compressPlaced (part : PartnerCopies) (g : EngX) (hnew : g.results = []) :
    (s.compressPlaced b part g).1.results.length = (engDesc g.desc).n := by
  unfold State.compressPlaced
  rw [length_results_placeAll, length_gather, hnew, List.length_nil, Nat.zero_add]

theorem length_results_expandPlaced (part : PartnerCopies) (g : EngX) (hnew : g.results = []) :
    (s.expandPlaced b part g).1.results.length = (engDesc g.desc).n := by
  unfold State.expandPlaced
  rw [length_results_placeAll, length_gather, hnew, List.length_nil, Nat.zero_add]

/-- The bytes a compression took and left, counted outside confidential mode. -/
def State.compressCounted (s : State) (b size : Nat) (g : EngX) : State :=
  if s.conf then s
  else
    (s.count (Reg.bayCmpRawin b) Reg.bayCmpRawin_BYTES (g.commits.length * size)).count
      (Reg.bayCmpStoredout b) Reg.bayCmpStoredout_BYTES (512 * (g.commits.map fun x => seSlen x.2.2).sum)

theorem touches_compressCounted (b size : Nat) (g : EngX) : Touches [.regs] s (s.compressCounted b size g) :=
  Touches.ite (fun _ => Touches.refl _ s) fun _ => (touches_count s _ _ _).trans (touches_count _ _ _ _)

variable {s} {g : EngX} {part : PartnerCopies} (hb : b < 16)

include hb

section

variable (hg : s.engine b 0x20 = some g)

include hg

theorem compressGroup_refused (hcode : s.engCode b (engDesc g.desc) ≠ cDone) :
    exec (.compressGroup b part) s = .next (s.engAll b g (s.engCode b (engDesc g.desc))) := by
  have hexec : exec (.compressGroup b part) s = execCompressGroup b part s := rfl
  rw [hexec, execCompressGroup, guarded_next _ _ (by simpa using hb)]
  simp only [hg]
  rw [if_pos hcode]

theorem compressGroup_places (hcode : s.engCode b (engDesc g.desc) = cDone) (hx : (engDesc g.desc).xform ≠ 3)
    (htid : (engDesc g.desc).tid % 2 = 0) (htid0 : (engDesc g.desc).tid ≠ 0)
    (hdst : dstOk (s.pf (engDesc g.desc).pf) (engDesc g.desc) = true)
    (hfree : s.nbQueued (locMem (engDesc g.desc).dst / 512) (engDesc g.desc).dstlen = false) :
    exec (.compressGroup b part) s = .next (((s.compressPlaced b part g).2.compressCounted b (s.pf (engDesc g.desc).pf).size
      (s.compressPlaced b part g).1).engRan b (s.compressPlaced b part g).1 2) := by
  have hexec : exec (.compressGroup b part) s = execCompressGroup b part s := rfl
  rw [hexec, execCompressGroup, guarded_next _ _ (by simpa using hb)]
  simp only [hg]
  rw [if_neg (not_not.2 hcode), if_neg (by simp [hx, htid, htid0, hdst]), if_neg (by simp [hfree])]
  rfl

end

section

variable (hg : s.engine b 0x21 = some g)

include hg

theorem expandSheets_refused (hcode : s.engCode b (engDesc g.desc) ≠ cDone) :
    exec (.expandSheets b part) s = .next (s.engAll b g (s.engCode b (engDesc g.desc))) := by
  have hexec : exec (.expandSheets b part) s = execExpandSheets b part s := rfl
  rw [hexec, execExpandSheets, guarded_next _ _ (by simpa using hb)]
  simp only [hg]
  rw [if_pos hcode]

theorem expandSheets_places (hcode : s.engCode b (engDesc g.desc) = cDone)
    (hdst : dstOk (s.pf (engDesc g.desc).pf) (engDesc g.desc) = true)
    (hfree : s.nbQueued (locMem (engDesc g.desc).dst / 512) (engDesc g.desc).dstlen = false) :
    exec (.expandSheets b part) s = .next ((s.expandPlaced b part g).2.engRan b (s.expandPlaced b part g).1 3) := by
  have hexec : exec (.expandSheets b part) s = execExpandSheets b part s := rfl
  rw [hexec, execExpandSheets, guarded_next _ _ (by simpa using hb)]
  simp only [hg]
  rw [if_neg (not_not.2 hcode), if_neg (by simp [hdst]), if_neg (by simp [hfree])]
  rfl

end

end

/-! ## What follows a sheet: first strokes and commits (R233, R316) -/

/-- An engine state that has gone on with the same descriptor, with as many sheets recorded and the same word on whether it has run. -/
structure EngX.Follows (g h : EngX) : Prop where
  desc : h.desc = g.desc
  ran : h.ran = g.ran
  length : h.results.length = g.results.length

/-- An engine state that has recorded one sheet more of the same descriptor. -/
structure EngX.OneMore (g h : EngX) : Prop where
  desc : h.desc = g.desc
  length : h.results.length = g.results.length + 1

section

variable (s : State) {b : Nat} {g : EngX}

theorem EngX.OneMore.ite {g : EngX} {c : Prop} [Decidable c] {m n : EngX × State} (h : c → g.OneMore m.1) (h' : ¬ c → g.OneMore n.1) :
    g.OneMore (if c then m else n).1 := by
  split
  · next hc => exact h hc
  · next hc => exact h' hc

theorem EngX.Follows.refl (g : EngX) : g.Follows g := ⟨rfl, rfl, rfl⟩

theorem EngX.Follows.trans {g h k : EngX} (hgh : g.Follows h) (hhk : h.Follows k) : g.Follows k :=
  ⟨hhk.desc.trans hgh.desc, hhk.ran.trans hgh.ran, hhk.length.trans hgh.length⟩

theorem length_patch_one {α : Type} (l : List α) (i : Nat) (x : α) : (patch l i [x]).length = l.length := by
  simp only [patch, List.length_take, List.length_append, List.length_drop, List.length_cons, List.length_nil]
  omega

/-- An operation that goes on with its commits and its partner's moves as they were. -/
structure EngX.Keeps (g h : EngX) : Prop extends EngX.Follows g h where
  commits : h.commits = g.commits
  moves : h.moves = g.moves

theorem setResult_keeps (g : EngX) (i r n : Nat) : g.Keeps { g.setResult i r with changed := n } :=
  ⟨⟨rfl, rfl, length_patch_one _ _ _⟩, rfl, rfl⟩

theorem commitSheet_keeps (d : EngDesc) (p : Pf) (g : EngX) (c : Nat × Nat × Nat) : g.Keeps (s.commitSheet d p g c).1 := by
  unfold State.commitSheet
  split
  next i e e' =>
    extract_lets idx new
    split
    · exact setResult_keeps g i _ g.changed
    · split
      exact setResult_keeps g i _ _

theorem commitAll_keeps (d : EngDesc) (p : Pf) (cms : List (Nat × Nat × Nat)) (s : State) (g : EngX) :
    g.Keeps (s.commitAll d p g cms).1 := by
  have hfold : ∀ acc : EngX × State, acc.1.Keeps (cms.foldl (fun acc c => acc.2.commitSheet d p acc.1 c) acc).1 := by
    induction cms with
    | nil => exact fun acc => ⟨⟨rfl, rfl, rfl⟩, rfl, rfl⟩
    | cons c cms ih =>
      intro acc
      have hone := commitSheet_keeps acc.2 d p acc.1 c
      have hrest := ih (acc.2.commitSheet d p acc.1 c)
      rw [List.foldl_cons]
      exact ⟨hone.toFollows.trans hrest.toFollows, hrest.commits.trans hone.commits, hrest.moves.trans hone.moves⟩
  exact hfold (g, s)

/-- The first stroke of a sheet, written or not, leaves the operation going on. -/
theorem settleFirst_follows (hg : (s.bay b).engine = some g) :
    ∃ h, ((s.settleFirst b).bay b).engine = some h ∧ g.Follows h := by
  unfold State.settleFirst
  simp only [hg]
  split
  · exact ⟨g, hg, EngX.Follows.refl g⟩
  · split
    · exact ⟨g, hg, EngX.Follows.refl g⟩
    · exact ⟨_, engine_setEngine _ b _, ⟨rfl, rfl, rfl⟩⟩

/-- The commits of a move, carried out or not, leave the operation going on. -/
theorem settleMoves_follows (hg : (s.bay b).engine = some g) :
    ∃ h, ((s.settleMoves b).bay b).engine = some h ∧ g.Follows h := by
  unfold State.settleMoves
  simp only [hg]
  split
  · exact ⟨g, hg, EngX.Follows.refl g⟩
  · refine ⟨_, engine_setEngine _ b _, ?_⟩
    refine EngX.Follows.trans ?_ (commitAll_keeps _ _ _ _ _).toFollows
    split <;> exact ⟨rfl, rfl, rfl⟩

/-- With the partner in step and no page awaited, a move commits the sheets whose partner's move is answered and keeps the others. -/
theorem settleMoves_commits (hg : (s.bay b).engine = some g) (hop : (engDesc g.desc).op = 0x10) (hpages : g.pages = [])
    (haway : s.partnerAway = false) (hoff : s.mirrorOff = false) :
    ∃ h, ((s.settleMoves b).bay b).engine = some h ∧ h.moves = g.moves ∧
      h.commits = g.commits.filter fun c => g.moves.contains c.1 := by
  unfold State.settleMoves
  simp only [hg, hop, haway, hoff, hpages, Bool.or_self, Bool.false_eq_true, ne_eq, not_true_eq_false, if_false]
  refine ⟨_, engine_setEngine _ b _, (commitAll_keeps _ _ _ _ _).moves, (commitAll_keeps _ _ _ _ _).commits.trans ?_⟩
  simp

/-- The record of one sheet of a build. -/
theorem buildSheet_oneMore (d : EngDesc) (p : Pf) (part : PartnerCopies) (i : Nat) (g : EngX) :
    g.OneMore (s.buildSheet b d p part i g).1 := by
  have hadd : ∀ r : Nat, g.OneMore { g with results := g.results ++ [r] } := fun r => ⟨rfl, by simp⟩
  unfold State.buildSheet
  extract_lets e c0 c out g0 built
  split
  · exact hadd _
  · split
    · exact hadd _
    · split
      · exact hadd _
      · exact ⟨rfl, List.length_append⟩

/-- The record of one sheet of a move. -/
theorem moveSheet_oneMore (d : EngDesc) (p : Pf) (part : PartnerCopies) (g : EngX) (i : Nat) : g.OneMore (s.moveSheet d p part g i).1 := by
  have hadd : ∀ (h : EngX) (r : Nat), h.desc = g.desc → h.results = g.results → g.OneMore { h with results := h.results ++ [r] } :=
    fun h r hd hr => ⟨hd, by simp [hr]⟩
  unfold State.moveSheet
  extract_lets idx e out n pos l c cs cd g1 e'
  have hout : ∀ (code : Nat) (h : EngX) (u : State), h.desc = g.desc → h.results = g.results → g.OneMore (out code h u).1 :=
    fun code h u hd hr => hadd h _ hd hr
  have hstays : ∀ c : Nat, g.OneMore (out c g s).1 := fun c => hout c g s rfl rfl
  clear_value out
  refine .ite (fun _ => hstays _) fun _ => .ite (fun _ => hstays _) fun _ => .ite (fun _ => hstays _) fun _ =>
    .ite (fun _ => hstays _) fun _ => .ite (fun _ => hstays _) fun _ => .ite (fun _ => hout _ _ _ rfl rfl) fun _ =>
    .ite (fun _ => hstays _) fun _ => .ite (fun _ => hstays _) fun _ => .ite (fun _ => hstays _) fun _ =>
    .ite (fun _ => hstays _) fun _ => ?_
  generalize s.moveStrokes d.pf p e e' (partOf part i) = moved
  obtain ⟨(_ | j), u⟩ := moved
  · generalize (u.padPage l n).queuePages l n = queued
    exact hout _ _ _ rfl rfl
  · exact hout _ _ _ rfl rfl

end

/-! ## Builds and moves, sheet by sheet (R232, R316) -/

section

variable {s : State} {b : Nat} {g : EngX} {part : PartnerCopies} (hb : b < 16)

include hb

section

variable (hg : s.engine b 0x23 = some g)

include hg

theorem buildSketches_refused (hnew : g.results = []) (hcode : s.engCode b (engDesc g.desc) ≠ cDone) :
    exec (.buildSketches b part) s = .next (s.engAll b g (s.engCode b (engDesc g.desc))) := by
  have hexec : exec (.buildSketches b part) s = execBuildSketches b part s := rfl
  rw [hexec, execBuildSketches, guarded_next _ _ (by simpa using hb)]
  simp only [hg]
  rw [if_pos (by simp [hnew, hcode])]

theorem buildSketches_takes (hcode : g.results ≠ [] ∨ s.engCode b (engDesc g.desc) = cDone) (hfirst : g.first = none)
    (hwaits : s.engWaits g = false)
    (hheld : s.sketchHeld (engDesc g.desc) (s.pf (engDesc g.desc).pf) g.results.length = false) :
    ∃ t h, exec (.buildSketches b part) s = .next t ∧ (t.bay b).engine = some h ∧ h.desc = g.desc ∧
      h.results.length = g.results.length + 1 ∧ h.ran = decide ((engDesc g.desc).n ≤ g.results.length + 1) := by
  have hexec : exec (.buildSketches b part) s = execBuildSketches b part s := rfl
  have hstart : (g.results.isEmpty && decide (s.engCode b (engDesc g.desc) ≠ cDone)) = false := by
    rcases hcode with h | h <;> simp [h]
  obtain ⟨hdesc, hlength⟩ := buildSheet_oneMore s (b := b) (engDesc g.desc) (s.pf (engDesc g.desc).pf) part g.results.length g
  rw [hexec, execBuildSketches, guarded_next _ _ (by simpa using hb)]
  simp only [hg]
  rw [hstart, if_neg Bool.false_ne_true, if_neg (by simp [hfirst, hwaits, hheld])]
  obtain ⟨h, hh, hfollow⟩ := settleFirst_follows _ (engine_engNote
    (s.buildSheet b (engDesc g.desc) (s.pf (engDesc g.desc).pf) part g.results.length g).2 b
    { (s.buildSheet b (engDesc g.desc) (s.pf (engDesc g.desc).pf) part g.results.length g).1 with
      ran := decide ((engDesc g.desc).n ≤
        (s.buildSheet b (engDesc g.desc) (s.pf (engDesc g.desc).pf) part g.results.length g).1.results.length) })
  exact ⟨_, h, rfl, hh, hfollow.desc.trans hdesc, hfollow.length.trans hlength, hfollow.ran.trans (by rw [hlength])⟩

end

section

variable (hg : s.engine b 0x10 = some g)

include hg

theorem moveSheets_refused (hnew : g.results = []) (hcode : s.pfCode (engDesc g.desc).pf (s.pf (engDesc g.desc).pf) ≠ cDone) :
    exec (.moveSheets b part) s = .next (s.engAll b g (s.pfCode (engDesc g.desc).pf (s.pf (engDesc g.desc).pf))) := by
  have hexec : exec (.moveSheets b part) s = execMoveSheets b part s := rfl
  rw [hexec, execMoveSheets, guarded_next _ _ (by simpa using hb)]
  simp only [hg]
  rw [if_pos (by simp [hnew, hcode])]

theorem moveSheets_takes (hstart : g.results ≠ [] ∨ s.pfCode (engDesc g.desc).pf (s.pf (engDesc g.desc).pf) = cDone ∧
      (s.pf (engDesc g.desc).pf).home = b ∧ s.moveDst (s.pf (engDesc g.desc).pf) (engDesc g.desc) = true ∧ s.stackReads b s.ec = true)
    (hwaits : s.t2Waits (s.pf (engDesc g.desc).pf)
      (s.listEntry (s.pf (engDesc g.desc).pf) ((engDesc g.desc).idx + g.results.length)) = false)
    (hfree : s.nbQueued (locMem (engDesc g.desc).dst / 512 + g.used) (seSlen (s.listEntry (s.pf (engDesc g.desc).pf)
      ((engDesc g.desc).idx + g.results.length)) + (s.pf (engDesc g.desc).pf).ns) = false) :
    ∃ t h, exec (.moveSheets b part) s = .next t ∧ (t.bay b).engine = some h ∧ h.desc = g.desc ∧
      h.results.length = g.results.length + 1 ∧ h.ran = decide ((engDesc g.desc).n ≤ g.results.length + 1) := by
  have hexec : exec (.moveSheets b part) s = execMoveSheets b part s := rfl
  obtain ⟨hdesc, hlength⟩ := moveSheet_oneMore s (engDesc g.desc) (s.pf (engDesc g.desc).pf) part g g.results.length
  have hno : ∀ c : Bool, (g.results = [] → c = false) → ¬ (g.results.isEmpty && c) = true := fun c hc => by
    cases hr : g.results.isEmpty
    · simp
    · simp [hc (by simpa using hr)]
  have hmet := fun hnew : g.results = [] => hstart.resolve_left (not_not.2 hnew)
  rw [hexec, execMoveSheets, guarded_next _ _ (by simpa using hb)]
  simp only [hg]
  rw [if_neg (hno _ fun hnew => by simp [(hmet hnew).1]), if_neg (hno _ fun hnew => by simp [(hmet hnew).2.1, (hmet hnew).2.2.1]),
    if_neg (hno _ fun hnew => by simp [(hmet hnew).2.1, (hmet hnew).2.2.2]), if_neg (by simp [hwaits, hfree])]
  generalize s.moveSheet (engDesc g.desc) (s.pf (engDesc g.desc).pf) part g g.results.length = made at hdesc hlength ⊢
  have hall : ∀ u : State, ∃ t h, (.next ((u.engNote b { made.1 with
        ran := decide ((engDesc g.desc).n ≤ made.1.results.length) }).settleMoves b) : Host.Outcome State Fault Refusal) = .next t ∧ (t.bay b).engine = some h ∧
      h.desc = g.desc ∧ h.results.length = g.results.length + 1 ∧ h.ran = decide ((engDesc g.desc).n ≤ g.results.length + 1) := fun u => by
    obtain ⟨h, hh, hfollow⟩ := settleMoves_follows _ (engine_engNote u b
      { made.1 with ran := decide ((engDesc g.desc).n ≤ made.1.results.length) })
    exact ⟨_, h, rfl, hh, hfollow.desc.trans hdesc, hfollow.length.trans hlength, hfollow.ran.trans (by rw [hlength])⟩
  exact hall _

end

end

/-! ## The partner's answers (R316, R320) -/

section

variable {s : State} {b : Nat} {g : EngX} {i : Nat} {ms : List Nat} (hb : b < 16) (hg : (s.bay b).engine = some g) (hmoves : g.moves = i :: ms)

include hb hg hmoves

theorem movePartnerAck_applied :
    exec (.movePartnerAck b true) s = .next ((s.setEngine b { g with moves := ms }).settleMoves b) := by
  have hexec : exec (.movePartnerAck b true) s = execMovePartnerAck b true s := rfl
  rw [hexec, execMovePartnerAck, guarded_next _ _ (by simpa using hb)]
  simp only [hg, hmoves, if_true]

theorem movePartnerAck_refused : exec (.movePartnerAck b false) s = .next (s.setEngine b ((g.commits.filter fun c => c.1 == i).foldl
    (fun h c => h.setResult i (recOf (engDesc g.desc).op cUnavailable c.2.1))
    { g with moves := ms, commits := g.commits.filter fun c => c.1 != i })) := by
  have hexec : exec (.movePartnerAck b false) s = execMovePartnerAck b false s := rfl
  rw [hexec, execMovePartnerAck, guarded_next _ _ (by simpa using hb)]
  simp only [hg, hmoves, Bool.false_eq_true, if_false]

/-- An answer with the partner in step and no page awaited commits what awaits no other answer. -/
theorem movePartnerAck_commits (hop : (engDesc g.desc).op = 0x10) (hpages : g.pages = []) (haway : s.partnerAway = false)
    (hoff : s.mirrorOff = false) :
    ∃ t h, exec (.movePartnerAck b true) s = .next t ∧ (t.bay b).engine = some h ∧ h.moves = ms ∧
      h.commits = g.commits.filter fun c => ms.contains c.1 := by
  obtain ⟨h, hh, hrest⟩ := settleMoves_commits (s.setEngine b { g with moves := ms }) (engine_setEngine s b _) hop hpages haway hoff
  exact ⟨_, h, movePartnerAck_applied hb hg hmoves, hh, hrest⟩

end

/-! ## Copies and heat reports (R313, R322) -/

section

variable {s : State} {b : Nat} {g : EngX} (hb : b < 16)

include hb

theorem heatReport_noSession (hg : s.engine b 0x18 = some g) (hvalid : (s.pf (engDesc g.desc).pf).valid = false) :
    exec (.heatReport b) s = .next (s.engAll b g cNoSession) := by
  have hexec : exec (.heatReport b) s = execHeatReport b s := rfl
  rw [hexec, execHeatReport, guarded_next _ _ (by simpa using hb)]
  simp only [hg]
  rw [if_pos (by simp [hvalid])]

/-- What a heat report tells of a sheet: its effective count with bit 16 set, or 0 where the table does not hold it. -/
def State.heatRec (s : State) (b : Nat) (d : EngDesc) (i : Nat) : Nat :=
  match (s.heatOf b).find d.pf (d.idx + i) with
  | some w => ((s.heatOf b).way (heatSet d.pf (d.idx + i)) w).eff (s.heatTick b) + 2 ^ 16
  | none => 0

theorem heatReport_tells (hg : s.engine b 0x18 = some g) (hvalid : (s.pf (engDesc g.desc).pf).valid = true)
    (hhome : (s.pf (engDesc g.desc).pf).home = b) : exec (.heatReport b) s =
      .next (s.setEngine b { g with ran := true, results := (List.range (engDesc g.desc).n).map (s.heatRec b (engDesc g.desc)) }) := by
  have hexec : exec (.heatReport b) s = execHeatReport b s := rfl
  rw [hexec, execHeatReport, guarded_next _ _ (by simpa using hb)]
  simp only [hg]
  rw [if_neg (by simp [hvalid]), if_neg (not_not.2 hhome)]
  rfl

/-- One stroke of a copy, where none has failed before it. -/
def copyStep (src dst : Nat) (acc : Option Nat × State) (i : Nat) : Option Nat × State :=
  if acc.1.isSome then acc else (if (acc.2.copyStroke src dst i).1 then none else some i, (acc.2.copyStroke src dst i).2)

theorem copyT3_copies (hg : s.engine b 0x14 = some g) (hsrc : locTier (engDesc g.desc).src = 3) (hdst : locTier (engDesc g.desc).dst < 2)
    (halign : locAddr (engDesc g.desc).src % 32 = 0) (hlen : (engDesc g.desc).dstlen % 32 = 0)
    (hcap : locAddr (engDesc g.desc).src + (engDesc g.desc).dstlen ≤ 32 * s.fld Reg.flashCap Reg.flashCap_LPAGES)
    (hfits : locFits (engDesc g.desc).dst (engDesc g.desc).dstlen = true)
    (hreserved : s.reserved (engDesc g.desc).dst (engDesc g.desc).dstlen = false) (hreads : s.locReads (engDesc g.desc).dst s.ec = true)
    (hup : ∀ i, i < (engDesc g.desc).dstlen / 32 → s.t3Up (locAddr (engDesc g.desc).src + 32 * i) = true)
    (hfree : s.nbQueued (locMem (engDesc g.desc).dst / 512) (engDesc g.desc).dstlen = false) :
    let run := (List.range (engDesc g.desc).dstlen).foldl (copyStep (engDesc g.desc).src (engDesc g.desc).dst) (none, s)
    (run.1 = none → exec (.copyT3 b) s = .next (run.2.engOne b { g with pages := [] } cDone 0)) ∧
    (∀ i, run.1 = some i → exec (.copyT3 b) s = .next (run.2.engOne b g cDamaged i)) := by
  intro run
  have hne : locTier (engDesc g.desc).dst ≠ 3 := by omega
  have hallup : (List.range ((engDesc g.desc).dstlen / 32)).any (fun i => !s.t3Up (locAddr (engDesc g.desc).src + 32 * i)) = false := by
    simpa using hup
  have hexec : exec (.copyT3 b) s = execCopyT3 b s := rfl
  rw [hexec, execCopyT3, guarded_next _ _ (by simpa using hb)]
  simp only [hg, hsrc, hne, decide_true, decide_false, if_true, Bool.true_and, reduceCtorEq, Bool.false_eq_true]
  rw [if_neg (by simp [halign, hlen, hfits, hreserved]; omega), if_neg (by simp only [hreads, hallup]; simp), if_neg (by simp),
    if_neg (by simp [hfree])]
  generalize hmodel : List.foldl _ (none, s) (List.range (engDesc g.desc).dstlen) = made
  rw [show run = made from hmodel]
  obtain ⟨bad, u⟩ := made
  refine ⟨fun h => ?_, fun i h => ?_⟩
  · obtain rfl : bad = none := h
    simp only [State.queuePages, if_neg hne]
  · obtain rfl : bad = some i := h
    rfl

end

/-! ## Completion (R184, R321) -/

section

variable (s : State)

theorem engine_fire (b source : Nat) (r : Word) (m b' : Nat) : ((s.fire b source r m).bay b').engine = (s.bay b').engine := by
  unfold State.fire
  refine foldl_same (fun u => (u.bay b').engine) (fun u n _ => ?_) s
  have hone : ((u.fireOne b n r).bay b').engine = (u.bay b').engine := by
    unfold State.fireOne
    extract_lets w0 l s1
    have hjoined : (s1.bay b').engine = (u.bay b').engine := engine_updBay u b b' rfl
    split
    · rw [(touches_setFld s1 _ _ _).bay, hjoined]
    · exact hjoined
  show ((State.bay (if _ then _ else u) b').engine) = _
  split
  · exact hone
  · rfl

/-- A record that arrives leaves the engine of every bay. -/
theorem engine_arrive (b d : Nat) (r : Word) (b' : Nat) : ((s.arrive b d r).bay b').engine = (s.bay b').engine := by
  have htold : ∀ (u : State) (m : Nat), ((u.told b d r m).bay b').engine = (u.bay b').engine := fun u m => by
    unfold State.told
    simp only
    split
    · rw [(touches_log _ _ _ _ _ _).bay, (touches_wakeWaiters u b m).bay]
    · rw [engine_fire, (touches_wakeWaiters u b m).bay]
  cases hup : s.bayUp b with
  | false => rw [arrive_down s b d r hup]
  | true =>
    by_cases hroom : (s.fifo b d).length < 32
    · rw [arrive_queued s b d r hup hroom, htold, State.queued, State.setFifo, (touches_setFld _ _ _ _).bay, engine_updBay _ _ _ rfl,
        (touches_count _ _ _ _).bay]
    · rw [arrive_lost s b d r hup (Nat.not_lt.1 hroom), htold, (touches_recordDropped s b d).bay]

/-- The engine of a bay idle again, its doorbell rung. -/
def State.engineEnded (s : State) (b : Nat) (d : EngDesc) : State :=
  let t := ((s.updBay b fun y => { y with engine := none }).quieten b).setFld (Reg.bayCmpStatus b) Reg.bayCmpStatus_PASS 0
  t.arrive b d.db (dbRecord d.tag t.node (Config.sourceKind 2))

theorem engine_engineEnded (b : Nat) (d : EngDesc) : ((s.engineEnded b d).bay b).engine = none := by
  rw [State.engineEnded, engine_arrive, (touches_setFld _ _ _ _).bay, State.quieten, engine_updBay _ _ _ rfl, State.bay_updBay_same]

theorem mem_engineEnded (b : Nat) (d : EngDesc) : (s.engineEnded b d).mem = s.mem :=
  ((touches_updBay s b _).then_ ((touches_quieten _ b).then_ ((touches_setFld _ _ _ _).then_ (touches_arrive _ b d.db _)))).mem

/-- Bytes put at the start of a T0 location they fit. -/
theorem mem_putT0 {l : Nat} {bs : List Byte} (ht0 : locTier l = 0) (hfits : locFits l (ceilDiv bs.length 512) = true) :
    (s.putT0 l 0 bs).mem = (s.setBytes (locMem l) bs).mem := by
  unfold State.putT0
  simp only [Nat.zero_add, Nat.add_zero, ht0, hfits, and_self, if_true]
  exact (Touches.foldl (fun u i => touches_setStamp u _ _) _ _).mem

theorem length_flatMap_natBytes (recs : List Nat) : (recs.flatMap (natBytes 8)).length = 8 * recs.length := by
  induction recs with
  | nil => rfl
  | cons r recs ih => rw [List.flatMap_cons, List.length_append, length_natBytes, ih, List.length_cons]; omega

/-- The records of an operation at its T0 location RES, and the engine idle after them. -/
theorem engineEnded_records (b : Nat) (d : EngDesc) (recs : List Nat) (ht0 : locTier d.res = 0)
    (hfits : locFits d.res (ceilDiv (8 * recs.length) 512) = true) :
    let t := (s.putT0 d.res 0 (recs.flatMap (natBytes 8))).engineEnded b d
    t.bytes (locMem d.res) (8 * recs.length) = recs.flatMap (natBytes 8) ∧ SameMemoryOutside s t (locMem d.res) (8 * recs.length) := by
  intro t
  have hmem : t.mem = (s.setBytes (locMem d.res) (recs.flatMap (natBytes 8))).mem :=
    (mem_engineEnded _ b d).trans (mem_putT0 s ht0 (by rwa [length_flatMap_natBytes]))
  rw [← length_flatMap_natBytes]
  refine ⟨?_, fun a ha => ?_⟩
  · rw [State.bytes, hmem]
    exact s.bytes_setBytes_same _ _
  · rw [State.byte, hmem]
    exact s.byte_setBytes_outside ha

variable {s} {u : State} {b : Nat} {g : EngX} (hb : b < 16) (hu : (s.settleMoves b).settleFirst b = u) (hg : (u.bay b).engine = some g)

include hb hu hg

theorem engineOpComplete_waits (h : (engDesc g.desc).op ∈ [0x10, 0x11, 0x14, 0x18, 0x20, 0x21, 0x23] ∧ g.ran = false ∨
    u.engPending (engDesc g.desc) g = true) : exec (.engineOpComplete b) s = .next s := by
  have hexec : exec (.engineOpComplete b) s = execEngineOpComplete b s := rfl
  rw [hexec, execEngineOpComplete, guarded_next _ _ (by simpa using hb)]
  simp only [hu, hg]
  refine congrArg Host.Outcome.next (if_pos ?_)
  rcases h with ⟨hknown, hran⟩ | hpending
  · rw [List.contains_iff_mem.2 hknown, hran]
    rfl
  · rw [hpending, Bool.or_true]

/-- A known operation with nothing outstanding ends with its commits carried out. -/
theorem engineOpComplete_ends {made : EngX × State}
    (hmade : u.commitAll (engDesc g.desc) (u.pf (engDesc g.desc).pf) { u.abandonAll (engDesc g.desc) g with commits := [] } g.commits = made)
    (hknown : (engDesc g.desc).op ∈ [0x10, 0x11, 0x14, 0x18, 0x20, 0x21, 0x23]) (hran : g.ran = true)
    (hpending : u.engPending (engDesc g.desc) g = false) : exec (.engineOpComplete b) s = .next ((made.2.putT0 (engDesc g.desc).res 0
      ((engRecords (engDesc g.desc).op made.1).flatMap (natBytes 8))).engineEnded b (engDesc g.desc)) := by
  have hexec : exec (.engineOpComplete b) s = execEngineOpComplete b s := rfl
  rw [hexec, execEngineOpComplete, guarded_next _ _ (by simpa using hb)]
  simp only [hu, hg]
  rw [if_neg (by rw [hran, hpending]; simp)]
  simp only [List.contains_iff_mem.2 hknown, if_true, hmade]
  rfl

/-- An operation no rule lists ends with shape, with nothing outstanding. -/
theorem engineOpComplete_unknown (hknown : (engDesc g.desc).op ∉ [0x10, 0x11, 0x14, 0x18, 0x20, 0x21, 0x23])
    (hpending : u.engPending (engDesc g.desc) g = false) :
    ∃ t, exec (.engineOpComplete b) s = .next t ∧ (t.bay b).engine = none := by
  have hexec : exec (.engineOpComplete b) s = execEngineOpComplete b s := rfl
  rw [hexec, execEngineOpComplete, guarded_next _ _ (by simpa using hb)]
  have hunknown : [0x10, 0x11, 0x14, 0x18, 0x20, 0x21, 0x23].contains (engDesc g.desc).op = false := by
    rw [← Bool.not_eq_true, List.contains_iff_mem]
    exact hknown
  simp only [hu, hg]
  rw [if_neg (by rw [hpending, hunknown]; simp)]
  simp only [hunknown, Bool.false_eq_true, if_false]
  exact ⟨_, rfl, engine_engineEnded _ b _⟩

end

/-! ## Every clause of the engine -/

section

variable {s : State} {b : Nat} {g : EngX} {part : PartnerCopies} (hb : b < 16)

/-- An operation that has run leaves its engine, its memory and its PASS. -/
theorem engRan_leaves (u : State) (b : Nat) (g : EngX) {pass : Nat} (hpass : pass < 4) :
    ((u.engRan b g pass).bay b).engine = some { g with ran := true } ∧ (u.engRan b g pass).mem = u.mem ∧
      (u.engRan b g pass).fld (Reg.bayCmpStatus b) Reg.bayCmpStatus_PASS = pass :=
  ⟨(engRan_shows u b g hpass).1, (touches_engRan u b g pass).mem, (engRan_shows u b g hpass).2⟩

include hb

theorem compressGroup_images (hg : s.engine b 0x20 = some g) (hcode : s.engCode b (engDesc g.desc) = cDone)
    (hx : (engDesc g.desc).xform ≠ 3) (htid : (engDesc g.desc).tid % 2 = 0) (htid0 : (engDesc g.desc).tid ≠ 0)
    (hdst : dstOk (s.pf (engDesc g.desc).pf) (engDesc g.desc) = true)
    (hfree : s.nbQueued (locMem (engDesc g.desc).dst / 512) (engDesc g.desc).dstlen = false) :
    ∃ t, exec (.compressGroup b part) s = .next t ∧ (t.bay b).engine = some { (s.compressPlaced b part g).1 with ran := true } ∧
      t.mem = (s.compressPlaced b part g).2.mem ∧ t.fld (Reg.bayCmpStatus b) Reg.bayCmpStatus_PASS = 2 ∧
      (g.results = [] → (s.compressPlaced b part g).1.results.length = (engDesc g.desc).n) := by
  obtain ⟨hengine, hmem, hpass⟩ := engRan_leaves ((s.compressPlaced b part g).2.compressCounted b (s.pf (engDesc g.desc).pf).size
    (s.compressPlaced b part g).1) b (s.compressPlaced b part g).1 (pass := 2) (by decide)
  exact ⟨_, compressGroup_places hb hg hcode hx htid htid0 hdst hfree, hengine, hmem.trans (touches_compressCounted _ b _ _).mem, hpass,
    length_results_compressPlaced s part g⟩

theorem expandSheets_images (hg : s.engine b 0x21 = some g) (hcode : s.engCode b (engDesc g.desc) = cDone)
    (hdst : dstOk (s.pf (engDesc g.desc).pf) (engDesc g.desc) = true)
    (hfree : s.nbQueued (locMem (engDesc g.desc).dst / 512) (engDesc g.desc).dstlen = false) :
    ∃ t, exec (.expandSheets b part) s = .next t ∧ (t.bay b).engine = some { (s.expandPlaced b part g).1 with ran := true } ∧
      t.mem = (s.expandPlaced b part g).2.mem ∧ t.fld (Reg.bayCmpStatus b) Reg.bayCmpStatus_PASS = 3 ∧
      (g.results = [] → (s.expandPlaced b part g).1.results.length = (engDesc g.desc).n) := by
  obtain ⟨hengine, hmem, hpass⟩ := engRan_leaves (s.expandPlaced b part g).2 b (s.expandPlaced b part g).1 (pass := 3) (by decide)
  exact ⟨_, expandSheets_places hb hg hcode hdst hfree, hengine, hmem, hpass, length_results_expandPlaced s part g⟩

theorem discardT3Range_shape (hg : s.engine b 0x11 = some g) (htier : locTier (engDesc g.desc).dst ≠ 3) :
    exec (.discardT3Range b) s = .next (s.engOne b g cShape 0) := by
  have hexec : exec (.discardT3Range b) s = execDiscardT3Range b s := rfl
  rw [hexec, execDiscardT3Range, guarded_next _ _ (by simpa using hb)]
  simp only [hg]
  rw [if_pos (Or.inl htier)]

/-- A byte that neither a range of T3 nor a map region holds. -/
def State.OffDiscard (s : State) (start len a : Nat) : Prop :=
  (a < t3Base + 512 * start ∨ t3Base + 512 * (start + len) ≤ a) ∧ OutsideMaps s a

theorem discardT3Range_discards (hg : s.engine b 0x11 = some g) (htier : locTier (engDesc g.desc).dst = 3)
    (halign : locAddr (engDesc g.desc).dst % 32 = 0) (hlen : (engDesc g.desc).dstlen % 32 = 0)
    (hcap : locAddr (engDesc g.desc).dst + (engDesc g.desc).dstlen ≤ 32 * s.fld Reg.flashCap Reg.flashCap_LPAGES)
    (hup : ∀ i, i < (engDesc g.desc).dstlen / 32 → s.t3Up (locAddr (engDesc g.desc).dst + 32 * i) = true) :
    ∃ t, exec (.discardT3Range b) s = .next t ∧ (t.bay b).engine = some { g with ran := true, results := [cDone], used := 0 } ∧
      (∀ i, i < (engDesc g.desc).dstlen / 32 → t.pageMapped (locAddr (engDesc g.desc).dst / 32 + i) = false) ∧
      (∀ a, (a < t3Base + 512 * locAddr (engDesc g.desc).dst ∨
          t3Base + 512 * (locAddr (engDesc g.desc).dst + (engDesc g.desc).dstlen) ≤ a) → OutsideMaps s a → t.byte a = s.byte a) ∧
      SameRegisters s t := by
  generalize hdst : locAddr (engDesc g.desc).dst = start at *
  generalize hdstlen : (engDesc g.desc).dstlen = len at *
  obtain ⟨hleaves, hpages⟩ := unmapPages_leaves s (keep := s.OffDiscard start len) (start / 32) (len / 32) fun a ha i hi => by
    obtain ⟨hrange, hmaps⟩ := ha
    have hword := hmaps (pageCh (start / 32 + i)) (pageCh_lt _)
    unfold State.OffPage
    simp only [State.chPages] at hword
    rw [State.mapStart]
    refine ⟨?_, by omega⟩
    generalize (s.fch _).luns * (s.fch _).perLun = blocks at hword
    generalize s.fld Reg.flashCap Reg.flashCap_LPAGES = pages at hcap hword
    omega
  have hexec : exec (.discardT3Range b) s = execDiscardT3Range b s := rfl
  have hallup : (List.range (len / 32)).any (fun i => !s.t3Up (start + 32 * i)) = false := by simpa using hup
  rw [hexec, execDiscardT3Range, guarded_next _ _ (by simpa using hb)]
  simp only [hg, hdst, hdstlen]
  rw [if_neg (by simp [htier, halign, hlen]; omega), hallup, if_neg Bool.false_ne_true]
  generalize (List.range (len / 32)).foldl (fun u i => u.unmapPage (start / 32 + i)) s = u at hleaves hpages
  exact ⟨_, rfl, engine_setEngine u b _, hpages, fun a hrange hmaps => hleaves.byte a ⟨hrange, hmaps⟩, hleaves.file⟩

end

/-- Settles O28: row by row, the images by what the gathering and the placing keep, a sheet of a build or a move by its one record,
a discard page by page, and the completion by what its arrival leaves of the engine. -/
theorem engineRunsItsDescriptors : Obligations.EngineRunsItsDescriptors := by
  intro b s part hb
  refine ⟨fun ws q hnone hq hadm hbrake => engineDescriptorStart_takes hb hnone hq hadm hbrake, engineDescriptorStart_braked hb,
    fun g hg hran => ?_, fun g i ms hg hmoves => ⟨movePartnerAck_applied hb hg hmoves, movePartnerAck_commits hb hg hmoves,
      movePartnerAck_refused hb hg hmoves⟩, ?_⟩
  · have hruns := fun op (hop : (engDesc g.desc).op = op) => engine_runs hg hran hop
    have hall := engAll_shows s b g
    refine ⟨fun hop hcode hx htid htid0 hdst hfree => compressGroup_images hb (hruns _ hop) hcode hx htid htid0 hdst hfree,
      fun hop hcode hdst hfree => expandSheets_images hb (hruns _ hop) hcode hdst hfree,
      fun hop hcode hfirst hwaits hheld => buildSketches_takes hb (hruns _ hop) hcode hfirst hwaits hheld,
      fun hop hstart hwaits hfree _ => moveSheets_takes hb (hruns _ hop) hstart hwaits hfree,
      fun hop hcode => ⟨compressGroup_refused hb (hruns _ hop) hcode, hall _⟩,
      fun hop hcode => ⟨expandSheets_refused hb (hruns _ hop) hcode, hall _⟩,
      fun hop hnew hcode => ⟨buildSketches_refused hb (hruns _ hop) hnew hcode, hall _⟩,
      fun hop hnew hcode => ⟨moveSheets_refused hb (hruns _ hop) hnew hcode, hall _⟩,
      fun hop htier halign hlen hcap hup => discardT3Range_discards hb (hruns _ hop) htier halign hlen hcap hup,
      fun hop htier => discardT3Range_shape hb (hruns _ hop) htier,
      fun hop hsrc hdst halign hlen hcap hfits hreserved hreads hup hfree =>
        copyT3_copies hb (hruns _ hop) hsrc hdst halign hlen hcap hfits hreserved hreads hup hfree,
      fun hop hvalid hhome => heatReport_tells hb (hruns _ hop) hvalid hhome,
      fun hop hvalid => ⟨heatReport_noSession hb (hruns _ hop) hvalid, hall _⟩⟩
  · intro u g hg d known done' recs
    refine ⟨fun hknown hran => engineOpComplete_waits hb rfl hg (Or.inl ⟨hknown, hran⟩),
      fun hpending => engineOpComplete_waits hb rfl hg (Or.inr hpending), fun hknown hran hpending =>
        ⟨_, engineOpComplete_ends hb rfl hg rfl hknown hran hpending, engine_engineEnded _ b _, engineEnded_records _ b d recs⟩,
      fun hknown hpending => engineOpComplete_unknown hb rfl hg hknown hpending⟩

end Sys2Proof.Machine

/-! # Weight-stream lanes

What a stop, a start and a key slot leave of the lanes of a bay, of its weight-stream registers and of the memory. -/

namespace Sys2Proof.Machine

-- One theorem after another, as in the tests: side by side their stacks ask for more memory than the check allows.
set_option Elab.async false

section

variable (s : State) (b e : Nat)

/-! ## Lanes read and written -/

/-- A lane read after one of its bay has been set. -/
theorem State.lane_setLane (k : Nat) (l : LaneX) : (s.setLane b e l).lane b k = if k = e then l else s.lane b k := by
  simp [State.lane, State.setLane, SMap.get_set]

@[simp] theorem State.lane_setLane_same (l : LaneX) : (s.setLane b e l).lane b e = l := by simp [State.lane_setLane]

@[simp] theorem State.lane_setReg (o : Nat) (v : Word) : (s.setReg o v).lane b e = s.lane b e := rfl

@[simp] theorem State.lane_setFld (o : Nat) (f : Fld) (n : Nat) : (s.setFld o f n).lane b e = s.lane b e := rfl

@[simp] theorem State.lane_wsBit (k : Nat) (f : Fld) (on : Bool) : (s.wsBit b k f on).lane b e = s.lane b e := rfl

@[simp] theorem State.lane_setBytes (a : Nat) (bs : List Byte) : (s.setBytes a bs).lane b e = s.lane b e := rfl

@[simp] theorem State.lane_ringStatus (k code entry : Nat) : (s.ringStatus b k code entry).lane b e = s.lane b e := rfl

@[simp] theorem State.lane_wsError (k code entry loc : Nat) : (s.wsError b k code entry loc).lane b e = s.lane b e := rfl

@[simp] theorem State.lane_quieten : (s.quieten b).lane b e = s.lane b e := by simp [State.lane, State.quieten]

theorem touches_setLane (l : LaneX) : Touches [.bays] s (s.setLane b e l) := touches_updBay s _ _

/-! ## The registers of the unit -/

/-- The bit of a lane just written in BAY.WS.STATUS. -/
theorem State.bitOf_wsBit {f : Fld} (on : Bool) (he : e < f.w) (hf : f.lo + f.w ≤ 64) :
    bitOf ((s.wsBit b e f on).fld (Reg.bayWsStatus b) f) e = on := by
  rw [State.bitOf_fld _ _ _ he, State.wsBit, State.fld_setFld_same _ _ _ _ (show f.lo + e + 1 ≤ 64 by omega)]
  cases on <;> rfl

/-- The bits of the lanes in the field of BAY.WS.STATUS that is not written. -/
theorem State.fld_wsBit_apart {f f' : Fld} (on : Bool) (he : e < f.w) (hf : f.lo + f.w ≤ 64)
    (h : f.lo + f.w ≤ f'.lo ∨ f'.lo + f'.w ≤ f.lo) :
    (s.wsBit b e f on).fld (Reg.bayWsStatus b) f' = s.fld (Reg.bayWsStatus b) f' :=
  State.fld_setFld_apart _ _ _ _ _ (show f.lo + e + 1 ≤ 64 by omega) (h.imp (fun h => show f.lo + e + 1 ≤ f'.lo by omega)
    fun h => show f'.lo + f'.w ≤ f.lo + e by omega)

/-- An offset that no stop of a lane writes: not BAY.WS.STATUS, BAY.WS.ERR or BAY.WS.ERRLOC. -/
abbrev OffLaneStop (b o : Nat) : Prop := o ≠ Reg.bayWsStatus b ∧ o ≠ Reg.bayWsErr b ∧ o ≠ Reg.bayWsErrloc b

theorem offLaneStop_ctrl : OffLaneStop b (Reg.bayWsCtrl b) := by
  unfold OffLaneStop Reg.bayWsCtrl Reg.bayWsStatus Reg.bayWsErr Reg.bayWsErrloc
  omega

theorem touches_wsError (code entry loc : Nat) : Touches [.regs] s (s.wsError b e code entry loc) :=
  ((touches_setReg s _ _).then_ ((touches_setReg _ _ _).then_ (touches_setFld _ _ _ _))).mono (by decide)

theorem State.reg_wsError (code entry loc : Nat) {o : Nat} (ho : OffLaneStop b o) : (s.wsError b e code entry loc).reg o = s.reg o := by
  obtain ⟨hstatus, herr, hloc⟩ := ho
  unfold State.wsError State.wsBit
  rw [State.reg_setFld_ne _ _ _ hstatus, State.reg_setReg_ne _ _ hloc, State.reg_setReg_ne _ _ herr]

/-- The error registers show the lane and its code, and its ERRSTOP bit is set (R268, R269). -/
theorem wsError_shows {code : Nat} (entry loc : Nat) (he : e < 12) (hcode : code < 16) :
    (s.wsError b e code entry loc).fld (Reg.bayWsErr b) Reg.bayWsErr_LANE = e ∧
      (s.wsError b e code entry loc).fld (Reg.bayWsErr b) Reg.bayWsErr_CODE = code ∧
      (s.wsError b e code entry loc).fld (Reg.bayWsErr b) Reg.bayWsErr_ERREV = 1 ∧
      bitOf ((s.wsError b e code entry loc).fld (Reg.bayWsStatus b) Reg.bayWsStatus_ERRSTOP) e = true := by
  have hfld : ∀ f : Fld, (s.wsError b e code entry loc).fld (Reg.bayWsErr b) f =
      bf (BitVec.ofNat 64 (e + code * 2 ^ 4 + 2 ^ 8 + entry % 4096 * 2 ^ 16)) f.lo f.w := fun f => by
    unfold State.wsError State.wsBit
    rw [State.fld_setFld_ne _ _ _ _ (by unfold Reg.bayWsErr Reg.bayWsStatus; omega),
      State.fld_setReg_ne _ _ _ (by unfold Reg.bayWsErr Reg.bayWsErrloc; omega), State.fld_setReg_same]
  have hval : (BitVec.ofNat 64 (e + code * 2 ^ 4 + 2 ^ 8 + entry % 4096 * 2 ^ 16)).toNat =
      e + code * 2 ^ 4 + 2 ^ 8 + entry % 4096 * 2 ^ 16 := by
    rw [BitVec.toNat_ofNat]
    omega
  simp only [hfld, bf, hval, bitsOf, Reg.bayWsErr_LANE, Reg.bayWsErr_CODE, Reg.bayWsErr_ERREV]
  exact ⟨by omega, by omega, by omega, State.bitOf_wsBit _ _ _ true he (by decide)⟩

/-- The error registers leave the RUN bits. -/
theorem fld_run_wsError (code entry loc : Nat) (he : e < 12) :
    (s.wsError b e code entry loc).fld (Reg.bayWsStatus b) Reg.bayWsStatus_RUN = s.fld (Reg.bayWsStatus b) Reg.bayWsStatus_RUN := by
  unfold State.wsError
  rw [State.fld_wsBit_apart _ _ _ _ he (by decide) (by decide),
    State.fld_setReg_ne _ _ _ (by unfold Reg.bayWsStatus Reg.bayWsErrloc; omega),
    State.fld_setReg_ne _ _ _ (by unfold Reg.bayWsStatus Reg.bayWsErr; omega)]

/-! ## A lane stops (R261, R268) -/

/-- The entry a lane is landing: that of its first stroke still to land. -/
def LaneX.landingEntry (l : LaneX) : Nat := ((l.flights.find? (!·.landed)).map (·.entry)).getD l.landing

/-- With nothing still to land the entry being landed is the one the lane keeps. -/
theorem LaneX.landingEntry_of_landed {l : LaneX} (h : l.flights.all (·.landed) = true) : l.landingEntry = l.landing := by
  have hnone : l.flights.find? (!·.landed) = none := by simpa using h
  rw [LaneX.landingEntry, hnone, Option.map_none, Option.getD_none]

/-- A lane that does not run or that is stopping: the unit issues no more strokes for it. -/
abbrev LaneX.Told (l : LaneX) : Prop := l.run = false ∨ l.stopping.isSome = true

/-- A lane as it stands after its stop. -/
def LaneX.ended (l : LaneX) : LaneX := { l with run := false, stopping := none, flights := [] }

section

variable (code entry loc : Nat)

/-- A stop ends its lane and leaves the other lanes of the bay. -/
theorem lane_wsEnd (k : Nat) : (s.wsEnd b e code entry loc).lane b k = if k = e then (s.lane b e).ended else s.lane b k := by
  unfold State.wsEnd
  simp only
  split <;> simp [State.lane_setLane, LaneX.ended]

theorem touches_wsEnd : Touches [.bays, .regs, .mem] s (s.wsEnd b e code entry loc) := by
  unfold State.wsEnd
  extract_lets l landing s1
  have h : Touches [.bays, .regs, .mem] s s1 := ((touches_setLane s _ _ _).then_ ((touches_quieten _ _).then_
    ((touches_setFld _ _ _ _).then_ (touches_setBytes _ _ _)))).mono (by decide)
  exact Touches.ite (fun _ => h) fun _ => (h.then_ (touches_wsError _ _ _ _ _ _)).mono (by decide)

theorem reg_wsEnd {o : Nat} (ho : OffLaneStop b o) : (s.wsEnd b e code entry loc).reg o = s.reg o := by
  have hshown (landing : Nat) : (((((s.setLane b e (s.lane b e).ended).quieten b).wsBit b e Reg.bayWsStatus_RUN false).ringStatus b e
      code landing)).reg o = s.reg o := State.reg_setFld_ne _ _ _ ho.1
  unfold State.wsEnd
  simp only
  split
  · exact hshown _
  · rw [State.reg_wsError _ _ _ _ _ _ ho]
    exact hshown _

/-- A stop clears the RUN bit of its lane. -/
theorem run_wsEnd (he : e < 12) :
    bitOf ((s.wsEnd b e code entry loc).fld (Reg.bayWsStatus b) Reg.bayWsStatus_RUN) e = false := by
  have hrun (u : State) (landing : Nat) : bitOf (((u.wsBit b e Reg.bayWsStatus_RUN false).ringStatus b e code landing).fld
      (Reg.bayWsStatus b) Reg.bayWsStatus_RUN) e = false := State.bitOf_wsBit u b e false he (by decide)
  unfold State.wsEnd
  simp only
  split
  · exact hrun _ _
  · rw [fld_run_wsError _ _ _ _ _ _ he]
    exact hrun _ _

/-- The ring of a lane lies where it did once BAY.WS.STATUS is written. -/
theorem ringBase_wsBit (f : Fld) (on : Bool) : (s.wsBit b e f on).ringBase b e = s.ringBase b e := by
  unfold State.ringBase State.wsBit
  rw [State.fld_setFld_ne _ _ _ _ (by unfold Reg.bayWsLane1 Reg.bayWsStatus; omega)]

/-- A stop writes the STATUS of its ring and nothing else of the memory (R261). -/
theorem mem_wsEnd : (s.wsEnd b e code entry loc).mem = (s.ringStatus b e code (s.lane b e).landingEntry).mem := by
  have hshown (u : State) (landing : Nat) (hmem : u.mem = s.mem) (hbase : u.ringBase b e = s.ringBase b e) :
      ((u.wsBit b e Reg.bayWsStatus_RUN false).ringStatus b e code landing).mem = (s.ringStatus b e code landing).mem := by
    unfold State.ringStatus
    rw [ringBase_wsBit, hbase, State.setBytes, State.setBytes, State.wsBit, State.setFld_mem, hmem]
  unfold State.wsEnd
  simp only
  split
  · exact hshown _ _ rfl rfl
  · rw [(touches_wsError _ _ _ _ _ _).mem]
    exact hshown _ _ rfl rfl

/-- The bytes of a ring's STATUS after a stop, and the memory around them. -/
theorem bytes_wsEnd : (s.wsEnd b e code entry loc).bytes (s.ringBase b e + 16) 8 =
      natBytes 8 (code + (s.lane b e).landingEntry % 4096 * 2 ^ 16) ∧
    SameMemoryOutside s (s.wsEnd b e code entry loc) (s.ringBase b e + 16) 8 := by
  have hlen (x : Nat) := length_natBytes 8 x
  constructor
  · rw [State.bytes, mem_wsEnd]
    have h := s.bytes_setBytes_same (s.ringBase b e + 16) (natBytes 8 (code + (s.lane b e).landingEntry % 4096 * 2 ^ 16))
    rwa [hlen] at h
  · intro a ha
    rw [State.byte, mem_wsEnd]
    exact s.byte_setBytes_outside (by rwa [hlen])

end

/-! ## A lane is told to stop (R268) -/

variable {s b e} {code : Nat}

/-- A lane that does not run or is stopping already is left. -/
theorem wsStop_told (h : (s.lane b e).Told) : s.wsStop b e code = s := by
  unfold State.wsStop State.wsStopAt
  refine if_neg fun hrun => ?_
  obtain ⟨hrun, hstop⟩ := hrun
  rcases h with h | h
  · simp [h] at hrun
  · rw [Option.isNone_iff_eq_none.1 hstop] at h
    cases h

section

variable (hrun : (s.lane b e).run = true) (hstop : (s.lane b e).stopping = none)

/-- The stopping of a lane, remembered. -/
def State.stopKept (s : State) (b e code : Nat) : State :=
  s.setLane b e { s.lane b e with stopping := some (code, s.wsAt b e) }

include hrun hstop

/-- A running lane remembers its stop while something is in flight. -/
theorem wsStop_inFlight (h : (s.lane b e).flights.all (·.landed) = false) : s.wsStop b e code = s.stopKept b e code := by
  unfold State.wsStop State.wsStopAt State.wsSettle
  simp only
  rw [if_pos ⟨hrun, by rw [hstop]; rfl⟩, State.lane_setLane_same]
  simp only [h, Bool.false_eq_true, if_false, State.stopKept]

/-- A running lane with nothing in flight stops at once. -/
theorem wsStop_landed (h : (s.lane b e).flights.all (·.landed) = true) :
    s.wsStop b e code = (s.stopKept b e code).wsEnd b e code (s.wsAt b e).1 (s.wsAt b e).2 := by
  unfold State.wsStop State.wsStopAt State.wsSettle
  simp only
  rw [if_pos ⟨hrun, by rw [hstop]; rfl⟩, State.lane_setLane_same]
  simp only [h, if_true, State.stopKept]

end

variable (s b e code)

/-- What a stop told to a lane can do: nothing where it is told already, else it is remembered or takes effect. -/
theorem wsStop_cases : ((s.lane b e).Told ∧ s.wsStop b e code = s) ∨ s.wsStop b e code = s.stopKept b e code ∨
    s.wsStop b e code = (s.stopKept b e code).wsEnd b e code (s.wsAt b e).1 (s.wsAt b e).2 := by
  by_cases htold : (s.lane b e).Told
  · exact Or.inl ⟨htold, wsStop_told htold⟩
  · have hrun : (s.lane b e).run = true := Bool.eq_true_of_not_eq_false fun h => htold (Or.inl h)
    have hstop : (s.lane b e).stopping = none := Option.not_isSome_iff_eq_none.1 fun h => htold (Or.inr h)
    cases hall : (s.lane b e).flights.all (·.landed) with
    | false => exact Or.inr (Or.inl (wsStop_inFlight hrun hstop hall))
    | true => exact Or.inr (Or.inr (wsStop_landed hrun hstop hall))

theorem touches_wsStop : Touches [.bays, .regs, .mem] s (s.wsStop b e code) := by
  have hkept : Touches [.bays] s (s.stopKept b e code) := touches_setLane s _ _ _
  rcases wsStop_cases s b e code with ⟨-, h⟩ | h | h <;> rw [h]
  · exact Touches.refl _ s
  · exact hkept.mono (by decide)
  · exact (hkept.then_ (touches_wsEnd _ _ _ _ _ _)).mono (by decide)

theorem reg_wsStop {o : Nat} (ho : OffLaneStop b o) : (s.wsStop b e code).reg o = s.reg o := by
  rcases wsStop_cases s b e code with ⟨-, h⟩ | h | h <;> rw [h]
  · rfl
  · rw [reg_wsEnd _ _ _ _ _ _ ho]
    rfl

/-- The lane told to stop is told, and so is every lane of the bay that was. -/
theorem told_wsStop {k : Nat} (hk : k = e ∨ (s.lane b k).Told) : ((s.wsStop b e code).lane b k).Told := by
  rcases wsStop_cases s b e code with ⟨htold, h⟩ | h | h <;> rw [h]
  · exact hk.elim (fun hk => hk ▸ htold) id
  · rw [State.stopKept, State.lane_setLane]
    split
    · exact Or.inr rfl
    · next hne => exact hk.resolve_left hne
  · rw [lane_wsEnd]
    split
    · exact Or.inl rfl
    · next hne =>
      rw [State.stopKept, State.lane_setLane, if_neg hne]
      exact hk.resolve_left hne

/-! ## Every lane of a bay is told to stop -/

theorem touches_wsStopAll : Touches [.bays, .regs, .mem] s (s.wsStopAll b code) :=
  Touches.foldl (fun u e => touches_wsStop u b e code) _ _

theorem fld_wsStopAll {o : Nat} (f : Fld) (ho : OffLaneStop b o) : (s.wsStopAll b code).fld o f = s.fld o f :=
  State.fld_of_reg (foldl_same (fun u => u.reg o) (fun u e _ => reg_wsStop u b e code ho) s) f

/-- Lanes told to stop one after another. -/
theorem told_foldl (l : List Nat) {k : Nat} (hk : k ∈ l ∨ (s.lane b k).Told) :
    ((l.foldl (fun u e => u.wsStop b e code) s).lane b k).Told := by
  induction l generalizing s with
  | nil => exact hk.resolve_left List.not_mem_nil
  | cons e l ih =>
    refine ih _ ?_
    rcases hk with hk | hk
    · exact (List.mem_cons.1 hk).symm.imp_right fun hk => told_wsStop s b e code (Or.inl hk)
    · exact Or.inr (told_wsStop s b e code (Or.inr hk))

theorem told_wsStopAll {k : Nat} (hk : k < 12) : ((s.wsStopAll b code).lane b k).Told :=
  told_foldl s b code _ (Or.inl (List.mem_range.2 hk))

end

/-! ## WS_LANE_START and WS_LANE_STOP (R258, R261, R268) -/

section

variable {s : State} {b e : Nat} (hb : b < 16) (he : e < 12)

/-- The ring of a lane does not fit its operand store (R261). -/
abbrev State.RingMisfit (s : State) (b e : Nat) : Prop :=
  s.ringSize b e < 16 ∨ 4096 < s.ringSize b e ∨ s.fld (Reg.bayWsLane1 b e) Reg.bayWsLane1_RINGOFF % 64 ≠ 0 ∨
    opSize < s.fld (Reg.bayWsLane1 b e) Reg.bayWsLane1_RINGOFF + 64 + 512 * (s.ringSize b e + 9)

/-- A start refused with shape: the lane emptied and stopped, and the error registers written. -/
def State.laneRefused (s : State) (b e : Nat) : State :=
  ((if (s.lane b e).run then (s.setLane b e {}).quieten b else s.setLane b e {}).wsBit b e Reg.bayWsStatus_RUN false).wsError b e cShape
    (s.fld (Reg.bayWsLane1 b e) Reg.bayWsLane1_FIRST) 0

/-- A start taken: the lane runs from FIRST, and bytes 0 to 63 of its ring are zero. -/
def State.laneStarted (s : State) (b e : Nat) : State :=
  let first := s.fld (Reg.bayWsLane1 b e) Reg.bayWsLane1_FIRST
  let s1 := (s.setLane b e { run := true, next := first, landing := first }).setBytes (s.ringBase b e) (List.replicate 64 0)
  ((s1.wsBit b e Reg.bayWsStatus_RUN true).wsBit b e Reg.bayWsStatus_ERRSTOP false).setReg (Reg.bayWsLane2 b e) (BitVec.ofNat 64 first)

include hb he

/-- What a start of a lane comes to. -/
theorem exec_wsLaneStart : exec (.wsLaneStart b e) s = .next (
    if s.easelsPerBay ≤ e then s.logLic b 0x04 (b * 16 + e)
    else if s.fld (Reg.bayWsCtrl b) Reg.bayWsCtrl_ENABLE = 0 then s
    else if s.RingMisfit b e then s.laneRefused b e else s.laneStarted b e) := by
  rw [show exec (.wsLaneStart b e) s = execWsLaneStart b e s from rfl, execWsLaneStart, guarded_next _ _ (by simp [hb, he])]
  rfl

/-- What a stop of a lane comes to. -/
theorem exec_wsLaneStop : exec (.wsLaneStop b e) s = .next (
    if s.easelsPerBay ≤ e then s.logLic b 0x04 (b * 16 + e) else s.wsStop b e cDone) := by
  rw [show exec (.wsLaneStop b e) s = execWsLaneStop b e s from rfl, execWsLaneStop, guarded_next _ _ (by simp [hb, he])]

omit hb

theorem laneRefused_stopped : ((s.laneRefused b e).lane b e).run = false ∧
    (s.laneRefused b e).fld (Reg.bayWsErr b) Reg.bayWsErr_LANE = e ∧
    (s.laneRefused b e).fld (Reg.bayWsErr b) Reg.bayWsErr_CODE = cShape ∧
    (s.laneRefused b e).fld (Reg.bayWsErr b) Reg.bayWsErr_ERREV = 1 ∧
    bitOf ((s.laneRefused b e).fld (Reg.bayWsStatus b) Reg.bayWsStatus_RUN) e = false ∧
    bitOf ((s.laneRefused b e).fld (Reg.bayWsStatus b) Reg.bayWsStatus_ERRSTOP) e = true ∧
    SameRegisters s (s.laneRefused b e) ∧ (s.laneRefused b e).mem = s.mem := by
  unfold State.laneRefused
  generalize hs1 : (if (s.lane b e).run then (s.setLane b e {}).quieten b else s.setLane b e {}) = s1
  have hlane : (s1.lane b e).run = false := by
    rw [← hs1]
    split <;> simp
  have htouch : Touches [.bays] s s1 := hs1 ▸ Touches.ite
    (fun _ => ((touches_setLane s _ _ _).then_ (touches_quieten _ _)).mono (by decide)) fun _ => touches_setLane s _ _ _
  have hall := htouch.then_ ((touches_setFld _ _ _ _ : Touches _ s1 (s1.wsBit b e Reg.bayWsStatus_RUN false)).then_
    (touches_wsError _ b e cShape (s.fld (Reg.bayWsLane1 b e) Reg.bayWsLane1_FIRST) 0))
  obtain ⟨hl, hcode, hev, hstop⟩ := wsError_shows (s1.wsBit b e Reg.bayWsStatus_RUN false) b e (code := cShape)
    (s.fld (Reg.bayWsLane1 b e) Reg.bayWsLane1_FIRST) 0 he (by decide)
  refine ⟨hlane, hl, hcode, hev, ?_, hstop, hall.file, hall.mem⟩
  rw [fld_run_wsError _ _ _ _ _ _ he]
  exact State.bitOf_wsBit _ _ _ false he (by decide)

theorem laneStarted_runs : let first := s.fld (Reg.bayWsLane1 b e) Reg.bayWsLane1_FIRST
    (s.laneStarted b e).lane b e = { run := true, next := first, landing := first } ∧
    (∀ k, k < 64 → (s.laneStarted b e).byte (s.ringBase b e + k) = 0) ∧
    SameMemoryOutside s (s.laneStarted b e) (s.ringBase b e) 64 ∧ SameRegisters s (s.laneStarted b e) ∧
    bitOf ((s.laneStarted b e).fld (Reg.bayWsStatus b) Reg.bayWsStatus_RUN) e = true ∧
    bitOf ((s.laneStarted b e).fld (Reg.bayWsStatus b) Reg.bayWsStatus_ERRSTOP) e = false ∧
    (s.laneStarted b e).fld (Reg.bayWsLane2 b e) Reg.bayWsLane2_ENTRY = first := by
  intro first
  have hbyte (a : Nat) : (s.laneStarted b e).byte a = (s.setBytes (s.ringBase b e) (List.replicate 64 0)).byte a := rfl
  have hstatus : Reg.bayWsStatus b ≠ Reg.bayWsLane2 b e := by
    unfold Reg.bayWsStatus Reg.bayWsLane2
    omega
  refine ⟨?_, fun k hk => ?_, fun a ha => ?_, ⟨rfl, rfl, rfl, rfl⟩, ?_, ?_, ?_⟩
  · simp [State.laneStarted, first]
  · rw [hbyte, State.byte_setBytes, dif_pos ⟨by omega, by rw [List.length_replicate]; omega⟩, List.getElem_replicate]
  · rw [hbyte]
    exact s.byte_setBytes_outside (by rwa [List.length_replicate])
  · rw [State.laneStarted, State.fld_setReg_ne _ _ _ hstatus, State.fld_wsBit_apart _ _ _ _ he (by decide) (by decide)]
    exact State.bitOf_wsBit _ _ _ true he (by decide)
  · rw [State.laneStarted, State.fld_setReg_ne _ _ _ hstatus]
    exact State.bitOf_wsBit _ _ _ false he (by decide)
  · have hfirst : first < 2 ^ 12 := s.fld_lt _ _
    rw [State.laneStarted, State.fld_setReg_same, bf, BitVec.toNat_ofNat, bitsOf, Reg.bayWsLane2_ENTRY]
    dsimp only
    omega

/-- A stop of a running lane with nothing in flight: it ends with done in the status of its ring. -/
theorem wsStop_ends (hrun : (s.lane b e).run = true) (hstop : (s.lane b e).stopping = none)
    (h : (s.lane b e).flights.all (·.landed) = true) :
    ((s.wsStop b e cDone).lane b e).run = false ∧
    bitOf ((s.wsStop b e cDone).fld (Reg.bayWsStatus b) Reg.bayWsStatus_RUN) e = false ∧
    (s.wsStop b e cDone).bytes (s.ringBase b e + 16) 8 = natBytes 8 ((s.lane b e).landing % 4096 * 2 ^ 16) ∧
    SameMemoryOutside s (s.wsStop b e cDone) (s.ringBase b e + 16) 8 ∧ SameRegisters s (s.wsStop b e cDone) := by
  have htouch := touches_wsStop s b e cDone
  rw [wsStop_landed hrun hstop h] at htouch ⊢
  have hentry : ((s.stopKept b e cDone).lane b e).landingEntry = (s.lane b e).landing := by
    rw [State.stopKept, State.lane_setLane_same]
    exact LaneX.landingEntry_of_landed (l := { s.lane b e with stopping := _ }) h
  obtain ⟨hbytes, hout⟩ := bytes_wsEnd (s.stopKept b e cDone) b e cDone (s.wsAt b e).1 (s.wsAt b e).2
  rw [hentry, cDone, Nat.zero_add] at hbytes
  refine ⟨?_, run_wsEnd _ _ _ _ _ _ he, hbytes, hout, htouch.file⟩
  rw [lane_wsEnd, if_pos rfl]
  rfl

end

/-! ## BAY.WS.CTRL and the counters (R186, R248, R269) -/

section

variable {b : Nat} (s : State) (hb : b < 16)

include hb

theorem exec_wsEnableWrite (on : Bool) : exec (.wsEnableWrite b on) s = .next (s.wsEnable b on) := by
  rw [show exec (.wsEnableWrite b on) s = execWsEnableWrite b on s from rfl, execWsEnableWrite, guarded_next _ _ (by simpa using hb)]

omit hb in
/-- ENABLE written 0 tells every lane of the bay to stop. -/
theorem wsEnable_off : (s.wsEnable b false).fld (Reg.bayWsCtrl b) Reg.bayWsCtrl_ENABLE = 0 ∧
    (∀ k, k < 12 → ((s.wsEnable b false).lane b k).Told) ∧ SameRegisters s (s.wsEnable b false) := by
  have hoff : s.wsEnable b false = (s.setFld (Reg.bayWsCtrl b) Reg.bayWsCtrl_ENABLE 0).wsStopAll b cDone := rfl
  rw [hoff]
  refine ⟨?_, fun k hk => told_wsStopAll _ b cDone hk, ((touches_setFld s _ _ _).then_ (touches_wsStopAll _ b cDone)).file⟩
  rw [fld_wsStopAll _ _ _ _ (offLaneStop_ctrl b), State.fld_setFld_same _ _ _ _ (by decide)]
  rfl

theorem exec_bayCmpStatclr : exec (.bayCmpStatclr b) s =
    .next ((s.setReg (Reg.bayCmpRawin b) 0).setReg (Reg.bayCmpStoredout b) 0) := by
  rw [show exec (.bayCmpStatclr b) s = execBayCmpStatclr b s from rfl, execBayCmpStatclr, guarded_next _ _ (by simpa using hb)]

theorem exec_baySpsClr : exec (.baySpsClr b) s =
    .next (((s.setReg (Reg.baySpsRead b) 0).setReg (Reg.baySpsSkip b) 0).setReg (Reg.baySpsForced b) 0) := by
  rw [show exec (.baySpsClr b) s = execBaySpsClr b s from rfl, execBaySpsClr, guarded_next _ _ (by simpa using hb)]

end

/-! ## KEYSLOT_WRITE (R266, R451, R476) -/

section

variable (u : State) (b slot : Nat)

/-- A slot loaded into the key store of a bay and named by its weight stream, with the entries nothing names freed. -/
def State.slotTaken : State := ((u.loadSlot b slot).setFld (Reg.bayWsCtrl b) Reg.bayWsCtrl_KEYSLOT slot).trimSlots b

theorem touches_slotTaken : Touches [.bays, .regs] u (u.slotTaken b slot) :=
  ((touches_loadSlot u b slot).then_ ((touches_setFld _ _ _ _).then_ (touches_trimSlots _ _))).mono (by decide)

variable {slot}

theorem fld_slotTaken (hslot : slot < 65536) : (u.slotTaken b slot).fld (Reg.bayWsCtrl b) Reg.bayWsCtrl_KEYSLOT = slot :=
  (State.fld_setFld_same _ _ _ _ (by decide)).trans (Nat.mod_eq_of_lt hslot)

theorem slotLoaded_loadSlot : (u.loadSlot b slot).slotLoaded b slot = true := by
  unfold State.loadSlot
  split
  · assumption
  · simp [State.slotLoaded]

/-- A slot the weight stream of its bay names is not freed. -/
theorem slotLoaded_trimSlots (h : u.slotLoaded b slot = true) (hused : u.fld (Reg.bayWsCtrl b) Reg.bayWsCtrl_KEYSLOT = slot) :
    (u.trimSlots b).slotLoaded b slot = true := by
  simp only [State.slotLoaded, Bool.or_eq_true, List.contains_iff_mem] at h ⊢
  refine h.imp_right fun h => ?_
  simp only [State.trimSlots, State.bay_updBay_same]
  exact List.mem_filter.2 ⟨h, by simp [hused]⟩

theorem slotLoaded_slotTaken (hslot : slot < 65536) : (u.slotTaken b slot).slotLoaded b slot = true :=
  slotLoaded_trimSlots _ _ (slotLoaded_loadSlot u b) (fld_slotTaken u b hslot)

theorem keyGood_slotTaken : (u.slotTaken b slot).keyGood slot = u.keyGood slot := by
  have hkeys : (u.loadSlot b slot).keys = u.keys := by
    unfold State.loadSlot
    split <;> rfl
  have htaken : (u.slotTaken b slot).keys = u.keys := hkeys
  rw [State.keyGood, State.key, htaken, State.keyGood, State.key]

/-- What a write of KEYSLOT comes to, after the check of the slot. -/
theorem exec_keyslotWrite (s : State) (hb : b < 16) (hslot : slot < 65536) : exec (.keyslotWrite b slot) s = .next (
    if (s.checkSlot slot).slotRoom b slot then
      if (s.checkSlot slot).keyGood slot then (s.checkSlot slot).slotTaken b slot
      else ((s.checkSlot slot).slotTaken b slot).wsStopAll b cKey
    else s.checkSlot slot) := by
  rw [show exec (.keyslotWrite b slot) s = execKeyslotWrite b slot s from rfl, execKeyslotWrite,
    guarded_next _ _ (by simp [hb, hslot]), ← keyGood_slotTaken (s.checkSlot slot) b]
  rfl

end

/-! ## The obligation -/

/-- Settles O30, clause by clause of `exec`: the starts, the stops, ENABLE, KEYSLOT and the two clears. -/
theorem weightStreamLanesStartAndStop : Obligations.WeightStreamLanesStartAndStop := by
  intro b e s hb he
  have hstart := exec_wsLaneStart (s := s) hb he
  have hstopped := exec_wsLaneStop (s := s) hb he
  refine ⟨fun hout => ?_, fun hin hoff => ?_, fun hin hon => ⟨fun hmisfit => ?_, fun h16 h4096 halign hfits => ?_⟩, fun hout => ?_,
    fun hin hrun => ?_, fun hin hrun hnone => ⟨fun hall => ?_, fun hall => ?_⟩, ?_, ?_, fun slot hslot => ⟨fun hroom hkey => ?_,
    fun hroom hkey => ?_, fun hroom => ?_⟩, ?_, ?_⟩
  · rw [hstart, if_pos hout]
  · rw [hstart, if_neg (by omega), if_pos hoff]
  · rw [if_neg (by omega), if_neg (by omega), if_pos hmisfit] at hstart
    exact ⟨_, hstart, laneRefused_stopped he⟩
  · rw [if_neg (by omega), if_neg (by omega), if_neg (by omega)] at hstart
    exact ⟨_, hstart, laneStarted_runs he⟩
  · rw [hstopped, if_pos hout]
  · rw [hstopped, if_neg (by omega), wsStop_told (Or.inl hrun)]
  · rw [if_neg (by omega)] at hstopped
    exact ⟨_, hstopped, wsStop_ends he hrun hnone hall⟩
  · rw [hstopped, if_neg (by omega), wsStop_inFlight hrun hnone hall, State.stopKept]
  · exact exec_wsEnableWrite s hb true
  · exact ⟨_, exec_wsEnableWrite s hb false, wsEnable_off s⟩
  · have htouch := (touches_checkSlot s slot).then_ (touches_slotTaken _ b slot)
    rw [exec_keyslotWrite b s hb hslot, if_pos hroom, if_pos hkey]
    exact ⟨_, rfl, fld_slotTaken _ b hslot, slotLoaded_slotTaken _ b hslot, htouch.file, htouch.mem⟩
  · rw [exec_keyslotWrite b s hb hslot, if_pos hroom, hkey, if_neg Bool.false_ne_true]
    exact ⟨_, rfl, (fld_wsStopAll _ _ _ _ (offLaneStop_ctrl b)).trans (fld_slotTaken _ b hslot), fun k hk => told_wsStopAll _ b cKey hk⟩
  · rw [exec_keyslotWrite b s hb hslot, hroom, if_neg Bool.false_ne_true]
  · refine ⟨_, exec_bayCmpStatclr s hb, ⟨rfl, rfl, rfl, rfl⟩, rfl, fun o => ?_⟩
    simp only [State.reg_setReg]
    split_ifs <;> simp_all
  · refine ⟨_, exec_baySpsClr s hb, ⟨rfl, rfl, rfl, rfl⟩, rfl, fun o => ?_⟩
    simp only [State.reg_setReg]
    split_ifs <;> simp_all

end Sys2Proof.Machine

/-! # Weight strokes

The issue of a stroke, its landing, its second read and the sample of RELEASED: what each leaves of its lane, of the registers and of
the memory. -/

namespace Sys2Proof.Machine

-- One theorem after another, as in the tests: side by side their stacks ask for more memory than the check allows.
set_option Elab.async false

/-! ## Registers a stroke check leaves (R291 to R293) -/

/-- An offset that the check of a stroke does not write, in whichever stack it lies: not GLOBAL.EVERR, BAY.STK.ECC, BAY.STK.ERRLOC or
BAY.STK.REMAP. -/
abbrev OffStrokeCheck (o : Nat) : Prop :=
  o ≠ Reg.globalEverr ∧ ∀ b, o ≠ Reg.bayStkEcc b ∧ o ≠ Reg.bayStkErrloc b ∧ o ≠ Reg.bayStkRemap b

/-- A register of a state that differs in no register. -/
theorem Touches.reg {K : List Part} {s t : State} (h : Touches K s t) (o : Nat) (hp : Part.regs ∉ K := by decide) :
    t.reg o = s.reg o := by
  rw [State.reg, h.regs hp, State.reg]

section

variable {t u : State} {o : Nat} {v : Word}

/-- A register of a choice of two states. -/
theorem State.reg_ite {c : Prop} [Decidable c] (h : c → t.reg o = v) (h' : ¬ c → u.reg o = v) : (if c then t else u).reg o = v := by
  split
  · next hc => exact h hc
  · next hc => exact h' hc

/-- A register of a choice of two results with a state. -/
theorem State.reg_ite_snd {α : Type} {c : Prop} [Decidable c] {p q : α × State} (h : c → p.2.reg o = v) (h' : ¬ c → q.2.reg o = v) :
    (if c then p else q).2.reg o = v := by
  split
  · next hc => exact h hc
  · next hc => exact h' hc

end

section

variable (s : State) {o : Nat} (ho : OffStrokeCheck o)

include ho

theorem State.reg_stackEvent (b : Nat) : (s.stackEvent b).reg o = s.reg o := s.reg_log _ _ _ _ _ ho.1

theorem State.reg_wantRemap (b k : Nat) : (s.wantRemap b k).reg o = s.reg o := by
  unfold State.wantRemap
  refine State.reg_ite (fun _ => rfl) fun _ => State.reg_ite (fun _ => rfl) fun _ => State.reg_ite (fun _ => ?_)
    fun _ => (touches_setStk s b _).reg o
  rw [State.reg_stackEvent _ ho, State.reg_setFld_ne _ _ _ (ho.2 b).2.2]

theorem State.reg_corrected (b addr : Nat) : (s.corrected b addr).reg o = s.reg o := by
  have hecc := (ho.2 b).1
  have hcount (f : StackX → StackX) :
      (((s.bump (Reg.bayStkEcc b) Reg.bayStkEcc_CORR).setFld (Reg.bayStkEcc b) Reg.bayStkEcc_CORREV 1).updStk b f).reg o = s.reg o :=
    ((touches_updStk _ b f).reg o).trans ((State.reg_setFld_ne _ _ _ hecc).trans (State.reg_setFld_ne _ _ _ hecc))
  unfold State.corrected
  exact State.reg_ite (fun _ => (State.reg_wantRemap _ ho b _).trans (hcount _)) fun _ => hcount _

theorem State.reg_uncorrectable (b addr src : Nat) (det : Bool) : (s.uncorrectable b addr src det).reg o = s.reg o := by
  obtain ⟨hecc, herrloc, hremap⟩ := ho.2 b
  unfold State.uncorrectable
  extract_lets e s1 s2 s3 y
  have hevent : s3.reg o = s.reg o := by
    rw [State.reg_stackEvent s2 ho, State.reg_setReg_ne s1 _ herrloc, State.reg_setFld_ne _ _ _ hecc, State.bump,
      State.reg_setFld_ne s _ _ hecc]
  exact State.reg_ite (fun _ => State.reg_ite (fun _ => hevent) fun _ => ((touches_repairNote _ _).reg o).trans
      ((State.reg_setFld_ne _ _ _ hremap).trans (((touches_setStk s3 b _).reg o).trans hevent)))
    fun _ => (State.reg_wantRemap s3 ho b _).trans hevent

theorem State.reg_check (g : Nat) (want : Seal) (src : Nat) : (s.check g want src).2.reg o = s.reg o := by
  unfold State.check
  split
  · rfl
  · next b hstk =>
    have hecc := (ho.2 b).1
    have hdraw : (if (if (s.regionAt b (g % 2 ^ 55)).2 then 7 else 5) < s.errsAt g then s.draw else (0, s)).2.reg o = s.reg o :=
      State.reg_ite_snd (fun _ => (touches_draw s).reg o) fun _ => rfl
    dsimp only
    generalize (if (if (s.regionAt b (g % 2 ^ 55)).2 = true then 7 else 5) < s.errsAt g then s.draw else (0, s)) = d at hdraw ⊢
    have hcorr : (if s.errsAt g = 0 ∨ (s.regionAt b (g % 2 ^ 55)).2 = true ∨ 2 < s.errsAt g then d.2
        else d.2.corrected b (g % 2 ^ 55)).reg o = s.reg o :=
      State.reg_ite (fun _ => hdraw) fun _ => (State.reg_corrected _ ho b _).trans hdraw
    refine State.reg_ite_snd (fun _ => State.reg_setFld_ne _ _ _ hecc) fun _ =>
      State.reg_ite_snd (fun _ => (State.reg_uncorrectable _ ho b _ src _).trans hdraw) fun _ =>
        State.reg_ite_snd (fun _ => hcorr) fun _ => ?_
    exact ((State.reg_setFld_ne _ _ _ hecc).trans (State.reg_setFld_ne _ _ _ hecc)).trans hcorr

end

/-! ## Memory apart from the bytes written -/

theorem SameMemoryOutside.mono {s t : State} {a n a' n' : Nat} (h : SameMemoryOutside s t a n) (ha : a' ≤ a)
    (hn : a + n ≤ a' + n') : SameMemoryOutside s t a' n' := fun c hc => h c (by omega)

/-- Bytes that lie outside the ones that may have changed. -/
theorem SameMemoryOutside.bytes {s t : State} {a n : Nat} (h : SameMemoryOutside s t a n) {c m : Nat} (hc : c + m ≤ a ∨ a + n ≤ c) :
    t.bytes c m = s.bytes c m :=
  List.map_congr_left fun i hi => h (c + i) (by have := List.mem_range.1 hi; omega)

theorem sameMemoryOutside_setBytes (s : State) (a : Nat) (bs : List Byte) : SameMemoryOutside s (s.setBytes a bs) a bs.length :=
  fun _ hc => s.byte_setBytes_outside hc

/-- STATUS of a ring written changes bytes 16 to 23 of the ring. -/
theorem sameMemoryOutside_ringStatus (s : State) (b e code entry : Nat) :
    SameMemoryOutside s (s.ringStatus b e code entry) (s.ringBase b e + 16) 8 := by
  have h := sameMemoryOutside_setBytes s (s.ringBase b e + 16) (natBytes 8 (code + entry % 4096 * 2 ^ 16))
  rwa [length_natBytes] at h

/-! ## The read of a stroke (R262, R271) -/

section

variable (s : State) (b e : Nat) (f : WsFlight)

/-- Where the ring of a lane lies is read off word 1 of its registers. -/
theorem ringBase_of_reg {s t : State} {b e : Nat} (h : t.reg (Reg.bayWsLane1 b e) = s.reg (Reg.bayWsLane1 b e)) :
    t.ringBase b e = s.ringBase b e := by
  rw [State.ringBase, State.fld_of_reg h, State.ringBase]

theorem ringSize_of_reg {s t : State} {b e : Nat} (h : t.reg (Reg.bayWsLane1 b e) = s.reg (Reg.bayWsLane1 b e)) :
    t.ringSize b e = s.ringSize b e := State.fld_of_reg h _

theorem offStrokeCheck_lane1 (he : e < 12) : OffStrokeCheck (Reg.bayWsLane1 b e) := by
  unfold OffStrokeCheck Reg.globalEverr Reg.bayWsLane1 Reg.bayStkEcc Reg.bayStkErrloc Reg.bayStkRemap
  exact ⟨by omega, fun k => by omega⟩

theorem touches_wsCheck (addr kid : Nat) : Touches [.regs, .host] s (s.wsCheck b addr kid).2 := touches_check s _ _ _

theorem State.reg_wsCheck (addr kid : Nat) {o : Nat} (ho : OffStrokeCheck o) : (s.wsCheck b addr kid).2.reg o = s.reg o :=
  s.reg_check ho _ _ _

/-- The check of a stroke in flight, at the cycle it is due, answers `ok` and leaves the node in `u`. -/
abbrev State.StrokeReads (s : State) (b : Nat) (f : WsFlight) (ok : Bool) (u : State) : Prop :=
  (s.passTo f.due).wsCheck b f.addr f.kid = (ok, u)

section

variable {s b f} {ok : Bool} {u : State} (hread : s.StrokeReads b f ok u)

include hread

theorem State.StrokeReads.touches : Touches [.ec, .regs, .host] s u := by
  have hcheck := touches_wsCheck (s.passTo f.due) b f.addr f.kid
  rw [hread] at hcheck
  exact ((touches_passTo s _).then_ hcheck).mono (by decide)

theorem State.StrokeReads.reg_lane1 {e : Nat} (he : e < 12) : u.reg (Reg.bayWsLane1 b e) = s.reg (Reg.bayWsLane1 b e) := by
  have hcheck := (s.passTo f.due).reg_wsCheck b f.addr f.kid (offStrokeCheck_lane1 b e he)
  rwa [hread, s.reg_passTo _ _ (by unfold OffRuntime Reg.bayWsLane1; omega)] at hcheck

theorem State.StrokeReads.lane (e : Nat) : u.lane b e = s.lane b e := by
  rw [State.lane, hread.touches.bay, State.lane]

end

/-- The stroke of a flight is to be read again (R271). -/
def LaneX.readAgain (l : LaneX) (f : WsFlight) : LaneX :=
  { l with flights := l.flights.map fun g => if g.seq = f.seq then { g with retry := true, due := f.due + 288 } else g }

/-- The lane of a stroke that failed its second read stops with damaged, and the event log takes a record (R271). -/
def State.strokeDamaged (u : State) (b e : Nat) (f : WsFlight) : State :=
  let v := u.wsEnd b e cDamaged f.entry (mkLoc 1 b f.addr)
  v.log 0x09 b e (v.reg (Reg.bayWsErr b)) (v.reg (Reg.bayWsErrloc b))

/-- What the read of a stroke comes to: it lands, its lane stops, or it is read again. The unfolding goes through an equation of
functions: one of states has the kernel evaluate the check's address, which overflows its stack. -/
theorem wsTry_eq {ok : Bool} {u : State} (hread : s.StrokeReads b f ok u) : s.wsTry b e f =
    if ok then u.wsLand b e f else if f.retry then u.strokeDamaged b e f else u.setLane b e ((u.lane b e).readAgain f) := by
  obtain ⟨w, hw⟩ : ∃ w, w = State.wsTry := ⟨_, rfl⟩
  rw [← hw]
  delta State.wsTry at hw
  rw [hw]
  beta_reduce
  extract_lets s0
  rw [show s0.wsCheck b f.addr f.kid = (ok, u) from hread]
  rfl

theorem wsTry_again (hfail : ((s.passTo f.due).wsCheck b f.addr f.kid).1 = false) (hretry : f.retry = false) :
    ((s.wsTry b e f).lane b e).flights =
        (s.lane b e).flights.map (fun g => if g.seq = f.seq then { g with retry := true, due := f.due + 288 } else g) ∧
      SameRegisters s (s.wsTry b e f) ∧ (s.wsTry b e f).mem = s.mem := by
  obtain ⟨⟨ok, u⟩, hread⟩ : ∃ c, (s.passTo f.due).wsCheck b f.addr f.kid = c := ⟨_, rfl⟩
  rw [hread] at hfail
  have htouch := (State.StrokeReads.touches hread).then_ (touches_setLane u b e ((u.lane b e).readAgain f))
  rw [wsTry_eq s b e f hread, if_neg (Bool.eq_false_iff.1 hfail), hretry, if_neg Bool.false_ne_true]
  refine ⟨?_, htouch.file, htouch.mem⟩
  rw [State.lane_setLane_same, State.StrokeReads.lane hread]
  rfl

theorem touches_strokeDamaged : Touches [.bays, .regs, .mem, .host] s (s.strokeDamaged b e f) :=
  ((touches_wsEnd s _ _ _ _ _).then_ (touches_log _ _ _ _ _ _)).mono (by decide)

variable {e}

/-- A stop with an error shows the lane and its code in BAY.WS.ERR (R268, R269). -/
theorem wsEnd_shows {code : Nat} (entry loc : Nat) (he : e < 12) (hcode : code < 16) (herr : code ≠ cDone) :
    (s.wsEnd b e code entry loc).fld (Reg.bayWsErr b) Reg.bayWsErr_LANE = e ∧
      (s.wsEnd b e code entry loc).fld (Reg.bayWsErr b) Reg.bayWsErr_CODE = code := by
  unfold State.wsEnd
  simp only
  rw [if_neg herr]
  obtain ⟨hlane, hshown, -⟩ := wsError_shows _ b e entry loc he hcode
  exact ⟨hlane, hshown⟩

theorem strokeDamaged_stops (he : e < 12) :
    ((s.strokeDamaged b e f).lane b e).run = false ∧ (s.strokeDamaged b e f).fld (Reg.bayWsErr b) Reg.bayWsErr_CODE = cDamaged ∧
      (s.strokeDamaged b e f).fld (Reg.bayWsErr b) Reg.bayWsErr_LANE = e ∧
      SameMemoryOutside s (s.strokeDamaged b e f) (s.ringBase b e + 16) 8 := by
  unfold State.strokeDamaged
  extract_lets v
  obtain ⟨hlane, hcode⟩ := wsEnd_shows s b (code := cDamaged) f.entry (mkLoc 1 b f.addr) he (by decide) (by decide)
  have herr : Reg.bayWsErr b ≠ Reg.globalEverr := by unfold Reg.bayWsErr Reg.globalEverr; omega
  have htouch := touches_log v 0x09 b e (v.reg (Reg.bayWsErr b)) (v.reg (Reg.bayWsErrloc b))
  refine ⟨?_, (v.fld_log _ _ _ _ _ _ _ herr).trans hcode, (v.fld_log _ _ _ _ _ _ _ herr).trans hlane,
    (bytes_wsEnd s b e _ _ _).2.trans (sameMemoryOutside_of_mem htouch.mem _ _)⟩
  rw [State.lane, htouch.bay, ← State.lane, lane_wsEnd, if_pos rfl]
  rfl

theorem wsTry_damaged (he : e < 12) (hfail : ((s.passTo f.due).wsCheck b f.addr f.kid).1 = false) (hretry : f.retry = true) :
    ((s.wsTry b e f).lane b e).run = false ∧ (s.wsTry b e f).fld (Reg.bayWsErr b) Reg.bayWsErr_CODE = cDamaged ∧
      (s.wsTry b e f).fld (Reg.bayWsErr b) Reg.bayWsErr_LANE = e ∧ SameRegisters s (s.wsTry b e f) ∧
      SameMemoryOutside s (s.wsTry b e f) (s.ringBase b e + 16) 8 := by
  obtain ⟨⟨ok, u⟩, hread⟩ : ∃ c, (s.passTo f.due).wsCheck b f.addr f.kid = c := ⟨_, rfl⟩
  rw [hread] at hfail
  have htouch := State.StrokeReads.touches hread
  obtain ⟨hrun, hcode, hlane, hmem⟩ := strokeDamaged_stops u b f he
  rw [ringBase_of_reg (State.StrokeReads.reg_lane1 hread he)] at hmem
  rw [wsTry_eq s b e f hread, if_neg (Bool.eq_false_iff.1 hfail), if_pos hretry]
  exact ⟨hrun, hcode, hlane, (htouch.then_ (touches_strokeDamaged u b e f)).file,
    (sameMemoryOutside_of_mem htouch.mem _ _).trans hmem⟩

end

/-! ## A stroke lands (R261, R262) -/

section

variable (s : State) (b e : Nat) (f : WsFlight)

/-- The bytes of a stroke in its slot of the ring, and in the copy of slots 0 to 8 behind the last. -/
def State.strokePlaced : State :=
  let j := f.seq % s.ringSize b e
  let bs := s.bytes (stackBase b + 512 * f.addr) 512
  let s1 := s.setBytes (s.ringBase b e + 64 + 512 * j) bs
  if j < 9 then s1.setBytes (s.ringBase b e + 64 + 512 * (s.ringSize b e + j)) bs else s1

/-- The flights of a lane once stroke `seq` has landed, cut behind those at the head that have all landed. -/
def LaneX.flightsLanded (l : LaneX) (seq : Nat) : List WsFlight × List WsFlight :=
  landedPrefix (l.flights.map fun g => if g.seq = seq then { g with landed := true } else g)

/-- A lane whose stroke `seq` has landed: the strokes at the head of its flights that have landed leave them and are counted. -/
def LaneX.strokeLanded (l : LaneX) (seq : Nat) : LaneX :=
  let p := l.flightsLanded seq
  { l with flights := p.2, landed := l.landed + p.1.length, landing := ((p.1.getLast?).map (·.entry)).getD l.landing }

/-- The count of BAY.WS.STROKES, and LANDED and STATUS of the ring at `base` where a stroke has left the flights. -/
def State.landedShown (u : State) (b e base seq : Nat) : State :=
  let l := (u.lane b e).strokeLanded seq
  let s1 := (u.setLane b e l).count (Reg.bayWsStrokes b) Reg.bayWsStrokes_COUNT 1
  if ((u.lane b e).flightsLanded seq).1.isEmpty then s1
  else (s1.setBytes base (natBytes 8 (l.landed % 2 ^ 32))).ringStatus b e cDone l.landing

theorem wsLand_eq : s.wsLand b e f = ((s.strokePlaced b e f).landedShown b e (s.ringBase b e) f.seq).wsSettle b e := rfl

theorem touches_strokePlaced : Touches [.mem] s (s.strokePlaced b e f) :=
  Touches.ite (fun _ => (touches_setBytes s _ _).trans (touches_setBytes _ _ _)) fun _ => touches_setBytes s _ _

/-- A stroke in its slot: the copy lies a whole ring further up. -/
theorem bytes_strokePlaced (hn : 0 < s.ringSize b e) :
    (s.strokePlaced b e f).bytes (s.ringBase b e + 64 + 512 * (f.seq % s.ringSize b e)) 512 =
      s.bytes (stackBase b + 512 * f.addr) 512 := by
  unfold State.strokePlaced
  extract_lets j bs s1
  have hlen : bs.length = 512 := s.length_bytes _ _
  have hslot : s1.bytes (s.ringBase b e + 64 + 512 * j) 512 = bs := by
    have h := s.bytes_setBytes_same (s.ringBase b e + 64 + 512 * j) bs
    rwa [hlen] at h
  split
  · rw [State.bytes_setBytes_outside _ (Or.inl (by omega)), hslot]
  · exact hslot

theorem touches_wsSettle : Touches [.bays, .regs, .mem] s (s.wsSettle b e) := by
  unfold State.wsSettle
  simp only
  split
  · exact Touches.ite (fun _ => touches_wsEnd s _ _ _ _ _) fun _ => Touches.refl _ s
  · exact Touches.refl _ s

/-- A lane that settles writes at most the STATUS of its ring. -/
theorem sameMemoryOutside_wsSettle : SameMemoryOutside s (s.wsSettle b e) (s.ringBase b e + 16) 8 := by
  unfold State.wsSettle
  simp only
  split
  · split
    · exact (bytes_wsEnd s b e _ _ _).2
    · exact fun _ _ => rfl
  · exact fun _ _ => rfl

theorem touches_landedShown (base seq : Nat) : Touches [.bays, .regs, .mem] s (s.landedShown b e base seq) := by
  unfold State.landedShown
  extract_lets l s1
  have h : Touches [.bays, .regs] s s1 := (touches_setLane s _ _ _).then_ (touches_count _ _ _ _)
  exact Touches.ite (fun _ => h.mono (by decide))
    fun _ => (h.then_ ((touches_setBytes _ _ _).then_ (touches_setBytes _ _ _))).mono (by decide)

theorem reg_landedShown (base seq : Nat) {o : Nat} (ho : o ≠ Reg.bayWsStrokes b) :
    (s.landedShown b e base seq).reg o = s.reg o := by
  unfold State.landedShown
  extract_lets l s1
  have h : s1.reg o = s.reg o := State.reg_setFld_ne _ _ _ ho
  exact State.reg_ite (fun _ => h) fun _ => h

theorem ringBase_landedShown (base seq : Nat) : (s.landedShown b e base seq).ringBase b e = s.ringBase b e :=
  ringBase_of_reg (reg_landedShown s b e base seq (by unfold Reg.bayWsLane1 Reg.bayWsStrokes; omega))

/-- LANDED and STATUS lie in the first 24 bytes of the ring. -/
theorem sameMemoryOutside_landedShown (seq : Nat) :
    SameMemoryOutside s (s.landedShown b e (s.ringBase b e) seq) (s.ringBase b e) 24 := by
  unfold State.landedShown
  extract_lets l s1
  split
  · exact fun _ _ => rfl
  · have hbase : (s1.setBytes (s.ringBase b e) (natBytes 8 (l.landed % 2 ^ 32))).ringBase b e = s.ringBase b e :=
      ringBase_of_reg (State.reg_setFld_ne _ _ _ (by unfold Reg.bayWsLane1 Reg.bayWsStrokes; omega))
    have hlanded := sameMemoryOutside_setBytes s1 (s.ringBase b e) (natBytes 8 (l.landed % 2 ^ 32))
    have hstatus := sameMemoryOutside_ringStatus (s1.setBytes (s.ringBase b e) (natBytes 8 (l.landed % 2 ^ 32))) b e cDone l.landing
    rw [length_natBytes] at hlanded
    rw [hbase] at hstatus
    exact (hlanded.mono (le_refl _) (by omega)).trans (hstatus.mono (by omega) (by omega))

/-- A stroke that lands leaves its bytes in its slot, whatever LANDED and STATUS of the ring come to. -/
theorem wsLand_lands (hn : 0 < s.ringSize b e) :
    (s.wsLand b e f).bytes (s.ringBase b e + 64 + 512 * (f.seq % s.ringSize b e)) 512 = s.bytes (stackBase b + 512 * f.addr) 512 ∧
      SameRegisters s (s.wsLand b e f) := by
  have hplaced := touches_strokePlaced s b e f
  have hbase : (s.strokePlaced b e f).ringBase b e = s.ringBase b e := ringBase_of_reg (hplaced.reg _)
  have hshown := sameMemoryOutside_landedShown (s.strokePlaced b e f) b e f.seq
  have hsettled := sameMemoryOutside_wsSettle ((s.strokePlaced b e f).landedShown b e (s.ringBase b e) f.seq) b e
  rw [hbase] at hshown
  rw [ringBase_landedShown, hbase] at hsettled
  rw [wsLand_eq]
  refine ⟨?_, (hplaced.then_ ((touches_landedShown _ b e _ _).then_ (touches_wsSettle _ b e))).file⟩
  rw [hsettled.bytes (Or.inr (by omega)), hshown.bytes (Or.inr (by omega)), bytes_strokePlaced s b e f hn]

theorem wsTry_lands (he : e < 12) (hpass : ((s.passTo f.due).wsCheck b f.addr f.kid).1 = true) (hn : 0 < s.ringSize b e) :
    (s.wsTry b e f).bytes (s.ringBase b e + 64 + 512 * (f.seq % s.ringSize b e)) 512 = s.bytes (stackBase b + 512 * f.addr) 512 ∧
      SameRegisters s (s.wsTry b e f) := by
  obtain ⟨⟨ok, u⟩, hread⟩ : ∃ c, (s.passTo f.due).wsCheck b f.addr f.kid = c := ⟨_, rfl⟩
  rw [hread] at hpass
  have htouch := State.StrokeReads.touches hread
  have hreg := State.StrokeReads.reg_lane1 hread he
  obtain ⟨hslot, hfile⟩ := wsLand_lands u b e f (by rwa [ringSize_of_reg hreg])
  have hbytes : u.bytes (stackBase b + 512 * f.addr) 512 = s.bytes (stackBase b + 512 * f.addr) 512 := by
    rw [State.bytes, htouch.mem, State.bytes]
  rw [ringBase_of_reg hreg, ringSize_of_reg hreg, hbytes] at hslot
  rw [wsTry_eq s b e f hread, if_pos hpass]
  exact ⟨hslot, Part.Same.trans (p := .file) htouch.file hfile⟩

end

/-! ## WS_STROKE_LAND, WS_STROKE_RETRY and WS_RELEASED_SAMPLE -/

section

variable {s : State} {b e : Nat} (hb : b < 16) (he : e < 12)

include hb he

/-- A first read takes the oldest stroke that has neither landed nor failed. -/
theorem exec_wsStrokeLand : exec (.wsStrokeLand b e) s = .next (
    (((s.lane b e).flights.find? fun f => !f.landed && !f.retry).map (s.wsTry b e)).getD s) := by
  rw [show exec (.wsStrokeLand b e) s = execWsStrokeLand b e s from rfl, execWsStrokeLand, guarded_next _ _ (by simp [hb, he])]
  cases (s.lane b e).flights.find? fun f => !f.landed && !f.retry with
  | none => rfl
  | some f => rw [Option.map_some, Option.getD_some]

/-- A second read takes the oldest stroke that has failed its first. -/
theorem exec_wsStrokeRetry : exec (.wsStrokeRetry b e) s = .next (
    (((s.lane b e).flights.find? fun f => !f.landed && f.retry).map (s.wsTry b e)).getD s) := by
  rw [show exec (.wsStrokeRetry b e) s = execWsStrokeRetry b e s from rfl, execWsStrokeRetry, guarded_next _ _ (by simp [hb, he])]
  cases (s.lane b e).flights.find? fun f => !f.landed && f.retry with
  | none => rfl
  | some f => rw [Option.map_some, Option.getD_some]

end

/-- How far RELEASED of a ring in memory lies behind LANDED of its lane (R263). -/
def State.releasedAway (s : State) (b e : Nat) : Nat :=
  ((s.lane b e).landed + 2 ^ 32 - bytesNat (s.bytes (s.ringBase b e + 8) 4)) % 2 ^ 32

/-- A lane with the strokes below `rel` released: the spans that hold none above it are dropped, but the last is kept. -/
def LaneX.releasedTo (l : LaneX) (rel : Nat) : LaneX :=
  let keep := l.spans.filter (·.live rel)
  { l with released := rel
           spans := if keep.isEmpty then (match l.spans.getLast? with | some p => [p] | none => []) else keep }

section

variable {s : State} {b e : Nat} (hb : b < 16) (he : e < 12)

include hb he

theorem exec_wsReleasedSample : exec (.wsReleasedSample b e) s = .next (
    if (s.lane b e).run = false then s
    else if s.ringSize b e < s.releasedAway b e then s.wsStop b e cSequence
    else s.setLane b e ((s.lane b e).releasedTo ((s.lane b e).landed - s.releasedAway b e))) := by
  rw [show exec (.wsReleasedSample b e) s = execWsReleasedSample b e s from rfl, execWsReleasedSample,
    guarded_next _ _ (by simp [hb, he])]
  rfl

end

/-! ## WS_STROKE_ISSUE (R264 to R266, R494) -/

section

variable (s : State) (b : Nat)

/-- The lanes of a bay from the one in turn on. -/
def State.wsOrder : List Nat := (List.range 12).map fun i => ((s.bay b).wsTurn + i) % 12

variable {b} in
theorem exec_wsStrokeIssue (hb : b < 16) : exec (.wsStrokeIssue b) s = .next (
    if s.fld Reg.pwrStatus Reg.pwrStatus_BRAKE = 1 ∨ s.stackReads b s.ec = false ∨ s.admits b = false then s
    else if s.keyGood (s.fld (Reg.bayWsCtrl b) Reg.bayWsCtrl_KEYSLOT) = false then s.wsStopAll b cKey
    else if s.descWants b && !s.wsShort b then s
    else s.wsOffer b (s.wsOrder b)) := by
  rw [show exec (.wsStrokeIssue b) s = execWsStrokeIssue b s from rfl, execWsStrokeIssue, guarded_next _ _ (by simpa using hb)]
  rfl

/-- The lane in turn is offered the slot first. -/
theorem wsOrder_head (h : (s.bay b).wsTurn < 12) : ∃ es, s.wsOrder b = (s.bay b).wsTurn :: es := by
  refine ⟨(List.range 11).map fun i => ((s.bay b).wsTurn + (i + 1)) % 12, ?_⟩
  rw [State.wsOrder, List.range_succ_eq_map, List.map_cons, List.map_map, Nat.add_zero, Nat.mod_eq_of_lt h]
  rfl

theorem wsOffer_took {e : Nat} {es : List Nat} {t : State} (h : s.wsTurn b e = (true, t)) : s.wsOffer b (e :: es) = t := by
  rw [State.wsOffer, h]
  rfl

variable (e : Nat) (p : WsSpan)

/-- The stroke a lane issues next of its span. -/
def State.nextFlight (u : State) (b e : Nat) (p : WsSpan) : WsFlight :=
  { seq := (u.lane b e).issued, addr := p.addr + p.issued, entry := p.entry, due := u.ec + 296, retry := false
    landed := false, kid := (u.key (u.fld (Reg.bayWsCtrl b) Reg.bayWsCtrl_KEYSLOT)).kid }

/-- A lane with one more stroke of its span in flight; behind the last stroke of an entry with STOPAFTER it is stopping. -/
def LaneX.issuing (l : LaneX) (p : WsSpan) (f : WsFlight) : LaneX :=
  { l with spans := l.spans.dropLast ++ [{ p with issued := p.issued + 1 }]
           flights := l.flights ++ [f], issued := l.issued + 1
           stopping := if decide (p.issued + 1 = p.strokes) && p.stop then some (cDone, p.entry, 0) else none }

/-- A lane that fetches span `p`, with ENTRY shown. -/
def State.spanShown : State := (s.setLane b e (s.lane b e)).setFld (Reg.bayWsLane2 b e) Reg.bayWsLane2_ENTRY p.entry

/-- A stroke issued: its flight joins the lane, FETCHED shows the count, and the turn passes on. -/
def State.strokeIssued : State :=
  let u := s.spanShown b e p
  let l := (s.lane b e).issuing p (u.nextFlight b e p)
  ((u.setLane b e l).setFld (Reg.bayWsLane2 b e) Reg.bayWsLane2_FETCHED l.issued).updBay b fun y => { y with wsTurn := (e + 1) % 12 }

theorem touches_spanShown : Touches [.bays, .regs] s (s.spanShown b e p) := (touches_setLane s _ _ _).then_ (touches_setFld _ _ _ _)

theorem lane_spanShown : (s.spanShown b e p).lane b e = s.lane b e := by
  rw [State.spanShown, State.lane_setFld, State.lane_setLane_same]

theorem wsMay_spanShown (l : LaneX) : (s.spanShown b e p).wsMay b e l = s.wsMay b e l := by
  have hfld {o : Nat} (f : Fld) (h : o ≠ Reg.bayWsLane2 b e) : (s.spanShown b e p).fld o f = s.fld o f :=
    State.fld_setFld_ne _ _ _ _ h
  unfold State.wsMay State.ringSize
  rw [hfld _ (by unfold Reg.bayWsCtrl Reg.bayWsLane2; omega), hfld _ (by unfold Reg.bayWsLane1 Reg.bayWsLane2; omega)]

variable {e p}

/-- A running lane with strokes of its span to issue and room in its ring takes its slot. -/
theorem wsTurn_issues (hrun : (s.lane b e).run = true) (hstop : (s.lane b e).stopping = none)
    (hp : (s.lane b e).spans.getLast? = some p) (hmore : p.issued < p.strokes) (hmay : s.wsMay b e (s.lane b e) = true) :
    s.wsTurn b e = (true, s.strokeIssued b e p) := by
  have hspan : decide (p.issued = p.strokes) = false := decide_eq_false (by omega)
  have hshown : ((s.setLane b e (s.lane b e)).setFld (Reg.bayWsLane2 b e) Reg.bayWsLane2_ENTRY p.entry).wsMay b e (s.lane b e) = true :=
    (wsMay_spanShown s b e p _).trans hmay
  unfold State.wsTurn
  simp only [hp, hspan, Bool.false_eq_true, if_false]
  rw [if_neg (by simp [hrun, hstop]), if_pos hshown, State.strokeIssued, State.nextFlight, lane_spanShown]
  rfl

/-- What an issue leaves: the turn, the lane with its new flight, FETCHED, and everything of the easels and the memory. -/
theorem strokeIssued_shows : ((s.strokeIssued b e p).bay b).wsTurn = (e + 1) % 12 ∧
    (s.strokeIssued b e p).lane b e = (s.lane b e).issuing p ((s.spanShown b e p).nextFlight b e p) ∧
    (s.strokeIssued b e p).fld (Reg.bayWsLane2 b e) Reg.bayWsLane2_FETCHED = ((s.lane b e).issued + 1) % 2 ^ 32 ∧
    SameRegisters s (s.strokeIssued b e p) ∧ (s.strokeIssued b e p).mem = s.mem := by
  unfold State.strokeIssued
  extract_lets u l
  have hfetched : ((u.setLane b e l).setFld (Reg.bayWsLane2 b e) Reg.bayWsLane2_FETCHED l.issued).fld (Reg.bayWsLane2 b e)
      Reg.bayWsLane2_FETCHED = l.issued % 2 ^ 32 := State.fld_setFld_same _ _ _ _ (by decide)
  have hlane : ((u.setLane b e l).setFld (Reg.bayWsLane2 b e) Reg.bayWsLane2_FETCHED l.issued).lane b e = l := by
    rw [State.lane_setFld, State.lane_setLane_same]
  have hissued := (touches_spanShown s b e p).then_ ((touches_setLane u b e l).then_ (touches_setFld _ (Reg.bayWsLane2 b e)
    Reg.bayWsLane2_FETCHED l.issued))
  generalize (u.setLane b e l).setFld (Reg.bayWsLane2 b e) Reg.bayWsLane2_FETCHED l.issued = v at *
  have hturn := touches_updBay v b fun y => { y with wsTurn := (e + 1) % 12 }
  refine ⟨by rw [State.bay_updBay_same], ?_, (hturn.fld _ _).trans hfetched, (hissued.then_ hturn).file, (hissued.then_ hturn).mem⟩
  rw [State.lane, State.bay_updBay_same]
  exact hlane

end

/-! ## The obligation -/

/-- Settles O31: the issue by what the lane in turn does with its slot, a read by `wsTry`'s three cases, the sample of RELEASED by its
distance to LANDED. -/
theorem weightStrokesAreIssuedAndLand : Obligations.WeightStrokesAreIssuedAndLand := by
  intro b s hb
  have hissue := exec_wsStrokeIssue s hb
  refine ⟨fun hheld => ?_, fun hbrake hreads hadm => ?_, fun e he => ?_⟩
  · rw [hissue, if_pos]
    exact hheld.imp_right fun hup => Or.inl (by rw [State.stackReads, hup, Bool.false_and])
  · rw [if_neg (by simp [hbrake, hreads, hadm])] at hissue
    refine ⟨fun hkey => by rw [hissue, if_pos hkey], fun hkey => ?_⟩
    rw [if_neg (by simp [hkey])] at hissue
    refine ⟨fun ⟨hwants, hshort⟩ => by rw [hissue, hwants, hshort]; rfl, fun hslot => ?_⟩
    intro e l p he hrun hstop hp hmore hmay
    obtain ⟨es, horder⟩ := wsOrder_head s b he
    rw [if_neg (by rcases hslot with h | h <;> simp [h]), horder,
      wsOffer_took s b (wsTurn_issues s b hrun hstop hp hmore hmay)] at hissue
    obtain ⟨hturn, hlane, hfetched, hfile, hmem⟩ := strokeIssued_shows s b (e := e) (p := p)
    refine ⟨_, hissue, hturn, by rw [hlane]; rfl, ⟨_, by rw [hlane]; rfl, ?_, rfl, rfl, rfl⟩, hfetched, hfile, hmem⟩
    rw [State.nextFlight, lane_spanShown]
  · have hland := exec_wsStrokeLand (s := s) hb he
    have hretry := exec_wsStrokeRetry (s := s) hb he
    have hsample := exec_wsReleasedSample (s := s) hb he
    intro l n tries
    have htries (i : Instr) (f : WsFlight) (hi : exec i s = .next (s.wsTry b e f)) : tries i f :=
      ⟨fun hpass h16 => ⟨_, hi, wsTry_lands s b e f he hpass (lt_of_lt_of_le (by decide) h16)⟩,
        fun hfail hfirst => ⟨_, hi, wsTry_again s b e f hfail hfirst⟩,
        fun hfail hsecond => ⟨_, hi, wsTry_damaged s b f he hfail hsecond⟩⟩
    refine ⟨fun f hf => htries _ f (by rw [hland, hf, Option.map_some, Option.getD_some]),
      fun f hf => htries _ f (by rw [hretry, hf, Option.map_some, Option.getD_some]), fun hnone => ?_,
      fun hrun => by rw [hsample, if_pos hrun], fun hrun => ?_⟩
    · rw [hland, hretry, hnone]
      exact ⟨rfl, rfl⟩
    · rw [if_neg (by simp [show (s.lane b e).run = true from hrun])] at hsample
      refine ⟨fun hfar => by rw [hsample, if_pos (show s.ringSize b e < s.releasedAway b e from hfar)], fun hnear => ?_⟩
      have htouch := touches_setLane s b e ((s.lane b e).releasedTo ((s.lane b e).landed - s.releasedAway b e))
      rw [if_neg (show ¬ s.ringSize b e < s.releasedAway b e from Nat.not_lt.2 hnear)] at hsample
      exact ⟨_, hsample, by rw [State.lane_setLane_same]; rfl, by rw [State.lane_setLane_same]; rfl, htouch.file, htouch.mem⟩

end Sys2Proof.Machine

/-! # Strokes read and written

The check of a stroke by what it finds, the registers each outcome leaves, and a stroke placed in the page buffer. -/

namespace Sys2Proof.Machine

-- One theorem after another, as in the tests: side by side their stacks ask for more memory than the check allows.
set_option Elab.async false

/-! ## Choices of states -/

section

variable {β : Type} (P : State → β) {t u : State} {v : β} {c : Prop} [Decidable c]

/-- What is read of a choice of two states, where it is read alike of both. -/
theorem read_ite (h : c → P t = v) (h' : ¬ c → P u = v) : P (if c then t else u) = v := by
  split
  · next hc => exact h hc
  · next hc => exact h' hc

/-- What is read of a choice of two results with a state, where it is read alike of both. -/
theorem read_ite_snd {α : Type} {p q : α × State} (h : c → P p.2 = v) (h' : ¬ c → P q.2 = v) : P (if c then p else q).2 = v := by
  split
  · next hc => exact h hc
  · next hc => exact h' hc

end

/-! ## Where a stroke lies (R275) -/

section

variable {b addr : Nat}

theorem stackOf_stroke (hb : b < 16) (ha : addr < stackStrokes) : stackOf (stackBase b / 512 + addr) = some b := by
  have hsp : (stackBase b / 512 + addr) / 2 ^ 55 = 0x300 + b := by
    unfold stackBase
    unfold stackStrokes at ha
    omega
  unfold stackOf
  rw [hsp]
  dsimp only
  rw [if_pos (by omega), Nat.add_sub_cancel_left]

theorem stroke_mod (ha : addr < stackStrokes) : (stackBase b / 512 + addr) % 2 ^ 55 = addr := by
  unfold stackBase
  unfold stackStrokes at ha
  omega

end

/-! ## The check of a stroke (R277, R278, R291) -/

section

variable (s : State) (g : Nat) (want : Seal) (src : Nat)

/-- The seal that the check of a stroke of stack `b` finds: a portfolio record not written since its stack lost its contents stands
under its location (R43). -/
def State.sealFound (b : Nat) : Seal := if s.stamp g = .none ∧ pfTop ≤ g % 2 ^ 55 then s.locWant b (g % 2 ^ 55) else s.stamp g

theorem sealWith_written (b addr kid tweak : Nat) : s.sealWith b addr kid tweak ≠ .none ∧ s.sealWith b addr kid tweak ≠ .void := by
  unfold State.sealWith
  dsimp only
  split <;> simp

theorem sealFound_stamp {b : Nat} (h : g % 2 ^ 55 < pfTop ∨ s.stamp g ≠ .none) : s.sealFound g b = s.stamp g :=
  if_neg fun hzero => h.elim (fun hlow => absurd hzero.2 (Nat.not_le.2 hlow)) fun hw => hw hzero.1

theorem sealFound_zero {b : Nat} (hn : s.stamp g = .none) (h : pfTop ≤ g % 2 ^ 55) : s.sealFound g b = s.locWant b (g % 2 ^ 55) :=
  if_pos ⟨hn, h⟩

variable {s g want} {b : Nat} (hstk : stackOf g = some b)

include hstk

theorem check_void (h : s.sealFound g b = .void) :
    s.check g want src = (false, s.setFld (Reg.bayStkEcc b) Reg.bayStkEcc_VOIDRD 1) := by
  unfold State.check
  rw [hstk]
  exact if_pos h

/-- The check of a stroke with no more errors than its code corrects or detects, by its errors and the seal it finds. -/
theorem check_detected (hvoid : s.sealFound g b ≠ .void) (hn : s.errsAt g ≤ 5) :
    let det := (s.regionAt b (g % 2 ^ 55)).2
    let fixed := if s.errsAt g = 0 ∨ det ∨ 2 < s.errsAt g then s else s.corrected b (g % 2 ^ 55)
    s.check g want src =
      if (if det then 1 else 3) ≤ s.errsAt g then (false, s.uncorrectable b (g % 2 ^ 55) src det)
      else if s.sealFound g b = want ∧ s.errsAt g < (if det then 1 else 3) then (true, fixed)
      else (false, (fixed.bump (Reg.bayStkEcc b) Reg.bayStkEcc_TAGMIS).setFld (Reg.bayStkEcc b) Reg.bayStkEcc_TAGEV 1) := by
  intro det fixed
  have hdraw : (if (if det then 7 else 5) < s.errsAt g then s.draw else (0, s)) = (0, s) := if_neg (by split <;> omega)
  unfold State.check
  rw [hstk]
  refine (if_neg hvoid).trans ?_
  dsimp only [det] at hdraw ⊢
  rw [hdraw]
  simp only [Nat.zero_mod, and_true]
  rfl

theorem check_clean (h : s.sealFound g b = want) (hvoid : want ≠ .void) (hn : s.errsAt g = 0) : s.check g want src = (true, s) := by
  rw [check_detected src hstk (h ▸ hvoid) (hn.trans_le (by decide))]
  simp only [hn, h]
  split <;> rfl

theorem check_corrected (h : s.sealFound g b = want) (hvoid : want ≠ .void) (hdet : (s.regionAt b (g % 2 ^ 55)).2 = false)
    (hlow : 1 ≤ s.errsAt g) (hn : s.errsAt g ≤ 2) : s.check g want src = (true, s.corrected b (g % 2 ^ 55)) := by
  rw [check_detected src hstk (h ▸ hvoid) (hn.trans (by decide))]
  simp only [hdet, h, Bool.false_eq_true, if_false, false_or, true_and]
  rw [if_neg (by omega), if_pos (by omega), if_neg (by omega)]

theorem check_uncorrectable (hvoid : s.sealFound g b ≠ .void) (hdet : (s.regionAt b (g % 2 ^ 55)).2 = false) (hlow : 3 ≤ s.errsAt g)
    (hn : s.errsAt g ≤ 5) : s.check g want src = (false, s.uncorrectable b (g % 2 ^ 55) src false) := by
  rw [check_detected src hstk hvoid hn]
  simp only [hdet, Bool.false_eq_true, if_false]
  rw [if_pos hlow]

theorem check_mismatch (h : s.sealFound g b ≠ want) (hvoid : s.sealFound g b ≠ .void) (hn : s.errsAt g = 0) :
    s.check g want src = (false, (s.bump (Reg.bayStkEcc b) Reg.bayStkEcc_TAGMIS).setFld (Reg.bayStkEcc b) Reg.bayStkEcc_TAGEV 1) := by
  rw [check_detected src hstk hvoid (hn.trans_le (by decide))]
  simp only [hn, h, false_and, if_false]
  split <;> rfl

end

/-! ## The registers of a check (R291, R292) -/

section

variable (s : State) (b : Nat)

/-- A saturating counter raised and an event bit of its register set. -/
theorem fld_bump_event (o : Nat) {f e : Fld} (hf : f.lo + f.w ≤ 64) (he : e.lo + e.w ≤ 64)
    (h : e.lo + e.w ≤ f.lo ∨ f.lo + f.w ≤ e.lo) (hw : e.w = 1) :
    ((s.bump o f).setFld o e 1).fld o f = satInc f.w (s.fld o f) ∧ ((s.bump o f).setFld o e 1).fld o e = 1 := by
  constructor
  · rw [State.fld_setFld_apart _ _ _ _ _ he h, State.bump, State.fld_setFld_same _ _ _ _ hf, Nat.mod_eq_of_lt (satInc_lt (s.fld_lt _ _))]
  · rw [State.fld_setFld_same _ _ _ _ he, hw, pow_one]

variable {o : Nat} (hlog : o ≠ Reg.globalEverr) (hremap : o ≠ Reg.bayStkRemap b)

include hlog hremap

/-- A row that is to be remapped shows in BAY.STK.REMAP and the event log alone. -/
theorem reg_wantRemap_ne (k : Nat) : (s.wantRemap b k).reg o = s.reg o := by
  unfold State.wantRemap
  refine State.reg_ite (fun _ => rfl) fun _ => State.reg_ite (fun _ => rfl) fun _ => State.reg_ite (fun _ => ?_)
    fun _ => (touches_setStk s b _).reg o
  exact (State.reg_log _ _ _ _ _ _ hlog).trans (State.reg_setFld_ne _ _ _ hremap)

theorem reg_corrected_ne (addr : Nat) : (s.corrected b addr).reg o =
    ((s.bump (Reg.bayStkEcc b) Reg.bayStkEcc_CORR).setFld (Reg.bayStkEcc b) Reg.bayStkEcc_CORREV 1).reg o := by
  unfold State.corrected
  exact State.reg_ite (fun _ => (reg_wantRemap_ne _ b hlog hremap _).trans ((touches_updStk _ b _).reg o))
    fun _ => (touches_updStk _ b _).reg o

theorem reg_uncorrectable_ne (addr src : Nat) : (s.uncorrectable b addr src false).reg o =
    (((s.bump (Reg.bayStkEcc b) Reg.bayStkEcc_UNCORR).setFld (Reg.bayStkEcc b) Reg.bayStkEcc_UNCEV 1).setReg (Reg.bayStkErrloc b)
      (BitVec.ofNat 64 (addr % 2 ^ 28 + src % 4 * 2 ^ 28))).reg o :=
  (reg_wantRemap_ne _ b hlog hremap _).trans (State.reg_log _ _ _ _ _ _ hlog)

end

section

variable (s : State) (b : Nat)

theorem ecc_off : Reg.bayStkEcc b ≠ Reg.globalEverr ∧ Reg.bayStkEcc b ≠ Reg.bayStkRemap b := by
  unfold Reg.bayStkEcc Reg.globalEverr Reg.bayStkRemap
  omega

/-- A corrected error is counted in CORR and sets CORREV. -/
theorem corrected_counts (addr : Nat) :
    (s.corrected b addr).fld (Reg.bayStkEcc b) Reg.bayStkEcc_CORR =
        satInc Reg.bayStkEcc_CORR.w (s.fld (Reg.bayStkEcc b) Reg.bayStkEcc_CORR) ∧
      (s.corrected b addr).fld (Reg.bayStkEcc b) Reg.bayStkEcc_CORREV = 1 := by
  have hreg := reg_corrected_ne s b (ecc_off b).1 (ecc_off b).2 addr
  rw [State.fld_of_reg hreg, State.fld_of_reg hreg]
  exact fld_bump_event s _ (by decide) (by decide) (by decide) rfl

/-- An uncorrectable error is counted in UNCORR, sets UNCEV and leaves its address. -/
theorem uncorrectable_counts {addr : Nat} (ha : addr < stackStrokes) :
    (s.uncorrectable b addr 0 false).fld (Reg.bayStkEcc b) Reg.bayStkEcc_UNCORR =
        satInc Reg.bayStkEcc_UNCORR.w (s.fld (Reg.bayStkEcc b) Reg.bayStkEcc_UNCORR) ∧
      (s.uncorrectable b addr 0 false).fld (Reg.bayStkEcc b) Reg.bayStkEcc_UNCEV = 1 ∧
      (s.uncorrectable b addr 0 false).reg (Reg.bayStkErrloc b) = BitVec.ofNat 64 addr := by
  have herr : Reg.bayStkErrloc b ≠ Reg.globalEverr ∧ Reg.bayStkErrloc b ≠ Reg.bayStkRemap b ∧ Reg.bayStkEcc b ≠ Reg.bayStkErrloc b := by
    unfold Reg.bayStkErrloc Reg.globalEverr Reg.bayStkRemap Reg.bayStkEcc
    omega
  have hreg := (reg_uncorrectable_ne s b (ecc_off b).1 (ecc_off b).2 addr 0).trans (State.reg_setReg_ne _ _ herr.2.2)
  obtain ⟨hcount, hevent⟩ := fld_bump_event s (Reg.bayStkEcc b) (f := Reg.bayStkEcc_UNCORR) (e := Reg.bayStkEcc_UNCEV) (by decide)
    (by decide) (by decide) rfl
  refine ⟨(State.fld_of_reg hreg _).trans hcount, (State.fld_of_reg hreg _).trans hevent, ?_⟩
  rw [reg_uncorrectable_ne s b herr.1 herr.2.1, State.reg_setReg_same, Nat.mod_eq_of_lt (lt_trans ha (by decide)), Nat.zero_mod,
    Nat.zero_mul, Nat.add_zero]

end

/-! ## The seals under a check -/

section

variable (s : State)

theorem State.seals_log (kind unit sub : Nat) (w2 w3 : Word) : (s.log kind unit sub w2 w3).seals = s.seals := by
  unfold State.log
  exact read_ite _ (fun _ => rfl) fun _ => rfl

theorem State.seals_wantRemap (b k : Nat) : (s.wantRemap b k).seals = s.seals := by
  unfold State.wantRemap
  exact read_ite _ (fun _ => rfl) fun _ => read_ite _ (fun _ => rfl) fun _ => read_ite _ (fun _ => State.seals_log _ _ _ _ _ _) fun _ => rfl

theorem State.seals_corrected (b addr : Nat) : (s.corrected b addr).seals = s.seals := by
  unfold State.corrected
  exact read_ite _ (fun _ => State.seals_wantRemap _ _ _) fun _ => rfl

theorem State.seals_uncorrectable (b addr src : Nat) (det : Bool) : (s.uncorrectable b addr src det).seals = s.seals := by
  have hevent : ∀ u : State, (u.stackEvent b).seals = u.seals := fun u => u.seals_log _ _ _ _ _
  unfold State.uncorrectable
  exact read_ite _ (fun _ => read_ite _ (fun _ => hevent _) fun _ => hevent _) fun _ => (State.seals_wantRemap _ _ _).trans (hevent _)

/-- The check of a stroke leaves every seal. -/
theorem State.seals_check (g : Nat) (want : Seal) (src : Nat) : (s.check g want src).2.seals = s.seals := by
  unfold State.check
  split
  · rfl
  · next b hstk =>
    have hdraw : (if (if (s.regionAt b (g % 2 ^ 55)).2 then 7 else 5) < s.errsAt g then s.draw else (0, s)).2.seals = s.seals :=
      read_ite_snd _ (fun _ => rfl) fun _ => rfl
    dsimp only
    generalize (if (if (s.regionAt b (g % 2 ^ 55)).2 = true then 7 else 5) < s.errsAt g then s.draw else (0, s)) = d at hdraw ⊢
    have hfixed : (if s.errsAt g = 0 ∨ (s.regionAt b (g % 2 ^ 55)).2 = true ∨ 2 < s.errsAt g then d.2
        else d.2.corrected b (g % 2 ^ 55)).seals = s.seals :=
      read_ite _ (fun _ => hdraw) fun _ => (State.seals_corrected _ _ _).trans hdraw
    exact read_ite_snd _ (fun _ => rfl) fun _ => read_ite_snd _ (fun _ => (State.seals_uncorrectable _ _ _ _ _).trans hdraw)
      fun _ => read_ite_snd _ (fun _ => hfixed) fun _ => hfixed

end

/-! ## A stroke read (R286, R291) -/

section

variable {b addr slot : Nat} (hb : b < 16) (ha : addr < stackStrokes) (hslot : slot < 65536)

include hb ha hslot

theorem exec_strokeReadComplete (s : State) (tweak errs : Nat) : exec (.strokeReadComplete b addr slot tweak errs) s =
    .next ((s.setErrs (stackBase b / 512 + addr) errs).check (stackBase b / 512 + addr) (s.sealUnder b addr slot tweak) 0).2 :=
  (show exec (.strokeReadComplete b addr slot tweak errs) s = execStrokeReadComplete b addr slot tweak errs s from rfl).trans
    (guarded_next _ _ (by simp [hb, ha, hslot]))

end

/-! ## A stroke written (R284, R286) -/

section

variable (s : State) {g b : Nat}

theorem length_patch {α : Type} (old : List α) (i : Nat) (new : List α) (h : i + new.length ≤ old.length) :
    (patch old i new).length = old.length := by
  simp only [patch, List.length_take, List.length_append, List.length_drop]
  omega

/-- A stroke that joins the page buffer stands in it. -/
theorem pbAdd_holds (addr : Nat) : ((s.pbAdd b addr).stk b).pb.any (·.addr == addr) = true := by
  unfold State.pbAdd
  split
  · next h => exact h
  · rw [State.stk_setFld, State.stk_updStk_same]
    simp

/-- A whole stroke of a stack written: its bytes and its seal stand, it is in the page buffer, and no byte outside it has changed. -/
theorem putStroke_places (hstk : stackOf g = some b) {bs : List Byte} (hbs : bs.length = 512) (q : Seal) :
    let t := s.putStroke g bs q
    t.bytes (512 * g) 512 = bs ∧ t.stamp g = q ∧ SameMemoryOutside s t (512 * g) 512 ∧ SameRegisters s t ∧
      (t.stk b).pb.any (·.addr == g % 2 ^ 55) = true := by
  intro t
  obtain ⟨u, hu⟩ : ∃ u, u = ((s.setBytes (512 * g) bs).setStamp g q).setErrs g 0 := ⟨_, rfl⟩
  have ht : t = u.pbAdd b (g % 2 ^ 55) := by
    rw [hu]
    unfold t State.putStroke
    rw [hstk]
  have hmem : u.mem = (s.setBytes (512 * g) bs).mem := by rw [hu]; rfl
  have hbyte : ∀ a, t.byte a = (s.setBytes (512 * g) bs).byte a := fun a => by rw [State.byte, ht, State.mem_pbAdd, hmem, State.byte]
  refine ⟨?_, ?_, fun a ha => ?_, (touches_putStroke s g bs q).file, ?_⟩
  · have hsame := s.bytes_setBytes_same (512 * g) bs
    rwa [hbs, State.bytes, ← hmem, ← State.mem_pbAdd u b (g % 2 ^ 55), ← ht] at hsame
  · rw [State.stamp, ht, State.seals_pbAdd, hu]
    exact State.stamp_setStamp_same _ _ _
  · rw [hbyte, s.byte_setBytes_outside (hbs ▸ ha)]
  · rw [ht]
    exact pbAdd_holds _ _

end

section

variable {b addr slot : Nat} (hb : b < 16) (ha : addr < stackStrokes) (hslot : slot < 65536)

include hb ha hslot

/-- A write by what it finds: an operation that has still to start, a whole stroke, a stroke that passes its check, or one that fails
it. As in `wsTry_eq` the unfolding is of the function by itself, which keeps the kernel from evaluating the stroke's address. -/
theorem exec_pageBufferWrite (s : State) (tweak : Nat) {off : Nat} {data : List Byte} (hdata : off + data.length ≤ 512) {g : Nat}
    (hg : g = stackBase b / 512 + addr) {q : Seal} (hq : q = s.sealUnder b addr slot tweak) {read : Bool × State}
    (hread : s.check g q 0 = read) : exec (.pageBufferWrite b addr slot tweak off data) s = .next (
      if s.nbQueued g 1 then s
      else if data.length = 512 then s.putStroke g data q
      else if read.1 then read.2.putStroke g (patch (read.2.bytes (512 * g) 512) off data) q
      else read.2) := by
  have hexec : exec (.pageBufferWrite b addr slot tweak off data) s = execPageBufferWrite b addr slot tweak off data s := rfl
  obtain ⟨f, hf⟩ : ∃ f, f = execPageBufferWrite := ⟨_, rfl⟩
  rw [hexec, ← hf]
  delta execPageBufferWrite at hf
  rw [hf]
  beta_reduce
  rw [guarded_next _ _ (by simp [hb, ha, hslot, hdata])]
  extract_lets g' q'
  obtain rfl : g = g' := hg
  obtain rfl : q = q' := hq
  rw [hread]

end

/-! ## The obligation -/

section

variable {b addr slot : Nat} (hb : b < 16) (ha : addr < stackStrokes) (hslot : slot < 65536) (s : State) (tweak : Nat)

include hb ha hslot

/-- What a read of a stroke comes to, with its memory address and the seal it is checked under named. -/
theorem strokes_checked (errs : Nat) {g : Nat} (hg : g = stackBase b / 512 + addr) {q : Seal} (hq : q = s.sealUnder b addr slot tweak) :
    let ecc := Reg.bayStkEcc b
    let reads := exec (.strokeReadComplete b addr slot tweak errs) s
    (s.stamp g = q → errs = 0 → reads = .next (s.setErrs g 0)) ∧
    (s.stamp g = q → (s.regionAt b addr).2 = false → 1 ≤ errs → errs ≤ 2 → ∃ t, reads = .next t ∧
      t.fld ecc Reg.bayStkEcc_CORR = satInc Reg.bayStkEcc_CORR.w (s.fld ecc Reg.bayStkEcc_CORR) ∧
      t.fld ecc Reg.bayStkEcc_CORREV = 1 ∧ SameRegisters s t ∧ t.mem = s.mem) ∧
    (s.stamp g ≠ .void → (s.regionAt b addr).2 = false → 3 ≤ errs → errs ≤ 5 → ∃ t, reads = .next t ∧
      t.fld ecc Reg.bayStkEcc_UNCORR = satInc Reg.bayStkEcc_UNCORR.w (s.fld ecc Reg.bayStkEcc_UNCORR) ∧
      t.fld ecc Reg.bayStkEcc_UNCEV = 1 ∧ t.reg (Reg.bayStkErrloc b) = BitVec.ofNat 64 addr ∧ SameRegisters s t ∧ t.mem = s.mem) ∧
    (pfTop ≤ addr → s.stamp g = .none → q = s.locWant b addr → errs = 0 → reads = .next (s.setErrs g 0)) ∧
    (addr < pfTop ∨ s.stamp g ≠ .none → s.stamp g ≠ q → s.stamp g ≠ .void → errs = 0 → ∃ t, reads = .next t ∧
      t.fld ecc Reg.bayStkEcc_TAGMIS = satInc Reg.bayStkEcc_TAGMIS.w (s.fld ecc Reg.bayStkEcc_TAGMIS) ∧
      t.fld ecc Reg.bayStkEcc_TAGEV = 1 ∧ SameRegisters s t ∧ t.mem = s.mem) ∧
    (s.stamp g = .void → reads = .next ((s.setErrs g errs).setFld ecc Reg.bayStkEcc_VOIDRD 1)) := by
  intro ecc reads
  have hstk : stackOf g = some b := hg ▸ stackOf_stroke hb ha
  have hmod : g % 2 ^ 55 = addr := hg ▸ stroke_mod ha
  obtain ⟨hqnone, hqvoid⟩ : q ≠ .none ∧ q ≠ .void := hq ▸ sealWith_written s b addr _ tweak
  have hreads : reads = .next ((s.setErrs g errs).check g q 0).2 := by rw [hq, hg]; exact exec_strokeReadComplete hb ha hslot s tweak errs
  clear_value reads
  clear hg hq
  subst hmod
  have hframe := (touches_setErrs s g errs).then_ (touches_check (s.setErrs g errs) g q 0)
  obtain ⟨u, hu⟩ : ∃ u, u = s.setErrs g errs := ⟨_, rfl⟩
  have herrs : u.errsAt g = errs := by rw [hu, State.errsAt, State.setErrs, SMap.get_set_same]
  have hstamp : u.stamp g = s.stamp g := by rw [hu]; rfl
  have hdet : (u.regionAt b (g % 2 ^ 55)).2 = (s.regionAt b (g % 2 ^ 55)).2 := by rw [hu]; rfl
  have hwant : u.locWant b (g % 2 ^ 55) = s.locWant b (g % 2 ^ 55) := by rw [hu]; rfl
  have hfld : ∀ f, u.fld ecc f = s.fld ecc f := fun f => by rw [hu]; rfl
  have hfound : g % 2 ^ 55 < pfTop ∨ s.stamp g ≠ .none → u.sealFound g b = s.stamp g := fun h =>
    (sealFound_stamp u g (hstamp ▸ h)).trans hstamp
  have hintact : s.stamp g = q → u.sealFound g b = q := fun h => (hfound (Or.inr (h ▸ hqnone))).trans h
  rw [hreads]
  rw [← hu] at hframe ⊢
  refine ⟨fun h h0 => ?_, fun h hplain hlow hhigh => ?_, fun h hplain hlow hhigh => ?_, fun h hnone hloc h0 => ?_,
    fun h hne hvoid h0 => ?_, fun h => ?_⟩
  · rw [check_clean 0 hstk (hintact h) hqvoid (herrs.trans h0), hu, h0]
  · obtain ⟨hcount, hevent⟩ := corrected_counts u b (g % 2 ^ 55)
    rw [check_corrected 0 hstk (hintact h) hqvoid (hdet.trans hplain) (hlow.trans_eq herrs.symm) (herrs.trans_le hhigh)] at hframe ⊢
    exact ⟨_, rfl, by rw [hcount, hfld], hevent, hframe.file, hframe.mem⟩
  · have hvoid : u.sealFound g b ≠ .void := by
      unfold State.sealFound
      split
      · exact (sealWith_written u b _ _ _).2
      · exact hstamp ▸ h
    obtain ⟨hcount, hevent, haddr⟩ := uncorrectable_counts u b ha
    rw [check_uncorrectable 0 hstk hvoid (hdet.trans hplain) (hlow.trans_eq herrs.symm) (herrs.trans_le hhigh)] at hframe ⊢
    exact ⟨_, rfl, by rw [hcount, hfld], hevent, haddr, hframe.file, hframe.mem⟩
  · have hzero : u.sealFound g b = q := (sealFound_zero u g (hstamp.trans hnone) h).trans (hwant.trans hloc.symm)
    rw [check_clean 0 hstk hzero hqvoid (herrs.trans h0), hu, h0]
  · obtain ⟨hcount, hevent⟩ := fld_bump_event u ecc (f := Reg.bayStkEcc_TAGMIS) (e := Reg.bayStkEcc_TAGEV) (by decide) (by decide)
      (by decide) rfl
    rw [check_mismatch 0 hstk ((hfound h).trans_ne hne) ((hfound h).trans_ne hvoid) (herrs.trans h0)] at hframe ⊢
    exact ⟨_, rfl, by rw [hcount, hfld], hevent, hframe.file, hframe.mem⟩
  · rw [check_void 0 hstk ((hfound (Or.inr (by rw [h]; decide))).trans h)]

/-- What a write to a stroke comes to, with its memory address and the seal it is written under named. -/
theorem strokes_written {g : Nat} (hg : g = stackBase b / 512 + addr) {q : Seal} (hq : q = s.sealUnder b addr slot tweak)
    {off : Nat} {data : List Byte} (hdata : off + data.length ≤ 512) :
    let writes := exec (.pageBufferWrite b addr slot tweak off data) s
    let held := s.nbQueued g 1 = true
    (held → writes = .next s) ∧
    (¬ held → data.length = 512 → ∃ t, writes = .next t ∧ t.bytes (512 * g) 512 = data ∧ t.stamp g = q ∧
      SameMemoryOutside s t (512 * g) 512 ∧ SameRegisters s t ∧ (t.stk b).pb.any (·.addr == addr) = true) ∧
    (¬ held → data.length ≠ 512 → (s.check g q 0).1 = true → ∃ t, writes = .next t ∧
      t.bytes (512 * g) 512 = patch (s.bytes (512 * g) 512) off data ∧ t.stamp g = q ∧
      SameMemoryOutside s t (512 * g) 512 ∧ SameRegisters s t) ∧
    (¬ held → data.length ≠ 512 → (s.check g q 0).1 = false → ∃ t, writes = .next t ∧ t.mem = s.mem ∧ t.seals = s.seals ∧
      SameRegisters s t) := by
  intro writes held
  have hstk : stackOf g = some b := hg ▸ stackOf_stroke hb ha
  have hmod : g % 2 ^ 55 = addr := hg ▸ stroke_mod ha
  obtain ⟨read, hcheck⟩ : ∃ read, s.check g q 0 = read := ⟨_, rfl⟩
  have hwrites : writes = _ := exec_pageBufferWrite hb ha hslot s tweak hdata hg hq hcheck
  have hread : Touches [.regs, .host] s read.2 := hcheck ▸ touches_check s g q 0
  have hseals : read.2.seals = s.seals := hcheck ▸ s.seals_check g q 0
  rw [hcheck]
  clear_value writes
  clear hg hq hcheck
  refine ⟨fun h => hwrites.trans (by rw [if_pos h]), fun h hwhole => ?_, fun h hpart hok => ?_, fun h hpart hbad => ?_⟩
  · rw [if_neg h, if_pos hwhole] at hwrites
    obtain ⟨hbytes, hstamp, hout, hfile, hpb⟩ := putStroke_places s hstk hwhole q
    exact ⟨_, hwrites, hbytes, hstamp, hout, hfile, hmod ▸ hpb⟩
  · rw [if_neg h, if_neg hpart, if_pos hok] at hwrites
    have hold : read.2.bytes (512 * g) 512 = s.bytes (512 * g) 512 := by rw [State.bytes, hread.mem, State.bytes]
    rw [hold] at hwrites
    have hlen := length_patch (s.bytes (512 * g) 512) off data (by rwa [s.length_bytes])
    obtain ⟨hbytes, hstamp, hout, hfile, -⟩ := putStroke_places read.2 hstk (hlen.trans (s.length_bytes _ _)) q
    exact ⟨_, hwrites, hbytes, hstamp, (sameMemoryOutside_of_mem hread.mem _ _).trans hout, Part.Same.trans (p := .file) hread.file hfile⟩
  · rw [if_neg h, if_neg hpart, if_neg (by simp [hbad])] at hwrites
    exact ⟨_, hwrites, hread.mem, hseals, hread.file⟩

end

/-- Settles O32: a read by the seal its check finds and its errors, a write by its length and the check of its base. -/
theorem strokesAreCheckedAndWritten : Obligations.StrokesAreCheckedAndWritten := by
  intro b addr slot tweak errs s hb ha hslot g q ecc reads
  obtain ⟨hclean, hcorr, huncorr, hzero, htag, hvoid⟩ := strokes_checked hb ha hslot s tweak errs (g := g) rfl (q := q) rfl
  exact ⟨hclean, hcorr, huncorr, hzero, htag, hvoid,
    fun off data hdata => strokes_written hb ha hslot s tweak (g := g) rfl (q := q) rfl hdata⟩

end Sys2Proof.Machine

/-! # Accesses admitted and transfers entered

The cycle an access or a transfer takes is no earlier than the one it asks for, an access admitted has its window and its bank, and
the search for a mesh entry ends at intervals that meet no reserved one. -/

namespace Sys2Proof.Machine

-- One theorem after another, as in the tests: side by side their stacks ask for more memory than the check allows.
set_option Elab.async false

/-! ## The mesh (R18, R285) -/

section

variable {mesh : List (Nat × Nat × Nat)} {src dst bytes t : Nat}

/-- Where the reserved intervals end that an entry at `t` meets, as entries. -/
def meshEnds (mesh : List (Nat × Nat × Nat)) (src dst bytes t : Nat) : List Nat :=
  (meshSpans src dst bytes t).flatMap fun i =>
    (mesh.filter fun r => r.1 == i.1 && decide (i.2.1 < r.2.2 ∧ r.2.1 < i.2.2)).map fun r => r.2.2 - (i.2.1 - t)

theorem meshClash_eq : meshClash mesh src dst bytes t =
    if (meshEnds mesh src dst bytes t).isEmpty then none else some ((meshEnds mesh src dst bytes t).foldl max (t + 1)) := rfl

theorem mem_meshEnds {c : Nat} : c ∈ meshEnds mesh src dst bytes t ↔ ∃ i ∈ meshSpans src dst bytes t, ∃ r ∈ mesh,
    (r.1 = i.1 ∧ i.2.1 < r.2.2 ∧ r.2.1 < i.2.2) ∧ r.2.2 - (i.2.1 - t) = c := by
  simp only [meshEnds, List.mem_flatMap, List.mem_map, List.mem_filter, Bool.and_eq_true, beq_iff_eq, decide_eq_true_eq, and_assoc]

/-- An entry that clashes with nothing takes intervals that meet no reserved one. -/
theorem meshClash_none (h : meshClash mesh src dst bytes t = none) :
    ∀ i ∈ meshSpans src dst bytes t, ∀ r ∈ mesh, r.1 = i.1 → r.2.2 ≤ i.2.1 ∨ i.2.2 ≤ r.2.1 := by
  intro i hi r hr hl
  by_contra hmeet
  have hend := mem_meshEnds.2 ⟨i, hi, r, hr, ⟨hl, by omega, by omega⟩, rfl⟩
  rw [meshClash_eq, if_neg fun hnil => List.ne_nil_of_mem hend (List.isEmpty_iff.1 hnil)] at h
  exact Option.some_ne_none _ h

/-- An entry that clashes moves on, past the end of a reserved interval it clashes with. -/
theorem meshClash_some {t' : Nat} (h : meshClash mesh src dst bytes t = some t') : t < t' ∧
    ∃ i ∈ meshSpans src dst bytes t, ∃ r ∈ mesh, r.1 = i.1 ∧ i.2.1 < r.2.2 ∧ r.2.2 ≤ t' + (i.2.1 - t) := by
  obtain ⟨hfrom, hall⟩ := le_foldl_max (meshEnds mesh src dst bytes t) (t + 1)
  rw [meshClash_eq] at h
  split at h
  · exact absurd h.symm (Option.some_ne_none _)
  · next hsome =>
    obtain ⟨c, hc⟩ := List.exists_mem_of_ne_nil _ fun hnil => hsome (List.isEmpty_iff.2 hnil)
    obtain ⟨i, hi, r, hr, ⟨hl, ha, -⟩, hce⟩ := mem_meshEnds.1 hc
    have hpast := hall c hc
    rw [Option.some.inj h] at hfrom hpast
    exact ⟨hfrom, i, hi, r, hr, hl, ha, by omega⟩

theorem mem_meshSpans {i : Nat × Nat × Nat} : i ∈ meshSpans src dst bytes t ↔
    ∃ j, ∃ h : j < (meshPath 6 src dst).length, i = ((meshPath 6 src dst)[j], t + 6 * j, t + 6 * j + ceilDiv bytes 128) := by
  simp only [meshSpans, List.mem_mapIdx, eq_comm]

/-- A path takes no link twice (R18). -/
theorem meshPath_nodup : ∀ src < 16, ∀ dst < 16, (meshPath 6 src dst).Nodup := by decide

/-- Whether a reserved interval can still meet one of an entry at `t` or later: its link is on the path, and it ends after the entry
comes to that link. -/
def meshAhead (src dst t : Nat) (r : Nat × Nat × Nat) : Bool :=
  decide (∃ j, ∃ h : j < (meshPath 6 src dst).length, r.1 = (meshPath 6 src dst)[j] ∧ t + 6 * j < r.2.2)

theorem countP_lt_of_mem {α : Type} {p q : α → Bool} {l : List α} {a : α} (ha : a ∈ l) (hpq : ∀ x, p x = true → q x = true)
    (hp : p a = false) (hq : q a = true) : l.countP p < l.countP q := by
  obtain ⟨front, back, rfl⟩ := List.append_of_mem ha
  have hfront := List.countP_mono_left (l := front) fun x _ => hpq x
  have hback := List.countP_mono_left (l := back) fun x _ => hpq x
  simp only [List.countP_append, List.countP_cons, hp, hq, if_true, Bool.false_eq_true, if_false]
  omega

/-- Each clash leaves fewer reserved intervals ahead: one of those clashed with is behind for good, for a path takes its link once. -/
theorem meshAhead_lt {t' : Nat} (hs : src < 16) (hd : dst < 16) (h : meshClash mesh src dst bytes t = some t') :
    mesh.countP (meshAhead src dst t') < mesh.countP (meshAhead src dst t) := by
  obtain ⟨hlater, i, hi, r, hr, hl, hahead, hpast⟩ := meshClash_some h
  obtain ⟨j, hj, rfl⟩ := mem_meshSpans.1 hi
  refine countP_lt_of_mem hr (fun r' h' => ?_) ?_ (decide_eq_true ⟨j, hj, hl, hahead⟩)
  · obtain ⟨k, hk, hlink, hend⟩ := of_decide_eq_true h'
    exact decide_eq_true ⟨k, hk, hlink, by omega⟩
  · refine decide_eq_false fun ⟨k, hk, hlink, hend⟩ => ?_
    obtain rfl : k = j := (meshPath_nodup src hs dst hd).getElem_inj_iff.1 (hlink.symm.trans hl)
    dsimp only at hpast
    omega

/-- The search for an entry ends at one that clashes with nothing, no earlier than it was asked for. -/
theorem meshEntry_clear (hs : src < 16) (hd : dst < 16) (n : Nat) (hn : mesh.countP (meshAhead src dst t) < n) :
    t ≤ meshEntry mesh src dst bytes n t ∧ meshClash mesh src dst bytes (meshEntry mesh src dst bytes n t) = none := by
  induction n generalizing t with
  | zero => exact absurd hn (Nat.not_lt_zero _)
  | succ n ih =>
    rw [meshEntry]
    split
    · next t' h =>
      have hfewer := meshAhead_lt hs hd h
      obtain ⟨hfrom, hclear⟩ := ih (t := t') (by omega)
      exact ⟨(meshClash_some h).1.le.trans hfrom, hclear⟩
    · next h => exact ⟨le_refl t, h⟩

end

/-- A transfer enters at the cycle it is ready or later, and takes intervals that meet no reserved one (R285). -/
theorem meshTransfer_enters (x : Transfer) (s : State) (hs : x.src < 16) (hd : x.dst < 16) :
    ∃ t c, exec (.meshTransferEnter [x]) s = .next t ∧ x.ready ≤ c ∧
      (∀ i, i ∈ meshSpans x.src x.dst x.bytes c → i ∈ t.mesh ∧ ∀ r, r ∈ s.mesh → r.1 = i.1 → r.2.2 ≤ i.2.1 ∨ i.2.2 ≤ r.2.1) ∧
      SameRegisters s t ∧ t.mem = s.mem := by
  have hexec : exec (.meshTransferEnter [x]) s = execMeshTransferEnter [x] s := rfl
  have hnext : execMeshTransferEnter [x] s = .next (s.meshEnter x) := guarded_next _ _ (by simp [hs, hd])
  obtain ⟨hfrom, hclear⟩ := meshEntry_clear (mesh := s.mesh) (bytes := x.bytes) (t := x.ready) hs hd (s.mesh.length + 1)
    (Nat.lt_succ_of_le (List.countP_le_length))
  have hframe := touches_passTo s x.ready
  exact ⟨_, _, hexec.trans hnext, hfrom, fun i hi => ⟨List.mem_append_right _ hi, meshClash_none hclear i hi⟩, hframe.file, hframe.mem⟩

/-! ## The cycle of an admission (R282) -/

theorem le_fixedClash {fw : List (Nat × Nat)} {a t : Nat} (h : fixedClash fw a = some t) : a ≤ t := by
  unfold fixedClash at h
  obtain ⟨w, -, hw⟩ := List.mem_flatMap.1 (List.mem_of_mem_head? h)
  obtain ⟨c, -, hc⟩ := List.mem_filterMap.1 hw
  rw [Option.ite_none_right_eq_some] at hc
  obtain ⟨⟨-, hlt⟩, hct⟩ := hc
  exact hlt.le.trans_eq (Option.some.inj hct)

section

variable (s : State) (b addr : Nat)

theorem le_scrubHold {a t : Nat} (h : s.scrubHold b addr a = some t) : a ≤ t := by
  unfold State.scrubHold at h
  obtain ⟨c, -, hc⟩ := List.exists_of_findSome?_eq_some h
  rw [Option.ite_none_right_eq_some] at hc
  obtain ⟨⟨-, -, hlt, -⟩, hct⟩ := hc
  exact hlt.le.trans_eq (Option.some.inj hct)

/-- A number that is named is no smaller where that holds of both its sources. -/
theorem le_orElse {a : Nat} {x y : Option Nat} (hx : ∀ t, x = some t → a ≤ t) (hy : ∀ t, y = some t → a ≤ t) :
    ∀ t, (x <|> y) = some t → a ≤ t := by
  intro t h
  cases x with
  | none => exact hy t h
  | some v => exact hx t h

theorem le_find {α : Type} {a : Nat} {l : List α} {p : α → Bool} {f : α → Nat} (h : ∀ x, p x = true → a ≤ f x) :
    ∀ t, (l.find? p).map f = some t → a ≤ t := by
  intro t ht
  obtain ⟨x, hx, rfl⟩ := Option.map_eq_some_iff.1 ht
  exact h x (List.find?_some hx)

/-- What keeps a cycle from an access names one no earlier. -/
theorem le_accessClash {fw : List (Nat × Nat)} {ret : Option Nat} {a : Nat} : ∀ t, s.accessClash b fw addr ret a = some t → a ≤ t := by
  unfold State.accessClash
  extract_lets y c held
  have hheld : ∀ t, held = some t → a ≤ t := by
    unfold held
    intro t h
    split at h
    · dsimp only at h
      split at h
      · next hlt => exact hlt.2.2.le.trans_eq (Option.some.inj h)
      · rw [Option.ite_none_right_eq_some] at h
        obtain ⟨⟨-, -, hlt⟩, ht⟩ := h
        exact hlt.le.trans_eq (Option.some.inj ht)
    · exact absurd h.symm (Option.some_ne_none t)
  refine le_orElse (fun t h => ?_) (le_orElse (fun t => le_fixedClash) (le_orElse (le_find fun w hw => ?_)
    (le_orElse (le_find fun k hk => ?_) (le_orElse (fun t => le_scrubHold s b addr) (le_orElse hheld fun t h => ?_)))))
  · rw [Option.ite_none_right_eq_some] at h
    exact h.1.le.trans_eq (Option.some.inj h.2)
  · simp only [Bool.and_eq_true, decide_eq_true_eq] at hw
    exact hw.2.2.le
  · simp only [Bool.and_eq_true, decide_eq_true_eq] at hk
    exact hk.2.2.le
  · obtain ⟨dst, -, hclash⟩ := Option.bind_eq_some_iff.1 h
    obtain ⟨e, he, rfl⟩ := Option.map_eq_some_iff.1 hclash
    have := (meshClash_some he).1
    omega

theorem le_admitAt {fw : List (Nat × Nat)} {ret : Option Nat} {n a : Nat} : a ≤ s.admitAt b fw addr ret n a := by
  induction n generalizing a with
  | zero => exact le_refl a
  | succ n ih =>
    rw [State.admitAt]
    split
    · next a' h => exact (le_accessClash s b addr a' h).trans ih
    · exact le_refl a

/-- An access is admitted no earlier than it arrives. -/
theorem le_admission {arrival : Nat} {ret : Option Nat} : arrival ≤ s.admission b addr arrival ret := le_admitAt s b addr

end

/-! ## An access admitted (R282, R284) -/

section

variable (s : State) (b : Nat)

/-- What an access takes leaves the page buffer of its stack, and its window and its bank are listed. -/
theorem takeWindow_takes (addr arrival : Nat) (ret : Option Nat) :
    let c := s.admission b addr arrival ret
    let t := s.takeWindow b addr arrival ret
    (t.stk b).pb = (s.stk b).pb ∧ (chanOf addr, c) ∈ (t.stk b).windows ∧ (chanOf addr, bankOf addr, c) ∈ (t.stk b).banks := by
  intro c t
  have ht : t.stk b = ((s.passTo c).updStk b fun y => { y with
      windows := y.windows.filter (fun w => decide ((s.passTo c).ec < w.2 + 12288)) ++ [(chanOf addr, c)]
      banks := y.banks.filter (fun k => decide ((s.passTo c).ec < k.2.2 + 12288)) ++ [(chanOf addr, bankOf addr, c)] }).stk b := by
    unfold t State.takeWindow
    cases ret <;> rfl
  rw [ht, State.stk_updStk_same, State.stk_passTo]
  simp

/-- A write-back that frees its entry leaves the windows and the banks of its stack. -/
theorem pbFree_frees (addr : Nat) :
    let t := s.pbFree b addr
    (t.stk b).pb = (s.stk b).pb.filter (·.addr != addr) ∧ (t.stk b).windows = (s.stk b).windows ∧ (t.stk b).banks = (s.stk b).banks ∧
      t.fld (Reg.bayStkStatus b) Reg.bayStkStatus_PBDEPTH = (t.stk b).pb.length % 2 ^ Reg.bayStkStatus_PBDEPTH.w := by
  intro t
  obtain ⟨pb, hpb⟩ : ∃ pb, pb = (s.stk b).pb.filter (·.addr != addr) := ⟨_, rfl⟩
  have hquiet : State.stk (if pb.isEmpty then s.quieten b else s) b = s.stk b := read_ite (·.stk b) (fun _ => rfl) fun _ => rfl
  have ht : t = State.setFld ((if pb.isEmpty then s.quieten b else s).updStk b fun y => { y with pb }) (Reg.bayStkStatus b)
    Reg.bayStkStatus_PBDEPTH pb.length := by rw [hpb]; rfl
  have hstk : t.stk b = { s.stk b with pb } := by rw [ht, State.stk_setFld, State.stk_updStk_same, hquiet]
  rw [hstk, ht, ← hpb]
  exact ⟨rfl, rfl, rfl, State.fld_setFld_same _ _ _ _ (by decide)⟩

/-- An access admitted has its window and its bank no earlier than it arrived, and a write-back its entry freed. -/
theorem admitOne_admits (a : Access) :
    let t := s.admitOne b a
    (∃ c, a.arrival ≤ c ∧ (chanOf a.addr, c) ∈ (t.stk b).windows ∧ (chanOf a.addr, bankOf a.addr, c) ∈ (t.stk b).banks) ∧
      (a.write = false → (t.stk b).pb = (s.stk b).pb) ∧
      (a.write = true → (t.stk b).pb = (s.stk b).pb.filter (·.addr != a.addr) ∧
        t.fld (Reg.bayStkStatus b) Reg.bayStkStatus_PBDEPTH = (t.stk b).pb.length % 2 ^ Reg.bayStkStatus_PBDEPTH.w) := by
  intro t
  obtain ⟨hpb, hwindow, hbank⟩ := takeWindow_takes s b a.addr a.arrival (accessRet a b)
  obtain ⟨hfree, hwindows, hbanks, hdepth⟩ := pbFree_frees (s.takeWindow b a.addr a.arrival (accessRet a b)) b a.addr
  have hfrom := le_admission s b a.addr (arrival := a.arrival) (ret := accessRet a b)
  cases hw : a.write with
  | false =>
    have ht : t = s.takeWindow b a.addr a.arrival (accessRet a b) := if_neg (by simp [hw])
    rw [ht]
    exact ⟨⟨_, hfrom, hwindow, hbank⟩, fun _ => hpb, fun h => absurd h Bool.false_ne_true⟩
  | true =>
    have ht : t = (s.takeWindow b a.addr a.arrival (accessRet a b)).pbFree b a.addr := if_pos hw
    rw [ht]
    exact ⟨⟨_, hfrom, hwindows ▸ hwindow, hbanks ▸ hbank⟩, fun h => absurd h.symm Bool.false_ne_true, fun _ => ⟨hpb ▸ hfree, hdepth⟩⟩

theorem pb_admitOne_subset (a : Access) : ((s.admitOne b a).stk b).pb ⊆ (s.stk b).pb := by
  obtain ⟨-, hread, hwrite⟩ := admitOne_admits s b a
  cases hw : a.write with
  | false => exact hread hw ▸ List.Subset.refl _
  | true => exact (hwrite hw).1 ▸ List.filter_subset_self _

/-! ## The access that goes first (R283) -/

/-- Of lists of one length, the order of keys is the lexicographic one. -/
theorem comesFirst_iff_lt {x y : List Nat} (h : x.length = y.length) : comesFirst x y = true ↔ x < y := by
  induction x generalizing y with
  | nil =>
    obtain rfl := List.length_eq_zero_iff.1 h.symm
    simp [comesFirst]
  | cons a x ih =>
    cases y with
    | nil => exact absurd h (Nat.succ_ne_zero _)
    | cons c y =>
      rw [comesFirst, List.cons_lt_cons_iff, ← ih (Nat.succ.inj h)]
      by_cases hac : a = c
      · simp [hac]
      · simp [hac]

theorem comesFirst_false_iff_le {x y : List Nat} (h : x.length = y.length) : comesFirst x y = false ↔ y ≤ x := by
  rw [← Bool.not_eq_true, comesFirst_iff_lt h, not_lt]

theorem firstBy_eq_none {α : Type} {key : α → List Nat} {l : List α} : firstBy key l = none ↔ l = [] := by
  cases l with
  | nil => exact ⟨fun _ => rfl, fun _ => rfl⟩
  | cons x l =>
    rw [firstBy]
    split
    · split <;> simp
    · simp

/-- The first of a list is one of its elements, and where all keys have one length none comes before it. -/
theorem firstBy_first {α : Type} {key : α → List Nat} {n : Nat} {l : List α} {x : α} (h : firstBy key l = some x) :
    x ∈ l ∧ ((∀ y ∈ l, (key y).length = n) → ∀ y ∈ l, comesFirst (key y) (key x) = false) := by
  induction l generalizing x with
  | nil => exact absurd h.symm (Option.some_ne_none x)
  | cons a l ih =>
    rw [firstBy] at h
    split at h
    · next y hy =>
      obtain ⟨hmem, hfirst⟩ := ih hy
      split at h
      · next hya =>
        obtain rfl := Option.some.inj h
        refine ⟨List.mem_cons_of_mem a hmem, fun hlen z hz => ?_⟩
        obtain ⟨ha, hl⟩ := List.forall_mem_cons.1 hlen
        rcases List.mem_cons.1 hz with rfl | hz
        · exact (comesFirst_false_iff_le (ha.trans (hl y hmem).symm)).2 ((comesFirst_iff_lt ((hl y hmem).trans ha.symm)).1 hya).le
        · exact hfirst hl z hz
      · next hya =>
        obtain rfl := Option.some.inj h
        refine ⟨List.mem_cons_self, fun hlen z hz => ?_⟩
        obtain ⟨ha, hl⟩ := List.forall_mem_cons.1 hlen
        rcases List.mem_cons.1 hz with rfl | hz
        · exact (comesFirst_false_iff_le rfl).2 (le_refl _)
        · have hay := (comesFirst_false_iff_le ((hl y hmem).trans ha.symm)).1 (Bool.not_eq_true _ ▸ hya)
          have hyz := (comesFirst_false_iff_le ((hl z hz).trans (hl y hmem).symm)).1 (hfirst hl z hz)
          exact (comesFirst_false_iff_le ((hl z hz).trans ha.symm)).2 (hay.trans hyz)
    · next hnone =>
      obtain rfl := Option.some.inj h
      rw [firstBy_eq_none.1 hnone]
      exact ⟨List.mem_cons_self, fun _ z hz => List.mem_singleton.1 hz ▸ (comesFirst_false_iff_le rfl).2 (le_refl _)⟩

/-! ## Accesses admitted one after another (R283) -/

theorem admitAll_empty (n : Nat) (others : List Access) : State.admitAll b n [] others s = s := by
  cases n <;> rfl

/-- The access named is admitted last: before it go some of the others, each with an access of its own. -/
theorem admitAll_admits (a : Access) (n : Nat) (others : List Access) (hn : others.length < n) :
    ∃ u, State.admitAll b n [a] others s = u.admitOne b a ∧ Touches [.ec, .regs, .bays] s u ∧ (u.stk b).pb ⊆ (s.stk b).pb ∧
      (others = [] → u = s) := by
  induction n generalizing s others with
  | zero => exact absurd hn (Nat.not_lt_zero _)
  | succ n ih =>
    rw [State.admitAll, if_neg (by simp)]
    split
    · next hnone => exact absurd (firstBy_eq_none.1 hnone) (by simp)
    · next x hx =>
      have hmem := (firstBy_first (n := 0) hx).1
      by_cases hxa : x = a
      · subst hxa
        rw [List.erase_cons_head, admitAll_empty]
        exact ⟨s, rfl, Touches.refl _ s, List.Subset.refl _, fun _ => rfl⟩
      · have hother : x ∈ others := by simpa [hxa] using hmem
        have hlen := List.length_erase_of_mem hother
        have hpos := List.length_pos_of_mem hother
        rw [List.erase_cons_tail (by simpa using Ne.symm hxa), List.erase_nil]
        obtain ⟨u, hu, hframe, hpb, -⟩ := ih (s.admitOne b x) (others.erase x) (by omega)
        exact ⟨u, hu, (touches_admitOne s b x).trans hframe, List.Subset.trans hpb (pb_admitOne_subset s b x),
          fun h => absurd (h ▸ hother) List.not_mem_nil⟩

/-- One admissible access that waits at a stack is admitted, after write-backs at most; after none where none is raised and the buffer
is not full (R284). -/
theorem admitThese_admits {a : Access} (ha : s.admissible b a = true) : ∃ u, s.admitThese b [a] = u.admitOne b a ∧
    Touches [.ec, .regs, .bays] s u ∧ (u.stk b).pb ⊆ (s.stk b).pb ∧
      ((s.stk b).pb.any (·.flush) = false → (s.stk b).pb.length < 224 → u = s) := by
  unfold State.admitThese
  extract_lets named pb others
  have hnamed : named = [a] := by simp [named, ha]
  obtain ⟨u, hu, hframe, hpb, hfirst⟩ := admitAll_admits s b a (named.length + others.length) others (by rw [hnamed]; simp)
  refine ⟨u, hnamed ▸ hu, hframe, hpb, fun hflush hshort => hfirst ?_⟩
  have hraised : ∀ e ∈ pb, e.flush = false := by simpa using hflush
  have hroom : ¬ 224 ≤ pb.length := Nat.not_le.2 hshort
  refine List.map_eq_nil_iff.2 (List.filter_eq_nil_iff.2 fun e he => ?_)
  simp [hraised e he, hroom]

end

/-! ## The commands -/

section

variable {b : Nat} (hb : b < 16) (s : State)

include hb

theorem exec_accessAdmission {a : Access} (haddr : a.addr < stackStrokes) (hsrc : a.sourceBay < 16) :
    exec (.accessAdmission b [a]) s = .next (if s.admits b then s.admitThese b [a] else s) :=
  (show exec (.accessAdmission b [a]) s = execAccessAdmission b [a] s from rfl).trans (guarded_next _ _ (by simp [hb, haddr, hsrc]))

theorem exec_writeBackAdmit : exec (.writeBackAdmit b) s = .next (if s.admits b then s.writeBackFirst b else s) :=
  (show exec (.writeBackAdmit b) s = execWriteBackAdmit b s from rfl).trans (guarded_next _ _ (decide_eq_true hb))

/-- A read of a stroke that the page buffer does not hold is admitted (R282). -/
theorem read_admitted {a : Access} (haddr : a.addr < stackStrokes) (hsrc : a.sourceBay < 16) (had : s.admits b = true)
    (hread : a.write = false) (hup : s.stackUp b = true) (htrip : (s.stk b).tripping = false)
    (hpb : (s.stk b).pb.any (·.addr == a.addr) = false) : ∃ t c, exec (.accessAdmission b [a]) s = .next t ∧ a.arrival ≤ c ∧
      (chanOf a.addr, c) ∈ (t.stk b).windows ∧ (chanOf a.addr, bankOf a.addr, c) ∈ (t.stk b).banks ∧
      SameRegisters s t ∧ t.mem = s.mem := by
  have hok : s.admissible b a = true := by simp only [State.admissible, hread, hup, htrip, hpb]; rfl
  obtain ⟨u, hu, hframe, -⟩ := admitThese_admits s b hok
  obtain ⟨⟨c, hfrom, hwindow, hbank⟩, -⟩ := admitOne_admits u b a
  have hall := hframe.trans (touches_admitOne u b a)
  have hexec := exec_accessAdmission hb s haddr hsrc
  rw [if_pos had, hu] at hexec
  exact ⟨_, c, hexec, hfrom, hwindow, hbank, hall.file, hall.mem⟩

/-- The write-back of a buffered stroke is admitted and frees its entry (R284). -/
theorem writeBack_admitted {a : Access} (haddr : a.addr < stackStrokes) (hsrc : a.sourceBay < 16) (had : s.admits b = true)
    (hwrite : a.write = true) (hheld : (s.stk b).pb.any (·.addr == a.addr) = true) :
    ∃ t c, exec (.accessAdmission b [a]) s = .next t ∧ a.arrival ≤ c ∧ (chanOf a.addr, c) ∈ (t.stk b).windows ∧
      (t.stk b).pb.any (·.addr == a.addr) = false ∧ (∀ p, p ∈ (t.stk b).pb → p ∈ (s.stk b).pb) ∧
      ((s.stk b).pb.any (·.flush) = false → (s.stk b).pb.length < 224 → (t.stk b).pb = (s.stk b).pb.filter (·.addr != a.addr)) ∧
      t.fld (Reg.bayStkStatus b) Reg.bayStkStatus_PBDEPTH = (t.stk b).pb.length % 2 ^ Reg.bayStkStatus_PBDEPTH.w ∧
      SameRegisters s t ∧ t.mem = s.mem := by
  have hok : s.admissible b a = true := by simp only [State.admissible, hwrite, hheld]; rfl
  obtain ⟨u, hu, hframe, hpb, halone⟩ := admitThese_admits s b hok
  obtain ⟨⟨c, hfrom, hwindow, -⟩, -, hfrees⟩ := admitOne_admits u b a
  obtain ⟨hleft, hdepth⟩ := hfrees hwrite
  have hall := hframe.trans (touches_admitOne u b a)
  have hexec := exec_accessAdmission hb s haddr hsrc
  rw [if_pos had, hu] at hexec
  refine ⟨_, c, hexec, hfrom, hwindow, ?_, fun p hp => hpb (pb_admitOne_subset u b a hp), fun hflush hshort => ?_, hdepth, hall.file,
    hall.mem⟩
  · rw [hleft]
    simp
  · rw [hleft, halone hflush hshort]

/-- The write-back admitted alone is of the stroke that goes first (R283). -/
theorem writeBack_first (had : s.admits b = true) (hpb : (s.stk b).pb ≠ []) : ∃ p, p ∈ (s.stk b).pb ∧
    (∀ q, q ∈ (s.stk b).pb → comesFirst (s.accessTurn b (s.writeBack q)) (s.accessTurn b (s.writeBack p)) = false) ∧
    ∃ t, exec (.writeBackAdmit b) s = .next t ∧ (t.stk b).pb = (s.stk b).pb.filter (·.addr != p.addr) ∧
      SameRegisters s t ∧ t.mem = s.mem := by
  have hexec := exec_writeBackAdmit hb s
  rw [if_pos had] at hexec
  unfold State.writeBackFirst at hexec
  split at hexec
  · next a ha =>
    obtain ⟨hmem, hfirst⟩ := firstBy_first (n := 3) ha
    obtain ⟨p, hp, rfl⟩ := List.mem_map.1 hmem
    have hlen : ∀ y ∈ (s.stk b).pb.map s.writeBack, (s.accessTurn b y).length = 3 := fun y hy => by
      obtain ⟨q, -, rfl⟩ := List.mem_map.1 hy
      rfl
    obtain ⟨-, -, hfrees⟩ := admitOne_admits s b (s.writeBack p)
    have hframe := touches_admitOne s b (s.writeBack p)
    exact ⟨p, hp, fun q hq => hfirst hlen _ (List.mem_map_of_mem hq), _, hexec, (hfrees rfl).1, hframe.file, hframe.mem⟩
  · next hnone => exact absurd (List.map_eq_nil_iff.1 (firstBy_eq_none.1 hnone)) hpb

theorem writeBack_none (hpb : (s.stk b).pb = []) : exec (.writeBackAdmit b) s = .next s := by
  rw [exec_writeBackAdmit hb, State.writeBackFirst, hpb]
  exact congrArg _ (ite_self s)

end

/-- Settles O33: an admission by the search for its cycle and the order of the accesses, a transfer by the search for its entry. -/
theorem accessesAndTransfersAreAdmitted : Obligations.AccessesAndTransfersAreAdmitted := by
  refine ⟨fun b a s hb haddr hsrc => ⟨fun had => ?_, read_admitted hb s haddr hsrc, writeBack_admitted hb s haddr hsrc,
    writeBack_first hb s, writeBack_none hb s⟩, meshTransfer_enters⟩
  rw [exec_accessAdmission hb s haddr hsrc, had]
  rfl

end Sys2Proof.Machine

/-! # The start of a frame

What the slot maps that take effect and the samples of the stacks and the die leave of the node. -/

namespace Sys2Proof.Machine

-- One theorem after another, as in the tests: side by side their stacks ask for more memory than the check allows.
set_option Elab.async false

/-! ## Ready reporting of a stack (R304, R513) -/

section

variable (s : State) (b : Nat)

theorem State.stackXs_log (kind unit sub : Nat) (w2 w3 : Word) : (s.log kind unit sub w2 w3).stackXs = s.stackXs := by
  unfold State.log
  exact read_ite _ (fun _ => rfl) fun _ => rfl

theorem State.stackXs_setReady (f : Fld) (i : Nat) (v : Bool) : (s.setReady f i v).stackXs = s.stackXs := by
  unfold State.setReady
  exact read_ite _ (fun _ => rfl) fun _ => (State.stackXs_log _ _ _ _ _ _).trans (read_ite _ (fun _ => rfl) fun _ => rfl)

theorem State.frames_log (kind unit sub : Nat) (w2 w3 : Word) : (s.log kind unit sub w2 w3).frames = s.frames := by
  unfold State.log
  exact read_ite _ (fun _ => rfl) fun _ => rfl

theorem State.frames_setReady (f : Fld) (i : Nat) (v : Bool) : (s.setReady f i v).frames = s.frames := by
  unfold State.setReady
  exact read_ite _ (fun _ => rfl) fun _ => (State.frames_log _ _ _ _ _ _).trans (read_ite _ (fun _ => rfl) fun _ => rfl)

theorem touches_setStackReady (v : Bool) : Touches [.regs, .host] s (s.setStackReady b v) :=
  ((touches_setFld s _ _ _).then_ (touches_setReady _ _ _ _)).mono (by decide)

theorem stk_setStackReady (v : Bool) (b' : Nat) : (s.setStackReady b v).stk b' = s.stk b' :=
  State.stk_congr (State.stackXs_setReady _ _ _ _) b'

theorem frames_setStackReady (v : Bool) : (s.setStackReady b v).frames = s.frames := State.frames_setReady _ _ _ _

theorem reg_setStackReady (v : Bool) {o : Nat} (hstk : o ≠ Reg.bayStkStatus b) (hready : o ≠ Reg.globalReady)
    (hlog : o ≠ Reg.globalEverr) : (s.setStackReady b v).reg o = s.reg o :=
  (State.reg_setReady _ _ _ _ hready hlog).trans (State.reg_setFld_ne _ _ _ hstk)

theorem status_off : Reg.bayStkStatus b ≠ Reg.globalReady ∧ Reg.bayStkStatus b ≠ Reg.globalEverr ∧
    Reg.bayStkStatus b ≠ Reg.bayStkTherm b := by
  unfold Reg.bayStkStatus Reg.globalReady Reg.globalEverr Reg.bayStkTherm
  omega

/-- A field of BAY.STK.STATUS above READY stands. -/
theorem fld_setStackReady (v : Bool) {f : Fld} (h : 1 ≤ f.lo) :
    (s.setStackReady b v).fld (Reg.bayStkStatus b) f = s.fld (Reg.bayStkStatus b) f :=
  (State.fld_setReady _ _ _ _ _ (status_off b).1 (status_off b).2.1).trans
    (State.fld_setFld_apart _ _ _ _ _ (by decide) (Or.inl h))

theorem stackUp_setStackReady (v : Bool) : (s.setStackReady b v).stackUp b = v := by
  have h : (s.setStackReady b v).fld (Reg.bayStkStatus b) Reg.bayStkStatus_READY = b2n v % 2 ^ 1 :=
    (State.fld_setReady _ _ _ _ _ (status_off b).1 (status_off b).2.1).trans (State.fld_setFld_same _ _ _ _ (by decide))
  rw [State.stackUp, h]
  cases v <;> rfl

theorem stk_quieten (b' : Nat) : (s.quieten b).stk b' = s.stk b' := rfl

end

/-! ## Changes of power and of the frame count -/

section

variable (s : State)

theorem touches_setPwr (p : PwrX) : Touches [] s { s with pwr := p } := by
  intro k hk
  cases k <;> simp [Part.Same, SameRegisters, State.prog, State.bay]

theorem touches_setFrames (n : Nat) : Touches [] s { s with frames := n } := by
  intro k hk
  cases k <;> simp [Part.Same, SameRegisters, State.prog, State.bay]

theorem touches_showAlarm : Touches [.out] s s.showAlarm := by
  unfold State.showAlarm
  exact Touches.ite (fun _ => Touches.refl _ s) fun _ => ((touches_setPwr s _).then_ (touches_emit _ _)).mono (by decide)

theorem stk_showAlarm (b : Nat) : s.showAlarm.stk b = s.stk b := by
  unfold State.showAlarm
  exact read_ite (·.stk b) (fun _ => rfl) fun _ => rfl

theorem frames_showAlarm : s.showAlarm.frames = s.frames := by
  unfold State.showAlarm
  exact read_ite _ (fun _ => rfl) fun _ => rfl

end

/-! ## A stack at a frame start (R279, R281) -/

section

variable (s : State) (b : Nat)

theorem touches_newRefresh (old new : Nat) : Touches [.regs] s (s.newRefresh b old new) :=
  Touches.ite (fun _ => Touches.refl _ s) fun _ => touches_setFld s _ _ _

theorem stackXs_newRefresh (old new : Nat) : (s.newRefresh b old new).stackXs = s.stackXs := by
  unfold State.newRefresh
  exact read_ite _ (fun _ => rfl) fun _ => rfl

theorem frames_newRefresh (old new : Nat) : (s.newRefresh b old new).frames = s.frames := by
  unfold State.newRefresh
  exact read_ite _ (fun _ => rfl) fun _ => rfl

theorem touches_floorMap : Touches [.regs] s (s.floorMap b) := by
  unfold State.floorMap
  refine Touches.ite (fun _ => Touches.ite (fun _ => touches_setFld s _ _ _) fun _ => ?_) fun _ => Touches.refl _ s
  exact ((touches_newRefresh s b _ _).then_ ((touches_setReg _ _ _).then_ (touches_updStk _ _ _))).mono (by decide)

theorem frames_floorMap : (s.floorMap b).frames = s.frames := by
  unfold State.floorMap
  exact read_ite _ (fun _ => read_ite _ (fun _ => rfl) fun _ => frames_newRefresh s b _ _) fun _ => rfl

theorem State.stk_setStk_ne {b' : Nat} (h : b' ≠ b) (y : StackX) : (s.setStk b y).stk b' = s.stk b' :=
  (State.stk_setStk _ _ _ _).trans (if_neg h)

theorem stk_floorMap_ne {b' : Nat} (h : b' ≠ b) : (s.floorMap b).stk b' = s.stk b' := by
  unfold State.floorMap
  refine read_ite (·.stk b') (fun _ => read_ite (·.stk b') (fun _ => rfl) fun _ => ?_) fun _ => rfl
  exact (State.stk_setStk_ne _ b h _).trans (State.stk_congr (stackXs_newRefresh s b _ _) b')

/-- The state of a stack whose waiting slot map and throttle step have taken effect, at easel cycle `ec`. -/
def StackX.framed (y : StackX) (ec : Nat) : StackX :=
  { y with map := y.pendMap.getD y.map, pendMap := none, step := y.pendStep.getD y.step, pendStep := none, pendFloor := false
           windows := y.windows.filter fun w => decide (ec < w.2 + 96) }

/-- A stack whose waiting slot map and throttle step have taken effect, with the registers that show it. -/
def State.mapTaken : State :=
  (((s.newRefresh b (s.stk b).map ((s.stk b).pendMap.getD (s.stk b).map)).setStk b ((s.stk b).framed s.ec)).setFld (Reg.bayStkStatus b)
    Reg.bayStkStatus_TSTEP ((s.stk b).pendStep.getD (s.stk b).step)).setFld (Reg.bayStkStatus b) Reg.bayStkStatus_FRAME
      (s.frames - s.boot.coldFrame)

theorem frameStack_eq : s.frameStack b = if (s.stk b).pendFloor then (s.mapTaken b).floorMap b else s.mapTaken b := rfl

theorem touches_frameStack : Touches [.regs] s (s.frameStack b) := by
  have htaken : Touches [.regs] s (s.mapTaken b) := ((touches_newRefresh s b _ _).then_ ((touches_setStk _ _ _).then_
    ((touches_setFld _ _ _ _).then_ (touches_setFld _ _ _ _)))).mono (by decide)
  rw [frameStack_eq]
  exact Touches.ite (fun _ => htaken.trans (touches_floorMap _ b)) fun _ => htaken

theorem frames_frameStack : (s.frameStack b).frames = s.frames := by
  have htaken : (s.mapTaken b).frames = s.frames := frames_newRefresh s b _ _
  rw [frameStack_eq]
  exact read_ite _ (fun _ => (frames_floorMap _ b).trans htaken) fun _ => htaken

theorem stk_frameStack_ne {b' : Nat} (h : b' ≠ b) : (s.frameStack b).stk b' = s.stk b' := by
  have htaken : (s.mapTaken b).stk b' = s.stk b' := by
    rw [State.mapTaken, State.stk_setFld, State.stk_setFld, State.stk_setStk_ne _ b h]
    exact State.stk_congr (stackXs_newRefresh s b _ _) b'
  rw [frameStack_eq]
  exact read_ite (·.stk b') (fun _ => (stk_floorMap_ne _ b h).trans htaken) fun _ => htaken

theorem stk_frameStack (h : (s.stk b).pendFloor = false) : (s.frameStack b).stk b = (s.stk b).framed s.ec := by
  rw [frameStack_eq, if_neg (by simp [h]), State.mapTaken, State.stk_setFld, State.stk_setFld, State.stk_setStk, if_pos rfl]

/-- What is read of one unit after a fold over the units is what its own step leaves of it, where the others' steps keep it. -/
theorem foldl_turn {α β : Type} (P : State → β) {f : State → α → State} {l : List α} {a : α} (ha : a ∈ l) (hl : l.Nodup)
    (hkeep : ∀ u, ∀ c ∈ l, c ≠ a → P (f u c) = P u) (s : State) : ∃ u, P u = P s ∧ P (l.foldl f s) = P (f u a) := by
  obtain ⟨front, back, rfl⟩ := List.append_of_mem ha
  obtain ⟨-, hback, hapart⟩ := List.nodup_append.1 hl
  refine ⟨front.foldl f s, foldl_same P (fun u c hc => hkeep u c (List.mem_append_left _ hc) (hapart c hc a List.mem_cons_self)) s, ?_⟩
  rw [List.foldl_append, List.foldl_cons]
  refine foldl_same P (fun u c hc => hkeep u c (List.mem_append_right _ (List.mem_cons_of_mem a hc)) ?_) _
  rintro rfl
  exact (List.nodup_cons.1 hback).1 hc

end

/-- All stacks with their waiting slot maps in effect. -/
def State.mapsTaken (s : State) : State := allBays.foldl (fun u b => u.frameStack b) s

theorem touches_mapsTaken (s : State) : Touches [.regs] s s.mapsTaken := Touches.foldl (fun u b => touches_frameStack u b) allBays s

theorem frames_mapsTaken (s : State) : s.mapsTaken.frames = s.frames := foldl_same (·.frames) (fun u b _ => frames_frameStack u b) s

/-- Where no floor is to be raised, the waiting slot map has taken effect (R281). -/
theorem stk_mapsTaken (s : State) {b : Nat} (hb : b < 16) (h : (s.stk b).pendFloor = false) :
    (s.mapsTaken.stk b).map = (s.stk b).pendMap.getD (s.stk b).map ∧ (s.mapsTaken.stk b).pendMap = none := by
  obtain ⟨u, hu, hturn⟩ := foldl_turn (fun u => u.stk b) (f := fun u b => u.frameStack b) (l := allBays) (a := b)
    (List.mem_range.2 hb) List.nodup_range (fun u c _ hc => stk_frameStack_ne u c (Ne.symm hc)) s
  rw [State.mapsTaken, hturn, stk_frameStack u b (by rw [hu, h]), hu]
  exact ⟨rfl, rfl⟩

/-! ## The temperature of a stack (R295, R296) -/

section

variable (s : State) (b temp : Nat)

/-- The sample of a stack shown in BAY.STK.THERM, with the throttle step it asks for. -/
def State.tempShown : State :=
  let th := Reg.bayStkTherm b
  let y := s.stk b
  let s1 := (s.setFld th Reg.bayStkTherm_TEMP temp).setFld th Reg.bayStkTherm_MAXTEMP (max temp (s.fld th Reg.bayStkTherm_MAXTEMP))
  let k := throttleStep (s.fld th Reg.bayStkTherm_THRESH) temp y.step
  let s2 := if k = y.step then s1 else s1.updStk b fun y => { y with pendStep := some k }
  if k ≠ y.step ∧ 0 < k then s2.setFld th Reg.bayStkTherm_THROTEV 1 else s2

/-- A stack that has cooled after its trip: out of TRIP and ready (R296). -/
def State.cooled (v : Bool) : State :=
  (((s.setFld (Reg.bayStkStatus b) Reg.bayStkStatus_TRIP 0).setSelfRef b v).setStackReady b true).quieten b

/-- What the sample of a stack comes to: it is shown, and the stack returns from its trip or begins one. -/
theorem sampleStack_cases : s.sampleStack b temp = s.tempShown b temp ∨ (∃ v, s.sampleStack b temp = (s.tempShown b temp).cooled b v) ∨
    s.sampleStack b temp = (s.tempShown b temp).updStk b fun y => { y with tripping := true, tripAt := s.ec } := by
  unfold State.sampleStack
  extract_lets th y thresh s1 k s2 s3 tripped
  have h3 : s3 = s.tempShown b temp := rfl
  rw [h3]
  split
  · split
    · exact Or.inr (Or.inl ⟨_, rfl⟩)
    · exact Or.inl rfl
  · split
    · exact Or.inl rfl
    · split
      · exact Or.inr (Or.inr rfl)
      · exact Or.inl rfl

/-- What the fields of BAY.STK.THERM and the throttle step to come keep, the sample shown keeps. -/
theorem tempShown_keeps {β : Type} (P : State → β) (hfld : ∀ u f n, P (State.setFld u (Reg.bayStkTherm b) f n) = P u)
    (hstep : ∀ u k, P (State.updStk u b fun y => { y with pendStep := some k }) = P u) : P (s.tempShown b temp) = P s := by
  unfold State.tempShown
  extract_lets th y s1 k s2
  have h2 : P s2 = P s := read_ite P (fun _ => (hfld _ _ _).trans (hfld _ _ _)) fun _ => (hstep _ _).trans ((hfld _ _ _).trans (hfld _ _ _))
  exact read_ite P (fun _ => (hfld _ _ _).trans h2) fun _ => h2

/-- What BAY.STK.STATUS, the ready bit and a trip that begins keep, the sample keeps once it is shown. -/
theorem sampleStack_keeps {β : Type} (P : State → β) (hfld : ∀ u f n, P (State.setFld u (Reg.bayStkStatus b) f n) = P u)
    (hready : ∀ u, P (State.setStackReady u b true) = P u) (hquiet : ∀ u, P (State.quieten u b) = P u)
    (htrip : ∀ u a, P (State.updStk u b fun y => { y with tripping := true, tripAt := a }) = P u) :
    P (s.sampleStack b temp) = P (s.tempShown b temp) := by
  rcases sampleStack_cases s b temp with h | ⟨v, h⟩ | h
  · rw [h]
  · rw [h]
    exact (hquiet _).trans ((hready _).trans ((hfld _ _ _).trans (hfld _ _ _)))
  · rw [h]
    exact htrip _ _

theorem touches_sampleStack : Touches [.regs, .bays, .host] s (s.sampleStack b temp) := by
  have hshown : Touches [.regs] s (s.tempShown b temp) := by
    have hset := (touches_setFld s (Reg.bayStkTherm b) Reg.bayStkTherm_TEMP temp).trans (touches_setFld _ (Reg.bayStkTherm b)
      Reg.bayStkTherm_MAXTEMP (max temp (s.fld (Reg.bayStkTherm b) Reg.bayStkTherm_MAXTEMP)))
    unfold State.tempShown
    extract_lets th y s1 k s2
    have h2 : Touches [.regs] s s2 := Touches.ite (fun _ => hset) fun _ => hset.trans ((touches_updStk _ _ _).mono (by decide))
    exact Touches.ite (fun _ => h2.trans (touches_setFld _ _ _ _)) fun _ => h2
  rcases sampleStack_cases s b temp with h | ⟨v, h⟩ | h
  · rw [h]
    exact hshown.mono (by decide)
  · rw [h]
    exact (hshown.then_ ((touches_setFld _ _ _ _).then_ ((touches_setFld _ _ _ _).then_ ((touches_setStackReady _ b true).then_
      (touches_quieten _ b))))).mono (by decide)
  · rw [h]
    exact (hshown.then_ (touches_updStk _ _ _)).mono (by decide)

theorem frames_sampleStack : (s.sampleStack b temp).frames = s.frames := by
  rw [sampleStack_keeps s b temp (·.frames) (fun _ _ _ => rfl) (fun u => frames_setStackReady u b true) (fun _ => rfl) fun _ _ => rfl]
  exact tempShown_keeps s b temp (·.frames) (fun _ _ _ => rfl) fun _ _ => rfl

theorem reg_sampleStack {o : Nat} (htherm : o ≠ Reg.bayStkTherm b) (hstk : o ≠ Reg.bayStkStatus b) (hready : o ≠ Reg.globalReady)
    (hlog : o ≠ Reg.globalEverr) : (s.sampleStack b temp).reg o = s.reg o := by
  rw [sampleStack_keeps s b temp (·.reg o) (fun u f n => u.reg_setFld_ne f n hstk)
    (fun u => reg_setStackReady u b true hstk hready hlog) (fun u => (touches_quieten u b).reg o) fun u _ => (touches_updStk u b _).reg o]
  exact tempShown_keeps s b temp (·.reg o) (fun u f n => u.reg_setFld_ne f n htherm) fun u _ => (touches_updStk u b _).reg o

/-- A sample leaves the slot map in force and the one that waits. -/
theorem map_sampleStack (b' : Nat) : ((s.sampleStack b temp).stk b').map = (s.stk b').map ∧
    ((s.sampleStack b temp).stk b').pendMap = (s.stk b').pendMap := by
  have hupd : ∀ (u : State) (f : StackX → StackX), (∀ y, (f y).map = y.map ∧ (f y).pendMap = y.pendMap) →
      (((u.updStk b f).stk b').map, ((u.updStk b f).stk b').pendMap) = ((u.stk b').map, (u.stk b').pendMap) := fun u f hf => by
    rw [State.updStk, State.stk_setStk]
    split
    · next h => rw [(hf _).1, (hf _).2, h]
    · rfl
  have hrest := sampleStack_keeps s b temp (fun u => ((u.stk b').map, (u.stk b').pendMap)) (fun _ _ _ => rfl)
    (fun u => by rw [stk_setStackReady]) (fun u => by rw [stk_quieten]) fun u a => hupd u _ fun _ => ⟨rfl, rfl⟩
  have hshown := tempShown_keeps s b temp (fun u => ((u.stk b').map, (u.stk b').pendMap)) (fun _ _ _ => rfl)
    fun u k => hupd u _ fun _ => ⟨rfl, rfl⟩
  exact Prod.ext_iff.1 (hrest.trans hshown)

theorem therm_off : Reg.bayStkTherm b ≠ Reg.bayStkStatus b ∧ Reg.bayStkTherm b ≠ Reg.globalReady ∧
    Reg.bayStkTherm b ≠ Reg.globalEverr := by
  unfold Reg.bayStkTherm Reg.bayStkStatus Reg.globalReady Reg.globalEverr
  omega

/-- BAY.STK.THERM shows the temperature sampled. -/
theorem temp_sampleStack (htemp : temp < 256) : (s.sampleStack b temp).fld (Reg.bayStkTherm b) Reg.bayStkTherm_TEMP = temp := by
  obtain ⟨hstk, hready, hlog⟩ := therm_off b
  rw [sampleStack_keeps s b temp (·.fld (Reg.bayStkTherm b) Reg.bayStkTherm_TEMP) (fun u f n => u.fld_setFld_ne f _ n hstk)
    (fun u => State.fld_of_reg (reg_setStackReady u b true hstk hready hlog) _) (fun u => (touches_quieten u b).fld _ _)
    fun u _ => (touches_updStk u b _).fld _ _]
  unfold State.tempShown
  extract_lets th y s1 k s2
  have h1 : s1.fld th Reg.bayStkTherm_TEMP = temp := by
    rw [State.fld_setFld_apart _ _ _ _ _ (by decide) (by decide), State.fld_setFld_same _ _ _ _ (by decide)]
    exact Nat.mod_eq_of_lt htemp
  have h2 : s2.fld th Reg.bayStkTherm_TEMP = temp := read_ite (·.fld th Reg.bayStkTherm_TEMP) (fun _ => h1)
    fun _ => ((touches_updStk s1 b _).fld _ _).trans h1
  exact read_ite (·.fld th Reg.bayStkTherm_TEMP)
    (fun _ => (State.fld_setFld_apart _ _ _ _ _ (by decide) (by decide)).trans h2) fun _ => h2

end

/-! ## The samples of all stacks and of the die (R279, R566, R568) -/

section

variable (s : State)

/-- All stacks sampled, each at its temperature of a list. -/
def State.stacksSampled (temps : List Nat) : State := temps.zipIdx.foldl (fun u t => u.sampleStack t.2 t.1) s

theorem touches_stacksSampled (temps : List Nat) : Touches [.regs, .bays, .host] s (s.stacksSampled temps) := by
  refine Touches.foldl (fun u t => ?_) temps.zipIdx s
  exact touches_sampleStack u t.2 t.1

theorem frames_stacksSampled (temps : List Nat) : (s.stacksSampled temps).frames = s.frames := by
  refine foldl_same (·.frames) (fun u t _ => ?_) s
  exact frames_sampleStack u t.2 t.1

theorem map_stacksSampled (temps : List Nat) (b : Nat) : ((s.stacksSampled temps).stk b).map = (s.stk b).map ∧
    ((s.stacksSampled temps).stk b).pendMap = (s.stk b).pendMap := by
  refine Prod.ext_iff.1 (foldl_same (fun u => ((u.stk b).map, (u.stk b).pendMap)) (fun u t _ => ?_) s)
  exact Prod.ext_iff.2 (map_sampleStack u t.2 t.1 b)

/-- After the samples every stack shows its own. -/
theorem temp_stacksSampled {temps : List Nat} (hlen : temps.length = 16) (htemps : ∀ k, k ∈ temps → k < 256) {b : Nat} (hb : b < 16) :
    (s.stacksSampled temps).fld (Reg.bayStkTherm b) Reg.bayStkTherm_TEMP = temps.getD b 0 := by
  have hbl : b < temps.length := hb.trans_eq hlen.symm
  have hval : temps.getD b 0 = temps[b] := by simp [hbl]
  rw [hval]
  refine foldl_sets (·.fld (Reg.bayStkTherm b) Reg.bayStkTherm_TEMP) (a := (temps[b], b)) (fun u => ?_) (fun u t ht hne => ?_)
    (List.mem_zipIdx_iff_getElem?.2 (by simp [hbl])) s
  · exact temp_sampleStack u b _ (htemps _ (List.getElem_mem hbl))
  have hother : t.2 ≠ b := by
    rintro rfl
    have hget : temps[t.2]? = some t.1 := List.mem_zipIdx_iff_getElem?.1 ht
    rw [List.getElem?_eq_getElem hbl] at hget
    exact hne (Prod.ext (Option.some.inj hget).symm rfl)
  obtain ⟨-, hready, hlog⟩ := therm_off b
  refine State.fld_of_reg (reg_sampleStack u t.2 t.1 ?_ ?_ hready hlog) _
  · unfold Reg.bayStkTherm
    omega
  · unfold Reg.bayStkTherm Reg.bayStkStatus
    omega

/-- The die sampled, with the warning it shows (R566). -/
def State.dieShown (die : Nat) : State :=
  let s1 : State := { s with pwr := { s.pwr with dieWarm := decide (105 ≤ die), dieHot := 0 } }
  (if decide (105 ≤ die) && !s.pwr.dieWarm then s1.powerLog 0xFF 0 else s1).showAlarm

/-- A sample of the die below the trip level shows the warning at most. -/
theorem sampleDie_eq {die : Nat} (hdie : die < 115) : s.sampleDie die = if s.pwr.thermtrip then s else s.dieShown die := by
  unfold State.sampleDie
  rw [if_neg (Nat.not_le.2 hdie)]
  rfl

/-- What the power state, the event log and ALARM_N keep, a sample of the die below the trip level keeps. -/
theorem sampleDie_keeps {β : Type} (P : State → β) (hpwr : ∀ u p, P { u with pwr := p } = P u)
    (hlog : ∀ u w2 w3, P (State.log u 0x10 0xFF 0 w2 w3) = P u) (halarm : ∀ u, P (State.showAlarm u) = P u) {die : Nat} (hdie : die < 115) :
    P (s.sampleDie die) = P s := by
  rw [sampleDie_eq s hdie]
  refine read_ite P (fun _ => rfl) fun _ => (halarm _).trans ?_
  exact read_ite P (fun _ => (hlog _ _ _).trans (hpwr _ _)) fun _ => hpwr _ _

theorem touches_sampleDie {die : Nat} (hdie : die < 115) : Touches [.regs, .host, .out] s (s.sampleDie die) := by
  have hpwr := touches_setPwr s { s.pwr with dieWarm := decide (105 ≤ die), dieHot := 0 }
  rw [sampleDie_eq s hdie]
  refine Touches.ite (fun _ => Touches.refl _ s) fun _ => Touches.trans (Touches.ite (fun _ => ?_) fun _ => hpwr.mono (by decide))
    ((touches_showAlarm _).mono (by decide))
  exact (hpwr.then_ (touches_log _ _ _ _ _ _)).mono (by decide)

theorem frames_sampleDie {die : Nat} (hdie : die < 115) : (s.sampleDie die).frames = s.frames :=
  sampleDie_keeps s (·.frames) (fun _ _ => rfl) (fun _ _ _ => State.frames_log _ _ _ _ _ _) frames_showAlarm hdie

theorem stk_sampleDie {die : Nat} (hdie : die < 115) (b : Nat) : (s.sampleDie die).stk b = s.stk b :=
  sampleDie_keeps s (·.stk b) (fun _ _ => rfl) (fun u _ _ => State.stk_congr (State.stackXs_log u _ _ _ _ _) b)
    (fun u => stk_showAlarm u b) hdie

theorem reg_sampleDie {die : Nat} (hdie : die < 115) {o : Nat} (hlog : o ≠ Reg.globalEverr) : (s.sampleDie die).reg o = s.reg o :=
  sampleDie_keeps s (·.reg o) (fun u p => (touches_setPwr u p).reg o) (fun u _ _ => u.reg_log _ _ _ _ _ hlog)
    (fun u => (touches_showAlarm u).reg o) hdie

end

/-! ## FRAME_START -/

theorem frameFirmware_idle {s : State} (hact : s.rot.act = none) (hback : s.rot.back = none) : s.frameFirmware = s := by
  unfold State.frameFirmware
  rw [hact, hback]

/-- The node as frame `idx` begins: time has passed up to it, and it is counted. -/
def State.frameBegun (s : State) (idx : Nat) : State := { s.passTo (12288 * idx) with frames := idx + 1 }

theorem touches_frameBegun (s : State) (idx : Nat) : Touches [.ec, .regs] s (s.frameBegun idx) :=
  ((touches_passTo s _).then_ (touches_setFrames _ _)).mono (by decide)

theorem exec_frameStart {temps : List Nat} {die : Nat} {s : State} (hlen : temps.length = 16) (htemps : ∀ k, k ∈ temps → k < 256)
    (hdie : die < 115) (hcrystal : s.boot.noCrystal = false) (hphase : s.boot.phase < 3) (hrelock : s.pwr.relock = none)
    (hact : s.rot.act = none) (hback : s.rot.back = none) : exec (.frameStart temps die) s =
      .next (((s.frameBegun (max s.frames (ceilDiv s.ec 12288))).mapsTaken.stacksSampled temps).sampleDie die) := by
  have hexec : exec (.frameStart temps die) s = execFrameStart temps die s := rfl
  have hok : (temps.length == 16 && temps.all (fun k => decide (k < 256)) && decide (die < 256)) = true := by
    simp only [hlen, Bool.and_eq_true, beq_self_eq_true, List.all_eq_true, decide_eq_true_eq, true_and]
    exact ⟨htemps, hdie.trans (by decide)⟩
  have hrot := ((touches_frameBegun s (max s.frames (ceilDiv s.ec 12288))).then_ (touches_mapsTaken _)).rot
  have hidle : (s.frameBegun (max s.frames (ceilDiv s.ec 12288))).mapsTaken.frameFirmware = _ :=
    frameFirmware_idle (by rw [hrot, hact]) (by rw [hrot, hback])
  rw [hexec, execFrameStart, guarded_next _ _ hok]
  dsimp only
  rw [if_neg (by simp [hcrystal]), if_neg (Nat.not_le.2 hphase), hrelock]
  dsimp only
  rw [← hidle]
  unfold State.stacksSampled State.mapsTaken State.frameBegun
  rfl

/-- The start of a frame, in the words of its statement. -/
theorem frame_starts {temps : List Nat} {die : Nat} {s : State} (hlen : temps.length = 16) (htemps : ∀ k, k ∈ temps → k < 256)
    (hdie : die < 115) (hcrystal : s.boot.noCrystal = false) (hphase : s.boot.phase < 3) (hrelock : s.pwr.relock = none)
    (hact : s.rot.act = none) (hback : s.rot.back = none) : ∃ t, exec (.frameStart temps die) s = .next t ∧
      t.frames = max s.frames (ceilDiv s.ec 12288) + 1 ∧ 12288 * (t.frames - 1) ≤ t.ec ∧ SameRegisters s t ∧ t.mem = s.mem ∧
      ∀ b, b < 16 → ((s.stk b).pendFloor = false → (t.stk b).map = (s.stk b).pendMap.getD (s.stk b).map ∧ (t.stk b).pendMap = none) ∧
        t.fld (Reg.bayStkTherm b) Reg.bayStkTherm_TEMP = temps.getD b 0 := by
  have hexec := exec_frameStart hlen htemps hdie hcrystal hphase hrelock hact hback
  generalize max s.frames (ceilDiv s.ec 12288) = idx at hexec ⊢
  obtain ⟨u, hu⟩ : ∃ u, u = s.frameBegun idx := ⟨_, rfl⟩
  have hbegun : Touches [.ec, .regs] s u := by rw [hu]; exact touches_frameBegun s idx
  have hec : 12288 * idx ≤ u.ec := by rw [hu]; exact (s.passTo_ec (12288 * idx)).symm ▸ le_max_right _ _
  have hstk (b : Nat) : u.stk b = s.stk b := by rw [hu]; exact s.stk_passTo _ b
  have hcount : u.frames = idx + 1 := by rw [hu]; rfl
  rw [← hu] at hexec
  clear hu
  have hframe := (touches_mapsTaken u).then_ ((touches_stacksSampled _ temps).then_ (touches_sampleDie _ hdie))
  have hframes : ((u.mapsTaken.stacksSampled temps).sampleDie die).frames = idx + 1 := by
    rw [frames_sampleDie _ hdie, frames_stacksSampled, frames_mapsTaken, hcount]
  have hall := hbegun.then_ hframe
  refine ⟨_, hexec, hframes, by rw [hframes, hframe.ec]; exact hec, hall.file, hall.mem, fun b hb => ⟨fun hfloor => ?_, ?_⟩⟩
  · obtain ⟨hmap, hpend⟩ := stk_mapsTaken u hb (by rw [hstk, hfloor])
    obtain ⟨hmap', hpend'⟩ := map_stacksSampled u.mapsTaken temps b
    rw [hstk] at hmap
    rw [stk_sampleDie _ hdie]
    exact ⟨hmap'.trans hmap, hpend'.trans hpend⟩
  · rw [State.fld_of_reg (reg_sampleDie _ hdie (therm_off b).2.2)]
    exact temp_stacksSampled u.mapsTaken hlen htemps hb

end Sys2Proof.Machine

/-! # Refresh, scrub, remaps, slot maps, regions, trips and retraining

What the operations of a stack's controller leave of its state and of its registers. -/

namespace Sys2Proof.Machine

-- One theorem after another, as in the tests: side by side their stacks ask for more memory than the check allows.
set_option Elab.async false

/-! ## Scrub visits (R290, R291, R498) -/

section

variable (s : State) (b c : Nat)

theorem touches_scrubNext : Touches [] s (s.scrubNext b c) := touches_updStk s b _

theorem scrub_scrubNext : SMap.get (fun _ => 0) ((s.scrubNext b c).stk b).scrub c = SMap.get (fun _ => 0) (s.stk b).scrub c + 1 := by
  rw [State.scrubNext, State.stk_updStk_same]
  exact SMap.get_set_same _ _ _ _

theorem touches_weakRow (row pass : Nat) : Touches [.regs, .host] s (s.weakRow b row pass) := by
  unfold State.weakRow
  extract_lets seen s1
  have h : Touches [] s s1 := touches_updStk s b _
  refine Touches.ite (fun _ => ?_) fun _ => h.mono (by decide)
  exact (h.then_ ((touches_bump _ _ _).then_ (touches_wantRemap _ _ _))).mono (by decide)

theorem touches_scrubFind (addr pass n : Nat) : Touches [.regs, .host] s (s.scrubFind b c addr pass n) := by
  have hdraw : Touches [] s (if (if (s.regionAt b addr).2 then 7 else 5) < n then s.draw else (0, s)).2 :=
    Touches.ite_snd (fun _ => touches_draw s) fun _ => Touches.refl _ s
  unfold State.scrubFind
  dsimp only
  generalize (if (if (s.regionAt b addr).2 = true then 7 else 5) < n then s.draw else (0, s)) = d at hdraw ⊢
  refine Touches.ite (fun _ => ?_) fun _ => Touches.ite (fun _ => ?_) fun _ => ?_
  · exact (hdraw.then_ (touches_scrubNext _ b c)).mono (by decide)
  · exact (hdraw.then_ ((touches_uncorrectable _ b addr 1 _).then_ (touches_scrubNext _ b c))).mono (by decide)
  · exact (hdraw.then_ ((touches_corrected _ b addr).then_ ((touches_weakRow _ b _ pass).then_ (touches_updStk _ b _)))).mono (by decide)

theorem touches_scrubSpare (k n : Nat) : Touches [.regs, .host] s (s.scrubSpare b c k n) := by
  unfold State.scrubSpare
  refine Touches.ite (fun _ => (touches_scrubNext s b c).mono (by decide)) fun _ => Touches.ite (fun _ => ?_) fun _ => ?_
  · exact ((touches_bump s _ _).then_ ((touches_setFld _ _ _ _).then_ (touches_updStk _ b _))).mono (by decide)
  · exact ((touches_draw s).then_ ((touches_bump _ _ _).then_ ((touches_setFld _ _ _ _).then_ ((touches_setReg _ _ _).then_
      ((touches_stackEvent _ b).then_ (touches_scrubNext _ b c)))))).mono (by decide)

theorem scrubFind_clean (addr pass : Nat) : s.scrubFind b c addr pass 0 = s.scrubNext b c := by
  unfold State.scrubFind
  simp

theorem scrubSpare_clean (k : Nat) : s.scrubSpare b c k 0 = s.scrubNext b c := by
  unfold State.scrubSpare
  exact if_pos rfl

/-- The bank a scrub window takes. -/
def State.scrubBusy (bank : Nat) : State :=
  s.updStk b fun y => { y with banks := y.banks ++ [(c, bank, scrubBegan (s.stk b).map c s.ec)] }

/-- A scrub window's visit to the next stroke of its channel (R290): what it writes back or finds there. -/
def State.scrubVisit (errs : Nat) : State :=
  let y := s.stk b
  let k := SMap.get (fun _ => 0) y.scrub c
  let s1 := s.scrubBusy b c (scrubBank k)
  let fix := SMap.get (fun _ => false) y.scrubFix c
  match y.scrubAddr c k with
  | some addr =>
    if fix then (s1.setErrs (stackBase b / 512 + addr) 0).scrubNext b c
    else (s1.setErrs (stackBase b / 512 + addr) errs).scrubFind b c addr (k / scrubPass) errs
  | none => if fix then s1.scrubNext b c else s1.scrubSpare b c k errs

theorem touches_scrubVisit (errs : Nat) : Touches [.regs, .host] s (s.scrubVisit b c errs) := by
  unfold State.scrubVisit
  extract_lets y k s1 fix
  have h : Touches [] s s1 := touches_updStk s b _
  split
  · exact Touches.ite (fun _ => (h.then_ ((touches_setErrs _ _ _).then_ (touches_scrubNext _ b c))).mono (by decide))
      fun _ => (h.then_ ((touches_setErrs _ _ _).then_ (touches_scrubFind _ b c _ _ errs))).mono (by decide)
  · exact Touches.ite (fun _ => (h.then_ (touches_scrubNext _ b c)).mono (by decide))
      fun _ => (h.then_ (touches_scrubSpare _ b c _ errs)).mono (by decide)

/-- A visit that finds no error moves on. -/
theorem scrub_scrubVisit : SMap.get (fun _ => 0) ((s.scrubVisit b c 0).stk b).scrub c = SMap.get (fun _ => 0) (s.stk b).scrub c + 1 := by
  have hbusy (bank : Nat) : ((s.scrubBusy b c bank).stk b).scrub = (s.stk b).scrub := by
    rw [State.scrubBusy, State.stk_updStk_same]
  have hnext (u : State) (h : (u.stk b).scrub = (s.stk b).scrub) :
      SMap.get (fun _ => 0) ((u.scrubNext b c).stk b).scrub c = SMap.get (fun _ => 0) (s.stk b).scrub c + 1 := by
    rw [scrub_scrubNext, h]
  unfold State.scrubVisit
  extract_lets y k s1 fix
  rw [scrubSpare_clean]
  split
  · rw [scrubFind_clean, ite_self]
    exact hnext _ (hbusy _)
  · rw [ite_self]
    exact hnext _ (hbusy _)

variable {s b c} (hb : b < 16) (hc : c < 128)

include hb hc

/-- A scrub window by its stack: none where the map has none or the stack sleeps, a window of a remap, one that a near-bank operation
holds, or a visit. -/
theorem exec_scrubWindow (errs : Nat) : exec (.scrubWindow b c errs) s = .next (
    if mapSn (s.stk b).map = 0 ∨ s.asleep b then s
    else
      match (s.stk b).remapping.findIdx? fun r => r.1 % 128 == c && decide (r.2 < 4)
          && (decide (r.2 ≠ 0) || decide (s.fld Reg.pwrStatus Reg.pwrStatus_BRAKE = 0)) with
      | some i =>
        let r := (s.stk b).remapping.getD i (0, 0)
        (s.setStk b { s.stk b with remapping := putAt (s.stk b).remapping i (r.1, r.2 + 1) }).updStk b fun y =>
          { y with banks := y.banks ++ [(c, r.1 / 128 % 32, scrubBegan (s.stk b).map c s.ec)] }
      | none =>
        if (s.stk b).nbRun.any (fun op => op.holds (scrubBank (SMap.get (fun _ => 0) (s.stk b).scrub c)) &&
          decide (s.ec < op.endOn (s.stk b).map c)) then s
        else s.scrubVisit b c errs) := by
  have hexec : exec (.scrubWindow b c errs) s = execScrubWindow b c errs s := rfl
  rw [hexec, execScrubWindow, guarded_next _ _ (by simp [hb, hc])]
  dsimp only
  rfl

/-- A scrub window changes the registers of its stack and the event log at most. -/
theorem scrubWindow_leaves (errs : Nat) : ∃ t, exec (.scrubWindow b c errs) s = .next t ∧ SameRegisters s t ∧ t.mem = s.mem := by
  rw [exec_scrubWindow hb hc]
  suffices h : ∃ t, _ ∧ Touches [.regs, .host] s t from h.imp fun t ht => ⟨ht.1, ht.2.file, ht.2.mem⟩
  refine ⟨_, rfl, Touches.ite (fun _ => Touches.refl _ s) fun _ => ?_⟩
  split
  · exact ((touches_setStk s b _).then_ (touches_updStk _ b _)).mono (by decide)
  · exact Touches.ite (fun _ => Touches.refl _ s) fun _ => touches_scrubVisit s b c errs

/-- A scrub window with no remap begun and no near-bank operation running visits the next stroke of its channel. -/
theorem scrubWindow_visits (errs : Nat) (hsn : mapSn (s.stk b).map ≠ 0) (hawake : s.asleep b = false) (hnone : (s.stk b).remapping = [])
    (hrun : (s.stk b).nbRun = none) : exec (.scrubWindow b c errs) s = .next (s.scrubVisit b c errs) := by
  rw [exec_scrubWindow hb hc, if_neg (by simp [hsn, hawake]), hnone, hrun]
  rfl

end

/-! ## Rows remapped (R292) -/

section

variable (s : State) (b row : Nat)

/-- A row on its next spare row: where it stands, what waits, what its register shows, and what the repair record will get. -/
theorem remapRow_remaps :
    let t := s.remapRow b row
    SMap.get (fun _ => 0) (t.stk b).remap row = (s.stk b).usedIn row + 1 ∧
      (t.stk b).remapping = (s.stk b).remapping.filter (·.1 != row) ∧
      t.fld (Reg.bayStkRemap b) Reg.bayStkRemap_REMAPEV = 1 ∧
      t.repairDue = s.repairDue ++ [⟨2, b, row, (s.stk b).usedIn row + 1⟩] ∧ Touches [.regs] s t := by
  intro t
  unfold t State.remapRow
  extract_lets y used r s1 s2 s3
  have hstk : ((s3.setFld r Reg.bayStkRemap_REMAPEV 1).repairNote ⟨2, b, row, used + 1⟩).stk b = s1.stk b := State.stk_congr rfl b
  have hstk1 : s1.stk b = _ := State.stk_setStk s b b _
  rw [if_pos rfl] at hstk1
  have htouch : Touches [.regs] s s3 :=
    ((touches_setStk s b _).then_ ((touches_setFld _ _ _ _).then_ (touches_setFld _ _ _ _))).mono (by decide)
  rw [hstk, hstk1]
  refine ⟨SMap.get_set_same _ _ _ _, rfl, ?_, rfl,
    (htouch.then_ ((touches_setFld _ _ _ _).then_ (touches_repairNote _ _))).mono (by decide)⟩
  exact ((touches_repairNote _ _).fld _ _).trans (State.fld_setFld_same _ _ _ _ (by decide))

end

section

variable {b : Nat} (hb : b < 16) (s : State)

include hb

theorem exec_rowRemapCommit : exec (.rowRemapCommit b) s = .next (
    match (s.stk b).remapping.find? fun r => r.2 == 4 || mapSn (s.stk b).map == 0 with
    | some r => (s.remapRow b r.1).quieten b
    | none => s) :=
  (show exec (.rowRemapCommit b) s = execRowRemapCommit b s from rfl).trans (guarded_next _ _ (decide_eq_true hb))

/-- The row that has had its windows stands on its next spare row. -/
theorem rowRemapCommit_remaps {r : Nat × Nat} (h : (s.stk b).remapping.find? (fun r => r.2 == 4 || mapSn (s.stk b).map == 0) = some r) :
    ∃ t, exec (.rowRemapCommit b) s = .next t ∧ SMap.get (fun _ => 0) (t.stk b).remap r.1 = (s.stk b).usedIn r.1 + 1 ∧
      (t.stk b).remapping = (s.stk b).remapping.filter (·.1 != r.1) ∧ t.fld (Reg.bayStkRemap b) Reg.bayStkRemap_REMAPEV = 1 ∧
      t.repairDue = s.repairDue ++ [⟨2, b, r.1, (s.stk b).usedIn r.1 + 1⟩] ∧ SameRegisters s t ∧ t.mem = s.mem := by
  have hexec := exec_rowRemapCommit hb s
  rw [h] at hexec
  dsimp only at hexec
  obtain ⟨hrow, hwait, hevent, hnote, htouch⟩ := remapRow_remaps s b r.1
  have hquiet := touches_quieten (s.remapRow b r.1) b
  have hall := htouch.then_ hquiet
  refine ⟨_, hexec, ?_, ?_, (hquiet.fld _ _).trans hevent, ?_, hall.file, hall.mem⟩
  · rw [stk_quieten, hrow]
  · rw [stk_quieten, hwait]
  · rw [State.quieten_repairDue, hnote]

theorem rowRemapCommit_none (h : (s.stk b).remapping = []) : exec (.rowRemapCommit b) s = .next s := by
  rw [exec_rowRemapCommit hb, h]
  rfl

end

/-! ## Refresh windows (R280, R515) -/

section

variable {b c : Nat} (hb : b < 16) (hc : c < 128) (s : State) (ok : Bool)

include hb hc

theorem exec_refreshWindow : exec (.refreshWindow b c ok) s = .next (if s.asleep b then s else s.updStk b fun y =>
    { y with refresh := SMap.set (fun _ => 0) y.refresh c ((SMap.get (fun _ => 0) y.refresh c + 4) % 20544)
             badTiming := y.badTiming || !ok }) :=
  (show exec (.refreshWindow b c ok) s = execRefreshWindow b c ok s from rfl).trans (guarded_next _ _ (by simp [hb, hc]))

/-- A refresh window refreshes four rows of every bank of its channel, and a re-centring that fails is remembered. -/
theorem refreshWindow_refreshes (hawake : s.asleep b = false) : ∃ t, exec (.refreshWindow b c ok) s = .next t ∧
    SMap.get (fun _ => 0) (t.stk b).refresh c = (SMap.get (fun _ => 0) (s.stk b).refresh c + 4) % 20544 ∧
    (t.stk b).badTiming = ((s.stk b).badTiming || !ok) ∧ t.regs = s.regs ∧ SameRegisters s t ∧ t.mem = s.mem := by
  have hexec := exec_refreshWindow hb hc s ok
  rw [if_neg (by simp [hawake])] at hexec
  refine ⟨_, hexec, ?_, ?_, rfl, ⟨rfl, rfl, rfl, rfl⟩, rfl⟩
  · rw [State.stk_updStk_same]
    exact SMap.get_set_same _ _ _ _
  · rw [State.stk_updStk_same]

end

/-! ## Slot maps and regions written (R281, R289, R501) -/

section

theorem stk_setReg (s : State) (o : Nat) (v : Word) (b : Nat) : (s.setReg o v).stk b = s.stk b := State.stk_congr rfl b

variable {b : Nat} (hb : b < 16) (s : State) (v : Word)

include hb

theorem exec_baySlotmapWrite : exec (.baySlotmapWrite b v) s = .next (s.writeMap b v.toNat) :=
  (show exec (.baySlotmapWrite b v) s = execBaySlotmapWrite b v s from rfl).trans (guarded_next _ _ (decide_eq_true hb))

/-- A slot map that breaks the rules or the floors is refused. -/
theorem slotMap_refused (h : mapBad (mapFields v.toNat) = true ∨ s.belowFloors b (mapFields v.toNat) = true) :
    exec (.baySlotmapWrite b v) s = .next (s.setFld (Reg.bayStkMaperr b) Reg.bayStkMaperr_MAPBAD 1) := by
  rw [exec_baySlotmapWrite hb, State.writeMap]
  exact congrArg _ (if_pos (by simpa using h))

/-- Any other waits for the next frame start. -/
theorem slotMap_taken (hrules : mapBad (mapFields v.toNat) = false) (hfloors : s.belowFloors b (mapFields v.toNat) = false) :
    ∃ t, exec (.baySlotmapWrite b v) s = .next t ∧ t.reg (Reg.baySlotmap b) = BitVec.ofNat 64 (mapFields v.toNat) ∧
      (t.stk b).pendMap = some (mapFields v.toNat) ∧ (t.stk b).map = (s.stk b).map := by
  have hexec := exec_baySlotmapWrite hb s v
  rw [State.writeMap, if_neg (by simp [hrules, hfloors])] at hexec
  refine ⟨_, hexec, ((touches_updStk _ b _).reg _).trans (State.reg_setReg_same _ _ _), ?_, ?_⟩
  · rw [State.stk_updStk_same]
  · rw [State.stk_updStk_same]
    show StackX.map ((s.setReg _ _).stk b) = _
    rw [stk_setReg]

variable {n : Nat} (hn : n < 16)

include hn

/-- A region by the three things that refuse it: another valid region it meets, the portfolio table, and CLEAR in confidential mode. -/
theorem exec_bayRegionWrite : exec (.bayRegionWrite b n v) s = .next (
    if bitOf v.toNat 63 = true ∧ (∃ k < 16, k ≠ n ∧ s.fld (Reg.bayRegion b k) Reg.bayRegion_VALID = 1 ∧
          rangesMeet (bitsOf v.toNat 0 20) (bitsOf v.toNat 20 20) (s.fld (Reg.bayRegion b k) Reg.bayRegion_BASE)
            (s.fld (Reg.bayRegion b k) Reg.bayRegion_LEN) = true) ∨
        bitOf v.toNat 63 = true ∧ pfTop < 256 * (bitsOf v.toNat 0 20 + bitsOf v.toNat 20 20) ∨ s.conf = true ∧ bitOf v.toNat 40 = true
    then s.setFld (Reg.bayStkMaperr b) Reg.bayStkMaperr_REGBAD 1
    else s.setReg (Reg.bayRegion b n) (BitVec.ofNat 64 (bitsOf v.toNat 0 42 + bitsOf v.toNat 63 1 * 2 ^ 63))) := by
  have hexec : exec (.bayRegionWrite b n v) s = execBayRegionWrite b n v s := rfl
  rw [hexec, execBayRegionWrite, guarded_next _ _ (by simp [hb, hn]), State.writeRegion]
  congr 1
  refine if_congr ?_ rfl rfl
  simp [or_assoc, and_assoc]

end

/-! ## Self-refresh: a trip and retraining (R296, R306, R515) -/

section

variable (s : State) (b : Nat)

/-- The near-bank operations cancelled complete on their easels. -/
theorem touches_nbCancel : Touches [.file, .easels, .regs, .bays] s (s.nbCancel b) := by
  have hend : Touches [.file, .easels, .regs, .bays] s ((s.stk b).nbQ.foldl (fun u op =>
      match u.entry op.x op.entry with
      | some o => if o.kind = .nb then u.finish op.x o (compWord cUnavailable 0 0) else u
      | none => u) s) := by
    refine Touches.foldl (fun u op => ?_) _ _
    split
    · exact Touches.ite (fun _ => touches_finish u _ _ _) fun _ => Touches.refl _ u
    · exact Touches.refl _ u
  exact (hend.then_ ((touches_updStk _ b _).then_ (touches_setFld _ _ _ _))).mono (by decide)

/-- A stack drained: its near-bank operations cancelled, its page buffer written back (R306, R515). -/
def State.stackDrained : State := (s.nbCancel b).pbDrain b

theorem touches_stackDrained : Touches [.file, .easels, .regs, .bays] s (s.stackDrained b) :=
  ((touches_nbCancel s b).then_ ((touches_updStk _ b _).then_ (touches_setFld _ _ _ _))).mono (by decide)

theorem stk_stackDrained : ((s.stackDrained b).stk b).nbQ = [] ∧ ((s.stackDrained b).stk b).pb = [] := by
  unfold State.stackDrained State.pbDrain
  rw [State.stk_setFld, State.stk_updStk_same]
  refine ⟨?_, rfl⟩
  unfold State.nbCancel
  extract_lets s1
  show ((State.setFld _ _ _ _).stk b).nbQ = []
  rw [State.stk_setFld, State.stk_updStk_same]

/-- SELFREF and another bit of BAY.STK.STATUS as they are set. -/
theorem selfRef_shows {f : Fld} {n m : Nat} (hn : n < 2) (hm : m < 2) (hf : f = Reg.bayStkStatus_TRAIN ∨ f = Reg.bayStkStatus_TRIP) :
    let t := (s.setFld (Reg.bayStkStatus b) Reg.bayStkStatus_SELFREF n).setFld (Reg.bayStkStatus b) f m
    t.fld (Reg.bayStkStatus b) Reg.bayStkStatus_SELFREF = n ∧ t.fld (Reg.bayStkStatus b) f = m := by
  have hapart : f.lo + f.w ≤ 64 ∧ f.w = 1 ∧ (f.lo + f.w ≤ Reg.bayStkStatus_SELFREF.lo ∨
      Reg.bayStkStatus_SELFREF.lo + Reg.bayStkStatus_SELFREF.w ≤ f.lo) := by
    rcases hf with rfl | rfl <;> decide
  obtain ⟨hend, hw, hother⟩ := hapart
  intro t
  constructor
  · rw [State.fld_setFld_apart _ _ _ _ _ hend hother, State.fld_setFld_same _ _ _ _ (by decide)]
    exact Nat.mod_eq_of_lt hn
  · rw [State.fld_setFld_same _ _ _ _ hend, hw, pow_one, Nat.mod_eq_of_lt hm]

/-- A stack that has tripped: in self-refresh, in TRIP, and not ready (R296). -/
def State.tripped : State :=
  ((((((s.stackDrained b).updStk b fun y => { y with tripping := false }).setFld (Reg.bayStkStatus b) Reg.bayStkStatus_SELFREF 1).setFld
    (Reg.bayStkStatus b) Reg.bayStkStatus_TRIP 1).setFld (Reg.bayStkTherm b) Reg.bayStkTherm_TRIPEV 1).setStackReady b false).showAlarm

theorem tripped_shows : (s.tripped b).fld (Reg.bayStkStatus b) Reg.bayStkStatus_SELFREF = 1 ∧
    (s.tripped b).fld (Reg.bayStkStatus b) Reg.bayStkStatus_TRIP = 1 ∧ (s.tripped b).stackUp b = false ∧
    ((s.tripped b).stk b).tripping = false ∧ ((s.tripped b).stk b).pb = [] ∧ ((s.tripped b).stk b).nbQ = [] ∧
    (s.tripped b).mem = s.mem := by
  have hdrained := touches_stackDrained s b
  obtain ⟨hq, hpb⟩ := stk_stackDrained s b
  unfold State.tripped
  generalize s.stackDrained b = d at hdrained hq hpb ⊢
  obtain ⟨hself, htrip⟩ := selfRef_shows (d.updStk b fun y => { y with tripping := false }) b (n := 1) (m := 1) (by decide) (by decide)
    (Or.inr rfl)
  have hstk : (((d.updStk b fun y => { y with tripping := false }).setFld (Reg.bayStkStatus b) Reg.bayStkStatus_SELFREF 1).setFld
      (Reg.bayStkStatus b) Reg.bayStkStatus_TRIP 1).stk b = { d.stk b with tripping := false } := by
    rw [State.stk_setFld, State.stk_setFld, State.stk_updStk_same]
  have htouch := (touches_updStk d b fun y => { y with tripping := false }).then_ ((touches_setFld _ (Reg.bayStkStatus b)
    Reg.bayStkStatus_SELFREF 1).then_ (touches_setFld _ (Reg.bayStkStatus b) Reg.bayStkStatus_TRIP 1))
  generalize (State.setFld _ _ _ _).setFld (Reg.bayStkStatus b) Reg.bayStkStatus_TRIP 1 = u at hself htrip hstk htouch ⊢
  have halarm := touches_showAlarm ((u.setFld (Reg.bayStkTherm b) Reg.bayStkTherm_TRIPEV 1).setStackReady b false)
  have hready := (touches_setFld u (Reg.bayStkTherm b) Reg.bayStkTherm_TRIPEV 1).then_ (touches_setStackReady _ b false)
  have hfld (f : Fld) (hf : 1 ≤ f.lo) : ((u.setFld (Reg.bayStkTherm b) Reg.bayStkTherm_TRIPEV 1).setStackReady b false).showAlarm.fld
      (Reg.bayStkStatus b) f = u.fld (Reg.bayStkStatus b) f :=
    (halarm.fld _ _).trans ((fld_setStackReady _ b false hf).trans (State.fld_setFld_ne _ _ _ _ (status_off b).2.2))
  refine ⟨(hfld _ (by decide)).trans hself, (hfld _ (by decide)).trans htrip, ?_, ?_⟩
  · rw [State.stackUp, halarm.fld]
    exact stackUp_setStackReady _ b false
  · rw [stk_showAlarm, stk_setStackReady, State.stk_setFld, hstk]
    exact ⟨rfl, hpb, hq, halarm.mem.trans (hready.mem.trans (htouch.mem.trans hdrained.mem))⟩

/-- A stack in self-refresh from frame start `f` to be trained again, ready 12,800 gc later (R515). -/
def State.retraining (f : Nat) : State :=
  (((((s.passTo (96 * f)).stackDrained b).updStk b fun y => { y with badTiming := false, readyAt := some (f + 12800) }).setFld
    (Reg.bayStkStatus b) Reg.bayStkStatus_SELFREF 1).setFld (Reg.bayStkStatus b) Reg.bayStkStatus_TRAIN 1).setStackReady b false

theorem retraining_shows (f : Nat) : (s.retraining b f).fld (Reg.bayStkStatus b) Reg.bayStkStatus_SELFREF = 1 ∧
    (s.retraining b f).fld (Reg.bayStkStatus b) Reg.bayStkStatus_TRAIN = 1 ∧ (s.retraining b f).stackUp b = false ∧
    ((s.retraining b f).stk b).readyAt = some (f + 12800) ∧ (s.retraining b f).mem = s.mem := by
  have hdrained := (touches_passTo s (96 * f)).then_ (touches_stackDrained _ b)
  unfold State.retraining
  generalize (s.passTo (96 * f)).stackDrained b = d at hdrained ⊢
  obtain ⟨u, hu⟩ : ∃ u, u = d.updStk b fun y => { y with badTiming := false, readyAt := some (f + 12800) } := ⟨_, rfl⟩
  have hstk : (u.stk b).readyAt = some (f + 12800) := by rw [hu, State.stk_updStk_same]
  have hmem : u.mem = d.mem := by rw [hu]; rfl
  rw [← hu]
  obtain ⟨hself, htrain⟩ := selfRef_shows u b (n := 1) (m := 1) (by decide) (by decide) (Or.inl rfl)
  have hready := (touches_setFld u (Reg.bayStkStatus b) Reg.bayStkStatus_SELFREF 1).then_ ((touches_setFld _ (Reg.bayStkStatus b)
    Reg.bayStkStatus_TRAIN 1).then_ (touches_setStackReady _ b false))
  refine ⟨(fld_setStackReady _ b false (by decide)).trans hself, (fld_setStackReady _ b false (by decide)).trans htrain,
    stackUp_setStackReady _ b false, ?_, hready.mem.trans (hmem.trans hdrained.mem)⟩
  rw [stk_setStackReady, State.stk_setFld, State.stk_setFld, hstk]

/-- A stack trained again: out of self-refresh and ready at ground cycle `g` (R515). -/
def State.retrained (g : Nat) : State :=
  ((((((s.passTo (96 * g)).updStk b fun y => { y with readyAt := none }).quieten b).setFld (Reg.bayStkStatus b)
    Reg.bayStkStatus_SELFREF 0).setFld (Reg.bayStkStatus b) Reg.bayStkStatus_TRAIN 0).setStackReady b true)

theorem retrained_shows (g : Nat) : (s.retrained b g).fld (Reg.bayStkStatus b) Reg.bayStkStatus_SELFREF = 0 ∧
    (s.retrained b g).fld (Reg.bayStkStatus b) Reg.bayStkStatus_TRAIN = 0 ∧ (s.retrained b g).stackUp b = true ∧
    g ≤ (s.retrained b g).gc ∧ SameRegisters s (s.retrained b g) ∧ (s.retrained b g).mem = s.mem := by
  have htime := touches_passTo s (96 * g)
  have hgc := s.le_gc_passTo g
  unfold State.retrained
  generalize s.passTo (96 * g) = d at htime hgc ⊢
  have hready := (touches_updStk d b fun y => { y with readyAt := none }).then_ ((touches_quieten _ b).then_ ((touches_setFld _
    (Reg.bayStkStatus b) Reg.bayStkStatus_SELFREF 0).then_ ((touches_setFld _ (Reg.bayStkStatus b) Reg.bayStkStatus_TRAIN 0).then_
      (touches_setStackReady _ b true))))
  obtain ⟨hself, htrain⟩ := selfRef_shows ((d.updStk b fun y => { y with readyAt := none }).quieten b) b (n := 0) (m := 0) (by decide)
    (by decide) (Or.inl rfl)
  have hall := htime.then_ hready
  exact ⟨(fld_setStackReady _ b true (by decide)).trans hself, (fld_setStackReady _ b true (by decide)).trans htrain,
    stackUp_setStackReady _ b true, hgc.trans_eq hready.gc.symm, hall.file, hall.mem⟩

variable {s b} (hb : b < 16)

include hb

theorem exec_stackTripSelfref : exec (.stackTripSelfref b) s =
    .next (if (s.stk b).tripping && (s.stk b).nbRun.isNone then s.tripped b else s) :=
  (show exec (.stackTripSelfref b) s = execStackTripSelfref b s from rfl).trans (guarded_next _ _ (decide_eq_true hb))

theorem exec_stackRetrain : exec (.stackRetrain b) s =
    .next (if (s.stk b).badTiming && (s.stk b).nbRun.isNone && s.stackUp b then s.retraining b (frameAfter (ceilDiv s.ec 96)) else s) :=
  (show exec (.stackRetrain b) s = execStackRetrain b s from rfl).trans (guarded_next _ _ (decide_eq_true hb))

theorem exec_stackRetrainDone {g : Nat} (hg : (s.stk b).readyAt = some g) : exec (.stackRetrainDone b) s =
    .next (if s.fld (Reg.bayStkStatus b) Reg.bayStkStatus_TRAIN = 1 ∧ s.fld (Reg.bayStkStatus b) Reg.bayStkStatus_SELFREF = 1 then
      s.retrained b g else s) := by
  have hexec : exec (.stackRetrainDone b) s = execStackRetrainDone b s := rfl
  rw [hexec, execStackRetrainDone, guarded_next _ _ (decide_eq_true hb)]
  dsimp only
  rw [hg]
  rfl

end

/-! ## The obligation -/

/-- Settles O34: the frame start by its three stages, each operation of a stack's controller by its branches. -/
theorem stacksRefreshScrubRemapAndRetrain : Obligations.StacksRefreshScrubRemapAndRetrain := by
  refine ⟨fun temps die s hlen htemps hdie hcrystal hphase hrelock hact hback =>
    frame_starts hlen htemps hdie hcrystal hphase hrelock hact hback, fun b s hb => ?_⟩
  intro st
  refine ⟨fun c ok hc => ⟨fun hasleep => ?_, refreshWindow_refreshes hb hc s ok⟩, fun c errs hc => ⟨scrubWindow_leaves hb hc errs,
    fun hstill => ?_, fun hsn hawake hnone hrun h0 => ?_⟩, fun r => rowRemapCommit_remaps hb s, rowRemapCommit_none hb s,
    fun v => ⟨slotMap_refused hb s v, slotMap_taken hb s v⟩, fun n v hn => ?_, fun htrip hrun => ?_, fun hquiet => ?_,
    fun hbad hrun hup => ?_, fun g hg htrain hself => ?_⟩
  · rw [exec_refreshWindow hb hc, if_pos hasleep]
  · rw [exec_scrubWindow hb hc, if_pos hstill]
  · subst h0
    exact ⟨_, scrubWindow_visits hb hc 0 hsn hawake hnone hrun, scrub_scrubVisit s b c⟩
  · have hexec := exec_bayRegionWrite hb s v hn
    refine ⟨fun hvalid hpf => ?_, fun hconf hclear => ?_, fun hvalid k hk hne hother hmeet => ?_, fun hinvalid hopen => ?_⟩
    · exact hexec.trans (congrArg _ (if_pos (Or.inr (Or.inl ⟨hvalid, hpf⟩))))
    · exact hexec.trans (congrArg _ (if_pos (Or.inr (Or.inr ⟨hconf, hclear⟩))))
    · exact hexec.trans (congrArg _ (if_pos (Or.inl ⟨hvalid, k, hk, hne, hother, hmeet⟩)))
    · exact hexec.trans (congrArg _ (if_neg (by simp [hinvalid, hopen])))
  · rw [exec_stackTripSelfref hb, if_pos (by simp [htrip, hrun])]
    exact ⟨_, rfl, tripped_shows s b⟩
  · rw [exec_stackTripSelfref hb, if_neg (by simp [hquiet])]
  · rw [exec_stackRetrain hb, if_pos (by simp [hbad, hrun, hup])]
    exact ⟨_, rfl, retraining_shows s b _⟩
  · rw [exec_stackRetrainDone hb hg, if_pos ⟨htrain, hself⟩]
    exact ⟨_, rfl, retrained_shows s b g⟩

end Sys2Proof.Machine
